-- ==== Sys2Proof/Syntax.lean ====
section
/-! DEFINITION. The instruction type: one constructor for each row of spec/opcode_table.json.

The first 144 rows are slot operations, with the fields of their words (Tables 3-2 to 3-13 of 03_encoding.md).
The guard comes first among the fields (R52); a slot class with more than one slot carries the slot as well.
`skip` is the idle header (R50).  The other rows are the device's own steps (95_what_each_step_holds.md): they have
no encoding, and their arguments say which unit acts or what comes in from outside. -/

namespace Sys2Proof

/-- The scalar slots, SA (0) and SB (1); R12. -/
inductive SSlot where
  | sa | sb
  deriving DecidableEq, Repr

/-- The vector slots, VA (2), VB (3) and VC (4); R12. -/
inductive VSlot where
  | va | vb | vc
  deriving DecidableEq, Repr

/-- The scratchpad slots, LA (9) and LB (10); R12. -/
inductive LSlot where
  | la | lb
  deriving DecidableEq, Repr

/-- Instructions and events; the comment after each constructor is its rule. -/
inductive Instr where
  /-- Integer add of two scalar registers. R321. -/
  | add (sl : SSlot) (g : BitVec 3) (d : BitVec 5) (a : BitVec 5) (b : BitVec 5)
  /-- Integer add of a scalar register and a signed 13-bit immediate. R321. -/
  | addImm (sl : SSlot) (g : BitVec 3) (d : BitVec 5) (a : BitVec 5) (i : BitVec 13)
  /-- Integer subtract of two scalar registers. R392. -/
  | sub (sl : SSlot) (g : BitVec 3) (d : BitVec 5) (a : BitVec 5) (b : BitVec 5)
  /-- Low 64 bits of a scalar product. R367. -/
  | mul (sl : SSlot) (g : BitVec 3) (d : BitVec 5) (a : BitVec 5) (b : BitVec 5)
  /-- High 64 bits of a signed or unsigned scalar product. R367. -/
  | mulh (sl : SSlot) (g : BitVec 3) (d : BitVec 5) (a : BitVec 5) (b : BitVec 5) (u : BitVec 1)
  /-- Signed or unsigned scalar divide, truncated toward zero. R339. -/
  | div (sl : SSlot) (g : BitVec 3) (d : BitVec 5) (a : BitVec 5) (b : BitVec 5) (u : BitVec 1)
  /-- Signed or unsigned scalar remainder. R377. -/
  | rem (sl : SSlot) (g : BitVec 3) (d : BitVec 5) (a : BitVec 5) (b : BitVec 5) (u : BitVec 1)
  /-- Bitwise and of two scalar registers. R323. -/
  | and (sl : SSlot) (g : BitVec 3) (d : BitVec 5) (a : BitVec 5) (b : BitVec 5)
  /-- Bitwise and of a scalar register and an immediate. R323. -/
  | andImm (sl : SSlot) (g : BitVec 3) (d : BitVec 5) (a : BitVec 5) (i : BitVec 13)
  /-- Bitwise or of two scalar registers. R368. -/
  | or (sl : SSlot) (g : BitVec 3) (d : BitVec 5) (a : BitVec 5) (b : BitVec 5)
  /-- Bitwise or of a scalar register and an immediate. R368. -/
  | orImm (sl : SSlot) (g : BitVec 3) (d : BitVec 5) (a : BitVec 5) (i : BitVec 13)
  /-- Bitwise exclusive or of two scalar registers. R420. -/
  | xor (sl : SSlot) (g : BitVec 3) (d : BitVec 5) (a : BitVec 5) (b : BitVec 5)
  /-- Bitwise exclusive or of a scalar register and an immediate. R420. -/
  | xorImm (sl : SSlot) (g : BitVec 3) (d : BitVec 5) (a : BitVec 5) (i : BitVec 13)
  /-- Scalar left shift by a register amount. R385. -/
  | shl (sl : SSlot) (g : BitVec 3) (d : BitVec 5) (a : BitVec 5) (b : BitVec 5)
  /-- Scalar left shift by an immediate amount. R385. -/
  | shlImm (sl : SSlot) (g : BitVec 3) (d : BitVec 5) (a : BitVec 5) (n : BitVec 6)
  /-- Scalar logical right shift by a register amount. R385. -/
  | shr (sl : SSlot) (g : BitVec 3) (d : BitVec 5) (a : BitVec 5) (b : BitVec 5)
  /-- Scalar logical right shift by an immediate amount. R385. -/
  | shrImm (sl : SSlot) (g : BitVec 3) (d : BitVec 5) (a : BitVec 5) (n : BitVec 6)
  /-- Scalar arithmetic right shift by a register amount. R385. -/
  | sra (sl : SSlot) (g : BitVec 3) (d : BitVec 5) (a : BitVec 5) (b : BitVec 5)
  /-- Scalar arithmetic right shift by an immediate amount. R385. -/
  | sraImm (sl : SSlot) (g : BitVec 3) (d : BitVec 5) (a : BitVec 5) (n : BitVec 6)
  /-- Signed or unsigned scalar minimum. R365. -/
  | min (sl : SSlot) (g : BitVec 3) (d : BitVec 5) (a : BitVec 5) (b : BitVec 5) (u : BitVec 1)
  /-- Signed or unsigned scalar maximum. R365. -/
  | max (sl : SSlot) (g : BitVec 3) (d : BitVec 5) (a : BitVec 5) (b : BitVec 5) (u : BitVec 1)
  /-- Scalar compare giving 1/0 or a three-way result. R334. -/
  | cmp (sl : SSlot) (g : BitVec 3) (d : BitVec 5) (a : BitVec 5) (b : BitVec 5) (c : BitVec 3)
  /-- Signed three-way compare against an immediate. R334. -/
  | cmpImm (sl : SSlot) (g : BitVec 3) (d : BitVec 5) (a : BitVec 5) (i : BitVec 13)
  /-- Select one of two scalar registers by a condition register. R382. -/
  | sel (sl : SSlot) (g : BitVec 3) (d : BitVec 5) (a : BitVec 5) (b : BitVec 5) (c : BitVec 5)
  /-- Load a sign-extended 32-bit immediate from the extension word. R360. -/
  | li (sl : SSlot) (g : BitVec 3) (d : BitVec 5) (e : BitVec 32)
  /-- Load a 32-bit immediate into the high half, keeping the low half. R360. -/
  | lih (sl : SSlot) (g : BitVec 3) (d : BitVec 5) (e : BitVec 32)
  /-- Extract a bit field. R328. -/
  | bfx (sl : SSlot) (g : BitVec 3) (d : BitVec 5) (a : BitVec 5) (w : BitVec 7) (o : BitVec 6)
  /-- Insert a bit field. R328. -/
  | bfi (sl : SSlot) (g : BitVec 3) (d : BitVec 5) (a : BitVec 5) (w : BitVec 7) (o : BitVec 6)
  /-- Count leading zero bits. R333. -/
  | clz (sl : SSlot) (g : BitVec 3) (d : BitVec 5) (a : BitVec 5)
  /-- Count set bits. R373. -/
  | popc (sl : SSlot) (g : BitVec 3) (d : BitVec 5) (a : BitVec 5)
  /-- Copy a register of the slot's own file into x, y or c. R335. -/
  | cpy (sl : SSlot) (g : BitVec 3) (d : BitVec 5) (a : BitVec 5) (f : BitVec 3)
  /-- Copy a common register into x or y through a read port. R335. -/
  | cpyCommon (sl : SSlot) (g : BitVec 3) (d : BitVec 5) (a : BitVec 5) (p : BitVec 2) (f : BitVec 3)
  /-- Element-wise vector add. R398. -/
  | vadd (sl : VSlot) (g : BitVec 3) (d : BitVec 4) (a : BitVec 4) (b : BitVec 4) (k : BitVec 3) (t : BitVec 4)
  /-- Element-wise vector subtract. R398. -/
  | vsub (sl : VSlot) (g : BitVec 3) (d : BitVec 4) (a : BitVec 4) (b : BitVec 4) (k : BitVec 3) (t : BitVec 4)
  /-- Element-wise vector multiply. R398. -/
  | vmul (sl : VSlot) (g : BitVec 3) (d : BitVec 4) (a : BitVec 4) (b : BitVec 4) (k : BitVec 3) (t : BitVec 4)
  /-- Element-wise fused multiply-add into the destination. R398. -/
  | vmad (sl : VSlot) (g : BitVec 3) (d : BitVec 4) (a : BitVec 4) (b : BitVec 4) (k : BitVec 3) (t : BitVec 4)
  /-- Element-wise vector minimum. R398. -/
  | vmin (sl : VSlot) (g : BitVec 3) (d : BitVec 4) (a : BitVec 4) (b : BitVec 4) (k : BitVec 3) (t : BitVec 4)
  /-- Element-wise vector maximum. R398. -/
  | vmax (sl : VSlot) (g : BitVec 3) (d : BitVec 4) (a : BitVec 4) (b : BitVec 4) (k : BitVec 3) (t : BitVec 4)
  /-- Element-wise absolute value. R398. -/
  | vabs (sl : VSlot) (g : BitVec 3) (d : BitVec 4) (a : BitVec 4) (k : BitVec 3) (t : BitVec 4)
  /-- Element-wise bitwise and. R399. -/
  | vand (sl : VSlot) (g : BitVec 3) (d : BitVec 4) (a : BitVec 4) (b : BitVec 4) (k : BitVec 3) (t : BitVec 4)
  /-- Element-wise bitwise or. R399. -/
  | vor (sl : VSlot) (g : BitVec 3) (d : BitVec 4) (a : BitVec 4) (b : BitVec 4) (k : BitVec 3) (t : BitVec 4)
  /-- Element-wise bitwise exclusive or. R399. -/
  | vxor (sl : VSlot) (g : BitVec 3) (d : BitVec 4) (a : BitVec 4) (b : BitVec 4) (k : BitVec 3) (t : BitVec 4)
  /-- Element-wise left shift. R411. -/
  | vshl (sl : VSlot) (g : BitVec 3) (d : BitVec 4) (a : BitVec 4) (b : BitVec 4) (k : BitVec 3) (t : BitVec 4)
  /-- Element-wise logical or arithmetic right shift. R411. -/
  | vshr (sl : VSlot) (g : BitVec 3) (d : BitVec 4) (a : BitVec 4) (b : BitVec 4) (k : BitVec 3) (t : BitVec 4)
  /-- Element-wise compare writing a predicate. R401. -/
  | vcmp (sl : VSlot) (g : BitVec 3) (d : BitVec 3) (a : BitVec 4) (b : BitVec 4) (c : BitVec 4) (k : BitVec 3) (t : BitVec 4)
  /-- Select elements of two vectors by a predicate. R410. -/
  | vsel (sl : VSlot) (g : BitVec 3) (d : BitVec 4) (a : BitVec 4) (b : BitVec 4) (k : BitVec 3) (t : BitVec 4)
  /-- Reduce active elements by a fixed pairwise tree. R409. -/
  | vred (sl : VSlot) (g : BitVec 3) (d : BitVec 4) (a : BitVec 4) (c : BitVec 4) (k : BitVec 3) (t : BitVec 4)
  /-- Inclusive prefix scan of active elements. R409. -/
  | vscan (sl : VSlot) (g : BitVec 3) (d : BitVec 4) (a : BitVec 4) (c : BitVec 4) (k : BitVec 3) (t : BitVec 4)
  /-- Histogram of active index elements. R404. -/
  | vhist (sl : VSlot) (g : BitVec 3) (d : BitVec 4) (a : BitVec 4) (k : BitVec 3) (t : BitVec 4)
  /-- Largest k active elements with their indices. R412. -/
  | vtopk (sl : VSlot) (g : BitVec 3) (d : BitVec 4) (a : BitVec 4) (c : BitVec 4) (k : BitVec 3) (t : BitVec 4)
  /-- Convert elements between types. R403. -/
  | vcvt (sl : VSlot) (g : BitVec 3) (d : BitVec 4) (a : BitVec 4) (s : BitVec 4) (k : BitVec 3) (t : BitVec 4)
  /-- Broadcast a common register into every active element. R400. -/
  | vbcast (sl : VSlot) (g : BitVec 3) (d : BitVec 4) (r : BitVec 5) (p : BitVec 2) (k : BitVec 3) (t : BitVec 4)
  /-- Move a vector register into another file. R406. -/
  | vmov (sl : VSlot) (g : BitVec 3) (d : BitVec 4) (a : BitVec 4) (f : BitVec 4) (k : BitVec 3) (t : BitVec 4)
  /-- Logic operation on predicates. R405. -/
  | vkop (sl : VSlot) (g : BitVec 3) (d : BitVec 3) (a : BitVec 3) (b : BitVec 3) (c : BitVec 4)
  /-- Count active elements of a predicate. R402. -/
  | vcnt (sl : VSlot) (g : BitVec 3) (d : BitVec 4) (k : BitVec 3) (t : BitVec 4)
  /-- Pop a result-queue row into a vector register by interlock. R407. -/
  | vpop (sl : VSlot) (g : BitVec 3) (d : BitVec 4) (q : BitVec 3) (k : BitVec 3) (t : BitVec 4)
  /-- Correctly rounded reciprocal. R344. -/
  | frcp (g : BitVec 3) (d : BitVec 3) (a : BitVec 3) (t : BitVec 4)
  /-- Correctly rounded reciprocal square root. R344. -/
  | frsq (g : BitVec 3) (d : BitVec 3) (a : BitVec 3) (t : BitVec 4)
  /-- Correctly rounded base-2 exponential. R344. -/
  | fexp2 (g : BitVec 3) (d : BitVec 3) (a : BitVec 3) (t : BitVec 4)
  /-- Correctly rounded base-2 logarithm. R344. -/
  | flog2 (g : BitVec 3) (d : BitVec 3) (a : BitVec 3) (t : BitVec 4)
  /-- Correctly rounded hyperbolic tangent. R344. -/
  | ftanh (g : BitVec 3) (d : BitVec 3) (a : BitVec 3) (t : BitVec 4)
  /-- Correctly rounded logistic sigmoid. R344. -/
  | fsig (g : BitVec 3) (d : BitVec 3) (a : BitVec 3) (t : BitVec 4)
  /-- Move an f register into another file. R345. -/
  | fmov (g : BitVec 3) (d : BitVec 3) (a : BitVec 3) (f : BitVec 3)
  /-- Pack a bf16 row into a scaled row with scales from a common register. R370. -/
  | pack (g : BitVec 3) (d : BitVec 3) (a : BitVec 3) (r : BitVec 5) (p : BitVec 2) (t : BitVec 4)
  /-- Pack a bf16 row with shared scales computed per block. R370. -/
  | packAuto (g : BitVec 3) (d : BitVec 3) (a : BitVec 3) (t : BitVec 4)
  /-- Unpack a scaled row into bf16 elements. R396. -/
  | unpk (g : BitVec 3) (d : BitVec 3) (a : BitVec 3) (t : BitVec 4)
  /-- Rotate the concatenation of two registers and take 256 bytes. R379. -/
  | rmrg (g : BitVec 3) (d : BitVec 3) (a : BitVec 3) (b : BitVec 3) (r : BitVec 5) (p : BitVec 2)
  /-- Permute elements by an index vector. R386. -/
  | shuf (g : BitVec 3) (d : BitVec 3) (a : BitVec 3) (b : BitVec 3) (t : BitVec 4)
  /-- Transpose elements of two registers. R395. -/
  | trns (g : BitVec 3) (d : BitVec 3) (a : BitVec 3) (b : BitVec 3) (t : BitVec 4)
  /-- Interleave elements of two registers. R357. -/
  | ilv (g : BitVec 3) (d : BitVec 3) (a : BitVec 3) (b : BitVec 3) (t : BitVec 4)
  /-- Deinterleave even and odd elements. R338. -/
  | dil (g : BitVec 3) (d : BitVec 3) (a : BitVec 3) (b : BitVec 3) (t : BitVec 4)
  /-- Apply e8m0 block scales to elements. R374. -/
  | pscl (g : BitVec 3) (d : BitVec 3) (a : BitVec 3) (r : BitVec 5) (p : BitVec 2) (t : BitVec 4)
  /-- Move a z register into another file. R372. -/
  | pmov (g : BitVec 3) (d : BitVec 3) (a : BitVec 3) (f : BitVec 3)
  /-- Set an address register from a common register. R322. -/
  | aset (g : BitVec 3) (d : BitVec 4) (r : BitVec 5) (p : BitVec 2)
  /-- Advance an address register by a modifier. R322. -/
  | ainc (g : BitVec 3) (d : BitVec 4) (m : BitVec 4)
  /-- Configure a modifier register's mode and parameters. R322. -/
  | amod (g : BitVec 3) (d : BitVec 4) (r : BitVec 5) (p : BitVec 2) (e : BitVec 4)
  /-- Move between address and modifier registers. R322. -/
  | amov (g : BitVec 3) (d : BitVec 4) (a : BitVec 4) (s : BitVec 1) (w : BitVec 1)
  /-- Compute-in-memory matrix multiply against a cached weight tile. R140. -/
  | cim (g : BitVec 3) (r : BitVec 5) (p : BitVec 2) (s : BitVec 5) (q : BitVec 2) (b : BitVec 2) (m : BitVec 1) (l : BitVec 1) (o : BitVec 1) (t : BitVec 1)
  /-- Streaming matrix multiply of two descriptor operands. R389. -/
  | smx (g : BitVec 3) (r : BitVec 5) (p : BitVec 2) (s : BitVec 5) (q : BitVec 2) (b : BitVec 2) (m : BitVec 1) (l : BitVec 1) (o : BitVec 1) (t : BitVec 1)
  /-- Zero an accumulator region. R320. -/
  | acz (g : BitVec 3) (r : BitVec 5) (p : BitVec 2) (b : BitVec 2)
  /-- Convert an accumulator region and push it to a result queue. R155. -/
  | drn (g : BitVec 3) (r : BitVec 5) (p : BitVec 2) (b : BitVec 2) (n : BitVec 3)
  /-- Make a tile resident with up to n copies. R158. -/
  | wpre (g : BitVec 3) (s : BitVec 5) (q : BitVec 2) (n : BitVec 2)
  /-- Make a tile resident and pin it. R158. -/
  | wpin (g : BitVec 3) (s : BitVec 5) (q : BitVec 2)
  /-- Clear PIN on every copy of a tile. R158. -/
  | wunp (g : BitVec 3) (s : BitVec 5) (q : BitVec 2)
  /-- Invalidate every copy of a tile once assigned work completes. R158. -/
  | winv (g : BitVec 3) (s : BitVec 5) (q : BitVec 2)
  /-- Report a tile's residency into a common register. R159. -/
  | wprb (g : BitVec 3) (d : BitVec 5) (s : BitVec 5) (q : BitVec 2)
  /-- Load a scratchpad row, waiting on its granules. R359. -/
  | ld (sl : LSlot) (g : BitVec 3) (r : BitVec 4) (f : BitVec 3) (a : BitVec 4) (m : BitVec 4) (w : BitVec 1) (c : BitVec 1)
  /-- Store a row to the scratchpad and mark its granules full. R391. -/
  | st (sl : LSlot) (g : BitVec 3) (r : BitVec 4) (f : BitVec 3) (a : BitVec 4) (m : BitVec 4)
  /-- Load an 8-byte scratchpad word. R359. -/
  | lds (sl : LSlot) (g : BitVec 3) (r : BitVec 4) (f : BitVec 3) (a : BitVec 4) (m : BitVec 4) (w : BitVec 1) (c : BitVec 1)
  /-- Store an 8-byte word to the scratchpad. R391. -/
  | sts (sl : LSlot) (g : BitVec 3) (r : BitVec 4) (f : BitVec 3) (a : BitVec 4) (m : BitVec 4) (p : BitVec 2)
  /-- Pop a result-queue row and store it to the scratchpad. R391. -/
  | stq (sl : LSlot) (g : BitVec 3) (q : BitVec 4) (a : BitVec 4) (m : BitVec 4)
  /-- Mark a granule or row full. R342. -/
  | fset (sl : LSlot) (g : BitVec 3) (a : BitVec 4) (m : BitVec 4) (w : BitVec 1)
  /-- Mark a granule or row empty. R342. -/
  | fclr (sl : LSlot) (g : BitVec 3) (a : BitVec 4) (m : BitVec 4) (w : BitVec 1)
  /-- Wait until a granule or row is full. R342. -/
  | fwait (sl : LSlot) (g : BitVec 3) (a : BitVec 4) (m : BitVec 4) (w : BitVec 1)
  /-- Save a register into a spill-map entry. R371. -/
  | park (sl : LSlot) (g : BitVec 3) (r : BitVec 4) (f : BitVec 3) (p : BitVec 2) (e : BitVec 6)
  /-- Restore a register from a spill-map entry. R371. -/
  | unpark (sl : LSlot) (g : BitVec 3) (r : BitVec 4) (f : BitVec 3) (e : BitVec 6)
  /-- Global load of 8 bytes, a line or 256 bytes by interlock. R352. -/
  | gld (g : BitVec 3) (r : BitVec 4) (f : BitVec 3) (a : BitVec 4) (m : BitVec 4) (c : BitVec 3) (o : BitVec 2) (z : BitVec 2)
  /-- Global store written through to the home L2. R355. -/
  | gst (g : BitVec 3) (r : BitVec 4) (f : BitVec 3) (a : BitVec 4) (m : BitVec 4) (c : BitVec 3) (o : BitVec 2) (z : BitVec 2)
  /-- Atomic read-modify-write at the line's home L2. R349. -/
  | gam (g : BitVec 3) (r : BitVec 4) (f : BitVec 3) (a : BitVec 4) (m : BitVec 4) (c : BitVec 3) (o : BitVec 2) (n : BitVec 3)
  /-- Join a value into a lattice cell of the local replica. R219. -/
  | ljn (g : BitVec 3) (r : BitVec 4) (f : BitVec 3) (a : BitVec 4) (m : BitVec 4)
  /-- Wait until the local lattice replica passes a milestone, then load it. R220. -/
  | lwt (g : BitVec 3) (r : BitVec 4) (f : BitVec 3) (a : BitVec 4) (m : BitVec 4) (o : BitVec 2)
  /-- Prefetch a line into the line cache or its home L2. R354. -/
  | gpf (g : BitVec 3) (a : BitVec 4) (m : BitVec 4) (t : BitVec 2)
  /-- Drop a line, or all lines, from the core's line cache. R351. -/
  | gcb (g : BitVec 3) (a : BitVec 4) (m : BitVec 4) (t : BitVec 2)
  /-- Walk the page table and install the leaf as an extent. R182. -/
  | xlt (g : BitVec 3) (d : BitVec 5) (a : BitVec 4) (w : BitVec 1)
  /-- Probe the page table without installing or faulting. R182. -/
  | xlp (g : BitVec 3) (d : BitVec 5) (a : BitVec 4) (w : BitVec 1)
  /-- Remove extents overlapping a page range from every core. R184. -/
  | xinv (g : BitVec 3) (a : BitVec 4) (n : BitVec 14)
  /-- Start a copy-engine transfer from a route card. R417. -/
  | xfer (g : BitVec 3) (r : BitVec 5) (p : BitVec 2) (v : BitVec 1) (t : BitVec 6)
  /-- Wait for the context's transfers with a tag. R421. -/
  | xwt (g : BitVec 3) (t : BitVec 6)
  /-- Restripe pages to a new placement. R189. -/
  | rstr (g : BitVec 3) (r : BitVec 5) (p : BitVec 2) (s : BitVec 5) (q : BitVec 2) (n : BitVec 9)
  /-- Send scratchpad rows on a link channel. R384. -/
  | send (g : BitVec 3) (r : BitVec 5) (p : BitVec 2) (s : BitVec 5) (q : BitVec 2)
  /-- Send result-queue rows on a link channel. R384. -/
  | sendQueue (g : BitVec 3) (r : BitVec 5) (p : BitVec 2) (s : BitVec 5) (q : BitVec 2) (n : BitVec 3)
  /-- Receive queued link rows into the scratchpad. R272. -/
  | recv (g : BitVec 3) (r : BitVec 5) (p : BitVec 2) (s : BitVec 5) (q : BitVec 2)
  /-- Submit a launch record from the scratchpad. R263. -/
  | dlc (g : BitVec 3) (r : BitVec 5) (p : BitVec 2)
  /-- Submit an apportioned launch block from the scratchpad. R264. -/
  | dlcApportioned (g : BitVec 3) (r : BitVec 5) (p : BitVec 2)
  /-- Set FMT from an immediate image with a four-step shadow. R346. -/
  | fmtImm (g : BitVec 3) (i : BitVec 16)
  /-- Set FMT unchecked from a common register. R346. -/
  | fmtReg (g : BitVec 3) (p : BitVec 2) (r : BitVec 5)
  /-- Replace the scale table from two common registers. R381. -/
  | sclt (g : BitVec 3) (q : BitVec 2) (h : BitVec 5) (p : BitVec 2) (l : BitVec 5)
  /-- Arrive at a cluster barrier and wait for its phase. R325. -/
  | bar (g : BitVec 3) (b : BitVec 11)
  /-- Arrive at a cluster barrier without waiting. R325. -/
  | barArrive (g : BitVec 3) (b : BitVec 11)
  /-- Wait for a cluster barrier's phase to complete. R325. -/
  | barWait (g : BitVec 3) (b : BitVec 11)
  /-- Set a barrier's member count and clear its arrivals. R327. -/
  | barc (g : BitVec 3) (p : BitVec 2) (r : BitVec 5) (b : BitVec 11)
  /-- Push a value to the core's count queue. R336. -/
  | cqp (g : BitVec 3) (p : BitVec 2) (r : BitVec 5)
  /-- Release owned scratchpad bank groups. R376. -/
  | rel (g : BitVec 3) (m : BitVec 8)
  /-- Read a control or status register into a common register. R337. -/
  | csrr (g : BitVec 3) (d : BitVec 5) (n : BitVec 12)
  /-- Write a control or status register from a common register. R337. -/
  | csrw (g : BitVec 3) (p : BitVec 2) (s : BitVec 5) (n : BitVec 12)
  /-- Branch, conditionally on a common register. R329. -/
  | br (g : BitVec 3) (c : BitVec 5) (p : BitVec 2) (o : BitVec 16)
  /-- Call a routine, writing the return address to c31. R331. -/
  | call (g : BitVec 3) (c : BitVec 5) (p : BitVec 2) (o : BitVec 16)
  /-- Return to the address in c31. R378. -/
  | ret (g : BitVec 3) (c : BitVec 5) (p : BitVec 2)
  /-- Push a hardware loop with an immediate count. R363. -/
  | loop (g : BitVec 3) (l : BitVec 12) (n : BitVec 9)
  /-- Push a hardware loop counted by a common register. R363. -/
  | loopReg (g : BitVec 3) (l : BitVec 12) (p : BitVec 2) (r : BitVec 5)
  /-- Push a hardware loop counted by a count-queue pop. R363. -/
  | loopQ (g : BitVec 3) (l : BitVec 12)
  /-- Push a software-pipelined loop with an immediate count. R363. -/
  | lsp (g : BitVec 3) (s : BitVec 3) (l : BitVec 9) (n : BitVec 9)
  /-- Push a pipelined loop counted by a common register. R363. -/
  | lspReg (g : BitVec 3) (s : BitVec 3) (l : BitVec 9) (p : BitVec 2) (r : BitVec 5)
  /-- Push a pipelined loop counted by a count-queue pop. R363. -/
  | lspQ (g : BitVec 3) (s : BitVec 3) (l : BitVec 9)
  /-- Issue and then trap with the breakpoint cause. R330. -/
  | brk (g : BitVec 3) (c : BitVec 16)
  /-- Order the context's memory accesses by kind and scope. R343. -/
  | fence (g : BitVec 3) (k : BitVec 2) (s : BitVec 3)
  /-- Order accesses across named engine paths. R238. -/
  | fenceX (g : BitVec 3) (s : BitVec 3) (p : BitVec 5)
  /-- Discard fetched code and invalidate the instruction cache. R356. -/
  | ifence (g : BitVec 3)
  /-- Wait for the context's landing, transfers, drains or side log. R413. -/
  | wait (g : BitVec 3) (n : BitVec 4)
  /-- Set the metadata program counter. R366. -/
  | mpc (g : BitVec 3) (o : BitVec 16)
  /-- Yield junction issue to the other context. R422. -/
  | yld (g : BitVec 3)
  /-- Issue and then trap with the program-trap cause. R393. -/
  | trap (g : BitVec 3) (c : BitVec 16)
  /-- End a handler and resume the served context. R394. -/
  | tret (g : BitVec 3)
  /-- End the context, entering Draining. R341. -/
  | done (g : BitVec 3)
  /-- Idle group of 1 to 256 steps. R387. -/
  | skip (i : BitVec 8) (v : BitVec 1) (o : BitVec 3)
  /-- An issue cycle in which the junction merges or chooses the Ready contexts' groups. R37. -/
  | groupIssue (core : Nat)
  /-- Data for a pending interlocked destination arrive and are written. R32. -/
  | interlockDataArrival (p k : Nat)
  /-- A bundle fetch faults and the context holds before the group issues. R48. -/
  | fetchFault (p : Nat)
  /-- A transfer run, restripe page or walk meets a cause after issue. R427. -/
  | deferredCause (p k : Nat)
  /-- The scheduler resolves a page, extent or ownership cause and the work retries. R278. -/
  | schedulerResolve (p : Nat) (ok : Bool)
  /-- Host launch command accepted into the journal or refused. R246. -/
  | cmdLaunch (cmd : BitVec 512)
  /-- Host command setting each die's reserve core mask. R246. -/
  | cmdReserveSets (cmd : BitVec 512)
  /-- Host command installing a new journal ring and record area. R250. -/
  | cmdJournal (cmd : BitVec 512)
  /-- Host command binding a link channel to a remote device and channel. R269. -/
  | cmdLinkChannel (cmd : BitVec 512)
  /-- Host write of ones clears EVENT bits. R302. -/
  | eventClear (v : BitVec 64)
  /-- Host write appending a retirement entry. R312. -/
  | retadd (v : BitVec 64)
  /-- Host write to SAVEBASE, SAVECNT, WLOGSZ or HCFG. R302. -/
  | configRegisterWrite (off size : Nat) (v : BitVec 64)
  /-- Host read through the device-memory aperture. R300. -/
  | hostApertureRead (pa n : Nat) (place : BitVec 64)
  /-- Host write through the aperture, a join or raw write on lattice pages. R300. -/
  | hostApertureWrite (pa : Nat) (place : BitVec 64) (data : List (BitVec 8))
  /-- A launch's predecessors, milestone and count are met and it is dispatched. R255. -/
  | dispatch (seq : Nat)
  /-- A launch faults because a predecessor faulted. R255. -/
  | predecessorFaulted (seq : Nat)
  /-- The scheduler binds a cluster of a launch to free positions. R257. -/
  | bindCluster (seq cl : Nat)
  /-- A context's resumable state finishes loading. R25. -/
  | restoreComplete (p : Nat)
  /-- The scheduler requests pre-emption of borrowers or a blocking context. R41. -/
  | preemptionRequest (p : Nat)
  /-- A pre-emption lands at a pre-emption point and the context saves. R287. -/
  | preemptSave (p : Nat)
  /-- A context's save completes and its position is Free. R25. -/
  | saveComplete (p : Nat)
  /-- A saved context resumes on its core. R289. -/
  | resume (k p : Nat)
  /-- A borrower misses its pre-emption point for 100 µs and its launch is killed. R42. -/
  | preemptionOverdue (p : Nat)
  /-- A handler task is bound beside a trapped context. R283. -/
  | handlerBind (p : Nat)
  /-- A Draining context's landing and bank releases finish and it becomes Free. R31. -/
  | drainComplete (p : Nat)
  /-- Every context has ended and all writes are performed; the journal reads completed. R261. -/
  | launchComplete (seq : Nat)
  /-- A launch's last context ends after a fault and the journal reads faulted. R260. -/
  | launchFaulted (seq : Nat)
  /-- An accepted matrix operation starts once dependences and its tile are ready. R139. -/
  | matrixOpStart (p k : Nat)
  /-- A matrix operation completes its accumulator update. R139. -/
  | matrixOpComplete (p k : Nat)
  /-- A tile fill from memory completes and the array becomes Valid. R148. -/
  | tileFillComplete (core arr : Nat)
  /-- The core adds a replica of a tile with waiting instructions. R147. -/
  | replicaStart (core arr : Nat)
  /-- An array-to-array replica copy completes. R147. -/
  | replicaComplete (core arr : Nat)
  /-- A drain pushes a converted row when its queue has room. R155. -/
  | drainRowPush (p k : Nat)
  /-- A drain waits 4,096 cycles for queue room and faults. R156. -/
  | queueOverflow (p k : Nat)
  /-- A load request is served at the home L2 with lease and pts jump. R205. -/
  | globalLoadPerform (p k : Nat)
  /-- A store is written at its home L2 and acknowledged with its wts. R206. -/
  | globalStorePerform (p k : Nat)
  /-- A store acknowledgement updates the line-cache copy and the writer's pts. R196. -/
  | storeAck (p k : Nat)
  /-- A line leaves the L2 and MTS absorbs its rts. R202. -/
  | l2Eviction (die line : Nat)
  /-- A channel calendar slot serves its owner's or a lent burst. R178. -/
  | hbmCalendarSlot (stack chan slot : Nat)
  /-- Burst data reach the core 220 ns after the slot start. R178. -/
  | hbmDataReturn (k : Nat)
  /-- Every core's pts rises by one every 256 die cycles. R204. -/
  | ptsTick
  /-- Lagging pts are raised to keep the comparison window. R207. -/
  | ptsWindowRaise
  /-- The L2 sweep raises timestamps below the floor. R207. -/
  | timestampSweep (die : Nat)
  /-- A core drops expired line-cache copies. R207. -/
  | lineCacheExpiryDrop (core : Nat)
  /-- A transfer run lands and its granules become full. R169. -/
  | xferRunLand (p k : Nat)
  /-- A transfer's runs have landed and its bank locks lift. R170. -/
  | xferComplete (p k : Nat)
  /-- A restripe page is copied and its new placement committed. R189. -/
  | restripePageCommit (p k : Nat)
  /-- A page-table walk ends and writes its destinations. R182. -/
  | walkComplete (p k : Nat)
  /-- The side log replays its entries once the page is mapped. R183. -/
  | sideLogReplay (core : Nat)
  /-- All cores acknowledge and saved tables are purged. R184. -/
  | xinvComplete (p : Nat)
  /-- A 128-cycle phase starts and dies send dirty lattice cells to partners. R221. -/
  | exchangePhase
  /-- A partner joins received lattice cells into its replica. R221. -/
  | exchangeApply (k : Nat)
  /-- A poisoned lattice cell is rebuilt from partners after three phases. R224. -/
  | latticeRebuildEnd (die cell : Nat)
  /-- A sent row arrives in a channel's receive queue. R269. -/
  | linkRowReceive (ch : Nat) (row : BitVec 2048) (bad : Bool)
  /-- A received row lands in the scratchpad and its granules become full. R272. -/
  | recvRowLand (p k : Nat)
  /-- A store to a shared-read peer page obtains ownership from the home. R234. -/
  | ownershipUpgrade (p : Nat) (ok : Bool)
  /-- A peer page is recalled from its holder. R235. -/
  | recall (page : Nat)
  /-- A launch first reads poisoned data and the event is raised. R291. -/
  | uncorrectableErrorEvent (seq : Nat)
  /-- The launch is stopped, its writes undone and it is relaunched. R291. -/
  | rollback (seq : Nat)
  /-- The patrol scrub reads storage and marks uncorrectable errors. R290. -/
  | patrolScrub (key : Nat) (bad : Bool)
  /-- A core fails in service and its launches roll back. R314. -/
  | coreFailure (core : Nat)
  /-- An HBM channel fails in service and its lines become poisoned. R314. -/
  | channelFailure (stack chan : Nat)
  /-- A link lane fails and its port retrains narrower. R311. -/
  | laneFailure (port lane : Nat)
  /-- A damaged flit is retried in order. R311. -/
  | flitRetry (port : Nat)
  /-- A stack reaches critical temperature and enters thermal hold. R297. -/
  | thermalHoldEntry (stack : Nat)
  /-- A stack leaves thermal hold and waiting requests proceed. R297. -/
  | thermalHoldExit (stack : Nat)
  /-- A thermal hold lasts over 1 ms and raises an event. R298. -/
  | thermalHoldOver1ms (stack : Nat)
  /-- A domain enters or leaves a thermal threshold after its 1 ms interval. R309. -/
  | thresholdCrossing (core level : Nat)
  /-- A die at trip temperature asserts the thermal-trip output. R309. -/
  | thermalTrip (die : Nat)
  /-- An operating-point transition ends and blocked MX groups issue. R307. -/
  | opTransitionEnd (core : Nat)
  /-- The controller changes a core's split level between issue cycles. R308. -/
  | splitLevelChange (core level : Nat)
  /-- The controller runs decaying ballast on idle cores after a load drop. R310. -/
  | rampBallast (die : Nat)
  /-- Power good brings the package to the Identity state. R303. -/
  | powerOn
  /-- Power is removed and the package keeps no state. R19. -/
  | powerRemoval
  /-- Retirement tables are read and logical numbers assigned. R303. -/
  | bringupRetirement (readable : Bool)
  /-- Channels and lanes are trained and timestamps zeroed. R303. -/
  | bringupTraining (dead : List (BitVec 64))
  /-- The capability list becomes readable and scratchpads are zeroed. R303. -/
  | bringupCapability
  /-- Command streams open. R303. -/
  | bringupOpen
  /-- Bring-up fails and the package enters state 7. R303. -/
  | bringupFailed (reason : BitVec 8)
  /-- A request from another device of the pod reaches this package as home device: a grant request for a page, or an uncached access, which may hold until recalls complete. R233. -/
  | peerDeviceRequest (dev page kind : Nat) (place : BitVec 64) (off : Nat) (data : List (BitVec 8))
  /-- The remote receive queue of a link channel accepts sent rows or reports room, which releases a blocked send and performs its source reads. R271. -/
  | remoteQueueRoom (ch n : Nat)
  deriving DecidableEq, Repr

end Sys2Proof
end

