-- ==== Sys2Proof/WellFormed.lean ====
section
/-! DEFINITION. The sets of field values that Tables 3-5 to 3-13 (R53 to R71) allow in a slot word or the idle header.

The widths of the fields are in the types of `Instr`; what stands here is what the width does not say.  A value outside
its set is an illegal encoding (R71).  The checks that need more than one word, or the state of the context, are in
Machine/Group.lean. -/

namespace Sys2Proof

/-- "int" of Table 3-4: codes 0x0 to 0x7 (R59). -/
def isInt (t : BitVec 4) : Bool := t.toNat ≤ 7

/-- "arith" of Table 3-4: int together with 0xA to 0xC (R59). -/
def isArith (t : BitVec 4) : Bool := t.toNat ≤ 7 || (10 ≤ t.toNat && t.toNat ≤ 12)

/-- The 2048-bit files among the file codes of Table 3-3: va, vb, vc, f, z. -/
def isVecFile (f : BitVec 3) : Bool := f.toNat ≤ 2 || 6 ≤ f.toNat

/-- The target files of `fmov` and `pmov` (R62): 0, 1, 2, 6 or 7. -/
def isMoveFile (f : BitVec 3) : Bool := f.toNat ≤ 2 || 6 ≤ f.toNat

/-- A four-bit register field names an existing register: f and z have eight (R55). -/
def regOk (f : BitVec 3) (r : BitVec 4) : Bool := f.toNat ≤ 5 || r.toNat < 8

/-- The sets of R106 for the image of the immediate `fmt`. -/
def imageOk (i : BitVec 16) : Bool :=
  let a := i.toNat % 16
  let w := i.toNat / 16 % 16
  let d := i.toNat / 256 % 16
  let r := i.toNat / 4096 % 4
  [0, 8, 9, 10, 11, 13].contains a && [0, 8, 9, 10, 11, 13].contains w
    && [0, 2, 4, 8, 9, 10, 11, 12].contains d && r ≤ 2

/-- How many paths a `fence.x` mask names (R241). -/
def pathCount (p : BitVec 5) : Nat :=
  p.toNat % 2 + p.toNat / 2 % 2 + p.toNat / 4 % 2 + p.toNat / 8 % 2 + p.toNat / 16 % 2

/-- Every field of the instruction holds a value of its stated set (R71); events carry no such fields. -/
def Instr.wf : Instr → Bool
  | .add .. => true
  | .addImm .. => true
  | .sub .. => true
  | .mul .. => true
  | .mulh .. => true
  | .div .. => true
  | .rem .. => true
  | .and .. => true
  | .andImm .. => true
  | .or .. => true
  | .orImm .. => true
  | .xor .. => true
  | .xorImm .. => true
  | .shl .. => true
  | .shlImm .. => true
  | .shr .. => true
  | .shrImm .. => true
  | .sra .. => true
  | .sraImm .. => true
  | .min .. => true
  | .max .. => true
  | .cmp .. => true
  | .cmpImm .. => true
  | .sel .. => true
  | .li .. => true
  | .lih .. => true
  | .bfx _ _ _ _ w _ => w.toNat ≤ 64
  | .bfi _ _ _ _ w _ => w.toNat ≤ 64
  | .clz .. => true
  | .popc .. => true
  | .cpy _ _ _ _ f => f = 3 ∨ f = 4 ∨ f = 5
  | .cpyCommon _ _ _ _ _ f => f = 3 ∨ f = 4
  | .vadd _ _ _ _ _ _ t => isArith t
  | .vsub _ _ _ _ _ _ t => isArith t
  | .vmul _ _ _ _ _ _ t => isArith t
  | .vmad _ _ _ _ _ _ t => isArith t
  | .vmin _ _ _ _ _ _ t => isArith t
  | .vmax _ _ _ _ _ _ t => isArith t
  | .vabs _ _ _ _ _ t => isArith t
  | .vand _ _ _ _ _ _ t => t ≠ 15
  | .vor _ _ _ _ _ _ t => t ≠ 15
  | .vxor _ _ _ _ _ _ t => t ≠ 15
  | .vshl _ _ _ _ _ _ t => isInt t
  | .vshr _ _ _ _ _ _ t => isInt t
  | .vcmp _ _ _ _ _ c _ t => isArith t ∧ c.toNat ≤ 6
  | .vsel _ _ _ _ _ _ t => t ≠ 15
  | .vred _ _ _ _ c _ t => isArith t ∧ c.toNat ≤ 5
  | .vscan _ _ _ _ c _ t => isArith t ∧ c.toNat ≤ 5
  | .vhist _ _ _ _ _ t => t = 1 ∨ t = 3
  | .vtopk _ _ _ _ _ _ t => isArith t
  | .vcvt _ _ _ _ s _ t => t ≠ 15 ∧ t ≠ 13 ∧ s ≠ 15
  | .vbcast _ _ _ _ _ _ t => t ≠ 15
  | .vmov _ _ d _ f _ t => t ≠ 15 ∧ f.toNat ≤ 7 ∧ (f.toNat ≤ 5 ∨ d.toNat < 8)
  | .vkop _ _ _ _ b c => c.toNat ≤ 5 ∧ (c.toNat ≤ 3 ∨ b = 0)
  | .vcnt _ _ _ _ t => t ≠ 15
  | .vpop _ _ _ _ _ t => t ≠ 15
  | .frcp _ _ _ t => t = 10 ∨ t = 11 ∨ t = 12
  | .frsq _ _ _ t => t = 10 ∨ t = 11 ∨ t = 12
  | .fexp2 _ _ _ t => t = 10 ∨ t = 11 ∨ t = 12
  | .flog2 _ _ _ t => t = 10 ∨ t = 11 ∨ t = 12
  | .ftanh _ _ _ t => t = 10 ∨ t = 11 ∨ t = 12
  | .fsig _ _ _ t => t = 10 ∨ t = 11 ∨ t = 12
  | .fmov _ _ _ f => isMoveFile f
  | .pack _ _ _ _ _ t => t = 0 ∨ t = 8 ∨ t = 9
  | .packAuto _ _ _ t => t = 0 ∨ t = 8 ∨ t = 9
  | .unpk _ _ _ t => t ≠ 15
  | .rmrg .. => true
  | .shuf _ _ _ _ t => t ≠ 15
  | .trns _ _ _ _ t => t ≠ 15
  | .ilv _ _ _ _ t => t ≠ 15
  | .dil _ _ _ _ t => t ≠ 15
  | .pscl _ _ _ _ _ t => isArith t
  | .pmov _ _ _ f => isMoveFile f
  | .aset .. => true
  | .ainc .. => true
  | .amod _ _ _ _ e => e.toNat ≤ 2
  | .amov .. => true
  | .cim _ _ _ _ _ b _ _ _ _ => b.toNat ≤ 1
  | .smx _ _ _ _ _ b _ _ _ _ => b.toNat ≤ 2
  | .acz _ _ _ b => b.toNat ≤ 2
  | .drn _ _ _ b _ => b.toNat ≤ 2
  | .wpre .. => true
  | .wpin .. => true
  | .wunp .. => true
  | .winv .. => true
  | .wprb .. => true
  | .ld _ _ r f _ _ _ _ => isVecFile f ∧ regOk f r
  | .st _ _ r f _ _ => isVecFile f ∧ regOk f r
  | .lds _ _ r f _ _ _ _ => regOk f r
  | .sts _ _ r f _ _ p => regOk f r ∧ (f = 5 ∨ p = 0)
  | .stq _ _ q _ _ => q.toNat ≤ 7
  | .fset .. => true
  | .fclr .. => true
  | .fwait .. => true
  | .park _ _ r f p _ => regOk f r ∧ (f = 5 ∨ p = 0)
  | .unpark _ _ r f _ => regOk f r
  | .gld _ r f _ _ c o z => c.toNat ≤ 5 ∧ o.toNat ≤ 1 ∧ z.toNat ≤ 2 ∧ regOk f r ∧ (z = 0 ∨ isVecFile f)
  | .gst _ r f _ _ c o z => c.toNat ≤ 5 ∧ (o = 0 ∨ o = 2) ∧ z.toNat ≤ 2 ∧ f ≠ 5 ∧ regOk f r ∧ (z = 0 ∨ isVecFile f)
  | .gam _ r f _ _ c _ n => (f = 3 ∨ f = 4) ∧ n.toNat ≤ 6 ∧ c.toNat ≤ 5 ∧ (n ≠ 6 ∨ r.toNat % 2 = 0)
  | .ljn _ _ f _ _ => f.toNat ≤ 4
  | .lwt _ _ f _ _ o => f.toNat ≤ 4 ∧ o.toNat ≤ 1
  | .gpf _ _ _ t => t.toNat ≤ 1
  | .gcb _ a m t => t = 0 ∨ t = 1 ∧ a = 0 ∧ m = 0
  | .xlt .. => true
  | .xlp .. => true
  | .xinv .. => true
  | .xfer .. => true
  | .xwt .. => true
  | .rstr .. => true
  | .send .. => true
  | .sendQueue .. => true
  | .recv .. => true
  | .dlc .. => true
  | .dlcApportioned .. => true
  | .fmtImm _ i => imageOk i
  | .fmtReg .. => true
  | .sclt .. => true
  | .bar .. => true
  | .barArrive .. => true
  | .barWait .. => true
  | .barc .. => true
  | .cqp .. => true
  | .rel .. => true
  | .csrr .. => true
  | .csrw .. => true
  | .br .. => true
  | .call .. => true
  | .ret .. => true
  | .loop .. => true
  | .loopReg .. => true
  | .loopQ .. => true
  | .lsp .. => true
  | .lspReg .. => true
  | .lspQ .. => true
  | .brk .. => true
  | .fence _ k s => k.toNat ≤ 2 ∧ s.toNat ≤ 5
  | .fenceX _ s p => s.toNat ≤ 5 ∧ 2 ≤ pathCount p
  | .ifence .. => true
  | .wait _ n => n.toNat ≤ 3
  | .mpc .. => true
  | .yld .. => true
  | .trap .. => true
  | .tret .. => true
  | .done .. => true
  | .skip _ v o => v = 1 ∨ o = 0
  | .groupIssue .. => true
  | .interlockDataArrival .. => true
  | .fetchFault .. => true
  | .deferredCause .. => true
  | .schedulerResolve .. => true
  | .cmdLaunch .. => true
  | .cmdReserveSets .. => true
  | .cmdJournal .. => true
  | .cmdLinkChannel .. => true
  | .eventClear .. => true
  | .retadd .. => true
  | .configRegisterWrite .. => true
  | .hostApertureRead .. => true
  | .hostApertureWrite .. => true
  | .dispatch .. => true
  | .predecessorFaulted .. => true
  | .bindCluster .. => true
  | .restoreComplete .. => true
  | .preemptionRequest .. => true
  | .preemptSave .. => true
  | .saveComplete .. => true
  | .resume .. => true
  | .preemptionOverdue .. => true
  | .handlerBind .. => true
  | .drainComplete .. => true
  | .launchComplete .. => true
  | .launchFaulted .. => true
  | .matrixOpStart .. => true
  | .matrixOpComplete .. => true
  | .tileFillComplete .. => true
  | .replicaStart .. => true
  | .replicaComplete .. => true
  | .drainRowPush .. => true
  | .queueOverflow .. => true
  | .globalLoadPerform .. => true
  | .globalStorePerform .. => true
  | .storeAck .. => true
  | .l2Eviction .. => true
  | .hbmCalendarSlot .. => true
  | .hbmDataReturn .. => true
  | .ptsTick .. => true
  | .ptsWindowRaise .. => true
  | .timestampSweep .. => true
  | .lineCacheExpiryDrop .. => true
  | .xferRunLand .. => true
  | .xferComplete .. => true
  | .restripePageCommit .. => true
  | .walkComplete .. => true
  | .sideLogReplay .. => true
  | .xinvComplete .. => true
  | .exchangePhase .. => true
  | .exchangeApply .. => true
  | .latticeRebuildEnd .. => true
  | .linkRowReceive .. => true
  | .recvRowLand .. => true
  | .ownershipUpgrade .. => true
  | .recall .. => true
  | .uncorrectableErrorEvent .. => true
  | .rollback .. => true
  | .patrolScrub .. => true
  | .coreFailure .. => true
  | .channelFailure .. => true
  | .laneFailure .. => true
  | .flitRetry .. => true
  | .thermalHoldEntry .. => true
  | .thermalHoldExit .. => true
  | .thermalHoldOver1ms .. => true
  | .thresholdCrossing .. => true
  | .thermalTrip .. => true
  | .opTransitionEnd .. => true
  | .splitLevelChange .. => true
  | .rampBallast .. => true
  | .powerOn .. => true
  | .powerRemoval .. => true
  | .bringupRetirement .. => true
  | .bringupTraining .. => true
  | .bringupCapability .. => true
  | .bringupOpen .. => true
  | .bringupFailed .. => true
  | .peerDeviceRequest .. => true
  | .remoteQueueRoom .. => true

end Sys2Proof
end

