-- ==== Sys2Proof/Decode.lean ====
section
/-! DEFINITION. The decoder and the encoder of slot words and headers (Tables 3-1 to 3-13, R45 to R71).

A slot word has no mark of its own class: the class comes from the slot's place in the header's MASK (R49), so the
decoder takes the slot number beside the word, and the extension word that follows `li` and `lih` (R54).  A refusal
names its reason.  After the decoder stands the encoder, written from the same tables. -/

namespace Sys2Proof

/-- Why a word is no instruction (R71, Table 3-14). -/
inductive DecodeError where
  /-- The opcode is not assigned in the slot's class. -/
  | unassignedOpcode
  /-- A bit that R53 and Tables 3-5 to 3-13 require to be zero is set. -/
  | fixedField
  /-- A field holds a value outside its stated set. -/
  | fieldValue
  /-- The slot number is above 15. -/
  | noSlot
  /-- A header bit pattern that R49 and R50 forbid. -/
  | header
  deriving DecidableEq, Repr

/-- The field of `n` bits of the word `w` that starts at bit `lo` (R6). -/
def fld (w lo n : Nat) : BitVec n := BitVec.ofNat n (w / 2 ^ lo)

/-- The bits of `w` from `lo`, `n` of them, read `v`. -/
def fx (w lo n v : Nat) : Bool := w / 2 ^ lo % 2 ^ n == v

/-- A word whose fixed bits are right, checked against the value sets. -/
def checked (i : Instr) : Except DecodeError Instr := if i.wf then .ok i else .error .fieldValue

/-- The words of SA and SB (R60). -/
def decodeS (sl : SSlot) (w e : Nat) : Except DecodeError Instr :=
  match w / 2 ^ 26 with
  | 0 => if fx w 0 8 0 then checked (.add sl (fld w 23 3) (fld w 18 5) (fld w 13 5) (fld w 8 5))
    else .error .fixedField
  | 1 => checked (.addImm sl (fld w 23 3) (fld w 18 5) (fld w 13 5) (fld w 0 13))
  | 2 => if fx w 0 8 0 then checked (.sub sl (fld w 23 3) (fld w 18 5) (fld w 13 5) (fld w 8 5))
    else .error .fixedField
  | 3 => if fx w 0 8 0 then checked (.mul sl (fld w 23 3) (fld w 18 5) (fld w 13 5) (fld w 8 5))
    else .error .fixedField
  | 4 => if fx w 1 7 0 then checked (.mulh sl (fld w 23 3) (fld w 18 5) (fld w 13 5) (fld w 8 5) (fld w 0 1))
    else .error .fixedField
  | 5 => if fx w 1 7 0 then checked (.div sl (fld w 23 3) (fld w 18 5) (fld w 13 5) (fld w 8 5) (fld w 0 1))
    else .error .fixedField
  | 6 => if fx w 1 7 0 then checked (.rem sl (fld w 23 3) (fld w 18 5) (fld w 13 5) (fld w 8 5) (fld w 0 1))
    else .error .fixedField
  | 7 => if fx w 0 8 0 then checked (.and sl (fld w 23 3) (fld w 18 5) (fld w 13 5) (fld w 8 5))
    else .error .fixedField
  | 8 => checked (.andImm sl (fld w 23 3) (fld w 18 5) (fld w 13 5) (fld w 0 13))
  | 9 => if fx w 0 8 0 then checked (.or sl (fld w 23 3) (fld w 18 5) (fld w 13 5) (fld w 8 5))
    else .error .fixedField
  | 10 => checked (.orImm sl (fld w 23 3) (fld w 18 5) (fld w 13 5) (fld w 0 13))
  | 11 => if fx w 0 8 0 then checked (.xor sl (fld w 23 3) (fld w 18 5) (fld w 13 5) (fld w 8 5))
    else .error .fixedField
  | 12 => checked (.xorImm sl (fld w 23 3) (fld w 18 5) (fld w 13 5) (fld w 0 13))
  | 13 => if fx w 0 8 0 then checked (.shl sl (fld w 23 3) (fld w 18 5) (fld w 13 5) (fld w 8 5))
    else if fx w 6 7 2 then checked (.shlImm sl (fld w 23 3) (fld w 18 5) (fld w 13 5) (fld w 0 6))
    else .error .fixedField
  | 14 => if fx w 0 8 0 then checked (.shr sl (fld w 23 3) (fld w 18 5) (fld w 13 5) (fld w 8 5))
    else if fx w 6 7 2 then checked (.shrImm sl (fld w 23 3) (fld w 18 5) (fld w 13 5) (fld w 0 6))
    else .error .fixedField
  | 15 => if fx w 0 8 0 then checked (.sra sl (fld w 23 3) (fld w 18 5) (fld w 13 5) (fld w 8 5))
    else if fx w 6 7 2 then checked (.sraImm sl (fld w 23 3) (fld w 18 5) (fld w 13 5) (fld w 0 6))
    else .error .fixedField
  | 16 => if fx w 1 7 0 then checked (.min sl (fld w 23 3) (fld w 18 5) (fld w 13 5) (fld w 8 5) (fld w 0 1))
    else .error .fixedField
  | 17 => if fx w 1 7 0 then checked (.max sl (fld w 23 3) (fld w 18 5) (fld w 13 5) (fld w 8 5) (fld w 0 1))
    else .error .fixedField
  | 18 => if fx w 3 5 0 then checked (.cmp sl (fld w 23 3) (fld w 18 5) (fld w 13 5) (fld w 8 5) (fld w 0 3))
    else .error .fixedField
  | 19 => checked (.cmpImm sl (fld w 23 3) (fld w 18 5) (fld w 13 5) (fld w 0 13))
  | 20 => if fx w 5 3 0 then checked (.sel sl (fld w 23 3) (fld w 18 5) (fld w 13 5) (fld w 8 5) (fld w 0 5))
    else .error .fixedField
  | 21 => if fx w 0 18 0 then checked (.li sl (fld w 23 3) (fld w 18 5) (BitVec.ofNat 32 e))
    else .error .fixedField
  | 22 => if fx w 0 18 0 then checked (.lih sl (fld w 23 3) (fld w 18 5) (BitVec.ofNat 32 e))
    else .error .fixedField
  | 23 => checked (.bfx sl (fld w 23 3) (fld w 18 5) (fld w 13 5) (fld w 6 7) (fld w 0 6))
  | 24 => checked (.bfi sl (fld w 23 3) (fld w 18 5) (fld w 13 5) (fld w 6 7) (fld w 0 6))
  | 25 => if fx w 0 13 0 then checked (.clz sl (fld w 23 3) (fld w 18 5) (fld w 13 5))
    else .error .fixedField
  | 26 => if fx w 0 13 0 then checked (.popc sl (fld w 23 3) (fld w 18 5) (fld w 13 5))
    else .error .fixedField
  | 27 => if fx w 3 10 0 then checked (.cpy sl (fld w 23 3) (fld w 18 5) (fld w 13 5) (fld w 0 3))
    else if fx w 3 1 1 && fx w 6 7 0 then checked (.cpyCommon sl (fld w 23 3) (fld w 18 5) (fld w 13 5) (fld w 4 2) (fld w 0 3))
    else .error .fixedField
  | _ => .error .unassignedOpcode

/-- The words of VA, VB and VC (R61). -/
def decodeV (sl : VSlot) (w : Nat) : Except DecodeError Instr :=
  match w / 2 ^ 26 with
  | 0 => if fx w 7 4 0 then checked (.vadd sl (fld w 23 3) (fld w 19 4) (fld w 15 4) (fld w 11 4) (fld w 4 3) (fld w 0 4))
    else .error .fixedField
  | 1 => if fx w 7 4 0 then checked (.vsub sl (fld w 23 3) (fld w 19 4) (fld w 15 4) (fld w 11 4) (fld w 4 3) (fld w 0 4))
    else .error .fixedField
  | 2 => if fx w 7 4 0 then checked (.vmul sl (fld w 23 3) (fld w 19 4) (fld w 15 4) (fld w 11 4) (fld w 4 3) (fld w 0 4))
    else .error .fixedField
  | 3 => if fx w 7 4 0 then checked (.vmad sl (fld w 23 3) (fld w 19 4) (fld w 15 4) (fld w 11 4) (fld w 4 3) (fld w 0 4))
    else .error .fixedField
  | 4 => if fx w 7 4 0 then checked (.vmin sl (fld w 23 3) (fld w 19 4) (fld w 15 4) (fld w 11 4) (fld w 4 3) (fld w 0 4))
    else .error .fixedField
  | 5 => if fx w 7 4 0 then checked (.vmax sl (fld w 23 3) (fld w 19 4) (fld w 15 4) (fld w 11 4) (fld w 4 3) (fld w 0 4))
    else .error .fixedField
  | 6 => if fx w 7 8 0 then checked (.vabs sl (fld w 23 3) (fld w 19 4) (fld w 15 4) (fld w 4 3) (fld w 0 4))
    else .error .fixedField
  | 7 => if fx w 7 4 0 then checked (.vand sl (fld w 23 3) (fld w 19 4) (fld w 15 4) (fld w 11 4) (fld w 4 3) (fld w 0 4))
    else .error .fixedField
  | 8 => if fx w 7 4 0 then checked (.vor sl (fld w 23 3) (fld w 19 4) (fld w 15 4) (fld w 11 4) (fld w 4 3) (fld w 0 4))
    else .error .fixedField
  | 9 => if fx w 7 4 0 then checked (.vxor sl (fld w 23 3) (fld w 19 4) (fld w 15 4) (fld w 11 4) (fld w 4 3) (fld w 0 4))
    else .error .fixedField
  | 10 => if fx w 7 4 0 then checked (.vshl sl (fld w 23 3) (fld w 19 4) (fld w 15 4) (fld w 11 4) (fld w 4 3) (fld w 0 4))
    else .error .fixedField
  | 11 => if fx w 7 4 0 then checked (.vshr sl (fld w 23 3) (fld w 19 4) (fld w 15 4) (fld w 11 4) (fld w 4 3) (fld w 0 4))
    else .error .fixedField
  | 12 => if fx w 22 1 0 then checked (.vcmp sl (fld w 23 3) (fld w 19 3) (fld w 15 4) (fld w 11 4) (fld w 7 4) (fld w 4 3) (fld w 0 4))
    else .error .fixedField
  | 13 => if fx w 7 4 0 then checked (.vsel sl (fld w 23 3) (fld w 19 4) (fld w 15 4) (fld w 11 4) (fld w 4 3) (fld w 0 4))
    else .error .fixedField
  | 14 => if fx w 11 4 0 then checked (.vred sl (fld w 23 3) (fld w 19 4) (fld w 15 4) (fld w 7 4) (fld w 4 3) (fld w 0 4))
    else .error .fixedField
  | 15 => if fx w 11 4 0 then checked (.vscan sl (fld w 23 3) (fld w 19 4) (fld w 15 4) (fld w 7 4) (fld w 4 3) (fld w 0 4))
    else .error .fixedField
  | 16 => if fx w 7 8 0 then checked (.vhist sl (fld w 23 3) (fld w 19 4) (fld w 15 4) (fld w 4 3) (fld w 0 4))
    else .error .fixedField
  | 17 => if fx w 11 4 0 then checked (.vtopk sl (fld w 23 3) (fld w 19 4) (fld w 15 4) (fld w 7 4) (fld w 4 3) (fld w 0 4))
    else .error .fixedField
  | 18 => if fx w 11 4 0 then checked (.vcvt sl (fld w 23 3) (fld w 19 4) (fld w 15 4) (fld w 7 4) (fld w 4 3) (fld w 0 4))
    else .error .fixedField
  | 19 => if fx w 7 5 0 then checked (.vbcast sl (fld w 23 3) (fld w 19 4) (fld w 14 5) (fld w 12 2) (fld w 4 3) (fld w 0 4))
    else .error .fixedField
  | 20 => if fx w 11 4 0 then checked (.vmov sl (fld w 23 3) (fld w 19 4) (fld w 15 4) (fld w 7 4) (fld w 4 3) (fld w 0 4))
    else .error .fixedField
  | 21 => if fx w 0 7 0 && fx w 14 1 0 && fx w 18 1 0 && fx w 22 1 0 then checked (.vkop sl (fld w 23 3) (fld w 19 3) (fld w 15 3) (fld w 11 3) (fld w 7 4))
    else .error .fixedField
  | 22 => if fx w 7 12 0 then checked (.vcnt sl (fld w 23 3) (fld w 19 4) (fld w 4 3) (fld w 0 4))
    else .error .fixedField
  | 23 => if fx w 7 8 0 && fx w 18 1 0 then checked (.vpop sl (fld w 23 3) (fld w 19 4) (fld w 15 3) (fld w 4 3) (fld w 0 4))
    else .error .fixedField
  | _ => .error .unassignedOpcode

/-- The words of FX (R62). -/
def decodeFx (w : Nat) : Except DecodeError Instr :=
  match w / 2 ^ 26 with
  | 0 => if fx w 0 10 0 && fx w 14 3 0 then checked (.frcp (fld w 23 3) (fld w 20 3) (fld w 17 3) (fld w 10 4))
    else .error .fixedField
  | 1 => if fx w 0 10 0 && fx w 14 3 0 then checked (.frsq (fld w 23 3) (fld w 20 3) (fld w 17 3) (fld w 10 4))
    else .error .fixedField
  | 2 => if fx w 0 10 0 && fx w 14 3 0 then checked (.fexp2 (fld w 23 3) (fld w 20 3) (fld w 17 3) (fld w 10 4))
    else .error .fixedField
  | 3 => if fx w 0 10 0 && fx w 14 3 0 then checked (.flog2 (fld w 23 3) (fld w 20 3) (fld w 17 3) (fld w 10 4))
    else .error .fixedField
  | 4 => if fx w 0 10 0 && fx w 14 3 0 then checked (.ftanh (fld w 23 3) (fld w 20 3) (fld w 17 3) (fld w 10 4))
    else .error .fixedField
  | 5 => if fx w 0 10 0 && fx w 14 3 0 then checked (.fsig (fld w 23 3) (fld w 20 3) (fld w 17 3) (fld w 10 4))
    else .error .fixedField
  | 6 => if fx w 3 14 0 then checked (.fmov (fld w 23 3) (fld w 20 3) (fld w 17 3) (fld w 0 3))
    else .error .fixedField
  | _ => .error .unassignedOpcode

/-- The words of PX (R62). -/
def decodePx (w : Nat) : Except DecodeError Instr :=
  match w / 2 ^ 26 with
  | 0 => if fx w 0 3 0 && fx w 14 3 0 then checked (.pack (fld w 23 3) (fld w 20 3) (fld w 17 3) (fld w 9 5) (fld w 7 2) (fld w 3 4))
    else if fx w 0 3 1 && fx w 7 10 0 then checked (.packAuto (fld w 23 3) (fld w 20 3) (fld w 17 3) (fld w 3 4))
    else .error .fixedField
  | 1 => if fx w 0 3 0 && fx w 7 10 0 then checked (.unpk (fld w 23 3) (fld w 20 3) (fld w 17 3) (fld w 3 4))
    else .error .fixedField
  | 2 => if fx w 0 7 0 then checked (.rmrg (fld w 23 3) (fld w 20 3) (fld w 17 3) (fld w 14 3) (fld w 9 5) (fld w 7 2))
    else .error .fixedField
  | 3 => if fx w 0 3 0 && fx w 7 7 0 then checked (.shuf (fld w 23 3) (fld w 20 3) (fld w 17 3) (fld w 14 3) (fld w 3 4))
    else .error .fixedField
  | 4 => if fx w 0 3 0 && fx w 7 7 0 then checked (.trns (fld w 23 3) (fld w 20 3) (fld w 17 3) (fld w 14 3) (fld w 3 4))
    else .error .fixedField
  | 5 => if fx w 0 3 0 && fx w 7 7 0 then checked (.ilv (fld w 23 3) (fld w 20 3) (fld w 17 3) (fld w 14 3) (fld w 3 4))
    else .error .fixedField
  | 6 => if fx w 0 3 0 && fx w 7 7 0 then checked (.dil (fld w 23 3) (fld w 20 3) (fld w 17 3) (fld w 14 3) (fld w 3 4))
    else .error .fixedField
  | 7 => if fx w 0 3 0 && fx w 14 3 0 then checked (.pscl (fld w 23 3) (fld w 20 3) (fld w 17 3) (fld w 9 5) (fld w 7 2) (fld w 3 4))
    else .error .fixedField
  | 8 => if fx w 3 14 0 then checked (.pmov (fld w 23 3) (fld w 20 3) (fld w 17 3) (fld w 0 3))
    else .error .fixedField
  | _ => .error .unassignedOpcode

/-- The words of AX (R62). -/
def decodeAx (w : Nat) : Except DecodeError Instr :=
  match w / 2 ^ 26 with
  | 0 => if fx w 0 4 0 && fx w 11 8 0 then checked (.aset (fld w 23 3) (fld w 19 4) (fld w 6 5) (fld w 4 2))
    else .error .fixedField
  | 1 => if fx w 0 11 0 && fx w 15 4 0 then checked (.ainc (fld w 23 3) (fld w 19 4) (fld w 11 4))
    else .error .fixedField
  | 2 => if fx w 11 8 0 then checked (.amod (fld w 23 3) (fld w 19 4) (fld w 6 5) (fld w 4 2) (fld w 0 4))
    else .error .fixedField
  | 3 => if fx w 2 13 0 then checked (.amov (fld w 23 3) (fld w 19 4) (fld w 15 4) (fld w 1 1) (fld w 0 1))
    else .error .fixedField
  | _ => .error .unassignedOpcode

/-- The words of MX (R64). -/
def decodeMx (w : Nat) : Except DecodeError Instr :=
  match w / 2 ^ 26 with
  | 0 => if fx w 4 3 0 then checked (.cim (fld w 23 3) (fld w 18 5) (fld w 16 2) (fld w 11 5) (fld w 9 2) (fld w 7 2) (fld w 3 1) (fld w 2 1) (fld w 1 1) (fld w 0 1))
    else .error .fixedField
  | 1 => if fx w 4 3 0 then checked (.smx (fld w 23 3) (fld w 18 5) (fld w 16 2) (fld w 11 5) (fld w 9 2) (fld w 7 2) (fld w 3 1) (fld w 2 1) (fld w 1 1) (fld w 0 1))
    else .error .fixedField
  | 2 => if fx w 0 7 0 && fx w 9 7 0 then checked (.acz (fld w 23 3) (fld w 18 5) (fld w 16 2) (fld w 7 2))
    else .error .fixedField
  | 3 => if fx w 0 4 0 && fx w 9 7 0 then checked (.drn (fld w 23 3) (fld w 18 5) (fld w 16 2) (fld w 7 2) (fld w 4 3))
    else .error .fixedField
  | 4 => if fx w 2 7 0 && fx w 16 7 0 then checked (.wpre (fld w 23 3) (fld w 11 5) (fld w 9 2) (fld w 0 2))
    else .error .fixedField
  | 5 => if fx w 0 9 0 && fx w 16 7 0 then checked (.wpin (fld w 23 3) (fld w 11 5) (fld w 9 2))
    else .error .fixedField
  | 6 => if fx w 0 9 0 && fx w 16 7 0 then checked (.wunp (fld w 23 3) (fld w 11 5) (fld w 9 2))
    else .error .fixedField
  | 7 => if fx w 0 9 0 && fx w 16 7 0 then checked (.winv (fld w 23 3) (fld w 11 5) (fld w 9 2))
    else .error .fixedField
  | 8 => if fx w 0 9 0 && fx w 16 2 0 then checked (.wprb (fld w 23 3) (fld w 18 5) (fld w 11 5) (fld w 9 2))
    else .error .fixedField
  | _ => .error .unassignedOpcode

/-- The words of LA and LB (R65). -/
def decodeL (sl : LSlot) (w : Nat) : Except DecodeError Instr :=
  match w / 2 ^ 26 with
  | 0 => if fx w 2 6 0 then checked (.ld sl (fld w 23 3) (fld w 19 4) (fld w 16 3) (fld w 12 4) (fld w 8 4) (fld w 1 1) (fld w 0 1))
    else .error .fixedField
  | 1 => if fx w 0 8 0 then checked (.st sl (fld w 23 3) (fld w 19 4) (fld w 16 3) (fld w 12 4) (fld w 8 4))
    else .error .fixedField
  | 2 => if fx w 2 6 0 then checked (.lds sl (fld w 23 3) (fld w 19 4) (fld w 16 3) (fld w 12 4) (fld w 8 4) (fld w 1 1) (fld w 0 1))
    else .error .fixedField
  | 3 => if fx w 2 6 0 then checked (.sts sl (fld w 23 3) (fld w 19 4) (fld w 16 3) (fld w 12 4) (fld w 8 4) (fld w 0 2))
    else .error .fixedField
  | 4 => if fx w 0 8 0 && fx w 16 3 0 then checked (.stq sl (fld w 23 3) (fld w 19 4) (fld w 12 4) (fld w 8 4))
    else .error .fixedField
  | 5 => if fx w 1 7 0 && fx w 16 7 0 then checked (.fset sl (fld w 23 3) (fld w 12 4) (fld w 8 4) (fld w 0 1))
    else .error .fixedField
  | 6 => if fx w 1 7 0 && fx w 16 7 0 then checked (.fclr sl (fld w 23 3) (fld w 12 4) (fld w 8 4) (fld w 0 1))
    else .error .fixedField
  | 7 => if fx w 1 7 0 && fx w 16 7 0 then checked (.fwait sl (fld w 23 3) (fld w 12 4) (fld w 8 4) (fld w 0 1))
    else .error .fixedField
  | 8 => if fx w 8 8 0 then checked (.park sl (fld w 23 3) (fld w 19 4) (fld w 16 3) (fld w 6 2) (fld w 0 6))
    else .error .fixedField
  | 9 => if fx w 6 10 0 then checked (.unpark sl (fld w 23 3) (fld w 19 4) (fld w 16 3) (fld w 0 6))
    else .error .fixedField
  | _ => .error .unassignedOpcode

/-- The words of GM (R65). -/
def decodeGm (w : Nat) : Except DecodeError Instr :=
  match w / 2 ^ 26 with
  | 0 => if fx w 7 1 0 then checked (.gld (fld w 23 3) (fld w 19 4) (fld w 16 3) (fld w 12 4) (fld w 8 4) (fld w 4 3) (fld w 2 2) (fld w 0 2))
    else .error .fixedField
  | 1 => if fx w 7 1 0 then checked (.gst (fld w 23 3) (fld w 19 4) (fld w 16 3) (fld w 12 4) (fld w 8 4) (fld w 4 3) (fld w 2 2) (fld w 0 2))
    else .error .fixedField
  | 2 => checked (.gam (fld w 23 3) (fld w 19 4) (fld w 16 3) (fld w 12 4) (fld w 8 4) (fld w 5 3) (fld w 3 2) (fld w 0 3))
  | 3 => if fx w 0 8 0 then checked (.ljn (fld w 23 3) (fld w 19 4) (fld w 16 3) (fld w 12 4) (fld w 8 4))
    else .error .fixedField
  | 4 => if fx w 0 2 0 && fx w 4 4 0 then checked (.lwt (fld w 23 3) (fld w 19 4) (fld w 16 3) (fld w 12 4) (fld w 8 4) (fld w 2 2))
    else .error .fixedField
  | 5 => if fx w 2 6 0 && fx w 16 7 0 then checked (.gpf (fld w 23 3) (fld w 12 4) (fld w 8 4) (fld w 0 2))
    else .error .fixedField
  | 6 => if fx w 2 6 0 && fx w 16 7 0 then checked (.gcb (fld w 23 3) (fld w 12 4) (fld w 8 4) (fld w 0 2))
    else .error .fixedField
  | _ => .error .unassignedOpcode

/-- The words of XL (R66). -/
def decodeXl (w : Nat) : Except DecodeError Instr :=
  match w / 2 ^ 26 with
  | 0 => if fx w 1 13 0 then checked (.xlt (fld w 23 3) (fld w 18 5) (fld w 14 4) (fld w 0 1))
    else .error .fixedField
  | 1 => if fx w 1 13 0 then checked (.xlp (fld w 23 3) (fld w 18 5) (fld w 14 4) (fld w 0 1))
    else .error .fixedField
  | 2 => if fx w 18 5 0 then checked (.xinv (fld w 23 3) (fld w 14 4) (fld w 0 14))
    else .error .fixedField
  | _ => .error .unassignedOpcode

/-- The words of EX (R67). -/
def decodeEx (w : Nat) : Except DecodeError Instr :=
  match w / 2 ^ 26 with
  | 0 => if fx w 7 9 0 then checked (.xfer (fld w 23 3) (fld w 18 5) (fld w 16 2) (fld w 6 1) (fld w 0 6))
    else .error .fixedField
  | 1 => if fx w 6 17 0 then checked (.xwt (fld w 23 3) (fld w 0 6))
    else .error .fixedField
  | 2 => checked (.rstr (fld w 23 3) (fld w 18 5) (fld w 16 2) (fld w 11 5) (fld w 9 2) (fld w 0 9))
  | 3 => if fx w 0 9 0 then checked (.send (fld w 23 3) (fld w 18 5) (fld w 16 2) (fld w 11 5) (fld w 9 2))
    else if fx w 3 6 1 then checked (.sendQueue (fld w 23 3) (fld w 18 5) (fld w 16 2) (fld w 11 5) (fld w 9 2) (fld w 0 3))
    else .error .fixedField
  | 4 => if fx w 0 9 0 then checked (.recv (fld w 23 3) (fld w 18 5) (fld w 16 2) (fld w 11 5) (fld w 9 2))
    else .error .fixedField
  | 5 => if fx w 0 16 0 then checked (.dlc (fld w 23 3) (fld w 18 5) (fld w 16 2))
    else if fx w 0 16 1 then checked (.dlcApportioned (fld w 23 3) (fld w 18 5) (fld w 16 2))
    else .error .fixedField
  | _ => .error .unassignedOpcode

/-- The words of CX (R68). -/
def decodeCx (w : Nat) : Except DecodeError Instr :=
  match w / 2 ^ 26 with
  | 0 => if fx w 16 7 0 then checked (.fmtImm (fld w 23 3) (fld w 0 16))
    else if fx w 7 16 32768 then checked (.fmtReg (fld w 23 3) (fld w 5 2) (fld w 0 5))
    else .error .fixedField
  | 1 => if fx w 14 9 0 then checked (.sclt (fld w 23 3) (fld w 12 2) (fld w 7 5) (fld w 5 2) (fld w 0 5))
    else .error .fixedField
  | 2 => if fx w 11 12 0 then checked (.bar (fld w 23 3) (fld w 0 11))
    else if fx w 11 12 1 then checked (.barArrive (fld w 23 3) (fld w 0 11))
    else if fx w 11 12 2 then checked (.barWait (fld w 23 3) (fld w 0 11))
    else .error .fixedField
  | 3 => if fx w 18 5 0 then checked (.barc (fld w 23 3) (fld w 16 2) (fld w 11 5) (fld w 0 11))
    else .error .fixedField
  | 4 => if fx w 7 16 0 then checked (.cqp (fld w 23 3) (fld w 5 2) (fld w 0 5))
    else .error .fixedField
  | 5 => if fx w 8 15 0 then checked (.rel (fld w 23 3) (fld w 0 8))
    else .error .fixedField
  | 6 => if fx w 12 6 0 then checked (.csrr (fld w 23 3) (fld w 18 5) (fld w 0 12))
    else .error .fixedField
  | 7 => if fx w 19 4 0 then checked (.csrw (fld w 23 3) (fld w 17 2) (fld w 12 5) (fld w 0 12))
    else .error .fixedField
  | _ => .error .unassignedOpcode

/-- The words of BR (R69). -/
def decodeBr (w : Nat) : Except DecodeError Instr :=
  match w / 2 ^ 26 with
  | 0 => checked (.br (fld w 23 3) (fld w 18 5) (fld w 16 2) (fld w 0 16))
  | 1 => checked (.call (fld w 23 3) (fld w 18 5) (fld w 16 2) (fld w 0 16))
  | 2 => if fx w 0 16 0 then checked (.ret (fld w 23 3) (fld w 18 5) (fld w 16 2))
    else .error .fixedField
  | 3 => if fx w 21 2 0 then checked (.loop (fld w 23 3) (fld w 9 12) (fld w 0 9))
    else if fx w 7 2 0 && fx w 21 2 1 then checked (.loopReg (fld w 23 3) (fld w 9 12) (fld w 5 2) (fld w 0 5))
    else if fx w 0 9 0 && fx w 21 2 2 then checked (.loopQ (fld w 23 3) (fld w 9 12))
    else .error .fixedField
  | 4 => if fx w 21 2 0 then checked (.lsp (fld w 23 3) (fld w 18 3) (fld w 9 9) (fld w 0 9))
    else if fx w 7 2 0 && fx w 21 2 1 then checked (.lspReg (fld w 23 3) (fld w 18 3) (fld w 9 9) (fld w 5 2) (fld w 0 5))
    else if fx w 0 9 0 && fx w 21 2 2 then checked (.lspQ (fld w 23 3) (fld w 18 3) (fld w 9 9))
    else .error .fixedField
  | 5 => if fx w 16 7 0 then checked (.brk (fld w 23 3) (fld w 0 16))
    else .error .fixedField
  | 6 => if fx w 0 8 0 && fx w 13 10 0 then checked (.fence (fld w 23 3) (fld w 11 2) (fld w 8 3))
    else if fx w 5 3 0 && fx w 11 12 16 then checked (.fenceX (fld w 23 3) (fld w 8 3) (fld w 0 5))
    else .error .fixedField
  | 7 => if fx w 0 23 0 then checked (.ifence (fld w 23 3))
    else .error .fixedField
  | 8 => if fx w 4 19 0 then checked (.wait (fld w 23 3) (fld w 0 4))
    else .error .fixedField
  | 9 => if fx w 16 7 0 then checked (.mpc (fld w 23 3) (fld w 0 16))
    else .error .fixedField
  | 10 => if fx w 0 23 0 then checked (.yld (fld w 23 3))
    else .error .fixedField
  | 11 => if fx w 16 7 0 then checked (.trap (fld w 23 3) (fld w 0 16))
    else .error .fixedField
  | 12 => if fx w 0 23 0 then checked (.tret (fld w 23 3))
    else .error .fixedField
  | 13 => if fx w 0 23 0 then checked (.done (fld w 23 3))
    else .error .fixedField
  | _ => .error .unassignedOpcode

/-- Slot numbers of the scalar slots (R12). -/
def SSlot.num : SSlot → Nat
  | .sa => 0
  | .sb => 1

/-- Slot numbers of the vector slots (R12). -/
def VSlot.num : VSlot → Nat
  | .va => 2
  | .vb => 3
  | .vc => 4

/-- Slot numbers of the scratchpad slots (R12). -/
def LSlot.num : LSlot → Nat
  | .la => 9
  | .lb => 10

/-- A slot word `w` in slot `slot`, with the extension word `e` after it (R49, R53, R54). -/
def decodeSlot (slot w e : Nat) : Except DecodeError Instr :=
  match slot with
  | 0 => decodeS .sa w e
  | 1 => decodeS .sb w e
  | 2 => decodeV .va w
  | 3 => decodeV .vb w
  | 4 => decodeV .vc w
  | 5 => decodeFx w
  | 6 => decodePx w
  | 7 => decodeAx w
  | 8 => decodeMx w
  | 9 => decodeL .la w
  | 10 => decodeL .lb w
  | 11 => decodeGm w
  | 12 => decodeXl w
  | 13 => decodeEx w
  | 14 => decodeCx w
  | 15 => decodeBr w
  | _ => .error .noSlot

/-- An idle header (R50): MASK zero, S one, OPT zero unless OPV is one. -/
def decodeSkip (w : Nat) : Except DecodeError Instr :=
  if fx w 0 18 65536 && fx w 22 2 0 then checked (.skip (fld w 24 8) (fld w 21 1) (fld w 18 3)) else .error .header

/-- A slot word is followed by an extension word: `li` and `lih` in a scalar slot (R54). -/
def hasExt (slot w : Nat) : Bool := slot ≤ 1 && (w / 2 ^ 26 == 21 || w / 2 ^ 26 == 22)

/-- The word with the fixed bits `m` and each field value at its low bit. -/
def wd (m : Nat) (fs : List (Nat × Nat)) : BitVec 32 :=
  BitVec.ofNat 32 (fs.foldl (fun acc f => acc + f.1 * 2 ^ f.2) m)

/-- The slot that an operation is placed in; `none` for the idle header and for events (R12, R49). -/
def Instr.slot : Instr → Option Nat
  | .add sl .. => some sl.num
  | .addImm sl .. => some sl.num
  | .sub sl .. => some sl.num
  | .mul sl .. => some sl.num
  | .mulh sl .. => some sl.num
  | .div sl .. => some sl.num
  | .rem sl .. => some sl.num
  | .and sl .. => some sl.num
  | .andImm sl .. => some sl.num
  | .or sl .. => some sl.num
  | .orImm sl .. => some sl.num
  | .xor sl .. => some sl.num
  | .xorImm sl .. => some sl.num
  | .shl sl .. => some sl.num
  | .shlImm sl .. => some sl.num
  | .shr sl .. => some sl.num
  | .shrImm sl .. => some sl.num
  | .sra sl .. => some sl.num
  | .sraImm sl .. => some sl.num
  | .min sl .. => some sl.num
  | .max sl .. => some sl.num
  | .cmp sl .. => some sl.num
  | .cmpImm sl .. => some sl.num
  | .sel sl .. => some sl.num
  | .li sl .. => some sl.num
  | .lih sl .. => some sl.num
  | .bfx sl .. => some sl.num
  | .bfi sl .. => some sl.num
  | .clz sl .. => some sl.num
  | .popc sl .. => some sl.num
  | .cpy sl .. => some sl.num
  | .cpyCommon sl .. => some sl.num
  | .vadd sl .. => some sl.num
  | .vsub sl .. => some sl.num
  | .vmul sl .. => some sl.num
  | .vmad sl .. => some sl.num
  | .vmin sl .. => some sl.num
  | .vmax sl .. => some sl.num
  | .vabs sl .. => some sl.num
  | .vand sl .. => some sl.num
  | .vor sl .. => some sl.num
  | .vxor sl .. => some sl.num
  | .vshl sl .. => some sl.num
  | .vshr sl .. => some sl.num
  | .vcmp sl .. => some sl.num
  | .vsel sl .. => some sl.num
  | .vred sl .. => some sl.num
  | .vscan sl .. => some sl.num
  | .vhist sl .. => some sl.num
  | .vtopk sl .. => some sl.num
  | .vcvt sl .. => some sl.num
  | .vbcast sl .. => some sl.num
  | .vmov sl .. => some sl.num
  | .vkop sl .. => some sl.num
  | .vcnt sl .. => some sl.num
  | .vpop sl .. => some sl.num
  | .frcp .. => some 5
  | .frsq .. => some 5
  | .fexp2 .. => some 5
  | .flog2 .. => some 5
  | .ftanh .. => some 5
  | .fsig .. => some 5
  | .fmov .. => some 5
  | .pack .. => some 6
  | .packAuto .. => some 6
  | .unpk .. => some 6
  | .rmrg .. => some 6
  | .shuf .. => some 6
  | .trns .. => some 6
  | .ilv .. => some 6
  | .dil .. => some 6
  | .pscl .. => some 6
  | .pmov .. => some 6
  | .aset .. => some 7
  | .ainc .. => some 7
  | .amod .. => some 7
  | .amov .. => some 7
  | .cim .. => some 8
  | .smx .. => some 8
  | .acz .. => some 8
  | .drn .. => some 8
  | .wpre .. => some 8
  | .wpin .. => some 8
  | .wunp .. => some 8
  | .winv .. => some 8
  | .wprb .. => some 8
  | .ld sl .. => some sl.num
  | .st sl .. => some sl.num
  | .lds sl .. => some sl.num
  | .sts sl .. => some sl.num
  | .stq sl .. => some sl.num
  | .fset sl .. => some sl.num
  | .fclr sl .. => some sl.num
  | .fwait sl .. => some sl.num
  | .park sl .. => some sl.num
  | .unpark sl .. => some sl.num
  | .gld .. => some 11
  | .gst .. => some 11
  | .gam .. => some 11
  | .ljn .. => some 11
  | .lwt .. => some 11
  | .gpf .. => some 11
  | .gcb .. => some 11
  | .xlt .. => some 12
  | .xlp .. => some 12
  | .xinv .. => some 12
  | .xfer .. => some 13
  | .xwt .. => some 13
  | .rstr .. => some 13
  | .send .. => some 13
  | .sendQueue .. => some 13
  | .recv .. => some 13
  | .dlc .. => some 13
  | .dlcApportioned .. => some 13
  | .fmtImm .. => some 14
  | .fmtReg .. => some 14
  | .sclt .. => some 14
  | .bar .. => some 14
  | .barArrive .. => some 14
  | .barWait .. => some 14
  | .barc .. => some 14
  | .cqp .. => some 14
  | .rel .. => some 14
  | .csrr .. => some 14
  | .csrw .. => some 14
  | .br .. => some 15
  | .call .. => some 15
  | .ret .. => some 15
  | .loop .. => some 15
  | .loopReg .. => some 15
  | .loopQ .. => some 15
  | .lsp .. => some 15
  | .lspReg .. => some 15
  | .lspQ .. => some 15
  | .brk .. => some 15
  | .fence .. => some 15
  | .fenceX .. => some 15
  | .ifence .. => some 15
  | .wait .. => some 15
  | .mpc .. => some 15
  | .yld .. => some 15
  | .trap .. => some 15
  | .tret .. => some 15
  | .done .. => some 15
  | .skip .. => none
  | .groupIssue .. => none
  | .interlockDataArrival .. => none
  | .fetchFault .. => none
  | .deferredCause .. => none
  | .schedulerResolve .. => none
  | .cmdLaunch .. => none
  | .cmdReserveSets .. => none
  | .cmdJournal .. => none
  | .cmdLinkChannel .. => none
  | .eventClear .. => none
  | .retadd .. => none
  | .configRegisterWrite .. => none
  | .hostApertureRead .. => none
  | .hostApertureWrite .. => none
  | .dispatch .. => none
  | .predecessorFaulted .. => none
  | .bindCluster .. => none
  | .restoreComplete .. => none
  | .preemptionRequest .. => none
  | .preemptSave .. => none
  | .saveComplete .. => none
  | .resume .. => none
  | .preemptionOverdue .. => none
  | .handlerBind .. => none
  | .drainComplete .. => none
  | .launchComplete .. => none
  | .launchFaulted .. => none
  | .matrixOpStart .. => none
  | .matrixOpComplete .. => none
  | .tileFillComplete .. => none
  | .replicaStart .. => none
  | .replicaComplete .. => none
  | .drainRowPush .. => none
  | .queueOverflow .. => none
  | .globalLoadPerform .. => none
  | .globalStorePerform .. => none
  | .storeAck .. => none
  | .l2Eviction .. => none
  | .hbmCalendarSlot .. => none
  | .hbmDataReturn .. => none
  | .ptsTick => none
  | .ptsWindowRaise => none
  | .timestampSweep .. => none
  | .lineCacheExpiryDrop .. => none
  | .xferRunLand .. => none
  | .xferComplete .. => none
  | .restripePageCommit .. => none
  | .walkComplete .. => none
  | .sideLogReplay .. => none
  | .xinvComplete .. => none
  | .exchangePhase => none
  | .exchangeApply .. => none
  | .latticeRebuildEnd .. => none
  | .linkRowReceive .. => none
  | .recvRowLand .. => none
  | .ownershipUpgrade .. => none
  | .recall .. => none
  | .uncorrectableErrorEvent .. => none
  | .rollback .. => none
  | .patrolScrub .. => none
  | .coreFailure .. => none
  | .channelFailure .. => none
  | .laneFailure .. => none
  | .flitRetry .. => none
  | .thermalHoldEntry .. => none
  | .thermalHoldExit .. => none
  | .thermalHoldOver1ms .. => none
  | .thresholdCrossing .. => none
  | .thermalTrip .. => none
  | .opTransitionEnd .. => none
  | .splitLevelChange .. => none
  | .rampBallast .. => none
  | .powerOn => none
  | .powerRemoval => none
  | .bringupRetirement .. => none
  | .bringupTraining .. => none
  | .bringupCapability => none
  | .bringupOpen => none
  | .bringupFailed .. => none
  | .peerDeviceRequest .. => none
  | .remoteQueueRoom .. => none

/-- The words of an instruction: its slot word, with the extension word of `li` and `lih`; the idle header for
`skip`; none for an event, which has no encoding. -/
def encode : Instr → List (BitVec 32)
  | .add _ g d a b => [wd 0 [(g.toNat, 23), (d.toNat, 18), (a.toNat, 13), (b.toNat, 8)]]
  | .addImm _ g d a i => [wd 67108864 [(g.toNat, 23), (d.toNat, 18), (a.toNat, 13), (i.toNat, 0)]]
  | .sub _ g d a b => [wd 134217728 [(g.toNat, 23), (d.toNat, 18), (a.toNat, 13), (b.toNat, 8)]]
  | .mul _ g d a b => [wd 201326592 [(g.toNat, 23), (d.toNat, 18), (a.toNat, 13), (b.toNat, 8)]]
  | .mulh _ g d a b u => [wd 268435456 [(g.toNat, 23), (d.toNat, 18), (a.toNat, 13), (b.toNat, 8), (u.toNat, 0)]]
  | .div _ g d a b u => [wd 335544320 [(g.toNat, 23), (d.toNat, 18), (a.toNat, 13), (b.toNat, 8), (u.toNat, 0)]]
  | .rem _ g d a b u => [wd 402653184 [(g.toNat, 23), (d.toNat, 18), (a.toNat, 13), (b.toNat, 8), (u.toNat, 0)]]
  | .and _ g d a b => [wd 469762048 [(g.toNat, 23), (d.toNat, 18), (a.toNat, 13), (b.toNat, 8)]]
  | .andImm _ g d a i => [wd 536870912 [(g.toNat, 23), (d.toNat, 18), (a.toNat, 13), (i.toNat, 0)]]
  | .or _ g d a b => [wd 603979776 [(g.toNat, 23), (d.toNat, 18), (a.toNat, 13), (b.toNat, 8)]]
  | .orImm _ g d a i => [wd 671088640 [(g.toNat, 23), (d.toNat, 18), (a.toNat, 13), (i.toNat, 0)]]
  | .xor _ g d a b => [wd 738197504 [(g.toNat, 23), (d.toNat, 18), (a.toNat, 13), (b.toNat, 8)]]
  | .xorImm _ g d a i => [wd 805306368 [(g.toNat, 23), (d.toNat, 18), (a.toNat, 13), (i.toNat, 0)]]
  | .shl _ g d a b => [wd 872415232 [(g.toNat, 23), (d.toNat, 18), (a.toNat, 13), (b.toNat, 8)]]
  | .shlImm _ g d a n => [wd 872415360 [(g.toNat, 23), (d.toNat, 18), (a.toNat, 13), (n.toNat, 0)]]
  | .shr _ g d a b => [wd 939524096 [(g.toNat, 23), (d.toNat, 18), (a.toNat, 13), (b.toNat, 8)]]
  | .shrImm _ g d a n => [wd 939524224 [(g.toNat, 23), (d.toNat, 18), (a.toNat, 13), (n.toNat, 0)]]
  | .sra _ g d a b => [wd 1006632960 [(g.toNat, 23), (d.toNat, 18), (a.toNat, 13), (b.toNat, 8)]]
  | .sraImm _ g d a n => [wd 1006633088 [(g.toNat, 23), (d.toNat, 18), (a.toNat, 13), (n.toNat, 0)]]
  | .min _ g d a b u => [wd 1073741824 [(g.toNat, 23), (d.toNat, 18), (a.toNat, 13), (b.toNat, 8), (u.toNat, 0)]]
  | .max _ g d a b u => [wd 1140850688 [(g.toNat, 23), (d.toNat, 18), (a.toNat, 13), (b.toNat, 8), (u.toNat, 0)]]
  | .cmp _ g d a b c => [wd 1207959552 [(g.toNat, 23), (d.toNat, 18), (a.toNat, 13), (b.toNat, 8), (c.toNat, 0)]]
  | .cmpImm _ g d a i => [wd 1275068416 [(g.toNat, 23), (d.toNat, 18), (a.toNat, 13), (i.toNat, 0)]]
  | .sel _ g d a b c => [wd 1342177280 [(g.toNat, 23), (d.toNat, 18), (a.toNat, 13), (b.toNat, 8), (c.toNat, 0)]]
  | .li _ g d e => [wd 1409286144 [(g.toNat, 23), (d.toNat, 18)], e]
  | .lih _ g d e => [wd 1476395008 [(g.toNat, 23), (d.toNat, 18)], e]
  | .bfx _ g d a w o => [wd 1543503872 [(g.toNat, 23), (d.toNat, 18), (a.toNat, 13), (w.toNat, 6), (o.toNat, 0)]]
  | .bfi _ g d a w o => [wd 1610612736 [(g.toNat, 23), (d.toNat, 18), (a.toNat, 13), (w.toNat, 6), (o.toNat, 0)]]
  | .clz _ g d a => [wd 1677721600 [(g.toNat, 23), (d.toNat, 18), (a.toNat, 13)]]
  | .popc _ g d a => [wd 1744830464 [(g.toNat, 23), (d.toNat, 18), (a.toNat, 13)]]
  | .cpy _ g d a f => [wd 1811939328 [(g.toNat, 23), (d.toNat, 18), (a.toNat, 13), (f.toNat, 0)]]
  | .cpyCommon _ g d a p f => [wd 1811939336 [(g.toNat, 23), (d.toNat, 18), (a.toNat, 13), (p.toNat, 4), (f.toNat, 0)]]
  | .vadd _ g d a b k t => [wd 0 [(g.toNat, 23), (d.toNat, 19), (a.toNat, 15), (b.toNat, 11), (k.toNat, 4), (t.toNat, 0)]]
  | .vsub _ g d a b k t => [wd 67108864 [(g.toNat, 23), (d.toNat, 19), (a.toNat, 15), (b.toNat, 11), (k.toNat, 4), (t.toNat, 0)]]
  | .vmul _ g d a b k t => [wd 134217728 [(g.toNat, 23), (d.toNat, 19), (a.toNat, 15), (b.toNat, 11), (k.toNat, 4), (t.toNat, 0)]]
  | .vmad _ g d a b k t => [wd 201326592 [(g.toNat, 23), (d.toNat, 19), (a.toNat, 15), (b.toNat, 11), (k.toNat, 4), (t.toNat, 0)]]
  | .vmin _ g d a b k t => [wd 268435456 [(g.toNat, 23), (d.toNat, 19), (a.toNat, 15), (b.toNat, 11), (k.toNat, 4), (t.toNat, 0)]]
  | .vmax _ g d a b k t => [wd 335544320 [(g.toNat, 23), (d.toNat, 19), (a.toNat, 15), (b.toNat, 11), (k.toNat, 4), (t.toNat, 0)]]
  | .vabs _ g d a k t => [wd 402653184 [(g.toNat, 23), (d.toNat, 19), (a.toNat, 15), (k.toNat, 4), (t.toNat, 0)]]
  | .vand _ g d a b k t => [wd 469762048 [(g.toNat, 23), (d.toNat, 19), (a.toNat, 15), (b.toNat, 11), (k.toNat, 4), (t.toNat, 0)]]
  | .vor _ g d a b k t => [wd 536870912 [(g.toNat, 23), (d.toNat, 19), (a.toNat, 15), (b.toNat, 11), (k.toNat, 4), (t.toNat, 0)]]
  | .vxor _ g d a b k t => [wd 603979776 [(g.toNat, 23), (d.toNat, 19), (a.toNat, 15), (b.toNat, 11), (k.toNat, 4), (t.toNat, 0)]]
  | .vshl _ g d a b k t => [wd 671088640 [(g.toNat, 23), (d.toNat, 19), (a.toNat, 15), (b.toNat, 11), (k.toNat, 4), (t.toNat, 0)]]
  | .vshr _ g d a b k t => [wd 738197504 [(g.toNat, 23), (d.toNat, 19), (a.toNat, 15), (b.toNat, 11), (k.toNat, 4), (t.toNat, 0)]]
  | .vcmp _ g d a b c k t => [wd 805306368 [(g.toNat, 23), (d.toNat, 19), (a.toNat, 15), (b.toNat, 11), (c.toNat, 7), (k.toNat, 4), (t.toNat, 0)]]
  | .vsel _ g d a b k t => [wd 872415232 [(g.toNat, 23), (d.toNat, 19), (a.toNat, 15), (b.toNat, 11), (k.toNat, 4), (t.toNat, 0)]]
  | .vred _ g d a c k t => [wd 939524096 [(g.toNat, 23), (d.toNat, 19), (a.toNat, 15), (c.toNat, 7), (k.toNat, 4), (t.toNat, 0)]]
  | .vscan _ g d a c k t => [wd 1006632960 [(g.toNat, 23), (d.toNat, 19), (a.toNat, 15), (c.toNat, 7), (k.toNat, 4), (t.toNat, 0)]]
  | .vhist _ g d a k t => [wd 1073741824 [(g.toNat, 23), (d.toNat, 19), (a.toNat, 15), (k.toNat, 4), (t.toNat, 0)]]
  | .vtopk _ g d a c k t => [wd 1140850688 [(g.toNat, 23), (d.toNat, 19), (a.toNat, 15), (c.toNat, 7), (k.toNat, 4), (t.toNat, 0)]]
  | .vcvt _ g d a s k t => [wd 1207959552 [(g.toNat, 23), (d.toNat, 19), (a.toNat, 15), (s.toNat, 7), (k.toNat, 4), (t.toNat, 0)]]
  | .vbcast _ g d r p k t => [wd 1275068416 [(g.toNat, 23), (d.toNat, 19), (r.toNat, 14), (p.toNat, 12), (k.toNat, 4), (t.toNat, 0)]]
  | .vmov _ g d a f k t => [wd 1342177280 [(g.toNat, 23), (d.toNat, 19), (a.toNat, 15), (f.toNat, 7), (k.toNat, 4), (t.toNat, 0)]]
  | .vkop _ g d a b c => [wd 1409286144 [(g.toNat, 23), (d.toNat, 19), (a.toNat, 15), (b.toNat, 11), (c.toNat, 7)]]
  | .vcnt _ g d k t => [wd 1476395008 [(g.toNat, 23), (d.toNat, 19), (k.toNat, 4), (t.toNat, 0)]]
  | .vpop _ g d q k t => [wd 1543503872 [(g.toNat, 23), (d.toNat, 19), (q.toNat, 15), (k.toNat, 4), (t.toNat, 0)]]
  | .frcp g d a t => [wd 0 [(g.toNat, 23), (d.toNat, 20), (a.toNat, 17), (t.toNat, 10)]]
  | .frsq g d a t => [wd 67108864 [(g.toNat, 23), (d.toNat, 20), (a.toNat, 17), (t.toNat, 10)]]
  | .fexp2 g d a t => [wd 134217728 [(g.toNat, 23), (d.toNat, 20), (a.toNat, 17), (t.toNat, 10)]]
  | .flog2 g d a t => [wd 201326592 [(g.toNat, 23), (d.toNat, 20), (a.toNat, 17), (t.toNat, 10)]]
  | .ftanh g d a t => [wd 268435456 [(g.toNat, 23), (d.toNat, 20), (a.toNat, 17), (t.toNat, 10)]]
  | .fsig g d a t => [wd 335544320 [(g.toNat, 23), (d.toNat, 20), (a.toNat, 17), (t.toNat, 10)]]
  | .fmov g d a f => [wd 402653184 [(g.toNat, 23), (d.toNat, 20), (a.toNat, 17), (f.toNat, 0)]]
  | .pack g d a r p t => [wd 0 [(g.toNat, 23), (d.toNat, 20), (a.toNat, 17), (r.toNat, 9), (p.toNat, 7), (t.toNat, 3)]]
  | .packAuto g d a t => [wd 1 [(g.toNat, 23), (d.toNat, 20), (a.toNat, 17), (t.toNat, 3)]]
  | .unpk g d a t => [wd 67108864 [(g.toNat, 23), (d.toNat, 20), (a.toNat, 17), (t.toNat, 3)]]
  | .rmrg g d a b r p => [wd 134217728 [(g.toNat, 23), (d.toNat, 20), (a.toNat, 17), (b.toNat, 14), (r.toNat, 9), (p.toNat, 7)]]
  | .shuf g d a b t => [wd 201326592 [(g.toNat, 23), (d.toNat, 20), (a.toNat, 17), (b.toNat, 14), (t.toNat, 3)]]
  | .trns g d a b t => [wd 268435456 [(g.toNat, 23), (d.toNat, 20), (a.toNat, 17), (b.toNat, 14), (t.toNat, 3)]]
  | .ilv g d a b t => [wd 335544320 [(g.toNat, 23), (d.toNat, 20), (a.toNat, 17), (b.toNat, 14), (t.toNat, 3)]]
  | .dil g d a b t => [wd 402653184 [(g.toNat, 23), (d.toNat, 20), (a.toNat, 17), (b.toNat, 14), (t.toNat, 3)]]
  | .pscl g d a r p t => [wd 469762048 [(g.toNat, 23), (d.toNat, 20), (a.toNat, 17), (r.toNat, 9), (p.toNat, 7), (t.toNat, 3)]]
  | .pmov g d a f => [wd 536870912 [(g.toNat, 23), (d.toNat, 20), (a.toNat, 17), (f.toNat, 0)]]
  | .aset g d r p => [wd 0 [(g.toNat, 23), (d.toNat, 19), (r.toNat, 6), (p.toNat, 4)]]
  | .ainc g d m => [wd 67108864 [(g.toNat, 23), (d.toNat, 19), (m.toNat, 11)]]
  | .amod g d r p e => [wd 134217728 [(g.toNat, 23), (d.toNat, 19), (r.toNat, 6), (p.toNat, 4), (e.toNat, 0)]]
  | .amov g d a s w => [wd 201326592 [(g.toNat, 23), (d.toNat, 19), (a.toNat, 15), (s.toNat, 1), (w.toNat, 0)]]
  | .cim g r p s q b m l o t => [wd 0 [(g.toNat, 23), (r.toNat, 18), (p.toNat, 16), (s.toNat, 11), (q.toNat, 9), (b.toNat, 7), (m.toNat, 3), (l.toNat, 2), (o.toNat, 1), (t.toNat, 0)]]
  | .smx g r p s q b m l o t => [wd 67108864 [(g.toNat, 23), (r.toNat, 18), (p.toNat, 16), (s.toNat, 11), (q.toNat, 9), (b.toNat, 7), (m.toNat, 3), (l.toNat, 2), (o.toNat, 1), (t.toNat, 0)]]
  | .acz g r p b => [wd 134217728 [(g.toNat, 23), (r.toNat, 18), (p.toNat, 16), (b.toNat, 7)]]
  | .drn g r p b n => [wd 201326592 [(g.toNat, 23), (r.toNat, 18), (p.toNat, 16), (b.toNat, 7), (n.toNat, 4)]]
  | .wpre g s q n => [wd 268435456 [(g.toNat, 23), (s.toNat, 11), (q.toNat, 9), (n.toNat, 0)]]
  | .wpin g s q => [wd 335544320 [(g.toNat, 23), (s.toNat, 11), (q.toNat, 9)]]
  | .wunp g s q => [wd 402653184 [(g.toNat, 23), (s.toNat, 11), (q.toNat, 9)]]
  | .winv g s q => [wd 469762048 [(g.toNat, 23), (s.toNat, 11), (q.toNat, 9)]]
  | .wprb g d s q => [wd 536870912 [(g.toNat, 23), (d.toNat, 18), (s.toNat, 11), (q.toNat, 9)]]
  | .ld _ g r f a m w c => [wd 0 [(g.toNat, 23), (r.toNat, 19), (f.toNat, 16), (a.toNat, 12), (m.toNat, 8), (w.toNat, 1), (c.toNat, 0)]]
  | .st _ g r f a m => [wd 67108864 [(g.toNat, 23), (r.toNat, 19), (f.toNat, 16), (a.toNat, 12), (m.toNat, 8)]]
  | .lds _ g r f a m w c => [wd 134217728 [(g.toNat, 23), (r.toNat, 19), (f.toNat, 16), (a.toNat, 12), (m.toNat, 8), (w.toNat, 1), (c.toNat, 0)]]
  | .sts _ g r f a m p => [wd 201326592 [(g.toNat, 23), (r.toNat, 19), (f.toNat, 16), (a.toNat, 12), (m.toNat, 8), (p.toNat, 0)]]
  | .stq _ g q a m => [wd 268435456 [(g.toNat, 23), (q.toNat, 19), (a.toNat, 12), (m.toNat, 8)]]
  | .fset _ g a m w => [wd 335544320 [(g.toNat, 23), (a.toNat, 12), (m.toNat, 8), (w.toNat, 0)]]
  | .fclr _ g a m w => [wd 402653184 [(g.toNat, 23), (a.toNat, 12), (m.toNat, 8), (w.toNat, 0)]]
  | .fwait _ g a m w => [wd 469762048 [(g.toNat, 23), (a.toNat, 12), (m.toNat, 8), (w.toNat, 0)]]
  | .park _ g r f p e => [wd 536870912 [(g.toNat, 23), (r.toNat, 19), (f.toNat, 16), (p.toNat, 6), (e.toNat, 0)]]
  | .unpark _ g r f e => [wd 603979776 [(g.toNat, 23), (r.toNat, 19), (f.toNat, 16), (e.toNat, 0)]]
  | .gld g r f a m c o z => [wd 0 [(g.toNat, 23), (r.toNat, 19), (f.toNat, 16), (a.toNat, 12), (m.toNat, 8), (c.toNat, 4), (o.toNat, 2), (z.toNat, 0)]]
  | .gst g r f a m c o z => [wd 67108864 [(g.toNat, 23), (r.toNat, 19), (f.toNat, 16), (a.toNat, 12), (m.toNat, 8), (c.toNat, 4), (o.toNat, 2), (z.toNat, 0)]]
  | .gam g r f a m c o n => [wd 134217728 [(g.toNat, 23), (r.toNat, 19), (f.toNat, 16), (a.toNat, 12), (m.toNat, 8), (c.toNat, 5), (o.toNat, 3), (n.toNat, 0)]]
  | .ljn g r f a m => [wd 201326592 [(g.toNat, 23), (r.toNat, 19), (f.toNat, 16), (a.toNat, 12), (m.toNat, 8)]]
  | .lwt g r f a m o => [wd 268435456 [(g.toNat, 23), (r.toNat, 19), (f.toNat, 16), (a.toNat, 12), (m.toNat, 8), (o.toNat, 2)]]
  | .gpf g a m t => [wd 335544320 [(g.toNat, 23), (a.toNat, 12), (m.toNat, 8), (t.toNat, 0)]]
  | .gcb g a m t => [wd 402653184 [(g.toNat, 23), (a.toNat, 12), (m.toNat, 8), (t.toNat, 0)]]
  | .xlt g d a w => [wd 0 [(g.toNat, 23), (d.toNat, 18), (a.toNat, 14), (w.toNat, 0)]]
  | .xlp g d a w => [wd 67108864 [(g.toNat, 23), (d.toNat, 18), (a.toNat, 14), (w.toNat, 0)]]
  | .xinv g a n => [wd 134217728 [(g.toNat, 23), (a.toNat, 14), (n.toNat, 0)]]
  | .xfer g r p v t => [wd 0 [(g.toNat, 23), (r.toNat, 18), (p.toNat, 16), (v.toNat, 6), (t.toNat, 0)]]
  | .xwt g t => [wd 67108864 [(g.toNat, 23), (t.toNat, 0)]]
  | .rstr g r p s q n => [wd 134217728 [(g.toNat, 23), (r.toNat, 18), (p.toNat, 16), (s.toNat, 11), (q.toNat, 9), (n.toNat, 0)]]
  | .send g r p s q => [wd 201326592 [(g.toNat, 23), (r.toNat, 18), (p.toNat, 16), (s.toNat, 11), (q.toNat, 9)]]
  | .sendQueue g r p s q n => [wd 201326600 [(g.toNat, 23), (r.toNat, 18), (p.toNat, 16), (s.toNat, 11), (q.toNat, 9), (n.toNat, 0)]]
  | .recv g r p s q => [wd 268435456 [(g.toNat, 23), (r.toNat, 18), (p.toNat, 16), (s.toNat, 11), (q.toNat, 9)]]
  | .dlc g r p => [wd 335544320 [(g.toNat, 23), (r.toNat, 18), (p.toNat, 16)]]
  | .dlcApportioned g r p => [wd 335544321 [(g.toNat, 23), (r.toNat, 18), (p.toNat, 16)]]
  | .fmtImm g i => [wd 0 [(g.toNat, 23), (i.toNat, 0)]]
  | .fmtReg g p r => [wd 4194304 [(g.toNat, 23), (p.toNat, 5), (r.toNat, 0)]]
  | .sclt g q h p l => [wd 67108864 [(g.toNat, 23), (q.toNat, 12), (h.toNat, 7), (p.toNat, 5), (l.toNat, 0)]]
  | .bar g b => [wd 134217728 [(g.toNat, 23), (b.toNat, 0)]]
  | .barArrive g b => [wd 134219776 [(g.toNat, 23), (b.toNat, 0)]]
  | .barWait g b => [wd 134221824 [(g.toNat, 23), (b.toNat, 0)]]
  | .barc g p r b => [wd 201326592 [(g.toNat, 23), (p.toNat, 16), (r.toNat, 11), (b.toNat, 0)]]
  | .cqp g p r => [wd 268435456 [(g.toNat, 23), (p.toNat, 5), (r.toNat, 0)]]
  | .rel g m => [wd 335544320 [(g.toNat, 23), (m.toNat, 0)]]
  | .csrr g d n => [wd 402653184 [(g.toNat, 23), (d.toNat, 18), (n.toNat, 0)]]
  | .csrw g p s n => [wd 469762048 [(g.toNat, 23), (p.toNat, 17), (s.toNat, 12), (n.toNat, 0)]]
  | .br g c p o => [wd 0 [(g.toNat, 23), (c.toNat, 18), (p.toNat, 16), (o.toNat, 0)]]
  | .call g c p o => [wd 67108864 [(g.toNat, 23), (c.toNat, 18), (p.toNat, 16), (o.toNat, 0)]]
  | .ret g c p => [wd 134217728 [(g.toNat, 23), (c.toNat, 18), (p.toNat, 16)]]
  | .loop g l n => [wd 201326592 [(g.toNat, 23), (l.toNat, 9), (n.toNat, 0)]]
  | .loopReg g l p r => [wd 203423744 [(g.toNat, 23), (l.toNat, 9), (p.toNat, 5), (r.toNat, 0)]]
  | .loopQ g l => [wd 205520896 [(g.toNat, 23), (l.toNat, 9)]]
  | .lsp g s l n => [wd 268435456 [(g.toNat, 23), (s.toNat, 18), (l.toNat, 9), (n.toNat, 0)]]
  | .lspReg g s l p r => [wd 270532608 [(g.toNat, 23), (s.toNat, 18), (l.toNat, 9), (p.toNat, 5), (r.toNat, 0)]]
  | .lspQ g s l => [wd 272629760 [(g.toNat, 23), (s.toNat, 18), (l.toNat, 9)]]
  | .brk g c => [wd 335544320 [(g.toNat, 23), (c.toNat, 0)]]
  | .fence g k s => [wd 402653184 [(g.toNat, 23), (k.toNat, 11), (s.toNat, 8)]]
  | .fenceX g s p => [wd 402685952 [(g.toNat, 23), (s.toNat, 8), (p.toNat, 0)]]
  | .ifence g => [wd 469762048 [(g.toNat, 23)]]
  | .wait g n => [wd 536870912 [(g.toNat, 23), (n.toNat, 0)]]
  | .mpc g o => [wd 603979776 [(g.toNat, 23), (o.toNat, 0)]]
  | .yld g => [wd 671088640 [(g.toNat, 23)]]
  | .trap g c => [wd 738197504 [(g.toNat, 23), (c.toNat, 0)]]
  | .tret g => [wd 805306368 [(g.toNat, 23)]]
  | .done g => [wd 872415232 [(g.toNat, 23)]]
  | .skip i v o => [wd 65536 [(i.toNat, 24), (v.toNat, 21), (o.toNat, 18)]]
  | .groupIssue .. => []
  | .interlockDataArrival .. => []
  | .fetchFault .. => []
  | .deferredCause .. => []
  | .schedulerResolve .. => []
  | .cmdLaunch .. => []
  | .cmdReserveSets .. => []
  | .cmdJournal .. => []
  | .cmdLinkChannel .. => []
  | .eventClear .. => []
  | .retadd .. => []
  | .configRegisterWrite .. => []
  | .hostApertureRead .. => []
  | .hostApertureWrite .. => []
  | .dispatch .. => []
  | .predecessorFaulted .. => []
  | .bindCluster .. => []
  | .restoreComplete .. => []
  | .preemptionRequest .. => []
  | .preemptSave .. => []
  | .saveComplete .. => []
  | .resume .. => []
  | .preemptionOverdue .. => []
  | .handlerBind .. => []
  | .drainComplete .. => []
  | .launchComplete .. => []
  | .launchFaulted .. => []
  | .matrixOpStart .. => []
  | .matrixOpComplete .. => []
  | .tileFillComplete .. => []
  | .replicaStart .. => []
  | .replicaComplete .. => []
  | .drainRowPush .. => []
  | .queueOverflow .. => []
  | .globalLoadPerform .. => []
  | .globalStorePerform .. => []
  | .storeAck .. => []
  | .l2Eviction .. => []
  | .hbmCalendarSlot .. => []
  | .hbmDataReturn .. => []
  | .ptsTick => []
  | .ptsWindowRaise => []
  | .timestampSweep .. => []
  | .lineCacheExpiryDrop .. => []
  | .xferRunLand .. => []
  | .xferComplete .. => []
  | .restripePageCommit .. => []
  | .walkComplete .. => []
  | .sideLogReplay .. => []
  | .xinvComplete .. => []
  | .exchangePhase => []
  | .exchangeApply .. => []
  | .latticeRebuildEnd .. => []
  | .linkRowReceive .. => []
  | .recvRowLand .. => []
  | .ownershipUpgrade .. => []
  | .recall .. => []
  | .uncorrectableErrorEvent .. => []
  | .rollback .. => []
  | .patrolScrub .. => []
  | .coreFailure .. => []
  | .channelFailure .. => []
  | .laneFailure .. => []
  | .flitRetry .. => []
  | .thermalHoldEntry .. => []
  | .thermalHoldExit .. => []
  | .thermalHoldOver1ms .. => []
  | .thresholdCrossing .. => []
  | .thermalTrip .. => []
  | .opTransitionEnd .. => []
  | .splitLevelChange .. => []
  | .rampBallast .. => []
  | .powerOn => []
  | .powerRemoval => []
  | .bringupRetirement .. => []
  | .bringupTraining .. => []
  | .bringupCapability => []
  | .bringupOpen => []
  | .bringupFailed .. => []
  | .peerDeviceRequest .. => []
  | .remoteQueueRoom .. => []

/-- How many bits of an operation's word its operands take (Tables 3-5 to 3-13); 26 where only the opcode is fixed. -/
def Instr.operandBits : Instr → Nat
  | .ifence .. | .yld .. | .tret .. | .done .. => 3
  | .wait .. => 7
  | .li .. | .lih .. | .fence .. => 8
  | .xwt .. => 9
  | .wpin .. | .wunp .. | .winv .. | .dlc .. | .dlcApportioned .. | .fmtReg .. | .cqp .. | .ret .. => 10
  | .ainc .. | .rel .. | .fenceX .. => 11
  | .fmov .. | .pmov .. | .acz .. | .wpre .. | .fset .. | .fclr .. | .fwait .. | .skip .. => 12
  | .clz .. | .popc .. | .frcp .. | .frsq .. | .fexp2 .. | .flog2 .. | .ftanh .. | .fsig .. | .packAuto ..
  | .unpk .. | .amov .. | .gpf .. | .gcb .. | .xlt .. | .xlp .. => 13
  | .vcnt .. | .aset .. | .bar .. | .barArrive .. | .barWait .. => 14
  | .drn .. | .wprb .. | .stq .. | .loopQ .. | .lspQ .. => 15
  | .cpy .. | .vkop .. | .shuf .. | .trns .. | .ilv .. | .dil .. | .unpark .. => 16
  | .vpop .. | .xfer .. | .send .. | .recv .. | .sclt .. => 17
  | .add .. | .sub .. | .mul .. | .and .. | .or .. | .xor .. | .shl .. | .shr .. | .sra .. | .cpyCommon ..
  | .vabs .. | .vhist .. | .amod .. | .st .. | .park .. | .ljn .. => 18
  | .mulh .. | .div .. | .rem .. | .shlImm .. | .shrImm .. | .sraImm .. | .min .. | .max .. | .rmrg ..
  | .fmtImm .. | .brk .. | .mpc .. | .trap .. => 19
  | .pack .. | .pscl .. | .ld .. | .lds .. | .sts .. | .lwt .. | .sendQueue .. | .csrr .. => 20
  | .cmp .. | .vbcast .. | .xinv .. | .barc .. => 21
  | .vadd .. | .vsub .. | .vmul .. | .vmad .. | .vmin .. | .vmax .. | .vand .. | .vor .. | .vxor .. | .vshl ..
  | .vshr .. | .vsel .. | .vred .. | .vscan .. | .vtopk .. | .vcvt .. | .vmov .. | .csrw .. | .loopReg ..
  | .lspReg .. => 22
  | .sel .. | .cim .. | .smx .. => 23
  | .loop .. | .lsp .. => 24
  | .vcmp .. | .gld .. | .gst .. => 25
  | _ => 26

/-- The slot classes in which a word alone is tried: SA, VA, FX, PX, AX, MX, LA, GM, XL, EX, CX and BR (log 7). -/
def tableSlots : List Nat := [0, 2, 5, 6, 7, 8, 9, 11, 12, 13, 14, 15]

/-- Of the slot classes listed, the one in which `w` (with extension word `e`) is a legal word with the fewest operand
bits, the first of equals, and the instruction read (DESIGN CHOICE, log 7: a word alone names no class). -/
def closestLegal (w e : Nat) : List Nat → Option (Nat × Instr)
  | [] => none
  | k :: ks =>
    match decodeSlot k w e, closestLegal w e ks with
    | .ok i, some (k', i') => if i'.operandBits < i.operandBits then some (k', i') else some (k, i)
    | .ok i, none => some (k, i)
    | .error _, r => r

/-- The instruction that a table word stands for, with the slot it is read in; no slot for the idle header. -/
def readTableWord (w : Nat) : Option (Option Nat × Instr) :=
  match closestLegal (w % 2 ^ 32) (w / 2 ^ 32 % 2 ^ 32) tableSlots with
  | some (k, i) => some (some k, i)
  | none =>
    match decodeSkip (w % 2 ^ 32) with
    | .ok i => some (none, i)
    | .error _ => none

/-- The instruction the decoder reads from an instruction whose bits are `w`, numbered as the opcode table numbers
them (the first word lowest); `nbits` bits of it are given and the rest are zero. -/
def decodeTableWord (nbits w : Nat) : Option Instr := (readTableWord (w % 2 ^ nbits)).map (·.2)

end Sys2Proof
end

