-- ==== Sys2Proof/Word.lean ====
section
/-! DEFINITION. Word types of the machine: scalar and vector registers, and the plainest arithmetic on them (R72, R99). -/

namespace Sys2Proof

/-- A scalar register, an address or a descriptor: 64 bits (R72). -/
abbrev Word := BitVec 64

/-- A 2048-bit register: va, vb, vc, f or z (R72). -/
abbrev Vec := BitVec 2048

/-- A predicate register: one bit for each byte lane (R73). -/
abbrev PredReg := BitVec 256

/-- A byte of memory. -/
abbrev Byte := BitVec 8

/-- A logical timestamp: 24 bits, compared serially (R202, R203). -/
abbrev Stamp := BitVec 24

end Sys2Proof
end

