-- ==== Sys2Proof/Config.lean ====
section
/-! DEFINITION. What the part fixes by figure, and the free values (no body: no proof can see what they are). -/

namespace Sys2Proof

/-- FREE VALUE (log 11): whether a fetch of a line that a store has changed since the instruction cache took it
returns the new line; R356 promises either.  The argument counts the draws. -/
opaque Config.freeLine : Nat → Bool

/-- FREE VALUE (log 23): a byte of a save area whose place within its region of Table 18-4 the spec does not give.  The
arguments are the count of the draws and the offset in the area. -/
opaque Config.saveByte : Nat → Nat → Byte

/-- FREE VALUE (log 66): which line of a full cache gives its place to a new one; the spec names no replacement rule.
The argument counts the draws. -/
opaque Config.victim : Nat → Nat

/-- FREE VALUE (log 67): a byte of the capability list that the spec leaves to the part: the longest transition, the
temperatures of the thresholds.  The argument is its offset in the list. -/
opaque Config.partByte : Nat → Byte

/-- BUID: VENDOR 0xB3D0, PART 0x00A4, STEP 0x01 (R301). -/
def Config.buid : Word := 0x0000000100A4B3D0

/-- Entries of a landing buffer (R13, R30). -/
def Config.landingEntries : Nat := 64

/-- Entries of a core's count queue and side log, and rows of a result queue (R13). -/
def Config.queueEntries : Nat := 64

/-- Cycles that a drain may wait for room in its queue (R156). -/
def Config.drainLimit : Nat := 4096

/-- Entries of a loop stack (R90). -/
def Config.loopDepth : Nat := 6

/-- Accepted matrix operations of one context (Table 8-3). -/
def Config.matrixOps : Nat := 16

/-- Transfers of one context not completed (R417). -/
def Config.transfers : Nat := 16

/-- Page-table walks active at once on a die (R14, R182). -/
def Config.dieWalks : Nat := 128

/-- Entries of the retirement table (R312). -/
def Config.retirements : Nat := 1024

/-- Rows of a link receive queue (R269). -/
def Config.linkRows : Nat := 256

/-- Cells of one snapshot toward a partner (R222). -/
def Config.snapshot : Nat := 4096

/-- Steps of the settling window that a request from point `a` to point `b` opens: W(a, b) of R307. -/
def Config.settle (a b : Nat) : Nat := 4 + 2 * (if a ≤ b then b - a else a - b)

/-- Line-end marks and bundles that one group may take: as many as the address space holds bytes, so that a fetch
never runs out of them (log 13). -/
def Config.walkFuel : Nat := 2 ^ 64

/-- Lines of an instruction cache: 128 KiB (R13). -/
def Config.codeLines : Nat := 2048

/-- Lines of a global line cache: 64 KiB (R13, R175). -/
def Config.cacheLines : Nat := 1024

/-- Lines of a die's L2: 64 MiB (R14, R175). -/
def Config.l2Lines : Nat := 2 ^ 20

/-- Lines of the memory-side cache of one stack: 16 MiB (R175). -/
def Config.sideLines : Nat := 2 ^ 18

/-- Frequencies of the operating points 0 to 7 in MHz (R16). -/
def Config.points : List Nat := [2000, 1800, 1600, 1400, 1200, 1000, 800, 600]

/-- The cap points of the thresholds T1, T2 and T3 (R309). -/
def Config.capPoints : List Nat := [2, 4, 7]

end Sys2Proof
end

