-- ==== Sys2Proof/Machine/Bits.lean ====
section
/-! DEFINITION. Bit fields, extensions, elements and byte order (R6, R99, Table 20-1). -/

namespace Sys2Proof.Machine

/-- Bits `lo` to `lo + n - 1` of a number. -/
def bitsOf (v lo n : Nat) : Nat := v / 2 ^ lo % 2 ^ n

/-- Bit `i` of a number. -/
def bitOf (v i : Nat) : Bool := v / 2 ^ i % 2 == 1

/-- The low `n` bits of `v` read as two's complement. -/
def toSigned (n v : Nat) : Int :=
  let u := v % 2 ^ n
  if n = 0 then 0 else if u < 2 ^ (n - 1) then (u : Int) else (u : Int) - 2 ^ n

/-- An integer as an `n`-bit pattern. -/
def ofSigned (n : Nat) (i : Int) : Nat := (i % 2 ^ n).toNat

/-- `sext(v, n)` of Table 20-1, to 64 bits. -/
def sextW (n v : Nat) : Word := BitVec.ofInt 64 (toSigned n v)

/-- `rev(v, k)` of Table 20-1: bits k-1 to 0 in reverse order. -/
def revBits : Nat → Nat → Nat
  | 0, _ => 0
  | k + 1, v => (v % 2) * 2 ^ k + revBits k (v / 2)

/-- How many of the low `n` bits of `v` are set. -/
def popBits : Nat → Nat → Nat
  | 0, _ => 0
  | n + 1, v => v % 2 + popBits n (v / 2)

/-- Element `i` of width `w` of a register, as a bit pattern (R99). -/
def elem (v : Vec) (w i : Nat) : Nat := v.toNat >>> (w * i) % 2 ^ w

/-- The number whose `n` elements of width `w` are `f 0`, `f 1`, … -/
def packNat (w : Nat) (f : Nat → Nat) : Nat → Nat
  | 0 => 0
  | n + 1 => packNat w f n + (f n % 2 ^ w) <<< (w * n)

/-- The register whose first `n` elements of width `w` are `f`, the rest zero. -/
def ofElems (w n : Nat) (f : Nat → Nat) : Vec := BitVec.ofNat 2048 (packNat w f n)

/-- The number whose elements of width `w` are those of a list, lowest first. -/
def packList (w : Nat) : List Nat → Nat
  | [] => 0
  | v :: vs => v % 2 ^ w + packList w vs <<< w

/-- The register whose elements of width `w` are those of a list, the rest zero. -/
def vecOf (w : Nat) (l : List Nat) : Vec := BitVec.ofNat 2048 (packList w l)

/-- All ones in `n` bits from bit `lo`. -/
def onesAt (lo n : Nat) : Vec := BitVec.ofNat 2048 ((2 ^ n - 1) <<< lo)

/-- The bytes of a number, lowest first (R6). -/
def bytesLE : Nat → Nat → List Byte
  | 0, _ => []
  | n + 1, v => BitVec.ofNat 8 v :: bytesLE n (v / 256)

/-- The number that bytes give, lowest first. -/
def natLE : List Byte → Nat
  | [] => 0
  | b :: bs => b.toNat + 256 * natLE bs

/-- Serial comparison of timestamps: p ≤ q (R203). -/
def serLe (p q : Stamp) : Bool := (q - p).toNat < 2 ^ 23

/-- Serial maximum (R203). -/
def serMax (p q : Stamp) : Stamp := if serLe p q then q else p

/-- Serial minimum. -/
def serMin (p q : Stamp) : Stamp := if serLe p q then p else q

end Sys2Proof.Machine
end

