-- ==== Sys2Proof/Machine/State.lean ====
section
/-! DEFINITION. The state of the package, as plain data.

Everything the spec gives the machine stands here: the 512 context positions, the 256 cores, the 64 clusters, the four
compute dies, the memory, and the package itself (scheduler, host window, bring-up).  INVENTORY.md lists each piece
with its rule and reset value.  Tables are sparse (`SMap`): an unlisted position, core, register, byte or line is at
its reset value. -/

namespace Sys2Proof.Machine

/-- The register files of a context (Table 4-1); the codes 0 to 7 are those of Table 3-3. -/
inductive File where
  | va | vb | vc | x | y | c | f | z | ka | kb | kc | a | w
  deriving DecidableEq, Repr

/-- A physical register: a file and its number after rotation (R76). -/
structure Reg where
  file : File
  num : Nat
  deriving DecidableEq, Repr

/-- The register files of one context; zero where unlisted (R72). -/
structure Files where
  x : SMap Word := []
  y : SMap Word := []
  c : SMap Word := []
  a : SMap Word := []
  w : SMap Word := []
  va : SMap Vec := []
  vb : SMap Vec := []
  vc : SMap Vec := []
  f : SMap Vec := []
  z : SMap Vec := []
  ka : SMap PredReg := []
  kb : SMap PredReg := []
  kc : SMap PredReg := []
  deriving DecidableEq, Repr

/-- The states of a context position (Table 2-1). -/
inductive PosState where
  | free | restoring | ready | blocked | saving | trapped | draining
  deriving DecidableEq, Repr

/-- What a landing-buffer entry writes: a register, FMT, the scale table, or a control register (R78, R81). -/
inductive Dest where
  | reg (r : Reg)
  | fmt
  | scl
  | csr (n : Nat)
  deriving DecidableEq, Repr

/-- A landing-buffer entry (R28 to R31): its value, the bits it writes, the steps still to issue before it lands, the
slot and step that decide a collision (R36), and its poison mark (R290). -/
structure Landing where
  dest : Dest
  value : Vec
  mask : Vec
  rem : Nat
  slot : Nat
  born : Nat
  bad : Bool
  deriving DecidableEq, Repr

/-- A loop-stack entry (R90), with the three bits of R71.  What the sequencer knows of the body (R425, log 13): `scan`
is the address past the body groups met so far, `last` the address of the last of them, `left` how many are still to be
met.  `here` is the address past the farthest body group that has issued in the iteration under way, the start of the body
before any has.  Of the loop buffer (R96, log 74): `buf` says that it takes this body, `fresh` that it has taken every group of the
iteration under way, `full` that it holds the body, which replays. -/
structure LoopEntry where
  lsp : Bool
  index : Nat
  bound : Nat
  stages : Nat
  start : Word
  len : Nat
  fmtBit : Bool
  scltBit : Bool
  opBit : Bool
  scan : Word
  last : Word
  left : Nat
  here : Word
  buf : Bool
  fresh : Bool
  full : Bool
  deriving DecidableEq, Repr

/-- A fetched group (R47): the address it was fetched from (a line-end mark may stand there), its address, the address
past its last bundle, its request, its operations by slot, and the idle steps of `skip` (0 for a group of operations). -/
structure Grp where
  src : Word
  addr : Word
  next : Word
  op : Option (BitVec 3)
  ops : List (Nat × Instr)
  idle : Nat
  deriving DecidableEq, Repr

/-- A cause as a trap record names it (Tables 18-1 to 18-3). `rank` is the order of R279: 1 fetch, 2 header,
3 the other checks of Table 3-14, 4 privilege, 5 the rest. -/
structure Cause where
  code : Nat
  rank : Nat
  slot : Nat
  addr : Word
  place : Word
  frame : Word
  access : Nat
  num : Nat
  info : Word
  deriving DecidableEq, Repr

/-- An extent (R180, R181): pages of 64 KiB from `vpn`, the frame of the first, the placement word, the frame word's
permission bits, the kinds granted (r w x l in bits 0 to 3), and whether the run is absent. -/
structure Extent where
  vpn : Nat
  pages : Nat
  frame : Nat
  place : Word
  perm : Word
  kinds : Nat
  absent : Bool
  deriving DecidableEq, Repr

/-- A declared range (Table 16-7). -/
structure Range where
  base : Nat
  len : Nat
  kinds : Nat
  deriving DecidableEq, Repr

/-- The accesses of the global path; `pf` is a prefetch, which is no access for ordering (R354). -/
inductive GKind where
  | load | store | gam | ljn | lwt | pf
  deriving DecidableEq, Repr

/-- A global access in flight: one line access or less (R174), with its translation, its data and its order
qualifiers; `done` when performed (R192), with the timestamp its home returned; `again` for a load that is made again
after a save (R289), `lost` where its page has been recalled since it issued (R235). -/
structure GReq where
  kind : GKind
  id : Nat
  va : Word
  key : Nat
  home : Nat
  place : Word
  size : Nat
  data : BitVec 512
  bad : Bool
  op : Nat
  arg : Word
  dest : Option Reg
  lane : Nat
  acq : Bool
  scope : Nat
  pts : Stamp
  done : Bool
  wts : Stamp
  again : Bool
  lost : Bool
  deriving DecidableEq, Repr

/-- A destination pending under R32: the parts still to come, the value and mark gathered so far, and the loads that have
given their part, which are made again after a save (R287). -/
structure Pend where
  dest : Reg
  mask : Vec
  id : Nat
  left : Nat
  value : Vec
  bad : Bool
  got : List GReq
  deriving DecidableEq, Repr

/-- A copy-engine transfer or restripe (R169, R189): the card or page list, the next run or page, the bytes of that run
read so far with their mark, what holds it, the granules that were full when the transfer emptied them, and its place
in the order in which transfers issued.  Of a page marked for its move (R189 step 1): the placement and the physical address
that its leaf held at that moment, and where the leaf stands. -/
structure Xfer where
  restripe : Bool
  tag : Nat
  gaddr : Word
  card : BitVec 1024
  first : Word
  count : Nat
  place : Word
  next : Nat
  marked : Bool
  locks : List Nat
  held : Option Cause
  dropped : Bool
  landed : Bool
  buf : List Byte
  bufBad : Bool
  own : List Nat
  num : Nat
  old : Word
  pa : Nat
  leaf : Nat
  deriving DecidableEq, Repr

/-- A walk of `xlt` or `xlp` in flight, with its place in the order in which walks began (R182). -/
structure Walk where
  probe : Bool
  write : Bool
  gaddr : Word
  va : Word
  id : Nat
  held : Option Cause
  num : Nat
  deriving DecidableEq, Repr

/-- The tag of a weight tile (R130). -/
structure Tag where
  asn : Nat
  page : Nat
  wfmt : Nat
  outl : Bool
  deriving DecidableEq, Repr

/-- The operations that the matrix slot accepts (R138, R158). -/
inductive MKind where
  | cim | smx | acz | drn | wpre | wpin | wunp | winv
  deriving DecidableEq, Repr

/-- An accepted matrix operation (R138 to R143, R155): its operands as read at issue, the storage key and placement of the tile's page, the array it is assigned to
(`none` with `fallback` for the streamed path), what it computed once started, and a drain's progress: 0, or which queue
overflow of the context its own was, and the count of cycles it has waited for room since its last push (R156); `num` is its place
in the order in which the core accepted operations, `begun` the cycle at which it started (R145, R158), `lost` says that the
tile's page has been recalled since (R235). -/
structure MOp where
  kind : MKind
  gaddr : Word
  t : Bool
  ov : Bool
  cl : Bool
  desc : Word
  descB : Word
  cb : Nat
  skip : Word
  tag : Tag
  key : Nat
  place : Word
  table : BitVec 128
  fmt : BitVec 16
  q : Nat
  n : Nat
  rowsA : List Vec
  rowsB : List Vec
  rowsC : List Vec
  bad : Bool
  arr : Option Nat
  fallback : Bool
  started : Bool
  result : SMap (BitVec 8192)
  seed : BitVec 32
  nextRow : Nat
  pair : Nat
  overflow : Nat
  waited : Nat
  num : Nat
  begun : Nat
  lost : Bool
  deriving DecidableEq, Repr

/-- The states of a CIM array (R131). -/
inductive ArrState where
  | invalid | filling | valid | stale
  deriving DecidableEq, Repr

/-- A CIM array (R131): state, tag, PIN, age, the storage key and placement of the tile's page, the scale table its codes were resolved through (R118), whether its
Filling is an array-to-array copy, the table it is resolved through should it go on as a fill (R147), and the array
copied from. -/
structure Arr where
  st : ArrState
  tag : Tag
  pin : Bool
  age : Nat
  key : Nat
  place : Word
  table : BitVec 128
  again : BitVec 128
  source : Option Nat
  deriving DecidableEq, Repr

/-- A line of a global line cache (R202). -/
structure LcLine where
  here : Bool
  data : BitVec 512
  wts : Stamp
  rts : Stamp
  bad : Bool
  deriving DecidableEq, Repr

/-- A fill on its way from a home L2 to a core (R208): the home die, the line and the copy to be installed. -/
structure Fill where
  home : Nat
  line : Nat
  copy : LcLine
  deriving DecidableEq, Repr

/-- The timestamps of a line resident in its home L2 (R202), the stack and channel its memory lies on, where it is HBM
(R175), and whether its page asks for the lowest retention (R187). -/
structure L2Line where
  here : Bool
  chan : Option (Nat × Nat)
  low : Bool
  wts : Stamp
  rts : Stamp
  deriving DecidableEq, Repr

/-- The owner of a bank (R172, R173): none, a context of the core, or held by a saved context. -/
inductive Owner where
  | none
  | ctx (n : Nat)
  | held (n : Nat)
  deriving DecidableEq, Repr

/-- A row of a result queue with its poison mark. -/
structure QRow where
  row : Vec
  bad : Bool
  deriving DecidableEq, Repr

/-- A side-log entry (R183): the access as the context issued it. -/
structure SideEntry where
  pos : Nat
  kind : GKind
  id : Nat
  va : Word
  size : Nat
  data : BitVec 512
  bad : Bool
  op : Nat
  arg : Word
  dest : Option Reg
  acq : Bool
  scope : Nat
  cause : Option Cause
  deriving DecidableEq, Repr

/-- A `send` or `recv` whose rows are still to move, the banks a `recv` locks (R271, R272), and its place in the order
in which such operations issued (R269). -/
structure LinkOp where
  send : Bool
  ch : Nat
  row : Nat
  left : Nat
  queue : List QRow
  fromQueue : Bool
  locks : List Nat
  num : Nat
  deriving DecidableEq, Repr

/-- A context position (R24, R25): the bound context with all its resumable state, and its engines' work.  `ceWts` is
the largest wts that a copy-engine write of the context was acknowledged with, `xlWts` the same of its walks (R238);
`lmarks` lists the line-end marks passed while the loop buffer was filled, with the groups they led to (R46, R96);
`exiting` says that a taken `br` or `ret` has not yet found which bodies its target leaves (R94); `trapNo` orders
the contexts of a core by the cycle in which they trapped, context 0 first (R284); `binding` says that the context is
being loaded for its cluster's start (R257), `atPoint` that its last step ended at an iteration boundary (R40), `stalled`
that its next group waits for a stack in thermal hold (R79, R297). -/
structure Ctx where
  st : PosState := .free
  files : Files := {}
  regBad : List Reg := []
  pc : Word := 0
  mpc : Word := 0
  loops : List LoopEntry := []
  lbuf : List Grp := []
  lmarks : List (Word × Word) := []
  exiting : Bool := false
  age : BitVec 4 := 0
  gpred : BitVec 8 := 1
  fmt : BitVec 16 := 0
  scl : BitVec 128 := 0x7F7F7F7F7F7F7F7F7F7F7F7F7F7F7F7F
  seed : BitVec 32 := 1
  wcol : Bool := false
  wfb : Bool := false
  wfbcnt : Word := 0
  stepc : Nat := 0
  landing : List Landing := []
  pend : List Pend := []
  idle : Nat := 0
  idleAddr : Word := 0
  idleNext : Word := 0
  waitIdle : Bool := false
  denials : Nat := 0
  yield : Nat := 0
  barWait : Option Nat := none
  opReq : BitVec 3 := 0
  window : Nat := 0
  windowOpen : Bool := false
  park : SMap Vec := []
  parkBad : List Nat := []
  extents : List Extent := []
  ranges : List Range := []
  reqs : List GReq := []
  xfers : List Xfer := []
  walks : List Walk := []
  mops : List MOp := []
  clCount : Nat := 0
  links : List LinkOp := []
  ceWts : Option Stamp := none
  xlWts : Option Stamp := none
  xinvOut : List (Nat × Nat) := []
  after : List Cause := []
  bodyWalk : Option (Word × Nat) := none
  hold : Option Cause := none
  trec : List Word := []
  resumeAt : Option Word := none
  sup : Bool := false
  replay : Bool := false
  serves : Option Nat := none
  latency : Bool := false
  asn : Nat := 0
  lseq : Nat := 0
  lclus : Nat := 0
  lclcnt : Nat := 0
  lqpos : Nat := 0
  lctxn : Nat := 0
  wide : Bool := false
  area : Option Nat := none
  preempt : Bool := false
  needHandler : Bool := false
  binding : Bool := false
  atPoint : Bool := false
  stalled : Bool := false
  trapNo : Nat := 0
  nextId : Nat := 0
  deriving DecidableEq, Repr

/-- A core (R12, R13). `op` is the operating point in force, `cap` the controller's cap, `moves` the transitions in
progress (R306, R307): 0 or 1 for one that the window of that position's context covers, 2 for any other change. -/
structure Core where
  wfault : Bool := false
  lease : BitVec 8 := 0x0A
  cycle : Nat := 0
  cq : List (BitVec 32) := []
  pts : Stamp := 0
  lcache : SMap LcLine := []
  fills : List Fill := []
  icache : SMap (Option (BitVec 512)) := []
  arrays : SMap Arr := []
  acc : SMap (BitVec 8192) := []
  accBad : List Nat := []
  queues : SMap (List QRow) := []
  owners : SMap Owner := []
  slog : List SideEntry := []
  filter : BitVec 1024 := 0
  split : Nat := 0
  cap : Nat := 0
  op : Nat := 0
  moves : List Nat := []
  thermal : Nat := 0
  deriving DecidableEq, Repr

/-- A transition of the core's operating point is in progress (R307). -/
def Core.moving (k : Core) : Bool := !k.moves.isEmpty

/-- A place in a `.cl` pairing (R143): launch, cluster of the launch, context number, and place in the order of that
context's `.cl` operations. -/
structure ClPair where
  seq : Nat
  clus : Nat
  ctx : Nat
  pair : Nat
  deriving DecidableEq, Repr

/-- The barriers of a cluster (R324): COUNT, ARR, and the cores of the open phase's arrivals with their pts; and the
`.cl` pairings dissolved (R144); of a member that has ended (`ended`), every later pairing is dissolved as well. -/
structure Cluster where
  count : SMap Nat := []
  arr : SMap Nat := []
  parts : SMap (List (Nat × Stamp)) := []
  dissolved : List ClPair := []
  ended : List ClPair := []
  deriving DecidableEq, Repr

/-- An entry of a die's write log (R292): line, its page's placement word, launch, prior bytes and mark. -/
structure WLog where
  line : Nat
  place : Word
  seq : Nat
  data : BitVec 512
  bad : Bool
  deriving DecidableEq, Repr

/-- A compute die: L2 lines with their timestamps, MTS, the lines of its stacks' memory-side caches with the stack, write log, reserve mask (R41, R202). -/
structure Die where
  l2 : SMap L2Line := []
  mts : Stamp := 0
  msc : SMap (Option Nat) := []
  wlog : List WLog := []
  reserve : BitVec 64 := 0
  deriving DecidableEq, Repr

/-- The states of a launch (Table 16-5). -/
inductive LState where
  | accepted | dispatched | running | completed | faulted | relaunched
  deriving DecidableEq, Repr

/-- A launch (R249 to R268, R291 to R296): its record, its tracking, and the clusters it has bound; `assign` is the
apportioned list of (group, first tile, tiles) by cluster, `waves` the clusters bound (cluster of the launch, physical
cluster); `poison` says that a context has read poisoned data, `raised` that the launch is to be rolled back. -/
structure Launch where
  seq : Nat
  record : BitVec 4096
  apportioned : Bool
  groups : Nat
  assign : List (Nat × Nat × Nat)
  asn : Nat
  origin : Nat
  st : LState
  cause : Nat
  preds : List (Nat × Option Bool)
  nclus : Nat
  bound : Nat
  waves : List (Nat × Nat)
  fgroup : Word
  ending : Bool
  replays : Nat
  restartable : Bool
  poison : Bool
  raised : Bool
  ptsFloor : Stamp
  slot : Nat
  deriving DecidableEq, Repr

/-- A context saved off its core (R287 to R289): the key of `State.ctxs` that holds it, its core, its accumulator
rows, queues and held banks. -/
structure Saved where
  key : Nat
  core : Nat
  acc : SMap (BitVec 8192)
  accBad : List Nat
  queues : SMap (List QRow)
  banks : List Nat
  deriving DecidableEq, Repr

/-- A link channel (R269): its binding, its receive queue, and the rows of room the remote queue last reported. -/
structure Chan where
  dev : Nat := 0
  chan : Nat := 0
  enabled : Bool := false
  queue : List QRow := []
  room : Nat := 0
  deriving DecidableEq, Repr

/-- What a burst is for (R178): the fill of the four lines of its block (`low` at the lowest retention, R187), or of the one
line taken of a page of the policy "no allocate" (R187); the copy of a restripe, by the restripe's number; a writeback. -/
inductive BurstUse where
  | block (low : Bool)
  | line (l : Nat)
  | copy (num : Nat)
  | back
  deriving DecidableEq, Repr

/-- A request waiting for an HBM burst (R178), whether its burst has been served, and what it is for. -/
structure Burst where
  die : Nat
  core : Nat
  block : Nat
  stack : Nat
  chan : Nat
  bulk : Bool
  served : Bool
  use : BurstUse
  deriving DecidableEq, Repr

/-- A lattice cell sent by die `die` to a partner's replica cell (its storage key) and not yet applied (R221). -/
structure Exch where
  die : Nat
  cell : Nat
  place : Word
  data : BitVec 512
  bad : Bool
  deriving DecidableEq, Repr

/-- A write of the step that is issuing, performed at the step's end (R35, R36): the slot and context that made it,
the storage key of its first byte, its bytes, the granules it makes full or empty, and its mark; `read` says that it is the
emptying of a `.c` read (R168). -/
structure EndWrite where
  pos : Nat
  slot : Nat
  key : Nat
  data : List Byte
  grans : List Nat
  empty : Bool
  bad : Bool
  read : Bool
  deriving DecidableEq, Repr

/-- The grant of one page of this package to other devices (R233). -/
inductive Grant where
  | none
  | shared (devs : List Nat)
  | owned (dev : Nat)
  deriving DecidableEq, Repr

/-- The package. -/
structure State where
  /-- Context positions, by number; a key p + 512 n holds a context saved off position p's core, or the work that
  runs on after a context of that position has ended. -/
  ctxs : SMap Ctx
  /-- Cores, by number: die x 64 + cluster x 4 + q. -/
  cores : SMap Core
  /-- Clusters, by number: die x 16 + cluster. -/
  clusters : SMap Cluster
  /-- Compute dies. -/
  dies : SMap Die
  /-- Every byte of every space, by storage key (Machine/Memory.lean lays the keys out). -/
  mem : List Host.Cell
  /-- Granules marked empty (R168), by granule key; a granule not listed is full (R167). -/
  empties : SMap Bool
  /-- Granules carrying the poison mark (R290). -/
  granBad : SMap Bool
  /-- Lines carrying the poison mark (R290), by line key. -/
  lineBad : SMap Bool
  /-- Lattice cells dirty toward a partner (R221): key = storage key of the cell x 4 + partner, value = the page's
  placement word. -/
  dirty : SMap Word
  /-- Cells sent and not yet applied. -/
  exch : List Exch
  /-- Replica cells marked for rebuild (R224): the phases still to come, the placement word, the value gathered. -/
  rebuild : SMap (Option (Nat × Word × BitVec 512))
  /-- The next exchange phase (R221). -/
  phase : Nat
  /-- MODEL: the place of the present tick in the 2^20 within which R207's upkeep is due (log 3). -/
  ticks : Nat
  /-- Bursts wanted from HBM (R178). -/
  bursts : List Burst
  /-- Root of the page table of each address space, given by the host driver (R185). -/
  roots : SMap Nat
  /-- Grants of pages of this package to other devices (R233), by page number. -/
  grants : SMap Grant
  /-- Recalls waiting, by page number (R233, R235). -/
  recalls : List Nat
  /-- Writes of the device itself that hold at their home for a recall (R233), oldest first: address and bytes. -/
  waiting : List (Nat × List Byte)
  /-- Launches that are not final. -/
  launches : List Launch
  /-- Launches whose journal entry was reached a final state: sequence number and whether it completed. -/
  finals : SMap (Option Bool)
  /-- Contexts saved off their cores. -/
  saved : List Saved
  /-- LAST.SEQ and LAST.REF (Table 16-3). -/
  lastSeq : Nat
  lastRef : Bool
  /-- NEXT (Table 16-1). -/
  nextSeq : Nat
  /-- The journal in force: base, J, record area, and the first sequence number accepted after its command. -/
  journal : Option (Nat × Nat × Nat × Nat)
  /-- Link channels (R269). -/
  chans : SMap Chan
  /-- Rows that remote queues have accepted, oldest first: channel and row. -/
  sent : List (Nat × QRow)
  /-- The package has power (R19). -/
  power : Bool
  /-- BUSTAT.STATE and BUSTAT.FAIL (Table 19-3). -/
  bustat : BitVec 3
  bufail : BitVec 8
  /-- EVENT, SAVEBASE, SAVECNT, WLOGSZ, HCFG (Table 19-4). -/
  event : BitVec 7
  savebase : Word
  savecnt : Word
  wlogsz : Word
  hcfg : BitVec 3
  /-- The retirement table, oldest entry first (R312). -/
  retTable : List Word
  /-- The physical core of each logical core number, from bring-up state 2 on (R12, R313). -/
  logical : List Nat
  /-- Units retired at the last bring-up (R313): cores, channels (stack x 32 + channel), lanes (port x 8 + lane). -/
  deadCores : List Nat
  deadChans : List Nat
  deadLanes : List Nat
  /-- Units failed in service (R311, R314). -/
  failCores : List Nat
  failChans : List Nat
  failLanes : List Nat
  /-- Stacks in thermal hold (R297). -/
  holds : List Nat
  /-- The package's thermal-trip output (R309). -/
  trip : Bool
  /-- Cores on which ramp ballast runs (R310). -/
  ballast : List Nat
  /-- The bytes the last aperture read returned (R300). -/
  hostRead : List Byte
  /-- Host commands written and neither accepted nor refused yet, oldest first: they wait for a recall (R233, R245, R250, log 98). -/
  cmds : List (BitVec 512)
  /-- Calendar slot that each channel serves next (R178). -/
  slots : SMap Nat
  /-- The core whose bulk burst each channel served last, from which lending goes round (R178). -/
  lent : SMap Nat
  /-- MODEL: the events to come, first first (log 3). -/
  agenda : List Instr
  /-- MODEL: the context position whose group issues (log 5). -/
  cur : Nat
  /-- MODEL: the core whose issue cycle comes next when the agenda is empty (log 3). -/
  rot : Nat
  /-- MODEL: how many free values have been drawn (log 11). -/
  fresh : Nat
  /-- MODEL: how many operations have been numbered in the order in which they were accepted (log 68). -/
  order : Nat
  /-- MODEL: scratchpad writes of the issuing step, in slot order; empty between steps (log 5). -/
  endw : List EndWrite
  deriving DecidableEq, Repr

/-- The machine stops. -/
inductive Fault where
  /-- The package has no power and no event gives it any: no part of it runs or answers (R19).  Raised by `step` alone;
  safe, since the machine does nothing then. -/
  | unpowered
  deriving DecidableEq, Repr

/-- No meaning. -/
inductive Refusal where
  /-- The instruction has no meaning in the model yet.  Raised by the arms of `exec`; safe: nothing is claimed. -/
  | notModelled (mnemonic : String)
  deriving DecidableEq, Repr

/-- The machine right after power good (R303, R301): bring-up state 1, every register at its reset value, no context
bound, no byte of memory listed.  Values the spec does not give are those of log 1 and log 2. -/
def State.reset : State where
  ctxs := []
  cores := []
  clusters := []
  dies := []
  mem := []
  empties := []
  granBad := []
  lineBad := []
  dirty := []
  exch := []
  rebuild := []
  phase := 0
  ticks := 0
  bursts := []
  roots := []
  grants := []
  recalls := []
  waiting := []
  launches := []
  finals := []
  saved := []
  lastSeq := 0
  lastRef := false
  nextSeq := 1
  journal := none
  chans := []
  sent := []
  power := true
  bustat := 1
  bufail := 0
  event := 0
  savebase := 0
  savecnt := 0
  wlogsz := 4
  hcfg := 0
  retTable := []
  logical := []
  deadCores := []
  deadChans := []
  deadLanes := []
  failCores := []
  failChans := []
  failLanes := []
  holds := []
  trip := false
  ballast := []
  hostRead := []
  cmds := []
  slots := []
  lent := []
  agenda := []
  cur := 0
  rot := 0
  fresh := 0
  order := 0
  endw := []

end Sys2Proof.Machine
end

