-- ==== Sys2Proof/Machine/Memory.lean ====
section
/-! DEFINITION. The memory: storage keys of every space, and reads and writes of bytes (R6, R164, R174, R214, R230).

A storage key is a copy number times 2^52 plus a physical address: copy 0 is a frame placed once, copies 1 to 4 are
the copies of dies 0 to 3 of a replicated frame (lattice pages and REPL = 2), copy 5 is host memory, copy 16 + d the
memory of peer device d.  The scratchpads stand above 2^63.  A byte not listed reads as zero: for the scratchpads
R167 says so; for the rest it is the model's choice (DESIGN CHOICE, log 2).  Frames under different single placements
share copy 0 (log 8). -/

namespace Sys2Proof.Machine

/-- What an unlisted byte reads as. -/
def Memory.blank : Byte := 0

/-- Storage key of a physical address in a copy. -/
def memKey (copy pa : Nat) : Nat := copy * 2 ^ 52 + pa % 2 ^ 52

/-- Storage key of byte `off` of a cluster's scratchpad; offsets wrap modulo 8 MiB (R164). -/
def scratchKey (cluster off : Nat) : Nat := 2 ^ 63 + cluster * 2 ^ 23 + off % 2 ^ 23

/-- Granule key of a scratchpad storage key (16 bytes). -/
def granKey (key : Nat) : Nat := key / 16

/-- One byte. -/
def rdByte (m : List Host.Cell) (k : Nat) : Byte := smGet Memory.blank m k

/-- One byte written. -/
def wrByte (m : List Host.Cell) (k : Nat) (b : Byte) : List Host.Cell := smSet Memory.blank m k b

/-- `n` bytes from `k`, lowest first. -/
def rdBytes (m : List Host.Cell) (k : Nat) : Nat → List Byte
  | 0 => []
  | n + 1 => rdByte m k :: rdBytes m (k + 1) n

/-- The bytes written from `k` on. -/
def wrBytes (m : List Host.Cell) (k : Nat) : List Byte → List Host.Cell
  | [] => m
  | b :: bs => wrBytes (wrByte m k b) (k + 1) bs

/-- `n` bytes from `k` as a number (R6). -/
def rdNat (m : List Host.Cell) (k n : Nat) : Nat := natLE (rdBytes m k n)

/-- `n` bytes of `v` written from `k` on. -/
def wrNat (m : List Host.Cell) (k n v : Nat) : List Host.Cell := wrBytes m k (bytesLE n v)

/-- The canonical form of the memory: keys strictly rising, no listed byte equal to what an unlisted one reads as. -/
def Memory.wf (m : List Host.Cell) : Bool := smWf Memory.blank m

end Sys2Proof.Machine
end

