-- ==== Sys2Proof/Machine/Ops.lean ====
section
/-! DEFINITION. The named operations over positions, registers and landing entries; ending a context; taking an
exception and returning from it (R24 to R36, R72 to R79, R278 to R286). -/

namespace Sys2Proof.Machine

/-! ### Positions and units -/

/-- The core of a position (numbers from 512 up are saved or ended contexts of position `p % 512`). -/
def coreOf (p : Nat) : Nat := p % 512 / 2

/-- The cluster of a position. -/
def clusterOf (p : Nat) : Nat := p % 512 / 8

/-- The die of a position. -/
def dieOf (p : Nat) : Nat := p % 512 / 128

/-- The place q of a position's core in its cluster (R23). -/
def qOf (p : Nat) : Nat := p % 512 / 2 % 4

/-- The other position of the core. -/
def otherPos (p : Nat) : Nat := p % 512 + 1 - 2 * (p % 2)

/-- The context at a position. -/
def getCtx (s : State) (p : Nat) : Ctx := smGet {} s.ctxs p

/-- The state with another context at a position. -/
def setCtx (p : Nat) (c : Ctx) (s : State) : State := { s with ctxs := smSet {} s.ctxs p c }

/-- The context at a position changed. -/
def updCtx (p : Nat) (f : Ctx → Ctx) (s : State) : State := setCtx p (f (getCtx s p)) s

/-- A core. -/
def getCore (s : State) (k : Nat) : Core := smGet {} s.cores k

/-- The state with another core. -/
def setCore (k : Nat) (c : Core) (s : State) : State := { s with cores := smSet {} s.cores k c }

/-- A core changed. -/
def updCore (k : Nat) (f : Core → Core) (s : State) : State := setCore k (f (getCore s k)) s

/-- A cluster. -/
def getCluster (s : State) (k : Nat) : Cluster := smGet {} s.clusters k

/-- A cluster changed. -/
def updCluster (k : Nat) (f : Cluster → Cluster) (s : State) : State :=
  { s with clusters := smSet {} s.clusters k (f (getCluster s k)) }

/-- A compute die. -/
def getDie (s : State) (d : Nat) : Die := smGet {} s.dies d

/-- A die changed. -/
def updDie (d : Nat) (f : Die → Die) (s : State) : State := { s with dies := smSet {} s.dies d (f (getDie s d)) }

/-- The core is live: inside the package, not retired at bring-up and not failed in service (R12, R313, R314). -/
def coreLive (s : State) (k : Nat) : Bool := k < 256 && !s.deadCores.contains k && !s.failCores.contains k

/-- The memory of the package replaced. -/
def setMem (m : List Host.Cell) (s : State) : State := { s with mem := m }

/-- The launch of a sequence number, if it is not final. -/
def findLaunch (s : State) (seq : Nat) : Option Launch := s.launches.find? (fun l => l.seq == seq)

/-- A launch changed. -/
def updLaunch (seq : Nat) (f : Launch → Launch) (s : State) : State :=
  { s with launches := s.launches.map (fun l => if l.seq == seq then f l else l) }

/-- Field of `n` bytes at byte `b` of a launch record (Table 16-6). -/
def recField (r : BitVec 4096) (b n : Nat) : Nat := bitsOf r.toNat (8 * b) (8 * n)

/-! ### Registers (R72, R73, R76) -/

/-- The physical number of a register named under iteration age `age` (R76). -/
def physNum (age : Nat) (fl : File) (n : Nat) : Nat :=
  match fl with
  | .va | .vb | .vc => if n < 8 then n else 8 + (n - 8 + 16 - age) % 8
  | .x | .y => if n < 16 then n else 16 + (n - 16 + 16 - age) % 16
  | _ => n

/-- The register that a name reaches at the context's AGE (R76). -/
def physReg (c : Ctx) (fl : File) (n : Nat) : Reg := ⟨fl, physNum c.age.toNat fl n⟩

/-- The width in bits of a file's registers (Table 4-1). -/
def fileWidth : File → Nat
  | .x | .y | .c | .a | .w => 64
  | .ka | .kb | .kc => 256
  | _ => 2048

/-- The file of a file code (Table 3-3). -/
def fileOfCode (n : Nat) : File :=
  match n with
  | 0 => .va
  | 1 => .vb
  | 2 => .vc
  | 3 => .x
  | 4 => .y
  | 5 => .c
  | 6 => .f
  | _ => .z

/-- A predicate register's value: predicate 0 reads all ones (R73). -/
def predGet (m : SMap PredReg) (n : Nat) : Vec :=
  if n = 0 then (BitVec.allOnes 256).setWidth 2048 else (smGet 0 m n).setWidth 2048

/-- The value of a register, zero-extended to 2048 bits; w0 reads as linear step 0 (R63, R73). -/
def filesGet (f : Files) (r : Reg) : Vec :=
  match r.file with
  | .va => smGet 0 f.va r.num
  | .vb => smGet 0 f.vb r.num
  | .vc => smGet 0 f.vc r.num
  | .x => (smGet 0 f.x r.num).setWidth 2048
  | .y => (smGet 0 f.y r.num).setWidth 2048
  | .c => (smGet 0 f.c r.num).setWidth 2048
  | .f => smGet 0 f.f r.num
  | .z => smGet 0 f.z r.num
  | .ka => predGet f.ka r.num
  | .kb => predGet f.kb r.num
  | .kc => predGet f.kc r.num
  | .a => (smGet 0 f.a r.num).setWidth 2048
  | .w => if r.num = 0 then 0 else (smGet 0 f.w r.num).setWidth 2048

/-- A register written whole; writes to predicate 0 and to w0 are discarded (R63, R73). -/
def filesSet (f : Files) (r : Reg) (v : Vec) : Files :=
  match r.file with
  | .va => { f with va := smSet 0 f.va r.num v }
  | .vb => { f with vb := smSet 0 f.vb r.num v }
  | .vc => { f with vc := smSet 0 f.vc r.num v }
  | .x => { f with x := smSet 0 f.x r.num (v.setWidth 64) }
  | .y => { f with y := smSet 0 f.y r.num (v.setWidth 64) }
  | .c => { f with c := smSet 0 f.c r.num (v.setWidth 64) }
  | .f => { f with f := smSet 0 f.f r.num v }
  | .z => { f with z := smSet 0 f.z r.num v }
  | .ka => if r.num = 0 then f else { f with ka := smSet 0 f.ka r.num (v.setWidth 256) }
  | .kb => if r.num = 0 then f else { f with kb := smSet 0 f.kb r.num (v.setWidth 256) }
  | .kc => if r.num = 0 then f else { f with kc := smSet 0 f.kc r.num (v.setWidth 256) }
  | .a => { f with a := smSet 0 f.a r.num (v.setWidth 64) }
  | .w => if r.num = 0 then f else { f with w := smSet 0 f.w r.num (v.setWidth 64) }

/-- The value of a register of the context. -/
def regGet (c : Ctx) (r : Reg) : Vec := filesGet c.files r

/-- The low 64 bits of a register of the context. -/
def regWord (c : Ctx) (r : Reg) : Word := (regGet c r).setWidth 64

/-- The register carries the poison mark (R290). -/
def regBad (c : Ctx) (r : Reg) : Bool := c.regBad.contains r

/-- All bits of a register. -/
def fullMask : Vec := BitVec.allOnes 2048

/-- The bits of `mask` are written with those of `v`; a mark stays where bits of a marked register stay (R290). -/
def regWrite (c : Ctx) (r : Reg) (v mask : Vec) (bad : Bool) : Ctx :=
  let old := regGet c r
  let whole := mask.setWidth (fileWidth r.file) == BitVec.allOnes (fileWidth r.file)
  let mark := bad || (regBad c r && !whole)
  { c with
    files := filesSet c.files r ((old &&& ~~~mask) ||| (v &&& mask))
    regBad := if mark then r :: c.regBad.filter (· != r) else c.regBad.filter (· != r) }

/-- A common register of the context. -/
def commonReg (n : Nat) : Reg := ⟨.c, n⟩

/-- The register is pending (R32). -/
def isPending (c : Ctx) (r : Reg) : Bool := c.pend.any (fun e => e.dest == r)

/-- An exposed-latency result for the register is in the landing buffer (R33). -/
def isLanding (c : Ctx) (r : Reg) : Bool := c.landing.any (fun e => e.dest == .reg r)

/-- The register becomes pending (R32) with `parts` parts of data to come under the identifier `id`. -/
def addPend (p : Nat) (r : Reg) (mask : Vec) (id parts : Nat) (v : Vec) (bad : Bool) (s : State) : State :=
  updCtx p (fun c => { c with pend := c.pend ++ [⟨r, mask, id, parts, v, bad, []⟩] }) s

/-- The context draws an identifier for an access or transfer. -/
def takeId (p : Nat) (s : State) : State := updCtx p (fun c => { c with nextId := c.nextId + 1 }) s

/-- The stochastic generator after one draw (R109): sixteen shifts. -/
def shiftSeed : Nat → BitVec 32 → BitVec 32
  | 0, v => v
  | n + 1, v =>
    let fb := (v >>> 31) ^^^ (v >>> 21) ^^^ (v >>> 1) ^^^ v
    shiftSeed n ((v <<< 1) ||| (fb &&& 1))

/-- The generator after `n` draws. -/
def advanceSeed : Nat → BitVec 32 → BitVec 32
  | 0, v => v
  | n + 1, v => advanceSeed n (shiftSeed 16 v)

/-! ### Control registers (R78 to R80, R109) -/

/-- CTL (Table 4-4). -/
def ctlWord (k : Core) : Word := BitVec.ofNat 64 (k.wfault.toNat + 256 * k.lease.toNat)

/-- The loop index at depth `d`, counted from the outermost entry (R73); the stack is held innermost first. -/
def loopIndex (c : Ctx) (d : Nat) : Word :=
  match c.loops.reverse[d]? with
  | some e => BitVec.ofNat 64 e.index
  | none => 0

/-- The context whose trap record a handler reads: the one it serves (R281). -/
def servedRec (s : State) (p : Nat) : List Word :=
  match (getCtx s p).serves with
  | some q => (getCtx s q).trec
  | none => (getCtx s p).trec

/-- Register numbers marked Supervisor in Table 4-2: CTL and TREC0 to TREC7. -/
def csrSupervisor (n : Nat) : Bool := n == 2 || (0x100 ≤ n && n ≤ 0x107)

/-- A `csrw` lands (R78, R79, R80, R109): read-only registers and fields and unassigned numbers are ignored. -/
def csrLand (p n : Nat) (v : Word) (s : State) : State :=
  match n with
  | 0x001 => updCtx p (fun c => { c with
      wcol := c.wcol && !v.getLsbD 0
      wfb := c.wfb && !v.getLsbD 1 }) s
  | 0x002 => updCore (coreOf p) (fun k => { k with
      wfault := v.getLsbD 0
      lease := if (v >>> 8).setWidth 8 = (0 : BitVec 8) then k.lease else (v >>> 8).setWidth 8 }) s
  | 0x003 => updCtx p (fun c => { c with age := v.setWidth 4 }) s
  | 0x004 => updCtx p (fun c => { c with gpred := v.setWidth 8 ||| 1 }) s
  | 0x005 => updCtx p (fun c => { c with seed := if v.setWidth 32 = (0 : BitVec 32) then 1 else v.setWidth 32 }) s
  | _ => s

/-! ### Landing (R28 to R31, R36) -/

/-- One landing-buffer entry lands. -/
def landOne (p : Nat) (e : Landing) (s : State) : State :=
  match e.dest with
  | .reg r => updCtx p (fun c => regWrite c r e.value e.mask e.bad) s
  | .fmt => updCtx p (fun c => { c with fmt := e.value.setWidth 16 }) s
  | .scl => updCtx p (fun c => { c with scl := e.value.setWidth 128 }) s
  | .csr n => csrLand p n (e.value.setWidth 64) s

/-- `e` loses to `o` where both land on one register at the end of one step: the lower slot stands, and of one slot
the operation issued later (R36). -/
def loses (e o : Landing) : Bool :=
  e.dest == o.dest && (o.slot < e.slot || (o.slot == e.slot && e.born < o.born))

/-- The entries of the context after one of its steps: those still in flight, with one step less to go. -/
def landKeep (c : Ctx) : List Landing :=
  (c.landing.filter (fun e => 1 < e.rem)).map (fun e => { e with rem := e.rem - 1 })

/-- The entries due at the end of this step. -/
def landDue (c : Ctx) : List Landing := c.landing.filter (fun e => e.rem ≤ 1)

/-- The due entries that stand (R36). -/
def landStand (due : List Landing) : List Landing := due.filter (fun e => !due.any (fun o => loses e o))

/-- One step of the context has issued: the due entries land, and WCOL is set where two met (R28, R36). -/
def landStep (p : Nat) (s : State) : State :=
  let c := getCtx s p
  let due := landDue c
  let stand := landStand due
  let s1 := setCtx p { c with landing := landKeep c } s
  let s2 := stand.foldl (fun t e => landOne p e t) s1
  if stand.length < due.length then updCtx p (fun c => { c with wcol := true }) s2 else s2

/-- `n` steps pass without an operation: `skip`, the idle steps of `wait 0`, Draining (R27, R31). -/
def landSteps (p : Nat) : Nat → State → State
  | 0, s => s
  | n + 1, s => landSteps p n (landStep p s)

/-! ### Writes of the device itself (R151, R206, R249 to R251) -/

/-- The bytes of an image: columns and scale indices (Table 8-1). -/
def imageBytes (wfmt : Nat) : Nat := if wfmt = 13 then 8448 else 16640

/-- A copy of a written tile goes Stale; a replica being copied goes on as a fill from memory (R147, R151). -/
def staleArr (x : Arr) : Arr :=
  match x.st with
  | .valid => { x with st := .stale }
  | .filling => match x.source with
    | some _ => { x with source := none, table := x.again }
    | none => x
  | _ => x

/-- The tiles of the package that a condition names go Stale. -/
def staleWhere (p : Arr → Bool) (s : State) : State :=
  { s with cores := smMap {} (fun _ k => { k with
      arrays := k.arrays.map (fun a => (a.1, if p a.2 then staleArr a.2 else a.2)) }) s.cores }

/-- The L2 lines from `lo` to `hi` - 1 take new stamps, as a write under R206 gives them. -/
def bumpLines (lo hi : Nat) (s : State) : State :=
  { s with dies := smMap {} (fun _ d => { d with
      l2 := d.l2.map (fun e => if lo ≤ e.1 && e.1 < hi then (e.1, { e.2 with wts := e.2.rts + 1, rts := e.2.rts + 1 }) else e) }) s.dies }

/-- What a device write to `n` bytes from a physical address does beside storing them: stamps, tiles, and the marks of
lines written whole (R151, R206, R290). -/
def deviceTouch (pa n : Nat) (s : State) : State :=
  let lo := pa / 64
  let hi := (pa + n + 63) / 64
  let s1 := staleWhere (fun x => x.st != .invalid && x.key / 64 < hi && lo < x.key / 64 + imageBytes x.tag.wfmt / 64) (bumpLines lo hi s)
  { s1 with lineBad := s1.lineBad.filter (fun e => !((pa + 63) / 64 ≤ e.1 && e.1 < (pa + n) / 64)) }

/-- A page of this package is granted away, so that a read of it, or a write, holds at its home until recalls complete
(R233). -/
def pageGranted (s : State) (page : Nat) (write : Bool) : Bool :=
  match smGet Grant.none s.grants page with
  | .none => false
  | .shared ds => write && !ds.isEmpty
  | .owned _ => true

/-- A recall of a page is asked for. -/
def askRecall (page : Nat) (s : State) : State :=
  if s.recalls.contains page then s else { s with recalls := s.recalls ++ [page] }

/-- The device stores bytes at a physical address. -/
def deviceStore (pa : Nat) (bs : List Byte) (s : State) : State :=
  deviceTouch pa bs.length (setMem (wrBytes s.mem (memKey 0 pa) bs) s)

/-- The parts of a write by the pages they lie in. -/
def pageParts (pa : Nat) (bs : List Byte) : List (Nat × List Byte) :=
  (List.range ((pa % 2 ^ 16 + bs.length + 2 ^ 16 - 1) / 2 ^ 16)).map (fun i =>
    let at_ := if i = 0 then pa else (pa / 2 ^ 16 + i) * 2 ^ 16
    (at_, (bs.drop (at_ - pa)).take ((at_ / 2 ^ 16 + 1) * 2 ^ 16 - at_)))

/-- One part is stored; in a page granted away it holds at its home, and a recall is asked for (R233). -/
def devicePart (s : State) (e : Nat × List Byte) : State :=
  if pageGranted s (e.1 / 2 ^ 16) true then askRecall (e.1 / 2 ^ 16) { s with waiting := s.waiting ++ [e] }
  else deviceStore e.1 e.2 s

/-- The device writes bytes at a physical address (R233, log 14). -/
def deviceWrite (pa : Nat) (bs : List Byte) (s : State) : State := (pageParts pa bs).foldl devicePart s

/-- The writes that waited for a page's recall are made, oldest first (R233). -/
def flushWaiting (page : Nat) (s : State) : State :=
  let mine := s.waiting.filter (fun e => e.1 / 2 ^ 16 == page)
  mine.foldl (fun t e => deviceStore e.1 e.2 t) { s with waiting := s.waiting.filter (fun e => e.1 / 2 ^ 16 != page) }

/-- The device writes zeros, in pages that are not granted away at once. -/
def deviceZero (pa n : Nat) (s : State) : State :=
  (List.range ((pa % 2 ^ 16 + n + 2 ^ 16 - 1) / 2 ^ 16)).foldl (fun t i =>
    let lo := if i = 0 then pa else (pa / 2 ^ 16 + i) * 2 ^ 16
    let hi := Nat.min (pa + n) ((pa / 2 ^ 16 + i + 1) * 2 ^ 16)
    if pageGranted t (lo / 2 ^ 16) true then devicePart t (lo, List.replicate (hi - lo) 0)
    else deviceTouch lo (hi - lo) (setMem (t.mem.filter (fun e => !(lo ≤ e.1 && e.1 < hi))) t)) s

/-- The journal in force: its base, the number of its entries, its record area, and the first number accepted after its
command. -/
structure Ring where
  base : Nat
  size : Nat
  area : Nat
  first : Nat

/-- The ring in force. -/
def ringOf (s : State) : Option Ring := s.journal.map (fun j => ⟨j.1, 2 ^ j.2.1, j.2.2.1, j.2.2.2⟩)

/-- A field of the journal entry of a launch written: `n` bytes at byte `off`. -/
def journalPut (seq off n v : Nat) (s : State) : State :=
  match ringOf s with
  | some r => if r.first ≤ seq then deviceWrite (r.base + 64 * (seq % r.size) + off) (bytesLE n v) s else s
  | none => s

/-! ### Ending a context (R26, R31, R173, R324) -/

/-- The key of a detached context: the first key of position `p % 512` above 511 that is not in use. -/
def freeKey (s : State) (p : Nat) : Nat :=
  match (List.range (s.ctxs.length + 1)).find? (fun n => !s.ctxs.any (fun e => e.1 == p % 512 + 512 * (n + 1))) with
  | some n => p % 512 + 512 * (n + 1)
  | none => p % 512 + 512 * (s.ctxs.length + 1)

/-- Work of a context that runs on after it has ended, in the mode it ran in: stores not acknowledged, transfers that nothing holds (R427), link
rows, invalidations (R184). (DEDUCED, log 47.) -/
def leftWork (c : Ctx) : Ctx :=
  { st := .free
    files := {}
    sup := c.sup
    asn := c.asn
    lseq := c.lseq
    wide := c.wide
    extents := c.extents
    ranges := c.ranges
    nextId := c.nextId
    reqs := c.reqs.filter (fun r => r.kind == .store || r.kind == .ljn || r.kind == .gam)
    xfers := c.xfers.filter (fun x => !x.dropped && x.held.isNone)
    links := c.links
    xinvOut := c.xinvOut }

/-- A page of this package is being restriped: some restripe holds it marked (R189, R190). -/
def restripingFrame (s : State) (page : Nat) : Bool :=
  s.ctxs.any (fun e => e.2.xfers.any (fun x => x.restripe && x.marked && !x.dropped && x.pa / 2 ^ 16 == page))

/-- Nothing is left to run. -/
def noLeft (c : Ctx) : Bool := c.reqs.isEmpty && c.xfers.isEmpty && c.links.isEmpty && c.xinvOut.isEmpty

/-- Physical queue `n` belongs to context `p` (R137); a handler has none (R283). -/
def ownsQueue (c : Ctx) (p n : Nat) : Bool := c.serves.isNone && (c.wide || n / 4 == p % 2)

/-- The banks that a context of the core owns become owned by none. -/
def freeBanks (p : Nat) (s : State) : State :=
  updCore (coreOf p) (fun k => { k with owners := k.owners.filter (fun e => e.2 != .ctx (p % 2)) }) s

/-- The held banks of the saved context `key` become owned by none. -/
def freeHeld (key : Nat) (s : State) : State :=
  updCore (coreOf key) (fun k => { k with owners := k.owners.filter (fun e => e.2 != .held key) }) s

/-- Every position of the cluster is Free and no saved context of it remains. -/
def clusterQuiet (s : State) (cl : Nat) : Bool :=
  (List.range 8).all (fun i => (getCtx s (8 * cl + i)).st == .free) && !s.saved.any (fun v => v.core / 4 == cl)

/-- The point in force on a core (R306): the larger of the lower-numbered of its bound contexts' requests and the
cap.  A change of it starts a transition. -/
def pointOf (s : State) (core : Nat) : Nat :=
  let reqs := [2 * core, 2 * core + 1].filterMap (fun p => if (getCtx s p).st == .free then none else some (getCtx s p).opReq.toNat)
  Nat.max (match reqs with
    | [a, b] => Nat.min a b
    | [a] => a
    | _ => 0) (getCore s core).cap

/-- A transition begins that `side` covers: the window of that position's context, or none (R307). -/
def addMove (side : Nat) (l : List Nat) : List Nat := if l.contains side then l else l ++ [side]

/-- The point in force follows the requests and the cap; `side` says whose window covers the change (R306, R307).
(DESIGN CHOICE, log 27.) -/
def repoint (side core : Nat) (s : State) : State :=
  let b := pointOf s core
  if b = (getCore s core).op then s else updCore core (fun k => { k with op := b, moves := addMove side k.moves }) s

/-- The transitions in progress once the context of a side has left: one that its window covered is covered by none (R307). -/
def uncover (side : Nat) (l : List Nat) : List Nat := if l.contains side then addMove 2 (l.filter (· != side)) else l

/-- What follows from a position's becoming Free: a quiet cluster's barriers return to COUNT 0 and ARR 0 (R324), the
xinv filter of a core without contexts clears (R184), and the copies of an ASN that no bound context carries become
Invalid (R132); the point in force follows the requests left (R306). -/
def afterFree (p : Nat) (s : State) : State :=
  let k := coreOf p
  let asns := [2 * k, 2 * k + 1].filterMap (fun q => if (getCtx s q).st == .free then none else some (getCtx s q).asn)
  let s1 := updCore k (fun c => { c with
    filter := if asns.isEmpty then 0 else c.filter
    moves := if p < 512 then uncover (p % 2) c.moves else c.moves
    arrays := c.arrays.filter (fun e => asns.contains e.2.tag.asn) }) s
  repoint 2 k (if clusterQuiet s1 (clusterOf p) then updCluster (clusterOf p) (fun _ => {}) s1 else s1)

/-- The `pair`-th `.cl` operation of a context. -/
def clPair (c : Ctx) (pair : Nat) : ClPair := ⟨c.lseq, c.lclus, c.lctxn, pair⟩

/-- The `.cl` operations of a context that have not started, and the next one it will accept, leave their pairings
(R144). (DEDUCED, log 52.) -/
def dissolve (p : Nat) (s : State) : State :=
  let c := getCtx s p
  let open_ := c.mops.filterMap (fun m => if m.cl && !m.started then some (clPair c m.pair) else none)
  updCluster (clusterOf p) (fun k => { k with dissolved := (open_ ++ [clPair c c.clCount]) ++ k.dissolved }) s

/-- The context accepts no further operation: it leaves every later pairing as well (R144). -/
def dissolveAll (p : Nat) (s : State) : State :=
  let c := getCtx s p
  updCluster (clusterOf p) (fun k => { k with ended := clPair c c.clCount :: k.ended }) (dissolve p s)

/-- The columns of a column block within an accumulator row. -/
def colMask (cb : Nat) : BitVec 8192 :=
  match cb with
  | 0 => BitVec.ofNat 8192 (2 ^ 4096 - 1)
  | 1 => BitVec.ofNat 8192 (2 ^ 8192 - 2 ^ 4096)
  | _ => BitVec.allOnes 8192

/-- The accumulator with what an operation writes: the columns of its block in its rows, and no others (R139, R140). -/
def landRows (m : MOp) (acc : SMap (BitVec 8192)) : SMap (BitVec 8192) :=
  m.result.foldl (fun a e => smSet 0 a e.1 ((smGet 0 a e.1 &&& ~~~colMask m.cb) ||| (e.2 &&& colMask m.cb))) acc

/-- The operation writes whole rows without reading them: `acz`, or one that overwrites, over every column block. -/
def writesRows (m : MOp) : Bool := (m.kind == .acz || m.ov) && m.cb == 2

/-- The accumulator rows that carry the mark after an operation's result: a poisoned one sets it, a clean one clears it on
the rows it writes whole (R290). -/
def accBadSet (m : MOp) (bad : List Nat) : List Nat :=
  let rows := m.result.map (·.1)
  if m.bad then rows ++ bad.filter (fun r => !rows.contains r)
  else if writesRows m then bad.filter (fun r => !rows.contains r)
  else bad

/-- A started operation's result lands in the accumulator, with its mark (R139, R140, R290). -/
def landMop (core : Nat) (m : MOp) (s : State) : State :=
  updCore core (fun k => { k with
    acc := landRows m k.acc
    accBad := accBadSet m k.accBad }) s

/-- The started matrix operations run to completion into the accumulator (R26). -/
def finishStarted (p : Nat) (s : State) : State :=
  (getCtx s p).mops.foldl (fun t m => if m.started then landMop (coreOf p) m t else t) s

/-- The position's context leaves it; work already performed or that runs on is detached. -/
def vacate (p : Nat) (s : State) : State :=
  let c := getCtx s p
  let s0 := dissolveAll p s
  let s1 := if noLeft (leftWork c) then s0 else setCtx (freeKey s0 p) (leftWork c) s0
  let s2 := updCore (coreOf p) (fun k => { k with
    queues := k.queues.filter (fun e => !ownsQueue c p e.1)
    slog := k.slog.filter (fun e => e.pos != p) }) s1
  afterFree p (freeBanks p (setCtx p {} s2))

/-- A kill (R26), of a bound context or, for a key above 511, of a saved one. -/
def kill (p : Nat) (s : State) : State :=
  if p < 512 then vacate p (finishStarted p s)
  else
    let c := getCtx s p
    let s1 := { s with saved := s.saved.filter (fun v => v.key != p) }
    let s2 := setCtx p (if noLeft (leftWork c) then {} else leftWork c) s1
    let s3 := updCore (coreOf p) (fun k => { k with slog := k.slog.filter (fun e => e.pos != p) }) s2
    afterFree p (freeHeld p s3)

/-- The contexts of a launch, bound or saved: their keys. -/
def ctxsOf (s : State) (seq : Nat) : List Nat :=
  s.ctxs.filterMap (fun e =>
    if e.2.lseq == seq && (e.2.st != .free || s.saved.any (fun v => v.key == e.1)) then some e.1 else none)

/-- A launch has a context that ended through a fault (R260): the first one's cause and group address are recorded, the
address in FGROUP of its entry too, and no further cluster is bound. -/
def faultLaunch (seq cause : Nat) (gaddr : Word) (s : State) : State :=
  let first : Bool := match findLaunch s seq with
    | some l => !l.ending
    | none => false
  if first then journalPut seq 40 8 gaddr.toNat (updLaunch seq (fun l => { l with
    ending := true
    cause := cause
    fgroup := gaddr }) s)
  else s

/-- The contexts of a launch are killed and the launch is ending with a cause (R278, End). -/
def endLaunch (seq cause : Nat) (gaddr : Word) (s : State) : State :=
  faultLaunch seq cause gaddr ((ctxsOf s seq).foldl (fun t p => kill p t) s)

/-! ### Taking an exception, and the return (R278 to R286) -/

/-- A cause of rank 5 of slot `slot`, without an address. -/
def plainCause (code slot : Nat) : Cause := ⟨code, 5, slot, 0, 0, 0, 0, 0, 0⟩

/-- The causes that the scheduler resolves: 0x0010 to 0x0014. -/
def bySched (code : Nat) : Bool := 0x10 ≤ code && code ≤ 0x14

/-- The trap record (Tables 18-2 and 18-3). -/
def trapRecord (c : Ctx) (e : Cause) (gaddr info : Word) : List Word :=
  [BitVec.ofNat 64 (e.code + e.slot * 2 ^ 16 + c.landing.length % 128 * 2 ^ 21 + c.sup.toNat * 2 ^ 28
      + c.replay.toNat * 2 ^ 29 + e.access * 2 ^ 30 + e.num % 2 ^ 16 * 2 ^ 32),
   gaddr, e.addr, e.place, e.frame, BitVec.ofNat 64 c.lseq, BitVec.ofNat 64 c.stepc, info]

/-- The record's bytes, as they stand in the save area. -/
def recordBytes (ws : List Word) : List Byte := ws.flatMap (fun w => bytesLE 8 w.toNat)

/-- A trap record is written to a save area (R281, R288). -/
def writeRecord (area : Option Nat) (ws : List Word) (s : State) : State :=
  match area with
  | some b => deviceWrite b (recordBytes ws) s
  | none => s

/-- A trapped context ends as its handler's `done` ends it (R259, R285, R295, R427): Draining, its side-log entries
discarded, the rest of its held transfers dropped, its walks with their destinations discarded. -/
def drainTrapped (q : Nat) (s : State) : State :=
  let c := getCtx s q
  let s1 := updCtx q (fun c => { c with
    st := .draining
    after := []
    hold := none
    walks := []
    needHandler := false
    xfers := c.xfers.map (fun x => if x.held.isSome then { x with dropped := true } else x) }) s
  let s2 := updCore (coreOf q) (fun k => { k with slog := k.slog.filter (fun e => e.pos != q) }) (dissolveAll q s1)
  faultLaunch c.lseq ((c.trec.getD 0 0).toNat % 2 ^ 16) (c.trec.getD 1 0) s2

/-- A trapped context whose launch names no handler ends at once (R259).  One that is being saved, or saved, ends so once it
is Trapped on its core again (Table 2-1). -/
def handlerless (p : Nat) (s : State) : State :=
  let c := getCtx s p
  match findLaunch s c.lseq with
  | some l => if p < 512 && c.st == .trapped && c.needHandler && recField l.record 88 8 == 0 then drainTrapped p s else s
  | none => s

/-- A context becomes Trapped with its record written to its save area (R278, R281). -/
def trapWith (p : Nat) (e : Cause) (gaddr info : Word) (resume : Option Word) (s : State) : State :=
  let c := getCtx s p
  let ws := trapRecord c e gaddr info
  let s1 := setCtx p { c with
    st := .trapped
    trec := ws
    resumeAt := resume
    hold := if bySched e.code then some e else none
    needHandler := !bySched e.code
    trapNo := 2 * (getCore s (coreOf p)).cycle + p % 2 } s
  handlerless p (writeRecord c.area ws (dissolve p s1))

/-- Taking an exception: the one operation every cause goes through (R278, R280, R286).  In a handler a cause of the
scheduler holds the handler without a record, and any other ends the handler, the context it serves and their launch
with cause 0x0042. -/
def trapEntry (p : Nat) (e : Cause) (gaddr info : Word) (resume : Option Word) (s : State) : State :=
  let c := getCtx s p
  match c.serves with
  | none => trapWith p e gaddr info resume s
  | some q =>
    if bySched e.code then updCtx p (fun c => { c with st := .trapped, hold := some e, resumeAt := resume }) s
    else endLaunch (getCtx s q).lseq 0x42 gaddr (kill q (kill p s))

/-- The cause that holds a work started by the group at `ga` still waits to be taken (R427). -/
def causeWaits (c : Ctx) (ga : Word) (h : Cause) : Bool := c.after.any (fun e => e.code == h.code && e.addr == h.addr && e.info == ga)

/-- What holds a work after its context's return: a cause of the scheduler's, or one not yet taken (R285, R427). -/
def heldOn (c : Ctx) (ga : Word) (held : Option Cause) : Option Cause :=
  match held with
  | some h => if bySched h.code || causeWaits c ga h then some h else none
  | none => none

/-- The side-log entry that raised a fault is replayed again once the fault has been handled (R183, R295). -/
def clearReplay (q : Nat) (s : State) : State :=
  if (getCtx s q).after.any (fun e => e.info.getLsbD 63) then s
  else updCore (coreOf q) (fun k => { k with slog := k.slog.map (fun e => if e.pos == q then { e with cause := none } else e) }) s

/-- A transfer after its context's return: one that nothing holds any more makes its run again from its first read
(R285). -/
def freeXfer (c : Ctx) (x : Xfer) : Xfer :=
  let h := heldOn c x.gaddr x.held
  if x.held.isSome && h.isNone then { x with held := none, buf := [], bufBad := false } else { x with held := h }

/-- The queue-overflow cause of a drain still waits to be taken (R156): of the drains of one group and one queue, the first that
overflowed is the first whose cause is taken. -/
def overflowWaits (c : Ctx) (m : MOp) : Bool :=
  m.overflow != 0 && decide (c.mops.countP (fun x => x.q == m.q && x.gaddr == m.gaddr && decide (m.overflow < x.overflow))
    < c.after.countP (fun e => e.code == 7 && e.num == m.q && e.info == m.gaddr))

/-- A drain after its context's return: one stopped by the queue overflow that was taken goes on with its counter at zero
(R156). -/
def freeDrain (c : Ctx) (m : MOp) : MOp := if m.overflow = 0 || overflowWaits c m then m else { m with overflow := 0, waited := 0 }

/-- The return from an exception (R285): the served context is Ready and continues at INFO where its record says so,
else it retries its group; a drain stopped by queue overflow goes on with its counter at zero, and held work is made
again. -/
def trapReturn (q : Nat) (s : State) : State :=
  clearReplay q (updCtx q (fun c => { c with
    st := .ready
    pc := match c.resumeAt with
      | some a => a
      | none => c.pc
    resumeAt := none
    hold := none
    needHandler := false
    mops := c.mops.map (freeDrain c)
    xfers := c.xfers.map (freeXfer c)
    walks := c.walks.map (fun w => { w with held := heldOn c w.gaddr w.held }) }) s)

end Sys2Proof.Machine
end

