-- ==== Sys2Proof/Machine/Flags.lean ====
section
/-! DEFINITION. Comparisons and predicates: the relations of `cmp`, element predicates, stage predicates, guards
(R52, R73, R95, R99, R334). -/

namespace Sys2Proof.Machine

/-- The guard of a slot word (R52): g0 is always true. -/
def guardOn (c : Ctx) (g : BitVec 3) : Bool := g == 0 || c.gpred.getLsbD g.toNat

/-- The relation of `cmp` (R334), signed by conversion to integers. -/
def cmpWord (c : Nat) (a b : Word) : Word :=
  match c with
  | 0 => if a = b then 1 else 0
  | 1 => if a = b then 0 else 1
  | 2 => if a.toInt < b.toInt then 1 else 0
  | 3 => if a.toInt < b.toInt then 0 else 1
  | 4 => if a.toNat < b.toNat then 1 else 0
  | 5 => if a.toNat < b.toNat then 0 else 1
  | 6 => if a.toInt < b.toInt then BitVec.allOnes 64 else if a = b then 0 else 1
  | _ => if a.toNat < b.toNat then BitVec.allOnes 64 else if a = b then 0 else 1

/-- The element width of a type code (Table 6-1). -/
def typeWidth (t : Nat) : Nat :=
  match t with
  | 0 | 1 | 8 | 9 | 14 => 8
  | 2 | 3 | 7 | 10 | 11 => 16
  | 4 | 5 | 12 => 32
  | 6 => 64
  | _ => 4

/-- The number of elements of a register of a type. -/
def typeCount (t : Nat) : Nat := 2048 / typeWidth t

/-- The predicate bit that governs element `i` (R99): that of its lowest byte lane. -/
def laneOf (t i : Nat) : Nat := i * typeWidth t / 8

/-- `on(K, T, i)`: element `i` is active. -/
def elemOn (k : Vec) (t i : Nat) : Bool := k.getLsbD (laneOf t i)

/-- The bits of the active elements among the first `n`, by doubling each into its place. -/
def activeMask (k : Vec) (t n : Nat) : Vec :=
  ofElems (typeWidth t) n (fun i => if elemOn k t i then 2 ^ typeWidth t - 1 else 0)

/-- The byte lanes of the active elements: the bits of a predicate that `vcmp` writes (R401). -/
def activeLanes (k : Vec) (t : Nat) : Vec :=
  let b := typeWidth t / 8
  ofElems b (typeCount t) (fun i => if elemOn k t i then 2 ^ b - 1 else 0)

/-- A predicate whose every active element's lanes hold `r i`. -/
def lanesOf (t : Nat) (r : Nat → Bool) : Vec :=
  let b := typeWidth t / 8
  ofElems b (typeCount t) (fun i => if r i then 2 ^ b - 1 else 0)

/-- `set_stage_predicates` (R95) for an entry whose iteration is INDEX: N is BOUND − S + 1. -/
def stagePreds (gp : BitVec 8) (e : LoopEntry) : BitVec 8 :=
  let j := e.index
  (List.range (Nat.min e.stages 7)).foldl (fun g i =>
    let k := i + 1
    let bit : BitVec 8 := (1 : BitVec 8) <<< k
    if k - 1 ≤ j ∧ j + 1 ≤ e.bound + k - e.stages then g ||| bit else g &&& ~~~bit) gp

/-- The stage predicates at the end of the last iteration (R93): g1 to g(min(S, 7)) false. -/
def clearPreds (gp : BitVec 8) (stages : Nat) : BitVec 8 :=
  (List.range (Nat.min stages 7)).foldl (fun g i => g &&& ~~~((1 : BitVec 8) <<< (i + 1))) gp

end Sys2Proof.Machine
end

