-- ==== Sys2Proof/Machine/Operands.lean ====
section
/-! DEFINITION. What an operation of a group is to the machine (`OpSem`), the forms of its operands, memory operands
and modifiers, and the translation of global addresses through the extents (R35, R56, R174, R180, R181, R188,
R318, R319). -/

namespace Sys2Proof.Machine

/-- A result that lands (R28): destination, value, the bits it writes, exposed latency, mark. -/
structure Res where
  dest : Dest
  value : Vec
  mask : Vec
  lat : Nat
  bad : Bool

/-- What the sequencer does after the group has issued, when the group's BR operation says so. -/
inductive SeqAct where
  /-- The next group follows. -/
  | flow
  /-- A taken `br` or `ret` (`pops`, R94) or `call`. -/
  | jump (target : Word) (pops : Bool)
  /-- `loop` or `lsp` with a count: the entry is pushed, its START being the next group (R363). -/
  | push (e : LoopEntry)
  /-- `loop` or `lsp` with a count of zero: the body of `len` groups is passed over (R91, R425). -/
  | over (len : Nat)
  /-- `mpc`: the metadata counter (R366). -/
  | metaTo (a : Word)
  /-- `brk` or `trap` (R280): the code of the cause and its number. -/
  | trap (code num : Nat)
  /-- `wait 0` (R413). -/
  | idle
  /-- `yld` (R422). -/
  | yield
  /-- `done` and `tret` end the context; their effect has seen to it. -/
  | ended
  deriving DecidableEq, Repr

/-- An operation of a group, as read against the state before the group: its slot and guard; the registers that block
it when pending and those it writes by interlock; the common registers it reads and their ports; its results; the
stochastic draws and queue rows it takes; what it counts as for the checks of R71; its cause; whether it blocks, the pages whose
recall it waits for (R233), and whether it waits for a stack in thermal hold (R79, R297); its other effects; and what the
sequencer does. -/
structure OpSem where
  slot : Nat
  guard : BitVec 3
  on : Bool
  reads : List Reg := []
  ports : List (Nat × Nat) := []
  res : List Res := []
  ilocks : List Reg := []
  draws : Nat := 0
  pops : List Nat := []
  isFmt : Bool := false
  isScl : Bool := false
  isMx : Bool := false
  cread : List Nat := []
  cause : Option Cause := none
  blocks : Bool := false
  recalls : List Nat := []
  held : Bool := false
  effect : State → State := id
  seq : SeqAct := .flow

/-- What an operation learns of its group: the queue rows and draws that lower slots take (R157, R110), the rows that all
its slots take, and the address past the group (R331). -/
structure Pre where
  pops : List Nat := []
  total : List Nat := []
  draws : Nat := 0
  next : Word := 0

/-- An operation as far as its slot and guard say. -/
def opBase (c : Ctx) (slot : Nat) (g : BitVec 3) : OpSem := { slot := slot, guard := g, on := guardOn c g }

/-- A 64-bit value as a result. -/
def wordRes (r : Reg) (v : Word) (lat : Nat) (bad : Bool) : Res := ⟨.reg r, v.setWidth 2048, fullMask, lat, bad⟩

/-- The values of the registers are at hand: none of them is pending.  A condition that rests on a value to come does not
hold yet; the group blocks, and the condition is looked at again (R33, R279). (DEDUCED, log 71.) -/
def seen (c : Ctx) (rs : List Reg) : Bool := !rs.any (isPending c)

/-- Some of the registers carries the mark. -/
def anyBad (c : Ctx) (rs : List Reg) : Bool := rs.any (regBad c)

/-- A register-to-register operation: it reads `rs` and lands one value. -/
def opLand (c : Ctx) (slot : Nat) (g : BitVec 3) (rs : List Reg) (d : Reg) (v mask : Vec) (lat : Nat) : OpSem :=
  { opBase c slot g with reads := rs, res := [⟨.reg d, v, mask, lat, anyBad c rs⟩] }

/-- The same on 64-bit values. -/
def opWord (c : Ctx) (slot : Nat) (g : BitVec 3) (rs : List Reg) (d : Reg) (v : Word) (lat : Nat) : OpSem :=
  opLand c slot g rs d (v.setWidth 2048) fullMask lat

/-- The file of a scalar slot (R12). -/
def sFile : SSlot → File
  | .sa => .x
  | .sb => .y

/-- The vector file of a vector slot. -/
def vFile : VSlot → File
  | .va => .va
  | .vb => .vb
  | .vc => .vc

/-- The predicate file of a vector slot. -/
def kFile : VSlot → File
  | .va => .ka
  | .vb => .kb
  | .vc => .kc

/-! ### Memory operands and modifiers (R318, R319) -/

/-- `step(a, w)` of R319. -/
def modStep (a w : Word) : Word :=
  let wn := w.toNat
  match wn / 2 ^ 62 with
  | 0 => a + sextW 62 wn
  | 1 =>
    let len := if wn % 2 ^ 32 = 0 then 2 ^ 32 else wn % 2 ^ 32
    let o := a.toNat % len
    a - BitVec.ofNat 64 o + BitVec.ofInt 64 (((o : Int) + toSigned 30 (wn / 2 ^ 32)) % len)
  | 2 =>
    let k := if wn % 64 = 0 then 1 else wn % 64
    let e := wn / 2 ^ 8 % 16
    let i := a.toNat / 2 ^ e % 2 ^ k
    let j := revBits k (((revBits k i : Int) + toSigned 30 (wn / 2 ^ 32)) % 2 ^ k).toNat
    BitVec.ofNat 64 (a.toNat - i * 2 ^ e + j * 2 ^ e)
  | _ => a

/-- An address register. -/
def aReg (n : Nat) : Reg := ⟨.a, n⟩

/-- A modifier register. -/
def wReg (n : Nat) : Reg := ⟨.w, n⟩

/-- The post-update of `[aN+=wM]`; `[aN]` is M = 0 and writes nothing (R318). -/
def postUpdate (c : Ctx) (a m : Nat) : List Res :=
  if m = 0 then []
  else [wordRes (aReg a) (modStep (regWord c (aReg a)) (regWord c (wReg m))) 1 (anyBad c [aReg a, wReg m])]

/-- The registers that a memory operand reads. -/
def memReads (a m : Nat) : List Reg := if m = 0 then [aReg a] else [aReg a, wReg m]

/-! ### Translation (R174, R180, R181, R186 to R188) -/

/-- A 48-bit address, sign-extended (R174). -/
def canonical (va : Word) : Bool := sextW 48 va.toNat == va

/-- The page of 64 KiB of an address, bits 47:16. -/
def pageOf (va : Word) : Nat := va.toNat / 2 ^ 16 % 2 ^ 32

/-- The context whose extents a context uses: a handler those of the context it serves (R283). -/
def extOwner (s : State) (p : Nat) : Nat :=
  match (getCtx s p).serves with
  | some q => q
  | none => p

/-- The extent that holds an address. -/
def extentAt (es : List Extent) (va : Word) : Option Extent :=
  es.find? (fun e => canonical va && e.vpn ≤ pageOf va && pageOf va < e.vpn + e.pages)

/-- The address lies in a declared range (R252), whose BASE is taken modulo 2^48. (DESIGN CHOICE, log 115.) -/
def rangeAt (rs : List Range) (va : Word) : Option Range :=
  rs.find? (fun r => canonical va && r.base % 2 ^ 48 ≤ va.toNat % 2 ^ 48 && va.toNat % 2 ^ 48 < r.base % 2 ^ 48 + r.len)

/-- A permission of a leaf: R, W or X is bit 2, 3 or 4 of the frame word, and bit 5 restricts all three to supervisor
mode (R186). -/
def leafGrants (perm : Word) (bit : Nat) (sup : Bool) : Bool := perm.getLsbD bit && (!perm.getLsbD 5 || sup)

/-- The kinds of access: read, write, execute; a lattice access also needs kind `l` (R253). -/
inductive Access where
  | read | write | exec | join | wait
  deriving DecidableEq, Repr

/-- The leaf bit and the range kinds of an access: kinds r, w, x, l are bits 0 to 3. -/
def extentGrants (e : Extent) (a : Access) (sup : Bool) : Bool :=
  match a with
  | .read => leafGrants e.perm 2 sup && bitOf e.kinds 0
  | .write => leafGrants e.perm 3 sup && bitOf e.kinds 1
  | .exec => leafGrants e.perm 4 sup && bitOf e.kinds 2
  | .join => leafGrants e.perm 3 sup && bitOf e.kinds 1 && bitOf e.kinds 3
  | .wait => leafGrants e.perm 2 sup && bitOf e.kinds 0 && bitOf e.kinds 3

/-- The kinds that the declared range of an address grants; all, outside the ranges (R253). -/
def kindsAt (rs : List Range) (va : Word) : Nat :=
  match rangeAt rs va with
  | some r => r.kinds
  | none => 15

/-- An extent grants the context an access at an address, by its leaf and by the range that the address lies in. -/
def grantsAt (s : State) (p : Nat) (e : Extent) (va : Word) (a : Access) : Bool :=
  extentGrants { e with kinds := e.kinds &&& kindsAt (getCtx s (extOwner s p)).ranges va } a (getCtx s p).sup

/-- The outcome of the check of Table 10-3. -/
inductive XlOut where
  | ok (e : Extent)
  | absent (e : Extent)
  | fault (code : Nat) (place : Word)
  deriving DecidableEq, Repr

/-- ACCESS of the trap record (Table 18-2). -/
def accessCode : Access → Nat
  | .read | .wait => 1
  | .write | .join => 2
  | .exec => 3

/-- Table 10-3: an access of the context at an address.  A page fault is 0x0010, or 0x0011 for a fetch; an address in
a declared range and outside every extent is 0x0012; outside both, 0x0020; a permission lacking 0x0021 to 0x0023. -/
def translate (s : State) (p : Nat) (va : Word) (a : Access) : XlOut :=
  let o := getCtx s (extOwner s p)
  match extentAt o.extents va with
  | some e =>
    if e.absent then .absent e
    else if grantsAt s p e va a then .ok e
    else .fault (match a with
      | .read | .wait => 0x21
      | .write | .join => 0x22
      | .exec => 0x23) e.place
  | none => if (rangeAt o.ranges va).isSome then .fault 0x12 0 else .fault 0x20 0

/-- The physical address under an extent. -/
def physAddr (e : Extent) (va : Word) : Nat := e.frame + (pageOf va - e.vpn) * 2 ^ 16 + va.toNat % 2 ^ 16

/-- Fields of a placement word (Table 10-6). -/
def plTier (w : Word) : Nat := bitsOf w.toNat 62 2
/-- DIES. -/
def plDies (w : Word) : Nat := bitsOf w.toNat 58 4
/-- STACKS. -/
def plStacks (w : Word) : Nat := bitsOf w.toNat 42 16
/-- GRAN. -/
def plGran (w : Word) : Nat := bitsOf w.toNat 39 3
/-- CHSEL. -/
def plChsel (w : Word) : Nat := bitsOf w.toNat 37 2
/-- CHAN. -/
def plChan (w : Word) : Nat := bitsOf w.toNat 32 5
/-- REPL. -/
def plRepl (w : Word) : Nat := bitsOf w.toNat 30 2
/-- LTYPE. -/
def plLtype (w : Word) : Nat := bitsOf w.toNat 26 4
/-- COH. -/
def plCoh (w : Word) : Nat := bitsOf w.toNat 24 2
/-- DEV. -/
def plDev (w : Word) : Nat := bitsOf w.toNat 14 10
/-- CACHE. -/
def plCache (w : Word) : Nat := bitsOf w.toNat 12 2
/-- RS. -/
def plRs (w : Word) : Bool := w.getLsbD 11

/-- A channel is in the lists of R188: not retired.  A channel that fails in service stays in them until the next
bring-up (R314). -/
def chanLive (s : State) (st c : Nat) : Bool := !s.deadChans.contains (32 * st + c)

/-- The list L of R188: (stack, channel), stack fastest. -/
def chanList (s : State) (stk chsel chan : Nat) : List (Nat × Nat) :=
  (List.range 32).flatMap (fun c => (List.range 16).filterMap (fun st =>
    let sel := match chsel with
      | 0 => true
      | 1 => c < 16
      | 2 => 16 ≤ c
      | _ => c == chan
    if bitOf stk st && chanLive s st c && sel then some (st, c) else none))

/-- The set bits of a mask of `n` bits, lowest first. -/
def setBits (n m : Nat) : List Nat := (List.range n).filter (bitOf m)

/-- Stack and channel of a physical address under a TIER 0 placement (R188). -/
def homeChan (s : State) (w : Word) (stk pa : Nat) : Option (Nat × Nat) :=
  let l := chanList s stk (plChsel w) (plChan w)
  let u := pa % 2 ^ 16 / (256 * 2 ^ plGran w)
  if l.isEmpty then none else l[(u + pa / 2 ^ 16) % l.length]?

/-- The stacks of die `d` in a mask. -/
def diesStacks (stk d : Nat) : Nat := stk / 2 ^ (4 * d) % 16 * 2 ^ (4 * d)

/-- The home die of a physical address (R188); `d` is the die whose own copy is meant where the page is replicated. -/
def homeDie (s : State) (w : Word) (d pa : Nat) : Nat :=
  if plRepl w ≠ 0 then d
  else match plTier w with
    | 0 => match homeChan s w (plStacks w) pa with
      | some c => c.1 / 4
      | none => 0
    | 1 =>
      let ds := setBits 4 (plDies w)
      if ds.isEmpty then 0 else ds.getD ((pa % 2 ^ 16 / (256 * 2 ^ plGran w) + pa / 2 ^ 16) % ds.length) 0
    | _ => (setBits 4 (plDies w)).getD 0 0

/-- The die whose copy an access from die `d` uses on a replicated page: its own where DIES names it, else the lowest
in DIES (R214, R230).  An access of the host or of the scheduler goes by the same rule. (DESIGN CHOICE, log 114.) -/
def copyDie (w : Word) (d : Nat) : Nat := if bitOf (plDies w) d then d else (setBits 4 (plDies w)).getD 0 0

/-- The storage key of a physical address under a placement, for an access from die `d`. (DESIGN CHOICE, log 8.) -/
def placeKey (w : Word) (d pa : Nat) : Nat :=
  if plRepl w ≠ 0 then memKey (1 + copyDie w d) pa
  else match plTier w with
    | 2 => memKey (16 + plDev w) pa
    | 3 => memKey 5 pa
    | _ => memKey 0 pa

/-- The key and the home die of an access from die `d`. -/
def placeOf (s : State) (w : Word) (d pa : Nat) : Nat × Nat :=
  (placeKey w d pa, homeDie s w (copyDie w d) pa)

/-- The stacks that hold the copy of a page that die `d` uses (R188, R214). -/
def copyStacks (w : Word) (d : Nat) : Nat :=
  if plRepl w = 0 then plStacks w else diesStacks (plStacks w) (copyDie w d)

/-- The HBM channel of a physical address, for TIER 0. -/
def lineChan (s : State) (w : Word) (d pa : Nat) : Option (Nat × Nat) :=
  if plTier w = 0 then homeChan s w (copyStacks w d) pa else none

/-- The line lies on a channel that has failed in service (R314). -/
def lineLost (s : State) (w : Word) (d pa : Nat) : Bool :=
  match lineChan s w d pa with
  | some c => s.failChans.contains (32 * c.1 + c.2)
  | none => false

/-- The die of a storage key's copy; 0 for a frame placed once. -/
def keyDie (key : Nat) : Nat := key / 2 ^ 52 % 16 - 1

/-- A line reads poisoned (R290, R314): by its mark, or as one on a failed channel. -/
def keyBad (s : State) (w : Word) (key : Nat) : Bool :=
  smGet false s.lineBad (key / 64) || lineLost s w (keyDie key) (key % 2 ^ 52)

/-- One of `n` lines from a storage key reads poisoned. -/
def keysBad (s : State) (w : Word) (key n : Nat) : Bool := (List.range n).any (fun i => keyBad s w (key + 64 * i))

/-- No port of the package has a live lane (R311). -/
def portsDown (s : State) : Bool := (List.range 128).all (fun i => s.deadLanes.contains i || s.failLanes.contains i)

/-- The line's stack is in thermal hold (R297). -/
def lineHeld (s : State) (w : Word) (d pa : Nat) : Bool :=
  match lineChan s w d pa with
  | some c => s.holds.contains c.1
  | none => false

/-- Declared ranges and extents: the extent is used (R182 replaces the least recently used one: the first). -/
def touchExtent (p : Nat) (va : Word) (s : State) : State :=
  let o := extOwner s p
  match extentAt (getCtx s o).extents va with
  | some e => updCtx o (fun c => { c with extents := c.extents.filter (· != e) ++ [e] }) s
  | none => s

/-- The number of extents that a context may hold (R180). -/
def extentRoom (c : Ctx) : Nat := if c.wide then 64 else 32

/-- What is left of an extent outside `n` pages from page `v`. -/
def carveOne (v n : Nat) (e : Extent) : List Extent :=
  if e.vpn + e.pages ≤ v ∨ v + n ≤ e.vpn then [e]
  else
    let hi := v + n
    (if e.vpn < v then [{ e with pages := v - e.vpn }] else [])
      ++ (if hi < e.vpn + e.pages then [{ e with vpn := hi, pages := e.vpn + e.pages - hi, frame := e.frame + (hi - e.vpn) * 2 ^ 16 }] else [])

/-- The extents without `n` pages from page `v`; one that also covers other pages is split (R189). -/
def carve (v n : Nat) (es : List Extent) : List Extent := es.flatMap (carveOne v n)

/-- The filter bits of a granule of 2 MiB (R184). -/
def filterBits (g : Nat) : List Nat :=
  let a := bitsOf g 0 10
  let b := bitsOf g 10 10
  let c := bitsOf g 20 7
  [a, b ^^^ c, (a + 3 * b + 5 * c) % 1024]

/-- The granules of 2 MiB that `n` pages from page `v` overlap. -/
def granulesOf (v n : Nat) : List Nat := if n = 0 then [] else (List.range ((v + n - 1) / 32 - v / 32 + 1)).map (· + v / 32)

/-- The filter with the bits of an extent set. -/
def filterAdd (f : BitVec 1024) (e : Extent) : BitVec 1024 :=
  (granulesOf e.vpn e.pages).foldl (fun m g => (filterBits g).foldl (fun k b => k ||| (1 : BitVec 1024) <<< b) m) f

/-- The filter has all three bits of some granule of the range (R184). -/
def filterHits (f : BitVec 1024) (v n : Nat) : Bool :=
  (granulesOf v n).any (fun g => (filterBits g).all (fun b => f.getLsbD b))

/-- An extent installed over what covered its pages, which keeps its other pages, in two pieces where they lie on both sides
(DESIGN CHOICE, log 106); the least recently used ones are replaced where the context's entries are full (R182, R189), and the
core's filter takes its bits. -/
def installExtent (o : Nat) (e : Extent) (s : State) : State :=
  updCore (coreOf o) (fun k => { k with filter := if o < 512 then filterAdd k.filter e else k.filter })
    (updCtx o (fun c =>
      let kept := carve e.vpn e.pages c.extents
      { c with extents := kept.drop (kept.length + 1 - extentRoom c) ++ [e] }) s)

end Sys2Proof.Machine
end

