-- ==== Sys2Proof/Machine/Reach.lean ====
section
/-! DEFINITION. What an access meets on its way to memory: the home L2, its stack, the grant of its page, the ports of the
package; and the room of the caches (R13, R14, R175, R202, R227, R233, R297, R311). -/

namespace Sys2Proof.Machine

/-! ### Room in a cache -/

/-- The key that a full table of `cap` entries gives up for a new one; draw `n` chooses it. (DESIGN CHOICE, log 66.) -/
def cacheVictim {α : Type} (cap n : Nat) (m : SMap α) (key : Nat) : Option Nat :=
  if m.length < cap || m.any (fun e => e.1 == key) then none else (m[Config.victim n % m.length]?).map (·.1)

/-- A table of `cap` entries takes a value, in the place of another where it is full. -/
def cacheSet {α : Type} [DecidableEq α] (cap n : Nat) (d : α) (m : SMap α) (key : Nat) (v : α) : SMap α :=
  match cacheVictim cap n m key with
  | some k => smSet d (smErase m k) key v
  | none => smSet d m key v

/-! ### The home L2 (R202) -/

/-- What an L2 holds of a line that it lacks. -/
def L2Line.blank : L2Line := ⟨false, none, false, 0, 0⟩

/-- A line in a die's L2. -/
def l2Get (s : State) (d line : Nat) : L2Line := smGet L2Line.blank (getDie s d).l2 line

/-- A line of a die's L2 changed. -/
def l2Set (d line : Nat) (x : L2Line) (s : State) : State :=
  updDie d (fun k => { k with l2 := smSet L2Line.blank k.l2 line x }) s

/-- The lines of one stack in a die's memory-side caches. -/
def sideLines (m : SMap (Option Nat)) (stack : Nat) : SMap (Option Nat) := m.filter (fun e => e.2 == some stack)

/-- A line enters the memory-side cache of its stack, in the place of another where that is full (R175). -/
def sideSet (n line : Nat) (stack : Option Nat) (m : SMap (Option Nat)) : SMap (Option Nat) :=
  match stack with
  | none => m
  | some k => match cacheVictim Config.sideLines n (sideLines m k) line with
    | some v => smSet none (smErase m v) line (some k)
    | none => smSet none m line (some k)

/-- A burst that bulk traffic of the die itself asks for, on behalf of no core: it stands in the name of the die's first
(R178). (DESIGN CHOICE, log 89.) -/
def bulkBurst (d block : Nat) (chan : Option (Nat × Nat)) (use : BurstUse) (s : State) : State :=
  match chan with
  | none => s
  | some c => { s with bursts := s.bursts ++ [⟨d, 64 * d, block, c.1, c.2, true, false, use⟩] }

/-- A line leaves its L2 (R175, R178, R202, R208): MTS takes its rts, a fill of it in flight is not installed, and where
`keep` says so an HBM line falls to the memory-side cache of its stack, written back by a bulk burst. (DESIGN CHOICE,
log 89.) -/
def leaveL2 (d line : Nat) (keep : Bool) (s : State) : State :=
  let l := l2Get s d line
  if !l.here then s
  else
    let s1 := updDie d (fun k => { k with
      mts := serMax k.mts l.rts
      l2 := smErase k.l2 line
      msc := if keep then sideSet s.fresh line (l.chan.map (·.1)) k.msc else k.msc }) s
    let s2 := if keep then bulkBurst d (line / 4) l.chan .back s1 else s1
    { s2 with
      fresh := s2.fresh + 1
      cores := smMap {} (fun _ k => { k with fills := k.fills.filter (fun f => !(f.home == d && f.line == line)) }) s2.cores }

/-- The line that a full L2 gives up for a new one: one at the lowest retention where there is one (R187). (DESIGN CHOICE,
log 66.) -/
def l2Victim (n : Nat) (m : SMap L2Line) (line : Nat) : Option Nat :=
  let low := m.filter (·.2.low)
  if m.length < Config.l2Lines || m.any (fun e => e.1 == line) then none
  else if low.isEmpty then cacheVictim Config.l2Lines n m line
  else (low[Config.victim n % low.length]?).map (·.1)

/-- A full L2 gives up a line for a new one (R13, R175). -/
def roomL2 (d line : Nat) (s : State) : State :=
  match l2Victim s.fresh (getDie s d).l2 line with
  | some v => leaveL2 d v true s
  | none => s

/-- A line enters its home L2 from below with wts = rts = MTS; the memory-side cache drops its own, and a full L2 gives
up another line (R13, R175, R202). -/
def enterL2 (d line : Nat) (chan : Option (Nat × Nat)) (low : Bool) (s : State) : State :=
  if (l2Get s d line).here then s
  else
    let s1 := roomL2 d line s
    let m := (getDie s1 d).mts
    updDie d (fun k => { k with msc := smErase k.msc line }) (l2Set d line ⟨true, chan, low, m, m⟩ s1)

/-- A line of a page enters its home L2 (R187). -/
def takeLine (w : Word) (d key : Nat) (s : State) : State :=
  enterL2 d (key / 64) (lineChan s w d (key % 2 ^ 52)) (plCache w == 1) s

/-- A line of a page that no L2 keeps leaves it again once the access has been made (R187). -/
def dropUnkept (w : Word) (home line : Nat) (s : State) : State := if plCache w = 2 then leaveL2 home line false s else s

/-- The same after a write: the line is written back by a bulk burst (R178). (DESIGN CHOICE, log 89.) -/
def dropWritten (w : Word) (home line : Nat) (s : State) : State :=
  if plCache w = 2 then leaveL2 home line false (bulkBurst home (line / 4) (l2Get s home line).chan .back s) else s

/-! ### Bursts (R178) -/

/-- What a line is asked for as: its block, or the one line of a page that no L2 keeps (R187). -/
def wantUse (w : Word) (key : Nat) : BurstUse := if plCache w = 2 then .line (key / 64) else .block (plCache w == 1)

/-- A burst asked for as `b` brings what is wanted as `u`. -/
def brings (b u : BurstUse) : Bool :=
  match b with
  | .block _ => true
  | _ => b == u

/-- A request for the block of a line joins the calendar's queue (R178); a core uses its own slots for homes on its own
die only.  Of a page that no L2 keeps, the one line is taken (R187). -/
def wantLine (core home : Nat) (w : Word) (key : Nat) (bulk : Bool) (s : State) : State :=
  match lineChan s w home (key % 2 ^ 52) with
  | none => s
  | some c =>
    let u := wantUse w key
    if s.bursts.any (fun b => b.die == home && b.block == key / 256 && brings b.use u) then s
    else { s with bursts := s.bursts ++ [⟨home, core, key / 256, c.1, c.2, bulk || core / 64 != home, false, u⟩] }

/-- The line is in its home L2, or may be taken there at once; else its block is asked for and the request waits.
(DESIGN CHOICE, log 28.) -/
def reachLine (core home : Nat) (w : Word) (key : Nat) (bulk : Bool) (s : State) : State × Bool :=
  if (l2Get s home (key / 64)).here then (s, true)
  else if plTier w = 0 then (wantLine core home w key bulk s, false)
  else (takeLine w home key s, true)

/-- The dies that hold a copy of a page. -/
def copiesAt (w : Word) : List Nat := if plRepl w = 0 then [0] else setBits 4 (plDies w)

/-! ### What holds an access -/

/-- An access is served through the home L2 and the line caches: TIER 0 and 1, and peer pages under a grant (R227,
Table 14-3). -/
def timed (w : Word) : Bool := plTier w ≤ 1 || (plTier w == 2 && plCoh w != 3)

/-- The page of this package is granted away, so that the access holds until recalls complete (R233). -/
def grantHolds (s : State) (w : Word) (key : Nat) (write : Bool) : Bool :=
  plTier w ≤ 1 && pageGranted s (key % 2 ^ 52 / 2 ^ 16) write

/-- The access needs a peer device and no port is up: it waits, blocked at issue (R311). -/
def farWaits (s : State) (w : Word) (home key : Nat) : Bool :=
  plTier w == 2 && portsDown s && !(timed w && (l2Get s home (key / 64)).here)

/-- The same for an address under an extent, from position `p`. -/
def farAt (s : State) (p : Nat) (e : Extent) (va : Word) : Bool :=
  let z := placeOf s e.place (dieOf p) (physAddr e va)
  farWaits s e.place z.2 z.1

/-- The same for any line of an access of `size` bytes. -/
def farSpan (s : State) (p : Nat) (e : Extent) (va : Word) (size : Nat) : Bool :=
  (List.range (if size = 256 then 4 else 1)).any (fun i => farAt s p e (va + BitVec.ofNat 64 (64 * i)))

/-- The access reads a line that its home L2 lacks, from a stack in thermal hold: it waits there (R297). -/
def stackWaits (s : State) (w : Word) (d home key : Nat) : Bool :=
  !(l2Get s home (key / 64)).here && lineHeld s w d (key % 2 ^ 52)

/-- A read of a line from die `d` waits: for a recall, for the port of a peer, or at a stack in thermal hold. -/
def readWaits (s : State) (w : Word) (d home key : Nat) : Bool :=
  grantHolds s w key false || farWaits s w home key || stackWaits s w d home key

/-- A read that waits for a recall asks for it. -/
def readRecall (w : Word) (key : Nat) (s : State) : State :=
  if grantHolds s w key false then askRecall (key % 2 ^ 52 / 2 ^ 16) s else s

/-- An access of a core to a line from die `d`, as far as the line's home: what it asks for, and whether it may be made
now (R178, R233, R297, R311). -/
def lineAsk (core d : Nat) (w : Word) (key : Nat) (write : Bool) (s : State) : State × Bool :=
  let home := homeDie s w (copyDie w d) (key % 2 ^ 52)
  if grantHolds s w key write then (askRecall (key % 2 ^ 52 / 2 ^ 16) s, false)
  else if farWaits s w home key then (s, false)
  else if !timed w then (s, true)
  else reachLine core home w key false s

/-- The same for `n` lines from a key. -/
def linesAsk (core d : Nat) (w : Word) (key n : Nat) (s : State) : State × Bool :=
  (List.range n).foldl (fun (z : State × Bool) i =>
    let r := lineAsk core d w (key + 64 * i) false z.1
    (r.1, z.2 && r.2)) (s, true)

/-- Lines that no L2 keeps leave it again. -/
def linesDrop (d : Nat) (w : Word) (key n : Nat) (s : State) : State :=
  if plCache w = 2 then
    (List.range n).foldl (fun t i => leaveL2 (homeDie t w (copyDie w d) ((key + 64 * i) % 2 ^ 52)) (key / 64 + i) false t) s
  else s

end Sys2Proof.Machine
end

