-- ==== Sys2Proof/Machine/Group.lean ====
section
/-! DEFINITION. Fetching a group: fetch lines through the instruction cache, line-end marks, bundles and header checks,
and the walk over a loop body (R45 to R51, R70, R142, R356, R423, R425). -/

namespace Sys2Proof.Machine

/-- Why a fetch does not give its words. -/
inductive Stop where
  /-- It meets a cause. -/
  | cause (e : Cause)
  /-- Its line waits (R233, R311): for the recall of the page, where one is named. -/
  | waits (page : Option Nat)
  /-- Its line waits at a stack in thermal hold (R297). -/
  | held

/-- A fetch: what was read, or why it was not. -/
abbrev Fetch (α : Type) := Except Stop α

/-- A cause of a fetch: rank 1, SLOT 16, ACCESS 3 (R279, Table 18-2). -/
def fetchCause (code : Nat) (va place : Word) : Cause := ⟨code, 1, 16, va, place, 0, 3, 0, 0⟩

/-- The placement, the key and the home of an instruction address, checked against the extents (R48, R181). -/
def codePlace (s : State) (p : Nat) (va : Word) : Fetch (Word × Nat × Nat) :=
  match translate s p va .exec with
  | .ok e => .ok (e.place, placeOf s e.place (dieOf p) (physAddr e va))
  | .absent _ => .error (.cause (fetchCause 0x11 va 0))
  | .fault code place => .error (.cause (fetchCause code va place))

/-- The line that a fetch returns (R356): the line as it stands, or the copy the instruction cache took before a store
changed it; which of the two is a free value (log 11). (DEDUCED, log 26.) -/
def codeLine (s : State) (core key : Nat) : BitVec 512 :=
  let m : BitVec 512 := BitVec.ofNat 512 (rdNat s.mem (64 * key) 64)
  match smGet none (getCore s core).icache key with
  | none => m
  | some l => if l = m then m else if Config.freeLine (s.fresh * 2 ^ 64 + key) then m else l

/-- The fetch line that holds an address: its key and its 64 bytes.  A line that the instruction cache lacks waits where
a load of it would.  The cause names the address of the word, not of the line. (DEDUCED, log 69.) -/
def fetchLine (s : State) (p : Nat) (va : Word) : Fetch (Nat × BitVec 512) :=
  match codePlace s p (va &&& ~~~3) with
  | .error c => .error c
  | .ok (w, k, home) =>
    if (smGet none (getCore s (coreOf p)).icache (k / 64)).isNone && readWaits s w (dieOf p) home k then
      .error (if grantHolds s w k false then .waits (some (k % 2 ^ 52 / 2 ^ 16))
        else if farWaits s w home k then .waits none
        else .held)
    else .ok (k / 64, codeLine s (coreOf p) (k / 64))

/-- Word `i` of a line; beyond the line, zero. -/
def lineWord (l : BitVec 512) (i : Nat) : Nat := if i < 16 then bitsOf l.toNat (32 * i) 32 else 0

/-- The line-end mark (R46). -/
def lineEnd : Nat := 0xFFFFFFFF

/-- The slot words of a bundle from word `i` on, with their extension words, and the word after the last (R49, R54). -/
def slotWords (l : BitVec 512) : List Nat → Nat → List (Nat × Nat × Nat) × Nat
  | [], i => ([], i)
  | k :: ks, i =>
    let w := lineWord l i
    let ext := hasExt k w
    let r := slotWords l ks (if ext then i + 2 else i + 1)
    ((k, w, if ext then lineWord l (i + 1) else 0) :: r.1, r.2)

/-- What has been fetched of a group, with the addresses, keys and words of its lines. -/
structure Fetched where
  grp : Grp
  mask : Nat := 0
  errs : List Cause := []
  lines : List (Word × Nat × BitVec 512) := []

/-- An illegal encoding: rank 2 for a header (SLOT 16), rank 3 for a slot (R70, R279). -/
def illegal (slot : Nat) : Cause := ⟨1, if slot = 16 then 2 else 3, slot, 0, 0, 0, 0, 0, 0⟩

/-- A header check of R423 fails: reserved bits, OPT, IDLE, MASK = 0 with S = 0 or after a bundle with S = 0, OPV after
the first bundle. -/
def badHeader (h : Nat) (first : Bool) : Bool :=
  let m := h % 2 ^ 16
  bitOf h 17 || bitsOf h 22 2 != 0 || (!bitOf h 21 && bitsOf h 18 3 != 0) || (m != 0 && bitsOf h 24 8 != 0)
    || (m == 0 && !bitOf h 16) || (m == 0 && !first) || (bitOf h 21 && !first)

/-- The operations of a bundle and the slots whose words are illegal. -/
def readSlots (ws : List (Nat × Nat × Nat)) : List (Nat × Instr) × List Cause :=
  ws.foldr (fun w r => match decodeSlot w.1 w.2.1 w.2.2 with
    | .ok i => ((w.1, i) :: r.1, r.2)
    | .error _ => (r.1, illegal w.1 :: r.2)) ([], [])

/-- The address of the group that stands at an address: line-end marks are passed over (R46, R47).  Where the line
cannot be fetched, the address itself. -/
def groupAddr (s : State) (p : Nat) : Nat → Word → Word
  | 0, a => a
  | n + 1, a => match fetchLine s p a with
    | .error _ => a
    | .ok (_, l) => if lineWord l (a.toNat % 64 / 4) = lineEnd then groupAddr s p n ((a &&& ~~~63) + 64) else a &&& ~~~3

/-- The bundles of a group from address `a` on, in address order, to the end of fetch (R46, R47, R423).  `first` says
that no bundle has been read yet. -/
def fetchFrom (s : State) (p : Nat) : Nat → Word → Bool → Fetched → Fetch Fetched
  | 0, _, _, _ => .error (.waits none)
  | n + 1, a, first, f =>
    match fetchLine s p a with
    | .error c => .error c
    | .ok (k, l) =>
      let i := a.toNat % 64 / 4
      let h := lineWord l i
      let lines := (a, k, l) :: f.lines
      if h = lineEnd then fetchFrom s p n ((a &&& ~~~63) + 64) first { f with lines := lines }
      else
        let g := if first then { f.grp with addr := a &&& ~~~3 } else f.grp
        let slots := setBits 16 (h % 2 ^ 16)
        let ws := slotWords l slots (i + 1)
        if badHeader h first || 16 < ws.2 || f.mask &&& (h % 2 ^ 16) ≠ 0 then
          .ok { f with grp := { g with next := (a &&& ~~~3) + 4 }, errs := illegal 16 :: f.errs, lines := lines }
        else
          let r := readSlots ws.1
          let g1 : Grp := { g with
            next := (a &&& ~~~63) + BitVec.ofNat 64 (4 * ws.2)
            op := if first && bitOf h 21 then some (BitVec.ofNat 3 (bitsOf h 18 3)) else g.op
            ops := g.ops ++ r.1
            idle := if h % 2 ^ 16 = 0 then bitsOf h 24 8 + 1 else 0 }
          let f1 : Fetched := ⟨g1, f.mask ||| (h % 2 ^ 16), f.errs ++ r.2, lines⟩
          if bitOf h 16 then .ok f1 else fetchFrom s p n ((a &&& ~~~63) + BitVec.ofNat 64 (4 * ws.2)) false f1

/-- The innermost body replays from the loop buffer, which holds it (R96). -/
def replays (c : Ctx) : Bool :=
  match c.loops with
  | e :: _ => e.full
  | [] => false

/-- The group of the loop buffer that stands at an address, where the body replays. -/
def bufferAt (c : Ctx) (a : Word) : Option Grp := if replays c then c.lbuf.find? (fun g => g.addr == a) else none

/-- The group at an address; from the loop buffer where it replays (R96). -/
def fetchGroup (s : State) (p : Nat) (a : Word) : Fetch Fetched :=
  match bufferAt (getCtx s p) a with
  | some g => .ok ⟨g, 0, [], []⟩
  | none => fetchFrom s p Config.walkFuel a true ⟨⟨a, a, a, none, [], 0⟩, 0, [], []⟩

/-- The address of the group that a context reaches at an address (R46): in a replay by the line-end marks that its first
iteration passed. -/
def reached (s : State) (p : Nat) (a : Word) : Word :=
  let c := getCtx s p
  if replays c then
    match c.lmarks.find? (fun m => m.1 == a) with
    | some m => m.2
    | none => if (bufferAt c a).isSome then a else groupAddr s p Config.walkFuel a
  else groupAddr s p Config.walkFuel a

/-- The lines fetched enter the instruction cache of the core, in the place of others where it is full, their extents are
used, and the free values drawn are spent (R13, R182). -/
def fillCode (p : Nat) (ls : List (Word × Nat × BitVec 512)) (s : State) : State :=
  ls.foldl (fun t e =>
    let t1 := touchExtent p e.1 (updCore (coreOf p) (fun k => { k with
      icache := cacheSet Config.codeLines t.fresh none k.icache e.2.1 (some e.2.2) }) t)
    { t1 with fresh := t1.fresh + 1 }) s

/-- The metadata word at MPC with bits 2:0 cleared, through the fetch path (R142, R366); a fault names the slot MX. -/
def metaWord (s : State) (p : Nat) : Fetch Word :=
  let a := (getCtx s p).mpc &&& ~~~7
  match fetchLine s p a with
  | .ok (_, l) => .ok (BitVec.ofNat 64 (bitsOf l.toNat (8 * (a.toNat % 64)) 64))
  | .error (.cause c) => .error (.cause { c with slot := 8 })
  | .error x => .error x

/-! ### The groups of a loop body (R91, R94, R425) -/

/-- The index past the words of a bundle's slots from index `i` on, its words being `f` (R45). -/
def wordsEnd (f : Nat → Nat) : List Nat → Nat → Nat
  | [], i => i
  | k :: ks, i => wordsEnd f ks (if hasExt k (f i) then i + 2 else i + 1)

/-- The address past the bundle of header `h` at word `i` of the line `l` at `base`: one that overruns its line has its further
words in the next one, as the words stand (R45, R425). -/
def bundleEnd (s : State) (p : Nat) (base : Word) (l : BitVec 512) (h i : Nat) : Except Stop Word :=
  let slots := setBits 16 (h % 2 ^ 16)
  let n := wordsEnd (lineWord l) slots (i + 1)
  if n ≤ 16 then .ok (base + BitVec.ofNat 64 (4 * n))
  else match fetchLine s p (base + 64) with
    | .error c => .error c
    | .ok (_, m) =>
      .ok (base + BitVec.ofNat 64 (4 * wordsEnd (fun j => if j < 16 then lineWord l j else lineWord m (j - 16)) slots (i + 1)))

/-- The group at address `a` and the address past it, read by S and the length alone (R425); where a word cannot be
fetched, why, and the group it belongs to.  `st` is the address of the group begun, if one is. -/
def oneGroup (s : State) (p : Nat) : Nat → Word → Option Word → Except (Stop × Word) (Word × Word)
  | 0, a, st => .error (.waits none, st.getD a)
  | n + 1, a, st =>
    match fetchLine s p a with
    | .error c => .error (c, st.getD a)
    | .ok (_, l) =>
      let i := a.toNat % 64 / 4
      let h := lineWord l i
      if h = lineEnd then oneGroup s p n ((a &&& ~~~63) + 64) st
      else
        let g := st.getD (a &&& ~~~3)
        match bundleEnd s p (a &&& ~~~63) l h i with
        | .error c => .error (c, g)
        | .ok next => if bitOf h 16 then .ok (g, next) else oneGroup s p n next (some g)

/-- The walk of R425 from `a` over `n` groups: the address past the last; where a word cannot be fetched, why, the group
it belongs to and the groups still to walk. -/
def walkFrom (s : State) (p : Nat) : Nat → Word → Except (Stop × Word × Nat) Word
  | 0, a => .ok a
  | n + 1, a =>
    match oneGroup s p Config.walkFuel a none with
    | .error (c, g) => .error (c, g, n + 1)
    | .ok r => walkFrom s p n r.2

/-- The next body group of an entry: one of the groups `gs` that have been fetched, else as its words give it. -/
def nextBody (s : State) (p : Nat) (gs : List Grp) (a : Word) : Except (Stop × Word) (Word × Word) :=
  match gs.find? (fun h => a == h.addr || groupAddr s p Config.walkFuel a == h.addr) with
  | some h => .ok (h.addr, h.next)
  | none => oneGroup s p Config.walkFuel a none

/-- A loop entry with its body met up to address `t`, or up to a word that cannot be fetched; `n` groups are still to be
met. (DEDUCED, log 70.) -/
def meetBody (s : State) (p : Nat) (gs : List Grp) (t : Word) : Nat → LoopEntry → LoopEntry × Option (Stop × Word)
  | 0, e => (e, none)
  | n + 1, e =>
    if t.toNat < e.scan.toNat then (e, none)
    else match nextBody s p gs e.scan with
      | .error x => (e, some x)
      | .ok r => meetBody s p gs t n { e with
          scan := r.2
          last := r.1
          left := n }

/-- An address lies among the groups met of an entry's body. -/
def inMet (e : LoopEntry) (a : Word) : Bool := e.start.toNat ≤ a.toNat && a.toNat < e.scan.toNat

/-- A loop entry once the group `g` has issued: its body met up to there, and the iteration come so far, where the group lies
in the body. -/
def locate (s : State) (p : Nat) (g : Grp) (e : LoopEntry) : LoopEntry :=
  let r := (meetBody s p [g] g.addr e.left e).1
  if inMet r g.addr then { r with here := if r.here.toNat < g.next.toNat then g.next else r.here } else e

/-- The groups of a body that stand before address `t`, as the loop buffer holds them; `n` groups are still to be met. -/
def meetBefore (s : State) (p : Nat) (c : Ctx) (t : Nat) : Nat → LoopEntry → LoopEntry
  | 0, e => e
  | n + 1, e =>
    match nextBody s p c.lbuf (((c.lmarks.find? (fun m => m.1 == e.scan)).map (·.2)).getD e.scan) with
    | .error _ => e
    | .ok r =>
      if t ≤ r.1.toNat then e
      else meetBefore s p c t n { e with
        scan := r.2
        last := r.1
        left := n }

end Sys2Proof.Machine
end

