-- ==== Sys2Proof/Machine/Num.lean ====
section
/-! DEFINITION. Number formats and arithmetic: decoding to exact values, rounding, saturation, conversion, int4o blocks,
block scales and the six special functions (R99 to R121, R344).

A finite value is exact: a sign, a magnitude and a power of two. -/

namespace Sys2Proof.Machine

/-- The value of an element: NaN, an infinity, or (−1)^neg × m × 2^e. -/
inductive Num where
  | nan
  | inf (neg : Bool)
  | fin (neg : Bool) (m : Nat) (e : Int)
  deriving DecidableEq, Repr

/-- Exponent bits of a floating type code (Table 6-2). -/
def fExp (t : Nat) : Nat :=
  match t with
  | 8 => 4
  | 9 | 11 => 5
  | _ => 8

/-- Fraction bits. -/
def fMan (t : Nat) : Nat :=
  match t with
  | 8 => 3
  | 9 => 2
  | 11 => 10
  | 10 => 7
  | _ => 23

/-- Bias. -/
def fBias (t : Nat) : Nat :=
  match t with
  | 8 => 7
  | 9 | 11 => 15
  | _ => 127

/-- A floating type: e4m3, e5m2, bf16, f16, f32. -/
def isFloat (t : Nat) : Bool := t == 8 || t == 9 || t == 10 || t == 11 || t == 12

/-- An integer type or q15. -/
def isIntT (t : Nat) : Bool := t ≤ 7

/-- A signed integer type, q15 included; n8, n16 and n32 are unsigned (R100). -/
def isSigned (t : Nat) : Bool := !(t == 1 || t == 3 || t == 5)

/-- The largest finite pattern without sign (Table 6-2). -/
def fMax (t : Nat) : Nat := if t = 8 then 0x7E else (2 ^ fExp t - 1) * 2 ^ fMan t - 1

/-- The pattern of +∞. -/
def fInf (t : Nat) : Nat := (2 ^ fExp t - 1) * 2 ^ fMan t

/-- The canonical NaN (Table 6-2). -/
def fNan (t : Nat) : Nat := if t = 8 then 0x7F else fInf t + 2 ^ (fMan t - 1)

/-- A pattern with the sign bit. -/
def withSign (t : Nat) (neg : Bool) (v : Nat) : Nat := if neg then v + 2 ^ (fExp t + fMan t) else v

/-- The value of a floating pattern (R101). -/
def decFloat (t v : Nat) : Num :=
  let mb := fMan t
  let ex := bitsOf v mb (fExp t)
  let fr := v % 2 ^ mb
  let neg := bitOf v (fExp t + mb)
  if t = 8 ∧ ex = 15 ∧ fr = 7 then .nan
  else if t ≠ 8 ∧ ex = 2 ^ fExp t - 1 then (if fr = 0 then .inf neg else .nan)
  else if ex = 0 then .fin neg fr (1 - (fBias t : Int) - mb)
  else .fin neg (2 ^ mb + fr) ((ex : Int) - fBias t - mb)

/-- The integer of an integer or q15 pattern. -/
def intVal (t v : Nat) : Int := if isSigned t then toSigned (typeWidth t) v else ((v % 2 ^ typeWidth t : Nat) : Int)

/-- An exact integer as a value. -/
def numOfInt (z : Int) : Num := .fin (z < 0) z.natAbs 0

/-- The value of a pattern of a type: q15 is q / 2^15, an e8m0 code a power of two (R100, R101). -/
def decNum (t v : Nat) : Num :=
  if isFloat t then decFloat t v
  else if t = 7 then .fin (intVal 7 v < 0) (intVal 7 v).natAbs (-15)
  else if t = 14 then (if v % 256 = 255 then .nan else .fin false 1 ((v % 256 : Nat) - 127))
  else numOfInt (intVal t v)

/-- Rounding modes as FMT.RND numbers them: 0 to nearest even, 1 toward zero, 2 stochastic with a draw. -/
structure Mode where
  rnd : Nat
  draw : Nat := 0

/-- Round to nearest even. -/
def rneMode : Mode := ⟨0, 0⟩

/-- `m / 2^d` rounded to an integer (R107, R108). -/
def roundShift (md : Mode) (m d : Nat) : Nat :=
  let q := m / 2 ^ d
  let r := m % 2 ^ d
  if r = 0 then q
  else match md.rnd with
    | 0 => if 2 ^ d < 2 * r ∨ (2 * r = 2 ^ d ∧ q % 2 = 1) then q + 1 else q
    | 2 => if 2 ^ 16 ≤ r * 2 ^ 16 / 2 ^ d + md.draw then q + 1 else q
    | _ => q

/-- A magnitude rounded to a multiple of 2^q: the multiple. -/
def roundAt (md : Mode) (m : Nat) (e q : Int) : Nat :=
  if q ≤ e then m * 2 ^ (e - q).toNat else roundShift md m (q - e).toNat

/-- A value as a pattern of a floating type (R108, R115). -/
def encFloat (t : Nat) (md : Mode) (x : Num) : Nat :=
  match x with
  | .nan => fNan t
  | .inf neg => withSign t neg (if t = 8 then fMax 8 else fInf t)
  | .fin neg m e =>
    if m = 0 then withSign t neg 0
    else
      let emin : Int := 1 - (fBias t : Int)
      let top := (Nat.log2 m : Int) + e
      let q := (if top < emin then emin else top) - fMan t
      let v := roundAt md m e q
      let pat := ((q + fMan t + fBias t).toNat - 1) * 2 ^ fMan t + v
      withSign t neg
        (if pat ≤ fMax t then pat
         else if t = 8 ∨ md.rnd = 1 then fMax t
         else fInf t)

/-- A finite value rounded to an integer. -/
def roundInt (md : Mode) (neg : Bool) (m : Nat) (e : Int) : Int :=
  let v := (roundAt md m e 0 : Int)
  if neg then -v else v

/-- The range of an integer type. -/
def intLo (t : Nat) : Int := if isSigned t then -(2 ^ (typeWidth t - 1) : Int) else 0
/-- Its upper end. -/
def intHi (t : Nat) : Int := if isSigned t then 2 ^ (typeWidth t - 1) - 1 else 2 ^ typeWidth t - 1

/-- Clamped to the range. -/
def clampInt (t : Nat) (z : Int) : Int := if z < intLo t then intLo t else if intHi t < z then intHi t else z

/-- An exact integer result as a pattern: saturated or wrapped (R100, R111); q15 always saturates. -/
def encInt (t : Nat) (sat : Bool) (z : Int) : Nat :=
  ofSigned (typeWidth t) (if sat || t == 7 then clampInt t z else z)

/-- Exact product. -/
def mulNum (a b : Num) : Num :=
  match a, b with
  | .nan, _ => .nan
  | _, .nan => .nan
  | .inf s, .inf r => .inf (s != r)
  | .inf s, .fin r m _ => if m = 0 then .nan else .inf (s != r)
  | .fin s m _, .inf r => if m = 0 then .nan else .inf (s != r)
  | .fin s m e, .fin r n f => .fin (s != r) (m * n) (e + f)

/-- The signed magnitude of a finite value at exponent `q` at or below its own. -/
def alignInt (neg : Bool) (m : Nat) (e q : Int) : Int :=
  let v := ((m * 2 ^ (e - q).toNat : Nat) : Int)
  if neg then -v else v

/-- Exact sum; a zero sum is −0 only where both operands are −0 or negative zeros. -/
def addNum (a b : Num) : Num :=
  match a, b with
  | .nan, _ => .nan
  | _, .nan => .nan
  | .inf s, .inf r => if s = r then .inf s else .nan
  | .inf s, .fin .. => .inf s
  | .fin .., .inf r => .inf r
  | .fin s m e, .fin r n f =>
    if m = 0 ∧ n = 0 then .fin (s && r) 0 e
    else if m = 0 then .fin r n f
    else if n = 0 then .fin s m e
    else
      let q := if e ≤ f then e else f
      let z := alignInt s m e q + alignInt r n f q
      .fin (z < 0) z.natAbs q

/-- The value with its sign reversed. -/
def negNum : Num → Num
  | .nan => .nan
  | .inf s => .inf (!s)
  | .fin s m e => .fin (!s) m e

/-- A value times a power of two. -/
def scaleNum (x : Num) (k : Int) : Num :=
  match x with
  | .fin s m e => .fin s m (e + k)
  | y => y

/-- Comparison as IEEE does (R113): −1, 0 or 1; none where an operand is NaN. -/
def cmpNum (a b : Num) : Option Int :=
  match a, b with
  | .nan, _ => none
  | _, .nan => none
  | .inf s, .inf r => some (if s = r then 0 else if s then -1 else 1)
  | .inf s, .fin .. => some (if s then -1 else 1)
  | .fin .., .inf r => some (if r then 1 else -1)
  | .fin s m e, .fin r n f =>
    let q := if e ≤ f then e else f
    some (Int.sign (alignInt s m e q - alignInt r n f q))

/-- The sign of a value. -/
def numNeg : Num → Bool
  | .nan => false
  | .inf s => s
  | .fin s _ _ => s

/-- Total order of numbers for minimum, maximum and ranking: as `cmpNum`, with −0 below +0 (R113, R412). -/
def numLe (a b : Num) : Bool :=
  match cmpNum a b with
  | some 0 => numNeg a || !numNeg b
  | some z => z < 0
  | none => false

/-! ### FMT (R104) -/

/-- AFMT. -/
def fmtA (f : BitVec 16) : Nat := bitsOf f.toNat 0 4
/-- WFMT. -/
def fmtW (f : BitVec 16) : Nat := bitsOf f.toNat 4 4
/-- DFMT. -/
def fmtD (f : BitVec 16) : Nat := bitsOf f.toNat 8 4
/-- RND. -/
def fmtRnd (f : BitVec 16) : Nat := bitsOf f.toNat 12 2
/-- SAT. -/
def fmtSat (f : BitVec 16) : Bool := f.getLsbD 14
/-- OUTL. -/
def fmtOutl (f : BitVec 16) : Bool := f.getLsbD 15

/-! ### int4o (R103) -/

/-- An int4o element as decoded: an integer, or the e4m3 pattern of an outlier. -/
inductive I4 where
  | int (z : Int)
  | out (v : Nat)
  deriving DecidableEq, Repr

/-- The plain reading: two's complement. -/
def i4Plain (b : Nat) : List I4 := [.int (toSigned 4 b), .int (toSigned 4 (b / 16))]

/-- The bytes of a block decoded from byte 0 upward with OUTL = 1. -/
def i4Outl : List Nat → List I4
  | [] => []
  | [b] =>
    [if b % 16 = 8 then .int 0 else .int (toSigned 4 b), if b / 16 = 8 then .int 0 else .int (toSigned 4 (b / 16))]
  | b :: n :: r =>
    let lo := if b % 16 = 8 then I4.int 0 else .int (toSigned 4 b)
    if b / 16 = 8 then lo :: .out n :: .int 0 :: .int 0 :: i4Outl r
    else lo :: .int (toSigned 4 (b / 16)) :: i4Outl (n :: r)

/-- The 32 elements of a block of 16 bytes. -/
def i4Block (outl : Bool) (bs : List Nat) : List I4 := if outl then i4Outl bs else bs.flatMap i4Plain

/-- Byte `i` of a register. -/
def byteOf (v : Vec) (i : Nat) : Nat := elem v 8 i

/-- The first `n` int4o elements of a register (blocks of 32 elements start at element 0). -/
def i4Elems (outl : Bool) (v : Vec) (n : Nat) : List I4 :=
  ((List.range ((n + 31) / 32)).flatMap (fun b => i4Block outl ((List.range 16).map (fun j => byteOf v (16 * b + j))))).take n

/-- The value of a decoded int4o element. -/
def i4Num : I4 → Num
  | .int z => numOfInt z
  | .out v => decFloat 8 v

/-! ### Conversion (R114 to R116) -/

/-- floor(log2 |x|) of a finite non-zero value. -/
def numLog (m : Nat) (e : Int) : Int := (Nat.log2 m : Int) + e

/-- Conversion to e8m0 (R116). -/
def toE8 (x : Num) : Nat :=
  match x with
  | .fin _ m e =>
    if m = 0 then 0
    else
      let z := numLog m e + 127
      if z < 0 then 0 else if 254 < z then 254 else z.toNat
  | _ => 0xFF

/-- A float value to an integer type or q15 (Table 6-6). -/
def floatToInt (d : Nat) (md : Mode) (x : Num) : Nat :=
  match x with
  | .nan => 0
  | .inf neg => ofSigned (typeWidth d) (if neg then intLo d else intHi d)
  | .fin neg m e => ofSigned (typeWidth d) (clampInt d (roundInt md neg m (if d = 7 then e + 15 else e)))

/-- An integer, or a raw q15, to a type (Table 6-6). -/
def intTo (d : Nat) (sat : Bool) (md : Mode) (z : Int) : Nat :=
  if d = 14 then toE8 (numOfInt z)
  else if isFloat d then encFloat d md (numOfInt z)
  else ofSigned (typeWidth d) (if sat then clampInt d z else z)

/-- A value to a type other than an integer source's own rule. -/
def numTo (d : Nat) (md : Mode) (x : Num) : Nat :=
  if d = 14 then toE8 x else if isFloat d then encFloat d md x else floatToInt d md x

/-- `convert(x, S, D)` of a pattern (R115, R116); a type to itself moves the bits. -/
def convertBits (sT d : Nat) (sat : Bool) (md : Mode) (v : Nat) : Nat :=
  if sT = d then v
  else if isIntT sT then
    if sT = 7 ∧ (isFloat d ∨ d = 14) then numTo d md (decNum 7 v) else intTo d sat md (intVal sT v)
  else numTo d md (decNum sT v)

/-- The conversion of a decoded int4o element: an integer by the rows of the integer types, an outlier by those of the
floats. (DEDUCED, log 65.) -/
def convertI4 (d : Nat) (sat : Bool) (md : Mode) (x : I4) : Nat :=
  match x with
  | .int z => intTo d sat md z
  | .out v => numTo d md (decFloat 8 v)

/-- A conversion that draws when RND = 2 (R110): not to e8m0 and not from a type to itself. -/
def convDraws (sT d : Nat) : Bool := sT != d && d != 14

/-! ### Element arithmetic (R111 to R113, R398) -/

/-- x / 2^15 rounded to nearest even, of an integer. -/
def rneQ15 (z : Int) : Int := roundInt rneMode (z < 0) z.natAbs (-15)

/-- The rounding of vector arithmetic: FMT.RND, stochastic acting as nearest even (Table 6-5). -/
def arithMode (rnd : Nat) : Mode := ⟨if rnd = 1 then 1 else 0, 0⟩

/-- The arithmetic operations of the vector slots. -/
inductive Arith where
  | add | sub | mul | mad | min | max | abs
  deriving DecidableEq, Repr

/-- The minimum or maximum of two float patterns (R113): the operand that is not NaN where one is. -/
def floatPick (t : Nat) (isMin : Bool) (a b : Nat) : Nat :=
  let x := decFloat t a
  let y := decFloat t b
  match x, y with
  | .nan, .nan => fNan t
  | .nan, _ => b
  | _, .nan => a
  | _, _ => if numLe x y == isMin then a else b

/-- One element of `vadd`, `vsub`, `vmul`, `vmad`, `vmin`, `vmax`, `vabs` (R398). -/
def arithElem (op : Arith) (t rnd : Nat) (sat : Bool) (d a b : Nat) : Nat :=
  if isFloat t then
    let x := decFloat t a
    let y := decFloat t b
    let md := arithMode rnd
    match op with
    | .add => encFloat t md (addNum x y)
    | .sub => encFloat t md (addNum x (negNum y))
    | .mul => encFloat t md (mulNum x y)
    | .mad => encFloat t md (addNum (decFloat t d) (mulNum x y))
    | .min => floatPick t true a b
    | .max => floatPick t false a b
    | .abs => match x with
      | .nan => fNan t
      | _ => a % 2 ^ (fExp t + fMan t)
  else
    let x := intVal t a
    let y := intVal t b
    match op with
    | .add => encInt t sat (x + y)
    | .sub => encInt t sat (x - y)
    | .mul => encInt t sat (if t = 7 then rneQ15 (x * y) else x * y)
    | .mad => encInt t sat (intVal t d + (if t = 7 then rneQ15 (x * y) else x * y))
    | .min => ofSigned (typeWidth t) (if x ≤ y then x else y)
    | .max => ofSigned (typeWidth t) (if x ≤ y then y else x)
    | .abs => encInt t sat (x.natAbs : Int)

/-- The relation of `vcmp` (R401). -/
def cmpElem (c t a b : Nat) : Bool :=
  let r : Option Int := if isFloat t then cmpNum (decFloat t a) (decFloat t b) else some (Int.sign (intVal t a - intVal t b))
  match r with
  | none => c == 1 || c == 6
  | some z => match c with
    | 0 => z == 0
    | 1 => z != 0
    | 2 => z < 0
    | 3 => z ≤ 0
    | 4 => 0 < z
    | 5 => 0 ≤ z
    | _ => false

/-! ### Draws (R109, R110) -/

/-- The draws of the elements that draw, zero for the others. -/
def drawList : BitVec 32 → List Bool → List Nat
  | _, [] => []
  | v, b :: bs => if b then (shiftSeed 16 v).toNat % 2 ^ 16 :: drawList (shiftSeed 16 v) bs else 0 :: drawList v bs

/-- The rounding modes of a row of elements under FMT.RND: each element that is on draws once under RND = 2. -/
def modes (rnd : Nat) (seed : BitVec 32) (on : List Bool) : List Mode :=
  if rnd = 2 then (drawList seed on).map (fun r => ⟨2, r⟩) else on.map (fun _ => ⟨rnd, 0⟩)

/-- How many draws the elements take. -/
def drawCount (rnd : Nat) (on : List Bool) : Nat := if rnd = 2 then (on.filter id).length else 0

/-! ### Block scales (R120, R121, R370, R396) -/

/-- e8m0 code as a power of two's exponent. -/
def e8Exp (c : Nat) : Int := (c : Int) - 127

/-- emax of R120. -/
def packEmax (t : Nat) : Int :=
  match t with
  | 8 => 8
  | 9 => 15
  | _ => 6

/-- The shared scale code of a block (R120). -/
def sharedScale (t : Nat) (xs : List Num) : Nat :=
  if xs.any (fun x => match x with
    | .fin .. => false
    | _ => true) then 0xFF
  else
    let logs := xs.filterMap (fun x => match x with
      | .fin _ m e => if m = 0 then none else some (numLog m e)
      | _ => none)
    match logs with
    | [] => 0
    | l :: ls =>
      let x := ls.foldl (fun a b => if a < b then b else a) l - packEmax t
      ((if x < -127 then -127 else if 127 < x then 127 else x) + 127).toNat

/-- One packed element (R370). -/
def packElem (t code : Nat) (auto : Bool) (md : Mode) (v : Nat) : Nat :=
  if code = 0xFF then (if t = 0 then 0 else fNan t)
  else
    let x := scaleNum (decFloat 10 v) (-(e8Exp code))
    if t = 0 then
      let r := toSigned 8 (floatToInt 0 md x)
      ofSigned 8 (if auto ∧ r < -127 then -127 else r)
    else encFloat t md x

/-- One element of `pscl` (R121). -/
def psclElem (t code : Nat) (sat : Bool) (md : Mode) (v : Nat) : Nat :=
  if code = 0xFF then (if isFloat t then fNan t else 0)
  else if isFloat t then encFloat t md (scaleNum (decFloat t v) (e8Exp code))
  else
    let z := intVal t v
    encInt t sat (roundInt md (z < 0) z.natAbs (e8Exp code))

/-! ### Special functions (R344, Table 20-5)

1/x and 1/√x are rounded from an exact quotient and root with a sticky bit.  The other four are irrational except at
the arguments where they are exact; they are rounded from an approximation in 320-bit fixed point, whose error of fewer
than 2^-250 is far below the distance of any such value from a rounding boundary of bf16, f16 or f32 (DEDUCED, log 9). -/

/-- A positive value known to lie strictly between `m` and `m + 1` times 2^e, or exactly at `m`. -/
def stickyNum (neg : Bool) (m : Nat) (exact : Bool) (e : Int) : Num := .fin neg (if exact then 2 * m else 2 * m + 1) (e - 1)

/-- floor(√n), bit by bit from bit `k`. -/
def sqrtFrom : Nat → Nat → Nat → Nat
  | 0, n, r => if (r + 1) * (r + 1) ≤ n then r + 1 else r
  | k + 1, n, r => sqrtFrom k n (if (r + 2 ^ (k + 1)) * (r + 2 ^ (k + 1)) ≤ n then r + 2 ^ (k + 1) else r)

/-- 1/x of a finite non-zero value. -/
def rcpNum (neg : Bool) (m : Nat) (e : Int) : Num :=
  let k := Nat.log2 m + 80
  stickyNum neg (2 ^ k / m) (2 ^ k % m == 0) (-(k : Int) - e)

/-- 1/√x of a positive finite value: x is n × 4^f. -/
def rsqNum (m : Nat) (e : Int) : Num :=
  let odd := e % 2 ≠ 0
  let n := if odd then 2 * m else m
  let f := (if odd then e - 1 else e) / 2
  let q := sqrtFrom 128 (2 ^ 240 / n) 0
  stickyNum false q (q * q * n == 2 ^ 240) (-120 - f)

/-- ln 2 × 2^320. -/
def ln2Fix : Nat := 0xb17217f7d1cf79abc9e3b39803f2f6af40f343267298b62d8a0d175b8baafa2be7b876206debac98
/-- log2 e × 2^320. -/
def log2eFix : Nat := 0x171547652b82fe1777d0ffda0d23a7d11d6aef551bad2b4b1164a2cd9a342648fbc3887eeaa2ed9ac

/-- Σ y^k / k! in 320-bit fixed point, from term `k`, `t` being that term. -/
def expTerms : Nat → Nat → Nat → Nat → Nat → Nat
  | 0, _, _, _, acc => acc
  | n + 1, y, k, t, acc => expTerms n y (k + 1) (t * y / 2 ^ 320 / (k + 1)) (acc + t)

/-- 2^f × 2^320 for a fraction f in 320-bit fixed point. -/
def exp2Frac (f : Nat) : Nat := expTerms 90 (f * ln2Fix / 2 ^ 320) 0 (2 ^ 320) 0

/-- A value as a 320-bit fixed-point integer, rounded down. -/
def fixOf (neg : Bool) (m : Nat) (e : Int) : Int :=
  let v : Int := if 0 ≤ e + 320 then ((m * 2 ^ (e + 320).toNat : Nat) : Int) else ((m / 2 ^ (-(e + 320)).toNat : Nat) : Int)
  if neg then -v else v

/-- 2^x for a fixed-point x: mantissa (× 2^320) and exponent. -/
def exp2Fix (x : Int) : Nat × Int := (exp2Frac (x % 2 ^ 320).toNat, x / 2 ^ 320)

/-- 2^x of a finite value. -/
def exp2Num (neg : Bool) (m : Nat) (e : Int) : Num :=
  if m = 0 then .fin false 1 0
  else if 11 ≤ numLog m e then (if neg then .fin false 1 (-4000) else .fin false 1 4000)
  else
    let x := fixOf neg m e
    let r := exp2Fix x
    if x % 2 ^ 320 = 0 then .fin false 1 r.2 else stickyNum false r.1 false (r.2 - 320)

/-- Σ z^(2k+1) / (2k+1) in 320-bit fixed point: atanh z. -/
def atanhTerms : Nat → Nat → Nat → Nat → Nat → Nat
  | 0, _, _, _, acc => acc
  | n + 1, z2, k, t, acc => atanhTerms n z2 (k + 1) (t * z2 / 2 ^ 320) (acc + t / (2 * k + 1))

/-- log2 x of a positive finite value. -/
def log2Num (m : Nat) (e : Int) : Num :=
  let l := Nat.log2 m
  if m = 2 ^ l then numOfInt ((l : Int) + e)
  else
    let z := (m - 2 ^ l) * 2 ^ 320 / (m + 2 ^ l)
    let ln := 2 * atanhTerms 110 (z * z / 2 ^ 320) 0 z 0
    let y : Int := ((l : Int) + e) * 2 ^ 320 + ((ln * log2eFix / 2 ^ 320 : Nat) : Int)
    stickyNum (y < 0) (if y < 0 then y.natAbs - 1 else y.natAbs) false (-320)

/-- e^(−y) for y = k |x|: mantissa (× 2^320) and exponent. -/
def expNeg (k m : Nat) (e : Int) : Nat × Int :=
  exp2Fix (-(((k * (fixOf false m e).toNat * log2eFix / 2 ^ 320 : Nat) : Int)))

/-- tanh x of a finite value: below 2^-40 it lies just inside x; from 64 on just inside 1. -/
def tanhNum (neg : Bool) (m : Nat) (e : Int) : Num :=
  if m = 0 then .fin neg 0 0
  else if numLog m e < -40 then .fin neg (m * 2 ^ 64 - 1) (e - 64)
  else if 6 ≤ numLog m e then .fin neg (2 ^ 64 - 1) (-64)
  else
    let u := expNeg 2 m e
    let d := u.1 / 2 ^ (-u.2).toNat
    stickyNum neg ((2 ^ 320 - d) * 2 ^ 320 / (2 ^ 320 + d)) false (-320)

/-- 1 / (1 + e^(−x)) of a finite value: from 256 on it lies just inside 1, or just above 0. -/
def sigNum (neg : Bool) (m : Nat) (e : Int) : Num :=
  if m = 0 then .fin false 1 (-1)
  else if 8 ≤ numLog m e then (if neg then .fin false 1 (-4000) else .fin false (2 ^ 64 - 1) (-64))
  else
    let u := expNeg 1 m e
    let one := 2 ^ (320 + (-u.2).toNat)
    stickyNum false ((if neg then u.1 else one) * 2 ^ 800 / (one + u.1)) false (-800)

/-- The functions of the FX slot. -/
inductive FxFun where
  | rcp | rsq | exp2 | log2 | tanh | sig
  deriving DecidableEq, Repr

/-- f(x) (Table 20-5). -/
def fxNum (f : FxFun) (x : Num) : Num :=
  match f, x with
  | _, .nan => .nan
  | .rcp, .inf s => .fin s 0 0
  | .rcp, .fin s m e => if m = 0 then .inf s else rcpNum s m e
  | .rsq, .inf s => if s then .nan else .fin false 0 0
  | .rsq, .fin s m e => if m = 0 then .inf s else if s then .nan else rsqNum m e
  | .exp2, .inf s => if s then .fin false 0 0 else .inf false
  | .exp2, .fin s m e => exp2Num s m e
  | .log2, .inf s => if s then .nan else .inf false
  | .log2, .fin s m e => if m = 0 then .inf true else if s then .nan else log2Num m e
  | .tanh, .inf s => .fin s 1 0
  | .tanh, .fin s m e => tanhNum s m e
  | .sig, .inf s => if s then .fin false 0 0 else .fin false 1 0
  | .sig, .fin s m e => sigNum s m e

end Sys2Proof.Machine
end

