-- ==== Sys2Proof/Machine/Issue.lean ====
section
/-! DEFINITION. How a group issues: its causes and their order, what blocks it, its effects, the writes at the end of
the step, and what the sequencer does next (R27 to R37, R70, R71, R90 to R96, R278 to R280, R307). -/

namespace Sys2Proof.Machine

/-! ### Checks of Table 3-14 over a group -/

/-- The lowest slot of a list. -/
def lowest (ks : List Nat) : Option Nat :=
  ks.foldl (fun o k => match o with
    | none => some k
    | some j => some (Nat.min j k)) none

/-- A port carries two registers, or more than four registers are read (R56): the lowest slot that reads one of them.
(DEDUCED, log 18.) -/
def portErr (ops : List OpSem) : Option Nat :=
  let rd := ops.flatMap (fun o => o.ports.map (fun q => (o.slot, q.1, q.2)))
  lowest ((rd.filter (fun a => rd.any (fun b => a.2.2 == b.2.2 && a.2.1 != b.2.1))).map (·.1))

/-- Two results of the group land on one register at one step under one guard (R71): the lowest slot concerned. -/
def landErr (ops : List OpSem) : Option Nat :=
  lowest ((ops.filter (fun o => ops.any (fun q => q.slot != o.slot && q.guard == o.guard
    && o.res.any (fun r => q.res.any (fun t => r.dest == t.dest && r.lat == t.lat))))).map (·.slot))

/-- A second `fmt` or `sclt` in the iteration of the innermost loop, or an MX operation in a settling window (R71,
R307), whatever the guard of the operation reads. (DESIGN CHOICE, log 72.) -/
def issueErr (c : Ctx) (op : Option (BitVec 3)) (ops : List OpSem) : Option Nat :=
  let e := c.loops.head?
  let fmt := (e.map (·.fmtBit)).getD false
  let scl := (e.map (·.scltBit)).getD false
  let opens := match op with
    | some b => b != c.opReq
    | none => false
  lowest ((ops.filter (fun o => o.isFmt && fmt || o.isScl && scl || o.isMx && (opens || c.window != 0))).map (·.slot))

/-- A second operating-point request in the iteration: the fault lies in the header. -/
def requestErr (c : Ctx) (op : Option (BitVec 3)) : Bool := op.isSome && (c.loops.head?.map (·.opBit)).getD false

/-- The operations whose results stand: those of a BR operation (the c31 of a `call`) rest on its condition register. -/
def settledOps (c : Ctx) (ops : List OpSem) : List OpSem := ops.filter (fun o => !(o.slot == 15 && o.reads.any (isPending c)))

/-- The causes of the checks of a group. -/
def groupErrs (c : Ctx) (op : Option (BitVec 3)) (ops : List OpSem) : List Cause :=
  ([portErr ops, landErr (settledOps c ops), issueErr c op ops].filterMap id).map illegal
    ++ (if requestErr c op then [illegal 16] else [])

/-- R279: the lower rank first, then the lower slot. -/
def worse (a b : Cause) : Bool := a.rank < b.rank || (a.rank == b.rank && a.slot ≤ b.slot)

/-- The cause reported of several (R279). -/
def firstCause (cs : List Cause) : Option Cause :=
  cs.foldl (fun o c => match o with
    | none => some c
    | some d => some (if worse d c then d else c)) none

/-! ### The attempt to issue -/

/-- What an attempt to issue comes to. -/
inductive Attempt where
  /-- The position does not compete. -/
  | idleOut
  /-- A cause holds: it and the group address it names. -/
  | trap (e : Cause) (gaddr : Word)
  /-- The group blocks at issue; the pages are those whose recall it waits for (R233), and `held` says that it waits for a
  stack in thermal hold (R297). -/
  | block (pages : List Nat) (held : Bool)
  /-- The group may issue. -/
  | ready (g : Grp) (ops : List OpSem)
  /-- An idle step of `skip` or `wait 0` may issue. -/
  | step

/-- Some register of the operation is pending, or an exposed-latency result for a destination by interlock is in the
landing buffer (R33). -/
def opPends (c : Ctx) (o : OpSem) : Bool :=
  o.on && (o.reads.any (isPending c) || o.ilocks.any (isPending c)
    || o.res.any (fun r => match r.dest with
      | .reg q => isPending c q
      | _ => false)
    || o.ilocks.any (isLanding c))

/-- The landing-buffer entries that the group needs (R30). -/
def needed (ops : List OpSem) : Nat := (ops.map (fun o => if o.on then o.res.length else 0)).sum

/-- The context's settling window has run out, and the transition that it covers has not ended: the group blocks whole (R307). -/
def windowBlocks (c : Ctx) (k : Core) (side : Nat) : Bool := c.windowOpen && c.window == 0 && k.moves.contains side

/-- The group blocks: a pending register (R33), no room in the landing buffer (R30), an operation's own condition
(R34), or an operating-point transition, which holds a matrix operation whoever made it (R307). -/
def groupBlocks (c : Ctx) (k : Core) (side : Nat) (ops : List OpSem) : Bool :=
  ops.any (opPends c) || ops.any (fun o => o.on && o.blocks)
    || Config.landingEntries < c.landing.length + needed ops
    || windowBlocks c k side || (k.moving && ops.any (fun o => o.on && o.isMx))

/-- The context may have its next group offered: Ready or Blocked, with no cause of earlier work waiting (R427). -/
def competes (c : Ctx) : Bool := (c.st == .ready || c.st == .blocked) && c.after.isEmpty

/-- The wait of `bar` that falls on the next group (R325). -/
def barBlocks (s : State) (p : Nat) : Bool :=
  match (getCtx s p).barWait with
  | some b => smGet 0 (getCluster s (clusterOf p)).arr b != 0
  | none => false

/-- The cause of an operation whose guard lets it act. -/
def causeOf (o : OpSem) : Option Cause := if o.on then o.cause else none

/-- The causes of a group: of its fetch, of the checks of Table 3-14, of its operations. -/
def groupCauses (c : Ctx) (f : Fetched) (ops : List OpSem) : List Cause :=
  f.errs ++ groupErrs c f.grp.op ops ++ ops.filterMap causeOf

/-- A group with its operations is tried (R279: causes come before blocking conditions). -/
def tryGroup (s : State) (p : Nat) (f : Fetched) (ops : List OpSem) : Attempt :=
  let c := getCtx s p
  match firstCause (groupCauses c f ops) with
  | some e => .trap e f.grp.addr
  | none =>
    if barBlocks s p || groupBlocks c (getCore s (coreOf p)) (p % 2) ops then
      .block (ops.flatMap (fun o => if o.on then o.recalls else [])) (ops.any (fun o => o.on && o.held))
    else .ready f.grp ops

/-- An attempt's outcome other than issue: a trap is taken, a block recorded; a group that may issue is Ready. -/
def settleAttempt (p : Nat) (a : Attempt) (s : State) : State :=
  match a with
  | .idleOut => s
  | .trap e ga => trapEntry p e ga 0 none s
  | .block ks h => ks.foldl (fun t k => askRecall k t) (updCtx p (fun c => { c with st := .blocked, stalled := h }) s)
  | .ready .. => updCtx p (fun c => { c with st := .ready, stalled := false }) s
  | .step => updCtx p (fun c => { c with st := .ready, stalled := false }) s

/-! ### Effects -/

/-- The results of an operation enter the landing buffer, and its draws advance the generator (R28, R110). -/
def addRes (p : Nat) (o : OpSem) (s : State) : State :=
  updCtx p (fun c => { c with
    landing := c.landing ++ o.res.map (fun r => ⟨r.dest, r.value, r.mask, r.lat, o.slot, c.stepc, r.bad⟩)
    seed := advanceSeed o.draws c.seed }) s

/-- The operations of a group take effect, in slot order; a guard that reads false removes every effect (R52). -/
def runOps (p : Nat) (ops : List OpSem) (s : State) : State :=
  ops.foldl (fun t o => if o.on then o.effect (addRes p o t) else t) s

/-- The storage key from which the spill-map entries of positions are numbered among the writes of a step. -/
def parkKey (p e : Nat) : Nat := 2 ^ 70 + p * 2 ^ 20 + 256 * e

/-- The 16-byte words that a write reaches. -/
def wordsOf (w : EndWrite) : List Nat :=
  if w.data.isEmpty then [] else (List.range ((w.data.length + w.key % 16 + 15) / 16)).map (· + w.key / 16)

/-- A write loses a 16-byte word, or a granule's bit, to a write of a lower slot in the same cycle (R36). -/
def lostWord (ws : List EndWrite) (w : EndWrite) (k : Nat) : Bool := ws.any (fun v => v.slot < w.slot && (wordsOf v).contains k)

/-- The emptying of a `.c` read and a write of the core's other context: the read comes first, and the two do not collide.
(DESIGN CHOICE, log 90.) -/
def readFirst (r w : EndWrite) : Bool := r.pos != w.pos && r.read && !w.read

/-- Of two writes of one granule's full/empty bit, `v` stands over `w` (R36, R342). -/
def outdoes (v w : EndWrite) : Bool := readFirst w v || (v.slot < w.slot && !readFirst v w)

/-- A write loses a granule's full/empty bit. -/
def lostGran (ws : List EndWrite) (w : EndWrite) (k : Nat) : Bool := ws.any (fun v => outdoes v w && v.grans.contains k)

/-- Two writes of the cycle meet. -/
def meets (a b : EndWrite) : Bool :=
  (wordsOf a).any ((wordsOf b).contains ·) || (!readFirst a b && !readFirst b a && a.grans.any (b.grans.contains ·))

/-- The bytes of a write that stand, with their keys. -/
def standing (ws : List EndWrite) (w : EndWrite) : List (Nat × Byte) :=
  (w.data.zipIdx.map (fun e => (w.key + e.2, e.1))).filter (fun e => !lostWord ws w (e.1 / 16))

/-- A spill-map entry written: register contents of 256 bytes. -/
def parkWrite (w : EndWrite) (s : State) : State :=
  let e := w.key % 2 ^ 20 / 256
  updCtx w.pos (fun c => { c with
    park := smSet 0 c.park e (BitVec.ofNat 2048 (natLE w.data))
    parkBad := if w.bad then e :: c.parkBad.filter (· != e) else c.parkBad.filter (· != e) }) s

/-- One write of the cycle is made: its bytes, its granules' bits, and their marks (R36, R168, R290). -/
def endWrite (ws : List EndWrite) (s : State) (w : EndWrite) : State :=
  if 2 ^ 70 ≤ w.key then (if lostWord ws w (w.key / 16) then s else parkWrite w s)
  else
    let st := standing ws w
    let gs := w.grans.filter (fun k => !lostGran ws w k)
    let wk := (wordsOf w).filter (fun k => !lostWord ws w k)
    { s with
      mem := st.foldl (fun m e => wrByte m e.1 e.2) s.mem
      empties := gs.foldl (fun m k => smSet false m k w.empty) s.empties
      granBad := wk.foldl (fun m k =>
        if w.bad then smSet false m k true else if w.data.length < 16 then m else smSet false m k false) s.granBad }

/-- The writes of the cycle are made at its end (R35, R36); the contexts of two that meet have WCOL set. -/
def commitWrites (s : State) : State :=
  let ws := s.endw
  let hit := (ws.filter (fun a => ws.any (fun b => b.slot != a.slot && meets a b))).map (·.pos)
  let s1 := ws.foldl (endWrite ws) s
  let s2 := hit.foldl (fun t p => updCtx p (fun c => { c with wcol := true }) t) s1
  { s2 with endw := [] }

/-! ### The sequencer after issue -/

/-- The loop buffer is empty. -/
def emptyBuf (c : Ctx) : Ctx := { c with lbuf := [], lmarks := [] }

/-- Entries whose body excludes the target are popped, from the innermost on (R94); where a body's words cannot be fetched,
the entries left and why. -/
def popTo (s : State) (p : Nat) (t : Word) : List LoopEntry → List LoopEntry × Option (Stop × Word)
  | [] => ([], none)
  | e :: es =>
    if t.toNat < e.start.toNat then popTo s p t es
    else
      let r := meetBody s p [] t e.left e
      match r.2 with
      | some x => (r.1 :: es, some x)
      | none => if inMet r.1 t then (r.1 :: es, none) else popTo s p t es

/-- A taken transfer to `t`: the program counter, the entries left, the buffer with them (R94). -/
def leaveTo (s : State) (p : Nat) (t : Word) (c : Ctx) : Ctx :=
  let r := popTo s p t c.loops
  let d : Ctx := { c with
    pc := t
    loops := r.1
    exiting := r.2.isSome }
  if r.1.length < c.loops.length then emptyBuf d else d

/-- No group of the body has been met, and the buffer takes it from its first on, where it takes it at all. -/
def meetAnew (e : LoopEntry) : LoopEntry :=
  { e with scan := e.start, last := e.start, left := e.len, here := e.start, fresh := e.buf, full := false }

/-- The entry as its next iteration begins: a body that the buffer holds, or has taken in the iteration that ends, replays;
any other is met anew, and the buffer takes it (R96, R289). -/
def nextIteration (e : LoopEntry) : LoopEntry :=
  let e1 : LoopEntry := { e with index := e.index + 1, fmtBit := false, scltBit := false, opBit := false }
  if e.full then { e1 with here := e.start }
  else if e.fresh then { e1 with here := e.start, fresh := false, full := true }
  else meetAnew e1

/-- The address before which the groups of the iteration under way are those that the loop buffer held: past the farthest that
has issued, and past the `ifence` that issues now, where it is a body group itself. -/
def heldTo (anew : Bool) (c : Ctx) (e : LoopEntry) : Nat :=
  if !anew && inMet e c.pc then Nat.max e.here.toNat (c.pc.toNat + 1) else e.here.toNat

/-- The entry once the loop buffer is discarded (R96, R289, R356): what has not issued of the iteration is fetched, the groups
before it being those the buffer held.  A save (`anew`) before any group of the iteration has issued leaves it whole: it is
fetched, and captured, from its start. -/
def unbufferEntry (anew : Bool) (s : State) (p : Nat) (c : Ctx) (e : LoopEntry) : LoopEntry :=
  if anew && e.here == e.start then meetAnew e
  else if e.full then { meetBefore s p c (heldTo anew c e) e.len (meetAnew e) with here := e.here, fresh := false }
  else { e with fresh := false }

/-- The loop buffer is discarded; the next iteration fetches the body again and fills it (R96, R289, R356).
(DEDUCED, log 74.) -/
def unbuffer (anew : Bool) (s : State) (p : Nat) (c : Ctx) : Ctx :=
  { emptyBuf c with loops := c.loops.map (unbufferEntry anew s p c) }

/-- The iteration boundary of the innermost entry (R93, R95): its bits cleared, AGE and predicates advanced, and either
another iteration or the end of the loop. -/
def boundary (e : LoopEntry) (es : List LoopEntry) (c : Ctx) : Ctx :=
  let e1 := nextIteration e
  let age := if e.lsp then c.age + 1 else c.age
  if e1.index < e.bound then
    { c with
      loops := e1 :: es
      atPoint := true
      pc := e.start
      age := age
      gpred := if e.lsp then stagePreds c.gpred e1 else c.gpred }
  else
    { c with
      loops := es
      atPoint := true
      lbuf := []
      lmarks := []
      pc := e.scan
      age := age
      gpred := if e.lsp then clearPreds c.gpred e.stages else c.gpred }

/-- The group at `addr` is the LEN-th of the entry's body (R93). -/
def endsBody (e : LoopEntry) (addr : Word) : Bool := e.left == 0 && e.last == addr

/-- The next group follows, or the innermost loop's body has ended (R93).  A `loop` or `lsp` with a count of zero goes on
past its own body in any case (R91). (DEDUCED, log 73.) -/
def flowOn (addr next : Word) (c : Ctx) : Ctx :=
  match c.loops with
  | [] => { c with pc := next }
  | e :: es => if endsBody e addr then boundary e es c else { c with pc := next }

/-- The bits of R71 set in the entries whose body holds the group. -/
def setBitsOf (addr : Word) (fmt scl op : Bool) (e : LoopEntry) : LoopEntry :=
  if (fmt || scl || op) && inMet e addr then
    { e with fmtBit := e.fmtBit || fmt, scltBit := e.scltBit || scl, opBit := e.opBit || op }
  else e

/-- The group enters the loop buffer in an iteration of an innermost body of at most 64 groups that the buffer takes from
its start: the first one, and the first whole one after `ifence` or a save (R96, R289, R356). (DEDUCED, log 74.) -/
def capture (g : Grp) (c : Ctx) : Ctx :=
  match c.loops with
  | e :: _ => if e.fresh ∧ inMet e g.addr then { c with lbuf := g :: c.lbuf.filter (fun h => h.addr != g.addr) } else c
  | [] => c

/-- The enclosing body is no innermost one: the buffer does not take it (R96). -/
def outerBody (e : LoopEntry) : LoopEntry := { e with buf := false, fresh := false, full := false }

/-- The walk over the body of a loop with a count of zero (R425), and the search for the bodies that a taken transfer
leaves (R94), as far as the words can be fetched. -/
def walkOn (p : Nat) (s : State) : State :=
  let c := getCtx s p
  if c.exiting then setCtx p (leaveTo s p c.pc c) s
  else match c.bodyWalk with
    | none => s
    | some (a, n) =>
      match walkFrom s p n a with
      | .ok r => updCtx p (fun c => { c with bodyWalk := none, pc := r }) s
      | .error (_, ga, left) => updCtx p (fun c => { c with bodyWalk := some (ga, left) }) s

/-- What the sequencer does, by the group's BR operation (R91 to R94, R366, R413, R422). -/
def sequence (s : State) (p : Nat) (g : Grp) (q : SeqAct) (c : Ctx) : Ctx :=
  match q with
  | .jump t pops => if pops then leaveTo s p t c else { c with pc := t }
  | .push e =>
    emptyBuf { c with
      pc := g.next
      loops := meetAnew { e with start := g.next } :: c.loops.map outerBody
      gpred := if e.lsp then stagePreds c.gpred e else c.gpred }
  | .over n => { c with pc := g.next, bodyWalk := some (g.next, n) }
  | .metaTo a => { flowOn g.addr g.next c with mpc := a }
  | .idle => { flowOn g.addr g.next c with waitIdle := !c.landing.isEmpty }
  | .yield => { flowOn g.addr g.next c with yield := 16 }
  | _ => flowOn g.addr g.next c

/-- The BR operation's action: at most one operation of a group has one. -/
def seqOf (ops : List OpSem) : SeqAct :=
  match ops.find? (fun o => o.on && o.seq != .flow) with
  | some o => o.seq
  | none => .flow

/-- The operating-point request of an issuing group (R307): a window of W(a, b) steps opens with the group's step. -/
def request (p : Nat) (op : Option (BitVec 3)) (s : State) : State :=
  match op with
  | none => s
  | some b =>
    let c := getCtx s p
    if b = c.opReq then s
    else repoint (p % 2) (coreOf p) (setCtx p { c with
      opReq := b
      window := Config.settle c.opReq.toNat b.toNat
      windowOpen := true } s)

/-- A step of the context has issued (R27, R28): the count, the window, the landing. -/
def countStep (p : Nat) (s : State) : State :=
  landStep p (updCtx p (fun c => { c with
    stepc := c.stepc + 1
    atPoint := false
    window := c.window - 1
    denials := 0
    yield := 0 }) s)

/-- A window that has run out closes once the transition that it covers has ended (R307). -/
def closeWindow (p : Nat) (s : State) : State :=
  let c := getCtx s p
  if c.windowOpen && c.window == 0 && !(getCore s (coreOf p)).moves.contains (p % 2) then setCtx p { c with windowOpen := false } s else s

/-- `brk` and `trap` are taken before the next group (R280). -/
def afterTrap (p : Nat) (g : Grp) (q : SeqAct) (s : State) : State :=
  match q with
  | .trap code num =>
    let a := reached s p (getCtx s p).pc
    trapEntry p { plainCause code 15 with num := num } g.addr a (some a) s
  | _ => s

/-- A group has issued and its writes are made: the step is counted, results land, the sequencer moves on.
(DEDUCED, log 20.) -/
def finishGroup (p : Nat) (g : Grp) (ops : List OpSem) (s : State) : State :=
  let q := seqOf ops
  let s0 := request p g.op s
  let s1 := countStep p s0
  let s2 := updCtx p (fun c => capture g { c with
    loops := c.loops.map (fun e => setBitsOf g.addr (ops.any (·.isFmt)) (ops.any (·.isScl)) g.op.isSome (locate s1 p g e)) }) s1
  let s3 :=
    if 1 < g.idle then updCtx p (fun c => { c with idle := g.idle - 1, idleAddr := g.addr, idleNext := g.next }) s2
    else updCtx p (sequence s2 p g q) s2
  afterTrap p g q (closeWindow p (walkOn p s3))

/-- An idle step of `skip` or of `wait 0` has issued (R27, R387, R413). -/
def finishStep (p : Nat) (s : State) : State :=
  let s1 := countStep p s
  let c := getCtx s1 p
  let s2 :=
    if c.waitIdle then setCtx p { c with waitIdle := !c.landing.isEmpty } s1
    else if c.idle ≤ 1 then setCtx p (flowOn c.idleAddr c.idleNext { c with idle := 0 }) s1
    else setCtx p { c with idle := c.idle - 1 } s1
  closeWindow p s2

/-- The step of a group that has issued ends, unless its context has been killed meanwhile. -/
def endGroup (p : Nat) (g : Grp) (ops : List OpSem) (s : State) : State :=
  if (getCtx s p).st == .free then s else finishGroup p g ops s

/-- The group that a `bar` makes wait issues: the wait is over (R325). -/
def passBar (p : Nat) (s : State) : State := updCtx p (fun c => { c with barWait := none }) s

/-- One group issues by itself: its operations take effect, the writes of the cycle are made, the step ends. -/
def issueGroup (p : Nat) (g : Grp) (ops : List OpSem) (s : State) : State :=
  endGroup p g ops (commitWrites (runOps p ops (passBar p s)))

/-- The group of one operation at the context's pc, as `exec` issues it (log 5). -/
def soloGrp (c : Ctx) (i : Instr) (slot : Nat) : Grp :=
  ⟨c.pc, c.pc, c.pc + (if (encode i).length = 2 then 12 else 8), none, [(slot, i)], 0⟩

/-- The operation `i` issues as a group of its own, of the issuing position: what `exec` does with a slot operation
(log 5).  A position that does not compete issues nothing. -/
def issueSolo (i : Instr) (o : OpSem) (s : State) : Host.Outcome State Fault Refusal :=
  let p := s.cur
  let c := getCtx s p
  if competes c then
    let f : Fetched := ⟨soloGrp c i o.slot, 0, if i.wf then [] else [illegal o.slot], []⟩
    let a := tryGroup s p f [o]
    let s1 := settleAttempt p a s
    match a with
    | .ready g ops => .next (issueGroup p g ops s1)
    | _ => .next s1
  else .next s

end Sys2Proof.Machine
end

