-- ==== Sys2Proof/Machine/Ax.lean ====
section
/-! DEFINITION. The address slot AX (R322). -/

namespace Sys2Proof.Machine

/-- The results of a write of an address or modifier register: nothing for w0 (R63, R322). -/
def axOp (c : Ctx) (g : BitVec 3) (rs : List Reg) (d : Reg) (v : Word) : OpSem :=
  { opBase c 7 g with
    reads := rs
    res := if d = ⟨.w, 0⟩ then [] else [wordRes d v 1 (anyBad c rs)] }

/-- `aset` (R322). -/
def semAset (g : BitVec 3) (d : BitVec 4) (r : BitVec 5) (q : BitVec 2) (p : Nat) (s : State) : OpSem :=
  let c := getCtx s p
  { axOp c g [commonReg r.toNat] (aReg d.toNat) (regWord c (commonReg r.toNat)) with ports := [(r.toNat, q.toNat)] }

/-- `ainc` (R322). -/
def semAinc (g : BitVec 3) (d m : BitVec 4) (p : Nat) (s : State) : OpSem :=
  let c := getCtx s p
  axOp c g [aReg d.toNat, wReg m.toNat] (aReg d.toNat)
    (modStep (regWord c (aReg d.toNat)) (regWord c (wReg m.toNat)))

/-- `amod` (R322): MODE in bits 63:62, the register's bits 61:0. -/
def semAmod (g : BitVec 3) (d : BitVec 4) (r : BitVec 5) (q : BitVec 2) (e : BitVec 4) (p : Nat) (s : State) : OpSem :=
  let c := getCtx s p
  { axOp c g [commonReg r.toNat] (wReg d.toNat)
      (BitVec.ofNat 64 (e.toNat % 4 * 2 ^ 62 + (regWord c (commonReg r.toNat)).toNat % 2 ^ 62)) with
    ports := [(r.toNat, q.toNat)] }

/-- The register that `amov` names: `w` selects the modifier file. -/
def axReg (n : BitVec 4) (w : BitVec 1) : Reg := if w = 1 then wReg n.toNat else aReg n.toNat

/-- `amov` (R322): `w` is MODE bit 0 (D is w), `sf` MODE bit 1 (A is w). -/
def semAmov (g : BitVec 3) (d a : BitVec 4) (sf w : BitVec 1) (p : Nat) (s : State) : OpSem :=
  let c := getCtx s p
  axOp c g [axReg a sf] (axReg d w) (regWord c (axReg a sf))

/-- `exec` of `.aset`. -/
def execAset (g : BitVec 3) (d : BitVec 4) (r : BitVec 5) (p : BitVec 2) (s : State) : Host.Outcome State Fault Refusal :=
  issueSolo (.aset g d r p) (semAset g d r p s.cur s) s
/-- `exec` of `.ainc`. -/
def execAinc (g : BitVec 3) (d : BitVec 4) (m : BitVec 4) (s : State) : Host.Outcome State Fault Refusal :=
  issueSolo (.ainc g d m) (semAinc g d m s.cur s) s
/-- `exec` of `.amod`. -/
def execAmod (g : BitVec 3) (d : BitVec 4) (r : BitVec 5) (p : BitVec 2) (e : BitVec 4) (s : State) : Host.Outcome State Fault Refusal :=
  issueSolo (.amod g d r p e) (semAmod g d r p e s.cur s) s
/-- `exec` of `.amov`. -/
def execAmov (g : BitVec 3) (d : BitVec 4) (a : BitVec 4) (s0 : BitVec 1) (w : BitVec 1) (s : State) : Host.Outcome State Fault Refusal :=
  issueSolo (.amov g d a s0 w) (semAmov g d a s0 w s.cur s) s

end Sys2Proof.Machine
end

