-- ==== Sys2Proof/Machine/Fx.lean ====
section
/-! DEFINITION. The FX slot: special functions and `fmov` (R344, R345). -/

namespace Sys2Proof.Machine

/-- An f register. -/
def fReg (n : BitVec 3) : Reg := ⟨.f, n.toNat⟩

/-- A special function on every element, correctly rounded to nearest even in T (R344). -/
def semSpecial (fn : FxFun) (g : BitVec 3) (d a : BitVec 3) (t : BitVec 4) (p : Nat) (s : State) : OpSem :=
  let c := getCtx s p
  let v := regGet c (fReg a)
  let w := typeWidth t.toNat
  opLand c 5 g [fReg a] (fReg d)
    (vecOf w ((List.range (typeCount t.toNat)).map (fun i =>
      encFloat t.toNat rneMode (fxNum fn (decFloat t.toNat (elem v w i)))))) fullMask 8

/-- `frcp` (R344). -/
def semFrcp (g : BitVec 3) (d a : BitVec 3) (t : BitVec 4) : Nat → State → OpSem := semSpecial .rcp g d a t
/-- `frsq` (R344). -/
def semFrsq (g : BitVec 3) (d a : BitVec 3) (t : BitVec 4) : Nat → State → OpSem := semSpecial .rsq g d a t
/-- `fexp2` (R344). -/
def semFexp2 (g : BitVec 3) (d a : BitVec 3) (t : BitVec 4) : Nat → State → OpSem := semSpecial .exp2 g d a t
/-- `flog2` (R344). -/
def semFlog2 (g : BitVec 3) (d a : BitVec 3) (t : BitVec 4) : Nat → State → OpSem := semSpecial .log2 g d a t
/-- `ftanh` (R344). -/
def semFtanh (g : BitVec 3) (d a : BitVec 3) (t : BitVec 4) : Nat → State → OpSem := semSpecial .tanh g d a t
/-- `fsig` (R344). -/
def semFsig (g : BitVec 3) (d a : BitVec 3) (t : BitVec 4) : Nat → State → OpSem := semSpecial .sig g d a t

/-- `fmov` (R345): the bits move unchanged. -/
def semFmov (g : BitVec 3) (d a : BitVec 3) (f : BitVec 3) (p : Nat) (s : State) : OpSem :=
  let c := getCtx s p
  opLand c 5 g [fReg a] (physReg c (fileOfCode f.toNat) d.toNat) (regGet c (fReg a)) fullMask 2

/-- `exec` of `.frcp`. -/
def execFrcp (g : BitVec 3) (d : BitVec 3) (a : BitVec 3) (t : BitVec 4) (s : State) : Host.Outcome State Fault Refusal :=
  issueSolo (.frcp g d a t) (semFrcp g d a t s.cur s) s
/-- `exec` of `.frsq`. -/
def execFrsq (g : BitVec 3) (d : BitVec 3) (a : BitVec 3) (t : BitVec 4) (s : State) : Host.Outcome State Fault Refusal :=
  issueSolo (.frsq g d a t) (semFrsq g d a t s.cur s) s
/-- `exec` of `.fexp2`. -/
def execFexp2 (g : BitVec 3) (d : BitVec 3) (a : BitVec 3) (t : BitVec 4) (s : State) : Host.Outcome State Fault Refusal :=
  issueSolo (.fexp2 g d a t) (semFexp2 g d a t s.cur s) s
/-- `exec` of `.flog2`. -/
def execFlog2 (g : BitVec 3) (d : BitVec 3) (a : BitVec 3) (t : BitVec 4) (s : State) : Host.Outcome State Fault Refusal :=
  issueSolo (.flog2 g d a t) (semFlog2 g d a t s.cur s) s
/-- `exec` of `.ftanh`. -/
def execFtanh (g : BitVec 3) (d : BitVec 3) (a : BitVec 3) (t : BitVec 4) (s : State) : Host.Outcome State Fault Refusal :=
  issueSolo (.ftanh g d a t) (semFtanh g d a t s.cur s) s
/-- `exec` of `.fsig`. -/
def execFsig (g : BitVec 3) (d : BitVec 3) (a : BitVec 3) (t : BitVec 4) (s : State) : Host.Outcome State Fault Refusal :=
  issueSolo (.fsig g d a t) (semFsig g d a t s.cur s) s
/-- `exec` of `.fmov`. -/
def execFmov (g : BitVec 3) (d : BitVec 3) (a : BitVec 3) (f : BitVec 3) (s : State) : Host.Outcome State Fault Refusal :=
  issueSolo (.fmov g d a f) (semFmov g d a f s.cur s) s

end Sys2Proof.Machine
end

