-- ==== Sys2Proof/Machine/Vector.lean ====
section
/-! DEFINITION. The vector slots VA, VB and VC (R397 to R412). -/

namespace Sys2Proof.Machine

/-- The vector register of the slot's own file under a name. -/
def vReg (c : Ctx) (sl : VSlot) (n : BitVec 4) : Reg := physReg c (vFile sl) n.toNat

/-- The predicate register of the slot's own file; predicate files do not rotate (R76). -/
def kReg (sl : VSlot) (k : BitVec 3) : Reg := ⟨kFile sl, k.toNat⟩

/-- The registers that reading a predicate counts as: none for the hard-wired one. -/
def kReads (sl : VSlot) (k : BitVec 3) : List Reg := if k = 0 then [] else [kReg sl k]

/-- Element indices of a type. -/
def lanes (t : BitVec 4) : List Nat := List.range (typeCount t.toNat)

/-- The format fault of an operation that reads a reserved RND (R105, R106). (DEDUCED, log 10.) -/
def rndCause (c : Ctx) (slot : Nat) (used : Bool) : Option Cause :=
  if used && fmtRnd c.fmt == 3 then some (plainCause 4 slot) else none

/-- An element-wise operation under a predicate: element `i` of D takes `f a b i`, with `reads` read. -/
def semLanes (sl : VSlot) (g : BitVec 3) (d a b : BitVec 4) (k : BitVec 3) (t : BitVec 4) (reads : List Reg) (lat : Nat)
    (f : Vec → Vec → Nat → Nat) (p : Nat) (s : State) : OpSem :=
  let c := getCtx s p
  let kv := regGet c (kReg sl k)
  let av := regGet c (vReg c sl a)
  let bv := regGet c (vReg c sl b)
  opLand c sl.num g (reads ++ kReads sl k) (vReg c sl d) (vecOf (typeWidth t.toNat) ((lanes t).map (f av bv)))
    (activeMask kv t.toNat (typeCount t.toNat)) lat

/-- Element arithmetic (R398). -/
def semArith (op : Arith) (sl : VSlot) (g : BitVec 3) (d a b : BitVec 4) (k : BitVec 3) (t : BitVec 4) (lat : Nat)
    (p : Nat) (s : State) : OpSem :=
  let c := getCtx s p
  let rs := match op with
    | .abs => [vReg c sl a]
    | .mad => [vReg c sl d, vReg c sl a, vReg c sl b]
    | _ => [vReg c sl a, vReg c sl b]
  let dv := regGet c (vReg c sl d)
  let w := typeWidth t.toNat
  let rounds := isFloat t.toNat && (op == .add || op == .sub || op == .mul || op == .mad)
  { semLanes sl g d a b k t rs lat (fun av bv i =>
      arithElem op t.toNat (fmtRnd c.fmt) (fmtSat c.fmt) (elem dv w i) (elem av w i) (elem bv w i)) p s with
    cause := rndCause c sl.num rounds }

/-- `vadd` (R398). -/
def semVadd (sl : VSlot) (g : BitVec 3) (d a b : BitVec 4) (k : BitVec 3) (t : BitVec 4) : Nat → State → OpSem :=
  semArith .add sl g d a b k t 2
/-- `vsub` (R398). -/
def semVsub (sl : VSlot) (g : BitVec 3) (d a b : BitVec 4) (k : BitVec 3) (t : BitVec 4) : Nat → State → OpSem :=
  semArith .sub sl g d a b k t 2
/-- `vmul` (R398). -/
def semVmul (sl : VSlot) (g : BitVec 3) (d a b : BitVec 4) (k : BitVec 3) (t : BitVec 4) : Nat → State → OpSem :=
  semArith .mul sl g d a b k t 4
/-- `vmad` (R398). -/
def semVmad (sl : VSlot) (g : BitVec 3) (d a b : BitVec 4) (k : BitVec 3) (t : BitVec 4) : Nat → State → OpSem :=
  semArith .mad sl g d a b k t 4
/-- `vmin` (R398). -/
def semVmin (sl : VSlot) (g : BitVec 3) (d a b : BitVec 4) (k : BitVec 3) (t : BitVec 4) : Nat → State → OpSem :=
  semArith .min sl g d a b k t 2
/-- `vmax` (R398). -/
def semVmax (sl : VSlot) (g : BitVec 3) (d a b : BitVec 4) (k : BitVec 3) (t : BitVec 4) : Nat → State → OpSem :=
  semArith .max sl g d a b k t 2
/-- `vabs` (R398). -/
def semVabs (sl : VSlot) (g : BitVec 3) (d a : BitVec 4) (k : BitVec 3) (t : BitVec 4) : Nat → State → OpSem :=
  semArith .abs sl g d a 0 k t 2

/-- A bitwise operation on the active elements (R399). -/
def semBitwise (f : Vec → Vec → Vec) (sl : VSlot) (g : BitVec 3) (d a b : BitVec 4) (k : BitVec 3) (t : BitVec 4) (p : Nat)
    (s : State) : OpSem :=
  let c := getCtx s p
  opLand c sl.num g ([vReg c sl a, vReg c sl b] ++ kReads sl k) (vReg c sl d)
    (f (regGet c (vReg c sl a)) (regGet c (vReg c sl b)))
    (activeMask (regGet c (kReg sl k)) t.toNat (typeCount t.toNat)) 2

/-- `vand` (R399). -/
def semVand (sl : VSlot) (g : BitVec 3) (d a b : BitVec 4) (k : BitVec 3) (t : BitVec 4) : Nat → State → OpSem :=
  semBitwise (· &&& ·) sl g d a b k t
/-- `vor` (R399). -/
def semVor (sl : VSlot) (g : BitVec 3) (d a b : BitVec 4) (k : BitVec 3) (t : BitVec 4) : Nat → State → OpSem :=
  semBitwise (· ||| ·) sl g d a b k t
/-- `vxor` (R399). -/
def semVxor (sl : VSlot) (g : BitVec 3) (d a b : BitVec 4) (k : BitVec 3) (t : BitVec 4) : Nat → State → OpSem :=
  semBitwise (· ^^^ ·) sl g d a b k t

/-- One element shifted left (R411). -/
def shlElem (w a n : Nat) : Nat := if w ≤ n then 0 else a * 2 ^ n % 2 ^ w

/-- One element shifted right, by its type (R411). -/
def shrElem (t a n : Nat) : Nat :=
  let w := typeWidth t
  if isSigned t then ofSigned w (intVal t a / 2 ^ (if w ≤ n then w else n)) else if w ≤ n then 0 else a / 2 ^ n

/-- `vshl` (R411). -/
def semVshl (sl : VSlot) (g : BitVec 3) (d a b : BitVec 4) (k : BitVec 3) (t : BitVec 4) (p : Nat) (s : State) : OpSem :=
  let c := getCtx s p
  let w := typeWidth t.toNat
  semLanes sl g d a b k t [vReg c sl a, vReg c sl b] 2 (fun av bv i => shlElem w (elem av w i) (elem bv w i)) p s

/-- `vshr` (R411). -/
def semVshr (sl : VSlot) (g : BitVec 3) (d a b : BitVec 4) (k : BitVec 3) (t : BitVec 4) (p : Nat) (s : State) : OpSem :=
  let c := getCtx s p
  let w := typeWidth t.toNat
  semLanes sl g d a b k t [vReg c sl a, vReg c sl b] 2 (fun av bv i => shrElem t.toNat (elem av w i) (elem bv w i)) p s

/-- `vcmp` (R401). -/
def semVcmp (sl : VSlot) (g : BitVec 3) (d : BitVec 3) (a b : BitVec 4) (r : BitVec 4) (k : BitVec 3) (t : BitVec 4)
    (p : Nat) (s : State) : OpSem :=
  let c := getCtx s p
  let w := typeWidth t.toNat
  let av := regGet c (vReg c sl a)
  let bv := regGet c (vReg c sl b)
  opLand c sl.num g ([vReg c sl a, vReg c sl b] ++ kReads sl k) (kReg sl d)
    (lanesOf t.toNat (fun i => cmpElem r.toNat t.toNat (elem av w i) (elem bv w i)))
    (activeLanes (regGet c (kReg sl k)) t.toNat) 2

/-- `vsel` (R410): every element is written. -/
def semVsel (sl : VSlot) (g : BitVec 3) (d a b : BitVec 4) (k : BitVec 3) (t : BitVec 4) (p : Nat) (s : State) : OpSem :=
  let c := getCtx s p
  let m := activeMask (regGet c (kReg sl k)) t.toNat (typeCount t.toNat)
  opLand c sl.num g ([vReg c sl a, vReg c sl b] ++ kReads sl k) (vReg c sl d)
    ((regGet c (vReg c sl a) &&& m) ||| (regGet c (vReg c sl b) &&& ~~~m)) fullMask 2

/-- The combining step of `vred` and `vscan` (R408). -/
def combine (r t rnd : Nat) (sat : Bool) (a b : Nat) : Nat :=
  match r with
  | 0 => arithElem .add t rnd sat 0 a b
  | 1 => arithElem .min t rnd sat 0 a b
  | 2 => arithElem .max t rnd sat 0 a b
  | 3 => a &&& b
  | 4 => a ||| b
  | _ => a ^^^ b

/-- The identity of the combining step (R408). -/
def identityOf (r t : Nat) : Nat :=
  match r with
  | 1 => if isFloat t then fInf t else ofSigned (typeWidth t) (intHi t)
  | 2 => if isFloat t then withSign t true (fInf t) else ofSigned (typeWidth t) (intLo t)
  | 3 => 2 ^ typeWidth t - 1
  | _ => 0

/-- One level of the pairwise tree (R409). -/
def pairUp (f : Nat → Nat → Nat) : List (Option Nat) → List (Option Nat)
  | [] => []
  | [x] => [x]
  | x :: y :: r => (match x, y with
    | some a, some b => some (f a b)
    | some a, none => some a
    | none, o => o) :: pairUp f r

/-- The tree over 2^n leaves. -/
def treeOf (f : Nat → Nat → Nat) : Nat → List (Option Nat) → Option Nat
  | 0, l => (l.head?).getD none
  | n + 1, l => treeOf f n (pairUp f l)

/-- The active elements of a register. -/
def activeElems (kv av : Vec) (t : Nat) : List (Option Nat) :=
  (List.range (typeCount t)).map (fun i => if elemOn kv t i then some (elem av (typeWidth t) i) else none)

/-- A running prefix (R409). -/
def scanFrom (f : Nat → Nat → Nat) (iota : Nat) : Option Nat → List (Option Nat) → List Nat
  | _, [] => []
  | acc, x :: xs =>
    let acc1 := match acc, x with
      | some a, some b => some (f a b)
      | none, some b => some b
      | o, none => o
    acc1.getD iota :: scanFrom f iota acc1 xs

/-- A result of a reduction or scan: one that is a NaN is canonical where the step computes on values (R102, R408). -/
def canonElem (r t v : Nat) : Nat := if r ≤ 2 && isFloat t && decFloat t v == .nan then fNan t else v

/-- `vred` (R409). -/
def semVred (sl : VSlot) (g : BitVec 3) (d a : BitVec 4) (r : BitVec 4) (k : BitVec 3) (t : BitVec 4) (p : Nat) (s : State) :
    OpSem :=
  let c := getCtx s p
  let es := activeElems (regGet c (kReg sl k)) (regGet c (vReg c sl a)) t.toNat
  let v := treeOf (combine r.toNat t.toNat (fmtRnd c.fmt) (fmtSat c.fmt)) 9 es
  { opLand c sl.num g ([vReg c sl a] ++ kReads sl k) (vReg c sl d)
      (vecOf (typeWidth t.toNat) [canonElem r.toNat t.toNat (v.getD (identityOf r.toNat t.toNat))]) fullMask 6 with
    cause := rndCause c sl.num (isFloat t.toNat && r == 0) }

/-- `vscan` (R409). -/
def semVscan (sl : VSlot) (g : BitVec 3) (d a : BitVec 4) (r : BitVec 4) (k : BitVec 3) (t : BitVec 4) (p : Nat) (s : State) :
    OpSem :=
  let c := getCtx s p
  let es := activeElems (regGet c (kReg sl k)) (regGet c (vReg c sl a)) t.toNat
  let v := scanFrom (combine r.toNat t.toNat (fmtRnd c.fmt) (fmtSat c.fmt)) (identityOf r.toNat t.toNat) none es
  { opLand c sl.num g ([vReg c sl a] ++ kReads sl k) (vReg c sl d) (vecOf (typeWidth t.toNat) (v.map (canonElem r.toNat t.toNat))) fullMask 6 with
    cause := rndCause c sl.num (isFloat t.toNat && r == 0) }

/-- `vhist` (R404). -/
def semVhist (sl : VSlot) (g : BitVec 3) (d a : BitVec 4) (k : BitVec 3) (t : BitVec 4) (p : Nat) (s : State) : OpSem :=
  let c := getCtx s p
  let w := typeWidth t.toNat
  let es := activeElems (regGet c (kReg sl k)) (regGet c (vReg c sl a)) t.toNat
  opLand c sl.num g ([vReg c sl a] ++ kReads sl k) (vReg c sl d)
    (vecOf w ((lanes t).map (fun b => Nat.min (es.countP (· == some b)) (2 ^ w - 1)))) fullMask 8

/-- Element pattern `a` ranks above `b` (R412): every NaN below every number, −0 below +0. -/
def ranksAbove (t a b : Nat) : Bool :=
  if isFloat t then
    match decFloat t a, decFloat t b with
    | .nan, _ => false
    | _, .nan => true
    | x, y => !numLe x y
  else intVal t b < intVal t a

/-- The best of the remaining elements, ties to the lower index: its index and pattern. -/
def bestOf (t : Nat) (es : List (Nat × Nat)) : Option (Nat × Nat) :=
  es.foldl (fun o e => match o with
    | none => some e
    | some b => if ranksAbove t e.2 b.2 then some e else some b) none

/-- The `n` best, in order. -/
def topOf (t : Nat) : Nat → List (Nat × Nat) → List (Nat × Nat)
  | 0, _ => []
  | n + 1, es => match bestOf t es with
    | none => []
    | some b => b :: topOf t n (es.filter (fun e => e.1 != b.1))

/-- `vtopk` (R412). -/
def semVtopk (sl : VSlot) (g : BitVec 3) (d a : BitVec 4) (r : BitVec 4) (k : BitVec 3) (t : BitVec 4) (p : Nat) (s : State) :
    OpSem :=
  let c := getCtx s p
  let w := typeWidth t.toNat
  let n := r.toNat + 1
  let es := (activeElems (regGet c (kReg sl k)) (regGet c (vReg c sl a)) t.toNat).zipIdx.filterMap (fun e => e.1.map (fun v => (e.2, v)))
  let b := topOf t.toNat n es
  let val := fun v => if isFloat t.toNat && decFloat t.toNat v == .nan then fNan t.toNat else v
  let pad := n - b.length
  opLand c sl.num g ([vReg c sl a] ++ kReads sl k) (vReg c sl d)
    (vecOf w (b.map (fun e => val e.2) ++ List.replicate pad 0 ++ b.map (·.1) ++ List.replicate pad (2 ^ w - 1))) fullMask 10

/-- `vcvt` (R114, R403). -/
def semVcvt (sl : VSlot) (g : BitVec 3) (d a : BitVec 4) (st : BitVec 4) (k : BitVec 3) (t : BitVec 4) (p : Nat) (pre : Pre)
    (s : State) : OpSem :=
  let c := getCtx s p
  let wd := typeWidth t.toNat
  let ws := typeWidth st.toNat
  let n := 2048 / Nat.max wd ws
  let kv := regGet c (kReg sl k)
  let av := regGet c (vReg c sl a)
  let on := (List.range n).map (elemOn kv t.toNat)
  let rnd := fmtRnd c.fmt
  let draws := convDraws st.toNat t.toNat
  let ms := modes (if draws then rnd else 0) (advanceSeed pre.draws c.seed) on
  let sat := fmtSat c.fmt
  let vs := if st = 13 then List.zipWith (convertI4 t.toNat sat) ms (i4Elems (fmtOutl c.fmt) av n)
    else List.zipWith (fun m i => convertBits st.toNat t.toNat sat m (elem av ws i)) ms (List.range n)
  { opLand c sl.num g ([vReg c sl a] ++ kReads sl k) (vReg c sl d) (vecOf wd vs)
      (activeMask kv t.toNat n ||| ~~~(onesAt 0 (n * wd))) 3 with
    draws := if draws then drawCount rnd on else 0
    cause := rndCause c sl.num draws }

/-- `vbcast` (R400). -/
def semVbcast (sl : VSlot) (g : BitVec 3) (d : BitVec 4) (r : BitVec 5) (q : BitVec 2) (k : BitVec 3) (t : BitVec 4) (p : Nat)
    (s : State) : OpSem :=
  let c := getCtx s p
  let v := (regWord c (commonReg r.toNat)).toNat
  { opLand c sl.num g ([commonReg r.toNat] ++ kReads sl k) (vReg c sl d)
      (vecOf (typeWidth t.toNat) ((lanes t).map (fun _ => v)))
      (activeMask (regGet c (kReg sl k)) t.toNat (typeCount t.toNat)) 3 with
    ports := [(r.toNat, q.toNat)] }

/-- `vmov` (R406): the active elements, or bits 63:0 whole into x, y or c. -/
def semVmov (sl : VSlot) (g : BitVec 3) (d a : BitVec 4) (f : BitVec 4) (k : BitVec 3) (t : BitVec 4) (p : Nat) (s : State) :
    OpSem :=
  let c := getCtx s p
  let fl := fileOfCode f.toNat
  let v := regGet c (vReg c sl a)
  if fileWidth fl = 64 then opWord c sl.num g [vReg c sl a] (physReg c fl d.toNat) (v.setWidth 64) 2
  else opLand c sl.num g ([vReg c sl a] ++ kReads sl k) (physReg c fl d.toNat) v
    (activeMask (regGet c (kReg sl k)) t.toNat (typeCount t.toNat)) 2

/-- The logic of `vkop` (R405). -/
def predOp (r : Nat) (a b : Vec) : Vec :=
  match r with
  | 0 => a &&& b
  | 1 => a ||| b
  | 2 => a ^^^ b
  | 3 => a &&& ~~~b
  | 4 => ~~~a
  | _ => a

/-- `vkop` (R405): all 256 bits are written. -/
def semVkop (sl : VSlot) (g : BitVec 3) (d a b : BitVec 3) (r : BitVec 4) (p : Nat) (s : State) : OpSem :=
  let c := getCtx s p
  opLand c sl.num g (kReads sl a ++ (if r.toNat ≤ 3 then kReads sl b else [])) (kReg sl d)
    (predOp r.toNat (regGet c (kReg sl a)) (regGet c (kReg sl b))) fullMask 2

/-- `vcnt` (R402): the whole of D is written. -/
def semVcnt (sl : VSlot) (g : BitVec 3) (d : BitVec 4) (k : BitVec 3) (t : BitVec 4) (p : Nat) (s : State) : OpSem :=
  let c := getCtx s p
  let kv := regGet c (kReg sl k)
  opLand c sl.num g (kReads sl k) (vReg c sl d) (BitVec.ofNat 2048 ((lanes t).countP (elemOn kv t.toNat))) fullMask 2

/-! ### Result queues (R137, R157) -/

/-- The physical queue of a context's queue number, where it lies in the allocation (R137). -/
def queueOf (c : Ctx) (p n : Nat) : Option Nat :=
  if c.sup then none else if c.wide then some (n % 8) else if n < 4 then some (4 * (p % 2) + n) else none

/-- The rows of a queue. -/
def queueRows (s : State) (p n : Nat) : List QRow := smGet [] (getCore s (coreOf p)).queues n

/-- An accepted `drn` of the context is still to push to the queue numbered `n` (R157). -/
def drainsTo (c : Ctx) (n : Nat) : Bool := c.mops.any (fun m => m.kind == .drn && m.q == n)

/-- The rows that the group's pops of queue `n` take together, one of which takes `own` (R157). -/
def popsNeed (pre : Pre) (n own : Nat) : Nat :=
  Nat.max (pre.total.countP (· == n)) (pre.pops.countP (· == n) + own)

/-- A pop of the row after `k` others of the group, whose pops take `need` rows together: the row, the cause, and whether
the group blocks (R157). -/
def popCheck (s : State) (p slot n k need : Nat) : Option QRow × Option Cause × Bool :=
  let c := getCtx s p
  match queueOf c p n with
  | none => (none, some (plainCause 5 slot), false)
  | some q =>
    if need ≤ (queueRows s p q).length then ((queueRows s p q)[k]?, none, false)
    else if drainsTo c n then (none, none, true)
    else (none, some { plainCause 8 slot with num := n }, false)

/-- One row leaves the queue. -/
def popRow (p n : Nat) (s : State) : State :=
  match queueOf (getCtx s p) p n with
  | some q => updCore (coreOf p) (fun k => { k with queues := smSet [] k.queues q ((smGet [] k.queues q).drop 1) }) s
  | none => s

/-- `vpop` (R407). -/
def semVpop (sl : VSlot) (g : BitVec 3) (d : BitVec 4) (q : BitVec 3) (k : BitVec 3) (t : BitVec 4) (p : Nat) (pre : Pre)
    (s : State) : OpSem :=
  let c := getCtx s p
  let r := popCheck s p sl.num q.toNat (pre.pops.countP (· == q.toNat)) (popsNeed pre q.toNat 1)
  let row := r.1.getD ⟨0, false⟩
  let kv := regGet c (kReg sl k)
  { opBase c sl.num g with
    reads := kReads sl k
    ilocks := [vReg c sl d]
    pops := [q.toNat]
    cause := r.2.1
    blocks := r.2.2
    effect := fun t0 => takeId p (addPend p (vReg c sl d) (activeMask kv t.toNat (typeCount t.toNat)) (getCtx t0 p).nextId 0
      row.row (row.bad || anyBad c (kReads sl k)) (popRow p q.toNat t0)) }

/-- `exec` of `.vadd`. -/
def execVadd (sl : VSlot) (g : BitVec 3) (d : BitVec 4) (a : BitVec 4) (b : BitVec 4) (k : BitVec 3) (t : BitVec 4) (s : State) : Host.Outcome State Fault Refusal :=
  issueSolo (.vadd sl g d a b k t) (semVadd sl g d a b k t s.cur s) s
/-- `exec` of `.vsub`. -/
def execVsub (sl : VSlot) (g : BitVec 3) (d : BitVec 4) (a : BitVec 4) (b : BitVec 4) (k : BitVec 3) (t : BitVec 4) (s : State) : Host.Outcome State Fault Refusal :=
  issueSolo (.vsub sl g d a b k t) (semVsub sl g d a b k t s.cur s) s
/-- `exec` of `.vmul`. -/
def execVmul (sl : VSlot) (g : BitVec 3) (d : BitVec 4) (a : BitVec 4) (b : BitVec 4) (k : BitVec 3) (t : BitVec 4) (s : State) : Host.Outcome State Fault Refusal :=
  issueSolo (.vmul sl g d a b k t) (semVmul sl g d a b k t s.cur s) s
/-- `exec` of `.vmad`. -/
def execVmad (sl : VSlot) (g : BitVec 3) (d : BitVec 4) (a : BitVec 4) (b : BitVec 4) (k : BitVec 3) (t : BitVec 4) (s : State) : Host.Outcome State Fault Refusal :=
  issueSolo (.vmad sl g d a b k t) (semVmad sl g d a b k t s.cur s) s
/-- `exec` of `.vmin`. -/
def execVmin (sl : VSlot) (g : BitVec 3) (d : BitVec 4) (a : BitVec 4) (b : BitVec 4) (k : BitVec 3) (t : BitVec 4) (s : State) : Host.Outcome State Fault Refusal :=
  issueSolo (.vmin sl g d a b k t) (semVmin sl g d a b k t s.cur s) s
/-- `exec` of `.vmax`. -/
def execVmax (sl : VSlot) (g : BitVec 3) (d : BitVec 4) (a : BitVec 4) (b : BitVec 4) (k : BitVec 3) (t : BitVec 4) (s : State) : Host.Outcome State Fault Refusal :=
  issueSolo (.vmax sl g d a b k t) (semVmax sl g d a b k t s.cur s) s
/-- `exec` of `.vabs`. -/
def execVabs (sl : VSlot) (g : BitVec 3) (d : BitVec 4) (a : BitVec 4) (k : BitVec 3) (t : BitVec 4) (s : State) : Host.Outcome State Fault Refusal :=
  issueSolo (.vabs sl g d a k t) (semVabs sl g d a k t s.cur s) s
/-- `exec` of `.vand`. -/
def execVand (sl : VSlot) (g : BitVec 3) (d : BitVec 4) (a : BitVec 4) (b : BitVec 4) (k : BitVec 3) (t : BitVec 4) (s : State) : Host.Outcome State Fault Refusal :=
  issueSolo (.vand sl g d a b k t) (semVand sl g d a b k t s.cur s) s
/-- `exec` of `.vor`. -/
def execVor (sl : VSlot) (g : BitVec 3) (d : BitVec 4) (a : BitVec 4) (b : BitVec 4) (k : BitVec 3) (t : BitVec 4) (s : State) : Host.Outcome State Fault Refusal :=
  issueSolo (.vor sl g d a b k t) (semVor sl g d a b k t s.cur s) s
/-- `exec` of `.vxor`. -/
def execVxor (sl : VSlot) (g : BitVec 3) (d : BitVec 4) (a : BitVec 4) (b : BitVec 4) (k : BitVec 3) (t : BitVec 4) (s : State) : Host.Outcome State Fault Refusal :=
  issueSolo (.vxor sl g d a b k t) (semVxor sl g d a b k t s.cur s) s
/-- `exec` of `.vshl`. -/
def execVshl (sl : VSlot) (g : BitVec 3) (d : BitVec 4) (a : BitVec 4) (b : BitVec 4) (k : BitVec 3) (t : BitVec 4) (s : State) : Host.Outcome State Fault Refusal :=
  issueSolo (.vshl sl g d a b k t) (semVshl sl g d a b k t s.cur s) s
/-- `exec` of `.vshr`. -/
def execVshr (sl : VSlot) (g : BitVec 3) (d : BitVec 4) (a : BitVec 4) (b : BitVec 4) (k : BitVec 3) (t : BitVec 4) (s : State) : Host.Outcome State Fault Refusal :=
  issueSolo (.vshr sl g d a b k t) (semVshr sl g d a b k t s.cur s) s
/-- `exec` of `.vcmp`. -/
def execVcmp (sl : VSlot) (g : BitVec 3) (d : BitVec 3) (a : BitVec 4) (b : BitVec 4) (c : BitVec 4) (k : BitVec 3) (t : BitVec 4) (s : State) : Host.Outcome State Fault Refusal :=
  issueSolo (.vcmp sl g d a b c k t) (semVcmp sl g d a b c k t s.cur s) s
/-- `exec` of `.vsel`. -/
def execVsel (sl : VSlot) (g : BitVec 3) (d : BitVec 4) (a : BitVec 4) (b : BitVec 4) (k : BitVec 3) (t : BitVec 4) (s : State) : Host.Outcome State Fault Refusal :=
  issueSolo (.vsel sl g d a b k t) (semVsel sl g d a b k t s.cur s) s
/-- `exec` of `.vred`. -/
def execVred (sl : VSlot) (g : BitVec 3) (d : BitVec 4) (a : BitVec 4) (c : BitVec 4) (k : BitVec 3) (t : BitVec 4) (s : State) : Host.Outcome State Fault Refusal :=
  issueSolo (.vred sl g d a c k t) (semVred sl g d a c k t s.cur s) s
/-- `exec` of `.vscan`. -/
def execVscan (sl : VSlot) (g : BitVec 3) (d : BitVec 4) (a : BitVec 4) (c : BitVec 4) (k : BitVec 3) (t : BitVec 4) (s : State) : Host.Outcome State Fault Refusal :=
  issueSolo (.vscan sl g d a c k t) (semVscan sl g d a c k t s.cur s) s
/-- `exec` of `.vhist`. -/
def execVhist (sl : VSlot) (g : BitVec 3) (d : BitVec 4) (a : BitVec 4) (k : BitVec 3) (t : BitVec 4) (s : State) : Host.Outcome State Fault Refusal :=
  issueSolo (.vhist sl g d a k t) (semVhist sl g d a k t s.cur s) s
/-- `exec` of `.vtopk`. -/
def execVtopk (sl : VSlot) (g : BitVec 3) (d : BitVec 4) (a : BitVec 4) (c : BitVec 4) (k : BitVec 3) (t : BitVec 4) (s : State) : Host.Outcome State Fault Refusal :=
  issueSolo (.vtopk sl g d a c k t) (semVtopk sl g d a c k t s.cur s) s
/-- `exec` of `.vcvt`. -/
def execVcvt (sl : VSlot) (g : BitVec 3) (d : BitVec 4) (a : BitVec 4) (s0 : BitVec 4) (k : BitVec 3) (t : BitVec 4) (s : State) : Host.Outcome State Fault Refusal :=
  issueSolo (.vcvt sl g d a s0 k t) (semVcvt sl g d a s0 k t s.cur {} s) s
/-- `exec` of `.vbcast`. -/
def execVbcast (sl : VSlot) (g : BitVec 3) (d : BitVec 4) (r : BitVec 5) (p : BitVec 2) (k : BitVec 3) (t : BitVec 4) (s : State) : Host.Outcome State Fault Refusal :=
  issueSolo (.vbcast sl g d r p k t) (semVbcast sl g d r p k t s.cur s) s
/-- `exec` of `.vmov`. -/
def execVmov (sl : VSlot) (g : BitVec 3) (d : BitVec 4) (a : BitVec 4) (f : BitVec 4) (k : BitVec 3) (t : BitVec 4) (s : State) : Host.Outcome State Fault Refusal :=
  issueSolo (.vmov sl g d a f k t) (semVmov sl g d a f k t s.cur s) s
/-- `exec` of `.vkop`. -/
def execVkop (sl : VSlot) (g : BitVec 3) (d : BitVec 3) (a : BitVec 3) (b : BitVec 3) (c : BitVec 4) (s : State) : Host.Outcome State Fault Refusal :=
  issueSolo (.vkop sl g d a b c) (semVkop sl g d a b c s.cur s) s
/-- `exec` of `.vcnt`. -/
def execVcnt (sl : VSlot) (g : BitVec 3) (d : BitVec 4) (k : BitVec 3) (t : BitVec 4) (s : State) : Host.Outcome State Fault Refusal :=
  issueSolo (.vcnt sl g d k t) (semVcnt sl g d k t s.cur s) s
/-- `exec` of `.vpop`. -/
def execVpop (sl : VSlot) (g : BitVec 3) (d : BitVec 4) (q : BitVec 3) (k : BitVec 3) (t : BitVec 4) (s : State) : Host.Outcome State Fault Refusal :=
  issueSolo (.vpop sl g d q k t) (semVpop sl g d q k t s.cur {} s) s

end Sys2Proof.Machine
end

