-- ==== Sys2Proof/Machine/Px.lean ====
section
/-! DEFINITION. The PX slot: packing, unpacking, permutes and block scales (R338, R357, R370, R372, R374, R379, R386,
R395, R396). -/

namespace Sys2Proof.Machine

/-- A z register. -/
def zReg (n : BitVec 3) : Reg := ⟨.z, n.toNat⟩

/-- A permute of two registers: element `i` of D is `f` of the elements of A and B (R102: the bits move unchanged). -/
def semPermute (g : BitVec 3) (d a b : BitVec 3) (t : BitVec 4) (lat : Nat) (f : (Nat → Nat) → (Nat → Nat) → Nat → Nat) (p : Nat)
    (s : State) : OpSem :=
  let c := getCtx s p
  let w := typeWidth t.toNat
  let av := regGet c (zReg a)
  let bv := regGet c (zReg b)
  opLand c 6 g [zReg a, zReg b] (zReg d)
    (vecOf w ((List.range (typeCount t.toNat)).map (f (elem av w) (elem bv w)))) fullMask lat

/-- The 128 elements of a bf16 row. -/
def rowElems (v : Vec) : List Nat := (List.range 128).map (elem v 16)

/-- The packed row of R370: 128 element bytes, four scale codes, zeros. -/
def packRow (es codes : List Nat) : Vec := vecOf 8 (es ++ codes)

/-- `pack`, the scales from a common register (R370). -/
def semPack (g : BitVec 3) (d a : BitVec 3) (r : BitVec 5) (q : BitVec 2) (t : BitVec 4) (p : Nat) (pre : Pre) (s : State) :
    OpSem :=
  let c := getCtx s p
  let cs := (regWord c (commonReg r.toNat)).toNat
  let codes := (List.range 4).map (fun b => bitsOf cs (8 * b) 8)
  let on := List.replicate 128 true
  let ms := modes (fmtRnd c.fmt) (advanceSeed pre.draws c.seed) on
  let es := List.zipWith (fun m e => packElem t.toNat (codes.getD (e.2 / 32) 0) false m e.1) ms (rowElems (regGet c (zReg a))).zipIdx
  { opLand c 6 g [zReg a, commonReg r.toNat] (zReg d) (packRow es codes) fullMask 4 with
    ports := [(r.toNat, q.toNat)]
    draws := drawCount (fmtRnd c.fmt) on
    cause := rndCause c 6 true }

/-- `pack.auto`, the scales shared by block (R120, R370). -/
def semPackAuto (g : BitVec 3) (d a : BitVec 3) (t : BitVec 4) (p : Nat) (pre : Pre) (s : State) : OpSem :=
  let c := getCtx s p
  let row := rowElems (regGet c (zReg a))
  let codes := (List.range 4).map (fun b => sharedScale t.toNat (((row.drop (32 * b)).take 32).map (decFloat 10)))
  let on := List.replicate 128 true
  let ms := modes (fmtRnd c.fmt) (advanceSeed pre.draws c.seed) on
  let es := List.zipWith (fun m e => packElem t.toNat (codes.getD (e.2 / 32) 0) true m e.1) ms row.zipIdx
  { opLand c 6 g [zReg a] (zReg d) (packRow es codes) fullMask 4 with
    draws := drawCount (fmtRnd c.fmt) on
    cause := rndCause c 6 true }

/-- The value of element `i` that `unpk` converts (R396): scaled where the type is of 8 bits or less. -/
def unpkNum (t : Nat) (outl : Bool) (v : Vec) : List Num :=
  let scale := fun (i : Nat) (x : Num) =>
    let e := byteOf v (128 + i / 32)
    if e = 0xFF then .nan else scaleNum x (e8Exp e)
  if t = 13 then (i4Elems outl v 128).zipIdx.map (fun e => scale e.2 (i4Num e.1))
  else if typeWidth t = 8 then (List.range 128).map (fun i => scale i (decNum t (byteOf v i)))
  else (List.range 128).map (fun i => if i < typeCount t then decNum t (elem v (typeWidth t) i) else .fin false 0 0)

/-- `unpk` (R396). -/
def semUnpk (g : BitVec 3) (d a : BitVec 3) (t : BitVec 4) (p : Nat) (pre : Pre) (s : State) : OpSem :=
  let c := getCtx s p
  let on := List.replicate 128 true
  let ms := modes (fmtRnd c.fmt) (advanceSeed pre.draws c.seed) on
  { opLand c 6 g [zReg a] (zReg d)
      (vecOf 16 (List.zipWith (encFloat 10) ms (unpkNum t.toNat (fmtOutl c.fmt) (regGet c (zReg a))))) fullMask 4 with
    draws := drawCount (fmtRnd c.fmt) on
    cause := rndCause c 6 true }

/-- `rmrg` (R379). -/
def semRmrg (g : BitVec 3) (d a b : BitVec 3) (r : BitVec 5) (q : BitVec 2) (p : Nat) (s : State) : OpSem :=
  let c := getCtx s p
  let n := (regWord c (commonReg r.toNat)).toNat % 512
  let cat := (regGet c (zReg a)).toNat + (regGet c (zReg b)).toNat * 2 ^ 2048
  { opLand c 6 g [zReg a, zReg b, commonReg r.toNat] (zReg d)
      (BitVec.ofNat 2048 ((cat + cat * 2 ^ 4096) / 2 ^ (8 * n))) fullMask 3 with
    ports := [(r.toNat, q.toNat)] }

/-- `shuf` (R386). -/
def semShuf (g : BitVec 3) (d a b : BitVec 3) (t : BitVec 4) : Nat → State → OpSem :=
  semPermute g d a b t 3 (fun ea eb i =>
    if 8 ≤ typeWidth t.toNat then ea (eb i % typeCount t.toNat) else ea (16 * (i / 16) + eb i))

/-- `trns` (R395). -/
def semTrns (g : BitVec 3) (d a b : BitVec 3) (t : BitVec 4) : Nat → State → OpSem :=
  let r := typeCount t.toNat / 8
  semPermute g d a b t 6 (fun ea eb n =>
    let i := n % r
    let j := n / r
    if i < r / 2 then ea (8 * i + j) else eb (8 * i + j))

/-- `ilv` (R357). -/
def semIlv (g : BitVec 3) (d a b : BitVec 3) (t : BitVec 4) : Nat → State → OpSem :=
  semPermute g d a b t 3 (fun ea eb n => if n % 2 = 0 then ea (n / 2) else eb (n / 2))

/-- `dil` (R338). -/
def semDil (g : BitVec 3) (d a b : BitVec 3) (t : BitVec 4) : Nat → State → OpSem :=
  let h := typeCount t.toNat / 2
  semPermute g d a b t 3 (fun ea eb n => if n < h then ea (2 * n) else eb (2 * (n - h) + 1))

/-- `pscl` (R374). -/
def semPscl (g : BitVec 3) (d a : BitVec 3) (r : BitVec 5) (q : BitVec 2) (t : BitVec 4) (p : Nat) (pre : Pre) (s : State) :
    OpSem :=
  let c := getCtx s p
  let w := typeWidth t.toNat
  let cs := (regWord c (commonReg r.toNat)).toNat
  let v := regGet c (zReg a)
  let on := List.replicate (typeCount t.toNat) true
  let ms := modes (fmtRnd c.fmt) (advanceSeed pre.draws c.seed) on
  let es := List.zipWith (fun m i => psclElem t.toNat (bitsOf cs (8 * (i / 32)) 8) (fmtSat c.fmt) m (elem v w i)) ms
    (List.range (typeCount t.toNat))
  { opLand c 6 g [zReg a, commonReg r.toNat] (zReg d) (vecOf w es) fullMask 4 with
    ports := [(r.toNat, q.toNat)]
    draws := drawCount (fmtRnd c.fmt) on
    cause := rndCause c 6 true }

/-- `pmov` (R372). -/
def semPmov (g : BitVec 3) (d a : BitVec 3) (f : BitVec 3) (p : Nat) (s : State) : OpSem :=
  let c := getCtx s p
  opLand c 6 g [zReg a] (physReg c (fileOfCode f.toNat) d.toNat) (regGet c (zReg a)) fullMask 2

/-- `exec` of `.pack`. -/
def execPack (g : BitVec 3) (d : BitVec 3) (a : BitVec 3) (r : BitVec 5) (p : BitVec 2) (t : BitVec 4) (s : State) : Host.Outcome State Fault Refusal :=
  issueSolo (.pack g d a r p t) (semPack g d a r p t s.cur {} s) s
/-- `exec` of `.packAuto`. -/
def execPackAuto (g : BitVec 3) (d : BitVec 3) (a : BitVec 3) (t : BitVec 4) (s : State) : Host.Outcome State Fault Refusal :=
  issueSolo (.packAuto g d a t) (semPackAuto g d a t s.cur {} s) s
/-- `exec` of `.unpk`. -/
def execUnpk (g : BitVec 3) (d : BitVec 3) (a : BitVec 3) (t : BitVec 4) (s : State) : Host.Outcome State Fault Refusal :=
  issueSolo (.unpk g d a t) (semUnpk g d a t s.cur {} s) s
/-- `exec` of `.rmrg`. -/
def execRmrg (g : BitVec 3) (d : BitVec 3) (a : BitVec 3) (b : BitVec 3) (r : BitVec 5) (p : BitVec 2) (s : State) : Host.Outcome State Fault Refusal :=
  issueSolo (.rmrg g d a b r p) (semRmrg g d a b r p s.cur s) s
/-- `exec` of `.shuf`. -/
def execShuf (g : BitVec 3) (d : BitVec 3) (a : BitVec 3) (b : BitVec 3) (t : BitVec 4) (s : State) : Host.Outcome State Fault Refusal :=
  issueSolo (.shuf g d a b t) (semShuf g d a b t s.cur s) s
/-- `exec` of `.trns`. -/
def execTrns (g : BitVec 3) (d : BitVec 3) (a : BitVec 3) (b : BitVec 3) (t : BitVec 4) (s : State) : Host.Outcome State Fault Refusal :=
  issueSolo (.trns g d a b t) (semTrns g d a b t s.cur s) s
/-- `exec` of `.ilv`. -/
def execIlv (g : BitVec 3) (d : BitVec 3) (a : BitVec 3) (b : BitVec 3) (t : BitVec 4) (s : State) : Host.Outcome State Fault Refusal :=
  issueSolo (.ilv g d a b t) (semIlv g d a b t s.cur s) s
/-- `exec` of `.dil`. -/
def execDil (g : BitVec 3) (d : BitVec 3) (a : BitVec 3) (b : BitVec 3) (t : BitVec 4) (s : State) : Host.Outcome State Fault Refusal :=
  issueSolo (.dil g d a b t) (semDil g d a b t s.cur s) s
/-- `exec` of `.pscl`. -/
def execPscl (g : BitVec 3) (d : BitVec 3) (a : BitVec 3) (r : BitVec 5) (p : BitVec 2) (t : BitVec 4) (s : State) : Host.Outcome State Fault Refusal :=
  issueSolo (.pscl g d a r p t) (semPscl g d a r p t s.cur {} s) s
/-- `exec` of `.pmov`. -/
def execPmov (g : BitVec 3) (d : BitVec 3) (a : BitVec 3) (f : BitVec 3) (s : State) : Host.Outcome State Fault Refusal :=
  issueSolo (.pmov g d a f) (semPmov g d a f s.cur s) s

end Sys2Proof.Machine
end

