-- ==== Sys2Proof/Machine/Scalar.lean ====
section
/-! DEFINITION. The scalar slots SA and SB (R321, R323, R328, R333 to R335, R339, R360, R365, R367, R368, R373, R377,
R382, R385, R392, R420). -/

namespace Sys2Proof.Machine

/-- The register of the slot's own file under a name. -/
def sReg (c : Ctx) (sl : SSlot) (n : BitVec 5) : Reg := physReg c (sFile sl) n.toNat

/-- An operation of one source and a 64-bit result. -/
def semS1 (sl : SSlot) (g : BitVec 3) (d a : BitVec 5) (lat : Nat) (f : Word → Word) (p : Nat) (s : State) : OpSem :=
  let c := getCtx s p
  opWord c sl.num g [sReg c sl a] (sReg c sl d) (f (regWord c (sReg c sl a))) lat

/-- An operation of two sources. -/
def semS2 (sl : SSlot) (g : BitVec 3) (d a b : BitVec 5) (lat : Nat) (f : Word → Word → Word) (p : Nat) (s : State) : OpSem :=
  let c := getCtx s p
  opWord c sl.num g [sReg c sl a, sReg c sl b] (sReg c sl d) (f (regWord c (sReg c sl a)) (regWord c (sReg c sl b))) lat

/-- The value of IMM13 (R53). -/
def imm13 (i : BitVec 13) : Word := i.signExtend 64

/-- The high 64 bits of a product (R367). -/
def mulHigh (u : Bool) (a b : Word) : Word :=
  if u then BitVec.ofNat 64 (a.toNat * b.toNat / 2 ^ 64) else BitVec.ofInt 64 (a.toInt * b.toInt / 2 ^ 64)

/-- The quotient of R339, truncated toward zero; division by zero gives all ones. -/
def divWord (u : Bool) (a b : Word) : Word :=
  if b = 0 then BitVec.allOnes 64
  else if u then BitVec.ofNat 64 (a.toNat / b.toNat) else BitVec.ofInt 64 (Int.tdiv a.toInt b.toInt)

/-- The remainder of R377: A − q × B; A where B is zero. -/
def remWord (u : Bool) (a b : Word) : Word :=
  if b = 0 then a
  else if u then BitVec.ofNat 64 (a.toNat % b.toNat) else BitVec.ofInt 64 (Int.tmod a.toInt b.toInt)

/-- The smaller, signed or unsigned (R365). -/
def minWord (u : Bool) (a b : Word) : Word :=
  if u then (if a.toNat ≤ b.toNat then a else b) else (if a.toInt ≤ b.toInt then a else b)

/-- The larger (R365). -/
def maxWord (u : Bool) (a b : Word) : Word :=
  if u then (if a.toNat ≤ b.toNat then b else a) else (if a.toInt ≤ b.toInt then b else a)

/-- Bits from `off` on, `wid` of them (R328). -/
def extractWord (a : Word) (wid off : Nat) : Word := BitVec.ofNat 64 (a.toNat / 2 ^ off % 2 ^ wid)

/-- The mask of R328. -/
def fieldMask (wid off : Nat) : Word := BitVec.ofNat 64 ((2 ^ wid - 1) * 2 ^ off)

/-- Zero bits above the highest set bit (R333). -/
def clzWord (a : Word) : Word := if a = 0 then 64 else BitVec.ofNat 64 (63 - Nat.log2 a.toNat)

/-- `add`, register form (R321). -/
def semAdd (sl : SSlot) (g : BitVec 3) (d a b : BitVec 5) : Nat → State → OpSem := semS2 sl g d a b 1 (· + ·)
/-- `add`, immediate form (R321). -/
def semAddImm (sl : SSlot) (g : BitVec 3) (d a : BitVec 5) (i : BitVec 13) : Nat → State → OpSem :=
  semS1 sl g d a 1 (· + imm13 i)
/-- `sub` (R392). -/
def semSub (sl : SSlot) (g : BitVec 3) (d a b : BitVec 5) : Nat → State → OpSem := semS2 sl g d a b 1 (· - ·)
/-- `mul` (R367). -/
def semMul (sl : SSlot) (g : BitVec 3) (d a b : BitVec 5) : Nat → State → OpSem := semS2 sl g d a b 3 (· * ·)
/-- `mulh` (R367). -/
def semMulh (sl : SSlot) (g : BitVec 3) (d a b : BitVec 5) (u : BitVec 1) : Nat → State → OpSem :=
  semS2 sl g d a b 3 (mulHigh (u == 1))
/-- `div` (R339). -/
def semDiv (sl : SSlot) (g : BitVec 3) (d a b : BitVec 5) (u : BitVec 1) : Nat → State → OpSem :=
  semS2 sl g d a b 12 (divWord (u == 1))
/-- `rem` (R377). -/
def semRem (sl : SSlot) (g : BitVec 3) (d a b : BitVec 5) (u : BitVec 1) : Nat → State → OpSem :=
  semS2 sl g d a b 12 (remWord (u == 1))
/-- `and`, register form (R323). -/
def semAnd (sl : SSlot) (g : BitVec 3) (d a b : BitVec 5) : Nat → State → OpSem := semS2 sl g d a b 1 (· &&& ·)
/-- `and`, immediate form (R323). -/
def semAndImm (sl : SSlot) (g : BitVec 3) (d a : BitVec 5) (i : BitVec 13) : Nat → State → OpSem :=
  semS1 sl g d a 1 (· &&& imm13 i)
/-- `or`, register form (R368). -/
def semOr (sl : SSlot) (g : BitVec 3) (d a b : BitVec 5) : Nat → State → OpSem := semS2 sl g d a b 1 (· ||| ·)
/-- `or`, immediate form (R368). -/
def semOrImm (sl : SSlot) (g : BitVec 3) (d a : BitVec 5) (i : BitVec 13) : Nat → State → OpSem :=
  semS1 sl g d a 1 (· ||| imm13 i)
/-- `xor`, register form (R420). -/
def semXor (sl : SSlot) (g : BitVec 3) (d a b : BitVec 5) : Nat → State → OpSem := semS2 sl g d a b 1 (· ^^^ ·)
/-- `xor`, immediate form (R420). -/
def semXorImm (sl : SSlot) (g : BitVec 3) (d a : BitVec 5) (i : BitVec 13) : Nat → State → OpSem :=
  semS1 sl g d a 1 (· ^^^ imm13 i)
/-- `shl` by B bits 5:0 (R385). -/
def semShl (sl : SSlot) (g : BitVec 3) (d a b : BitVec 5) : Nat → State → OpSem :=
  semS2 sl g d a b 1 (fun x y => x <<< (y.toNat % 64))
/-- `shl` by an immediate (R385). -/
def semShlImm (sl : SSlot) (g : BitVec 3) (d a : BitVec 5) (n : BitVec 6) : Nat → State → OpSem :=
  semS1 sl g d a 1 (· <<< n.toNat)
/-- `shr` by B bits 5:0 (R385). -/
def semShr (sl : SSlot) (g : BitVec 3) (d a b : BitVec 5) : Nat → State → OpSem :=
  semS2 sl g d a b 1 (fun x y => x >>> (y.toNat % 64))
/-- `shr` by an immediate (R385). -/
def semShrImm (sl : SSlot) (g : BitVec 3) (d a : BitVec 5) (n : BitVec 6) : Nat → State → OpSem :=
  semS1 sl g d a 1 (· >>> n.toNat)
/-- `sra` by B bits 5:0 (R385). -/
def semSra (sl : SSlot) (g : BitVec 3) (d a b : BitVec 5) : Nat → State → OpSem :=
  semS2 sl g d a b 1 (fun x y => x.sshiftRight (y.toNat % 64))
/-- `sra` by an immediate (R385). -/
def semSraImm (sl : SSlot) (g : BitVec 3) (d a : BitVec 5) (n : BitVec 6) : Nat → State → OpSem :=
  semS1 sl g d a 1 (fun x => x.sshiftRight n.toNat)
/-- `min` (R365). -/
def semMin (sl : SSlot) (g : BitVec 3) (d a b : BitVec 5) (u : BitVec 1) : Nat → State → OpSem :=
  semS2 sl g d a b 1 (minWord (u == 1))
/-- `max` (R365). -/
def semMax (sl : SSlot) (g : BitVec 3) (d a b : BitVec 5) (u : BitVec 1) : Nat → State → OpSem :=
  semS2 sl g d a b 1 (maxWord (u == 1))
/-- `cmp`, register form (R334). -/
def semCmp (sl : SSlot) (g : BitVec 3) (d a b : BitVec 5) (k : BitVec 3) : Nat → State → OpSem :=
  semS2 sl g d a b 1 (cmpWord k.toNat)
/-- `cmp.tw` against an immediate (R334). -/
def semCmpImm (sl : SSlot) (g : BitVec 3) (d a : BitVec 5) (i : BitVec 13) : Nat → State → OpSem :=
  semS1 sl g d a 1 (fun x => cmpWord 6 x (imm13 i))

/-- `sel` (R382). -/
def semSel (sl : SSlot) (g : BitVec 3) (d a b k : BitVec 5) (p : Nat) (s : State) : OpSem :=
  let c := getCtx s p
  opWord c sl.num g [sReg c sl a, sReg c sl b, sReg c sl k] (sReg c sl d)
    (if regWord c (sReg c sl k) = 0 then regWord c (sReg c sl b) else regWord c (sReg c sl a)) 1

/-- `li` (R360). -/
def semLi (sl : SSlot) (g : BitVec 3) (d : BitVec 5) (e : BitVec 32) (p : Nat) (s : State) : OpSem :=
  let c := getCtx s p
  opWord c sl.num g [] (sReg c sl d) (e.signExtend 64) 1

/-- `lih` (R360): it reads D. -/
def semLih (sl : SSlot) (g : BitVec 3) (d : BitVec 5) (e : BitVec 32) : Nat → State → OpSem :=
  semS1 sl g d d 1 (fun x => (e.setWidth 64 <<< 32) ||| (x &&& 0xFFFFFFFF))

/-- `bfx` (R328). -/
def semBfx (sl : SSlot) (g : BitVec 3) (d a : BitVec 5) (w : BitVec 7) (o : BitVec 6) : Nat → State → OpSem :=
  semS1 sl g d a 1 (fun x => extractWord x w.toNat o.toNat)

/-- `bfi` (R328): it reads D. -/
def semBfi (sl : SSlot) (g : BitVec 3) (d a : BitVec 5) (w : BitVec 7) (o : BitVec 6) : Nat → State → OpSem :=
  semS2 sl g d a d 1 (fun x y =>
    (y &&& ~~~fieldMask w.toNat o.toNat) ||| ((x <<< o.toNat) &&& fieldMask w.toNat o.toNat))

/-- `clz` (R333). -/
def semClz (sl : SSlot) (g : BitVec 3) (d a : BitVec 5) : Nat → State → OpSem := semS1 sl g d a 1 clzWord
/-- `popc` (R373). -/
def semPopc (sl : SSlot) (g : BitVec 3) (d a : BitVec 5) : Nat → State → OpSem :=
  semS1 sl g d a 1 (fun x => BitVec.ofNat 64 (popBits 64 x.toNat))

/-- `cpy` from the slot's own file into x, y or c (R335). -/
def semCpy (sl : SSlot) (g : BitVec 3) (d a : BitVec 5) (f : BitVec 3) (p : Nat) (s : State) : OpSem :=
  let c := getCtx s p
  opWord c sl.num g [sReg c sl a] (physReg c (fileOfCode f.toNat) d.toNat) (regWord c (sReg c sl a)) 2

/-- `cpy` from a common register into x or y (R335). -/
def semCpyCommon (sl : SSlot) (g : BitVec 3) (d a : BitVec 5) (k : BitVec 2) (f : BitVec 3) (p : Nat) (s : State) : OpSem :=
  let c := getCtx s p
  { opWord c sl.num g [commonReg a.toNat] (physReg c (fileOfCode f.toNat) d.toNat) (regWord c (commonReg a.toNat)) 2 with
    ports := [(a.toNat, k.toNat)] }

/-- `exec` of `.add`. -/
def execAdd (sl : SSlot) (g : BitVec 3) (d : BitVec 5) (a : BitVec 5) (b : BitVec 5) (s : State) : Host.Outcome State Fault Refusal :=
  issueSolo (.add sl g d a b) (semAdd sl g d a b s.cur s) s
/-- `exec` of `.addImm`. -/
def execAddImm (sl : SSlot) (g : BitVec 3) (d : BitVec 5) (a : BitVec 5) (i : BitVec 13) (s : State) : Host.Outcome State Fault Refusal :=
  issueSolo (.addImm sl g d a i) (semAddImm sl g d a i s.cur s) s
/-- `exec` of `.sub`. -/
def execSub (sl : SSlot) (g : BitVec 3) (d : BitVec 5) (a : BitVec 5) (b : BitVec 5) (s : State) : Host.Outcome State Fault Refusal :=
  issueSolo (.sub sl g d a b) (semSub sl g d a b s.cur s) s
/-- `exec` of `.mul`. -/
def execMul (sl : SSlot) (g : BitVec 3) (d : BitVec 5) (a : BitVec 5) (b : BitVec 5) (s : State) : Host.Outcome State Fault Refusal :=
  issueSolo (.mul sl g d a b) (semMul sl g d a b s.cur s) s
/-- `exec` of `.mulh`. -/
def execMulh (sl : SSlot) (g : BitVec 3) (d : BitVec 5) (a : BitVec 5) (b : BitVec 5) (u : BitVec 1) (s : State) : Host.Outcome State Fault Refusal :=
  issueSolo (.mulh sl g d a b u) (semMulh sl g d a b u s.cur s) s
/-- `exec` of `.div`. -/
def execDiv (sl : SSlot) (g : BitVec 3) (d : BitVec 5) (a : BitVec 5) (b : BitVec 5) (u : BitVec 1) (s : State) : Host.Outcome State Fault Refusal :=
  issueSolo (.div sl g d a b u) (semDiv sl g d a b u s.cur s) s
/-- `exec` of `.rem`. -/
def execRem (sl : SSlot) (g : BitVec 3) (d : BitVec 5) (a : BitVec 5) (b : BitVec 5) (u : BitVec 1) (s : State) : Host.Outcome State Fault Refusal :=
  issueSolo (.rem sl g d a b u) (semRem sl g d a b u s.cur s) s
/-- `exec` of `.and`. -/
def execAnd (sl : SSlot) (g : BitVec 3) (d : BitVec 5) (a : BitVec 5) (b : BitVec 5) (s : State) : Host.Outcome State Fault Refusal :=
  issueSolo (.and sl g d a b) (semAnd sl g d a b s.cur s) s
/-- `exec` of `.andImm`. -/
def execAndImm (sl : SSlot) (g : BitVec 3) (d : BitVec 5) (a : BitVec 5) (i : BitVec 13) (s : State) : Host.Outcome State Fault Refusal :=
  issueSolo (.andImm sl g d a i) (semAndImm sl g d a i s.cur s) s
/-- `exec` of `.or`. -/
def execOr (sl : SSlot) (g : BitVec 3) (d : BitVec 5) (a : BitVec 5) (b : BitVec 5) (s : State) : Host.Outcome State Fault Refusal :=
  issueSolo (.or sl g d a b) (semOr sl g d a b s.cur s) s
/-- `exec` of `.orImm`. -/
def execOrImm (sl : SSlot) (g : BitVec 3) (d : BitVec 5) (a : BitVec 5) (i : BitVec 13) (s : State) : Host.Outcome State Fault Refusal :=
  issueSolo (.orImm sl g d a i) (semOrImm sl g d a i s.cur s) s
/-- `exec` of `.xor`. -/
def execXor (sl : SSlot) (g : BitVec 3) (d : BitVec 5) (a : BitVec 5) (b : BitVec 5) (s : State) : Host.Outcome State Fault Refusal :=
  issueSolo (.xor sl g d a b) (semXor sl g d a b s.cur s) s
/-- `exec` of `.xorImm`. -/
def execXorImm (sl : SSlot) (g : BitVec 3) (d : BitVec 5) (a : BitVec 5) (i : BitVec 13) (s : State) : Host.Outcome State Fault Refusal :=
  issueSolo (.xorImm sl g d a i) (semXorImm sl g d a i s.cur s) s
/-- `exec` of `.shl`. -/
def execShl (sl : SSlot) (g : BitVec 3) (d : BitVec 5) (a : BitVec 5) (b : BitVec 5) (s : State) : Host.Outcome State Fault Refusal :=
  issueSolo (.shl sl g d a b) (semShl sl g d a b s.cur s) s
/-- `exec` of `.shlImm`. -/
def execShlImm (sl : SSlot) (g : BitVec 3) (d : BitVec 5) (a : BitVec 5) (n : BitVec 6) (s : State) : Host.Outcome State Fault Refusal :=
  issueSolo (.shlImm sl g d a n) (semShlImm sl g d a n s.cur s) s
/-- `exec` of `.shr`. -/
def execShr (sl : SSlot) (g : BitVec 3) (d : BitVec 5) (a : BitVec 5) (b : BitVec 5) (s : State) : Host.Outcome State Fault Refusal :=
  issueSolo (.shr sl g d a b) (semShr sl g d a b s.cur s) s
/-- `exec` of `.shrImm`. -/
def execShrImm (sl : SSlot) (g : BitVec 3) (d : BitVec 5) (a : BitVec 5) (n : BitVec 6) (s : State) : Host.Outcome State Fault Refusal :=
  issueSolo (.shrImm sl g d a n) (semShrImm sl g d a n s.cur s) s
/-- `exec` of `.sra`. -/
def execSra (sl : SSlot) (g : BitVec 3) (d : BitVec 5) (a : BitVec 5) (b : BitVec 5) (s : State) : Host.Outcome State Fault Refusal :=
  issueSolo (.sra sl g d a b) (semSra sl g d a b s.cur s) s
/-- `exec` of `.sraImm`. -/
def execSraImm (sl : SSlot) (g : BitVec 3) (d : BitVec 5) (a : BitVec 5) (n : BitVec 6) (s : State) : Host.Outcome State Fault Refusal :=
  issueSolo (.sraImm sl g d a n) (semSraImm sl g d a n s.cur s) s
/-- `exec` of `.min`. -/
def execMin (sl : SSlot) (g : BitVec 3) (d : BitVec 5) (a : BitVec 5) (b : BitVec 5) (u : BitVec 1) (s : State) : Host.Outcome State Fault Refusal :=
  issueSolo (.min sl g d a b u) (semMin sl g d a b u s.cur s) s
/-- `exec` of `.max`. -/
def execMax (sl : SSlot) (g : BitVec 3) (d : BitVec 5) (a : BitVec 5) (b : BitVec 5) (u : BitVec 1) (s : State) : Host.Outcome State Fault Refusal :=
  issueSolo (.max sl g d a b u) (semMax sl g d a b u s.cur s) s
/-- `exec` of `.cmp`. -/
def execCmp (sl : SSlot) (g : BitVec 3) (d : BitVec 5) (a : BitVec 5) (b : BitVec 5) (c : BitVec 3) (s : State) : Host.Outcome State Fault Refusal :=
  issueSolo (.cmp sl g d a b c) (semCmp sl g d a b c s.cur s) s
/-- `exec` of `.cmpImm`. -/
def execCmpImm (sl : SSlot) (g : BitVec 3) (d : BitVec 5) (a : BitVec 5) (i : BitVec 13) (s : State) : Host.Outcome State Fault Refusal :=
  issueSolo (.cmpImm sl g d a i) (semCmpImm sl g d a i s.cur s) s
/-- `exec` of `.sel`. -/
def execSel (sl : SSlot) (g : BitVec 3) (d : BitVec 5) (a : BitVec 5) (b : BitVec 5) (c : BitVec 5) (s : State) : Host.Outcome State Fault Refusal :=
  issueSolo (.sel sl g d a b c) (semSel sl g d a b c s.cur s) s
/-- `exec` of `.li`. -/
def execLi (sl : SSlot) (g : BitVec 3) (d : BitVec 5) (e : BitVec 32) (s : State) : Host.Outcome State Fault Refusal :=
  issueSolo (.li sl g d e) (semLi sl g d e s.cur s) s
/-- `exec` of `.lih`. -/
def execLih (sl : SSlot) (g : BitVec 3) (d : BitVec 5) (e : BitVec 32) (s : State) : Host.Outcome State Fault Refusal :=
  issueSolo (.lih sl g d e) (semLih sl g d e s.cur s) s
/-- `exec` of `.bfx`. -/
def execBfx (sl : SSlot) (g : BitVec 3) (d : BitVec 5) (a : BitVec 5) (w : BitVec 7) (o : BitVec 6) (s : State) : Host.Outcome State Fault Refusal :=
  issueSolo (.bfx sl g d a w o) (semBfx sl g d a w o s.cur s) s
/-- `exec` of `.bfi`. -/
def execBfi (sl : SSlot) (g : BitVec 3) (d : BitVec 5) (a : BitVec 5) (w : BitVec 7) (o : BitVec 6) (s : State) : Host.Outcome State Fault Refusal :=
  issueSolo (.bfi sl g d a w o) (semBfi sl g d a w o s.cur s) s
/-- `exec` of `.clz`. -/
def execClz (sl : SSlot) (g : BitVec 3) (d : BitVec 5) (a : BitVec 5) (s : State) : Host.Outcome State Fault Refusal :=
  issueSolo (.clz sl g d a) (semClz sl g d a s.cur s) s
/-- `exec` of `.popc`. -/
def execPopc (sl : SSlot) (g : BitVec 3) (d : BitVec 5) (a : BitVec 5) (s : State) : Host.Outcome State Fault Refusal :=
  issueSolo (.popc sl g d a) (semPopc sl g d a s.cur s) s
/-- `exec` of `.cpy`. -/
def execCpy (sl : SSlot) (g : BitVec 3) (d : BitVec 5) (a : BitVec 5) (f : BitVec 3) (s : State) : Host.Outcome State Fault Refusal :=
  issueSolo (.cpy sl g d a f) (semCpy sl g d a f s.cur s) s
/-- `exec` of `.cpyCommon`. -/
def execCpyCommon (sl : SSlot) (g : BitVec 3) (d : BitVec 5) (a : BitVec 5) (p : BitVec 2) (f : BitVec 3) (s : State) : Host.Outcome State Fault Refusal :=
  issueSolo (.cpyCommon sl g d a p f) (semCpyCommon sl g d a p f s.cur s) s

end Sys2Proof.Machine
end

