-- ==== Sys2Proof/Machine/Scratch.lean ====
section
/-! DEFINITION. The scratchpad slots LA and LB: loads, stores, granule operations, spills (R164 to R173, R342, R359,
R371, R391). -/

namespace Sys2Proof.Machine

/-- The core that holds a scratchpad offset of the context's cluster (Table 10-1). -/
def holderOf (p off : Nat) : Nat := 4 * clusterOf p + off / 2 ^ 21 % 4

/-- The bank of a granule: 16 × (row mod 8) + granule (R164). -/
def bankOf (off : Nat) : Nat := 16 * (off / 256 % 8) + off / 16 % 16

/-- The granule offsets that `n` bytes from an offset touch. -/
def granOffs (off n : Nat) : List Nat := (List.range ((n + off % 16 + 15) / 16)).map (fun i => (off / 16 + i) * 16)

/-- The banks of those granules, numbered package-wide: holder × 128 + bank. -/
def bankIds (p off n : Nat) : List Nat := (granOffs off n).map (fun o => 128 * holderOf p o + bankOf o)

/-- A bank is locked in the core that holds it (R171). -/
def bankLocked (s : State) (id : Nat) : Bool :=
  s.ctxs.any (fun e => e.2.xfers.any (fun x => x.locks.contains id) || e.2.links.any (fun l => l.locks.contains id))

/-- The context may use a bank: it lies in another core, or is owned by the context or by none (R172). -/
def bankFree (s : State) (p id : Nat) : Bool :=
  id / 128 != coreOf p || (match smGet .none (getCore s (coreOf p)).owners (id % 128) with
    | .none => true
    | .ctx n => n == p % 2
    | .held _ => false)

/-- The banks of the context's own core that it does not own become its own (R172).  Where both contexts of a merged cycle
access a bank that none owns, both accesses proceed and that of the higher slot leaves it its context's. (DESIGN CHOICE,
log 91.) -/
def takeBanks (p : Nat) (ids : List Nat) (s : State) : State :=
  updCore (coreOf p) (fun k => { k with
    owners := ids.foldl (fun m id => if id / 128 = coreOf p then smSet .none m (id % 128) (.ctx (p % 2)) else m) k.owners }) s

/-- Banks owned, free or elsewhere, and not locked for the accesses of this core (R171, R172). -/
def banksReady (s : State) (p : Nat) (ids : List Nat) : Bool :=
  ids.all (fun id => bankFree s p id && !(id / 128 == coreOf p && bankLocked s id))

/-- The granule of an offset is full (R167). -/
def granFull (s : State) (p off : Nat) : Bool := !smGet false s.empties (granKey (scratchKey (clusterOf p) off))

/-- All granules are full. -/
def gransFull (s : State) (p off n : Nat) : Bool := (granOffs off n).all (granFull s p)

/-- Granule keys of a target. -/
def granKeys (p off n : Nat) : List Nat := (granOffs off n).map (fun o => granKey (scratchKey (clusterOf p) o))

/-- Bytes of the cluster's scratchpad from an offset, granule by granule; past 8 MiB it begins anew. -/
def scrBytes (s : State) (p off n : Nat) : List Byte :=
  ((granOffs off n).flatMap (fun o => rdBytes s.mem (scratchKey (clusterOf p) o) 16)).take n

/-- A granule of the target carries the mark. -/
def gransBad (s : State) (p off n : Nat) : Bool := (granKeys p off n).any (smGet false s.granBad)

/-- The context's launch has read poisoned data (R291): the event follows. -/
def poisonRead (p : Nat) (bad : Bool) (s : State) : State :=
  if bad then updLaunch (getCtx s p).lseq (fun l => { l with poison := true }) s else s

/-- A `gld` or `lwt` of the context is made again after a save: every later access waits for it (R289). -/
def remaking (s : State) (p : Nat) : Bool :=
  (getCtx s p).reqs.any (fun r => r.again && (r.kind == .load || r.kind == .lwt))

/-- The data of an interlocked destination have come and wait for an exposed-latency result of their own group (R33). -/
def landHeld (c : Ctx) (e : Pend) : Bool := e.left == 0 && isLanding c e.dest

/-- Loads whose data have come and stand with a pending destination.  A save discards them and each load is then performed
again (R287, R289), so that the value it returns is not fixed before its destination is written: until then it counts as one
not performed (R192).  Data that came whole while a landing was awaited are kept, and are not among them. (DEDUCED, log 48.) -/
def openLoads (c : Ctx) : List GReq := c.pend.flatMap (·.got)

/-- An acquire of the context is still in flight, or a load that is made again: later accesses wait (R193, R289).  An
atomic acquire is one until its acknowledgement has raised pts, and one in the side log until its replay. -/
def acquiring (s : State) (p : Nat) : Bool :=
  (getCtx s p).reqs.any (·.acq) || (openLoads (getCtx s p)).any (·.acq) || remaking s p || (getCore s (coreOf p)).slog.any (fun e => e.pos == p && e.acq)

/-- Scratchpad offset of an address register (R164). -/
def scrOff (c : Ctx) (a : BitVec 4) : Nat := (regWord c (aReg a.toNat)).toNat % 2 ^ 23

/-- The scratchpad-range fault of an offset at a dead core (R166). -/
def rangeCause (s : State) (p slot off access : Nat) : Option Cause :=
  if coreLive s (holderOf p off) then none
  else some { plainCause 0x0A slot with addr := BitVec.ofNat 64 off, access := access }

/-! ### Rows that earlier work of the context still has to read (R135, R199, R384, R417) -/

/-- Operand row `i` of a descriptor: its base offset (R134). -/
def rowBase (d : Word) (i : Nat) : Nat :=
  let pitch := if bitsOf d.toNat 47 8 = 0 then 1 else bitsOf d.toNat 47 8
  (bitsOf d.toNat 8 15 * 256 + 256 * pitch * i) % 2 ^ 23

/-- VSRC. -/
def descVsrc (d : Word) : Bool := d.getLsbD 45
/-- M = MM1 + 1. -/
def descRows (d : Word) : Nat := bitsOf d.toNat 23 9 + 1
/-- AROW. -/
def descArow (d : Word) : Nat := bitsOf d.toNat 32 9
/-- ROT. -/
def descRot (d : Word) : Nat := bitsOf d.toNat 41 4
/-- USCL. -/
def descUscl (d : Word) : Bool := d.getLsbD 46
/-- TPITCH. -/
def descTpitch (d : Word) : Nat := bitsOf d.toNat 55 8
/-- The first va register of a VSRC = 1 operand. -/
def descV0 (d : Word) : Nat := bitsOf d.toNat 0 4

/-- The descriptor whose SBASE is advanced by TPITCH rows: the second part of an `smx.t` B row (R134). -/
def descSecond (d : Word) : Word :=
  BitVec.ofNat 64 (d.toNat - bitsOf d.toNat 0 23 + (bitsOf d.toNat 0 23 + 256 * descTpitch d) % 2 ^ 23)

/-- K of an `smx` (Table 8-4): 128 for 16-bit types, 256 for 8-bit types. -/
def smxK (f : BitVec 16) : Nat := if fmtA f = 10 ∨ fmtA f = 11 then 128 else 256

/-- The columns of a column block (Table 8-4). -/
def cbCols (cb : Nat) : Nat := if cb = 2 then 256 else 128

/-- The number of B rows of an `smx` (Table 8-4). -/
def smxBRows (m : MOp) : Nat := if m.t then smxK m.fmt else cbCols m.cb

/-- An `smx.t` reads second parts: 16-bit types and CB 2 (Table 8-4). -/
def smxSecond (m : MOp) : Bool := m.kind == .smx && m.t && m.cb == 2 && (fmtW m.fmt == 10 || fmtW m.fmt == 11)

/-- The base offsets of the scratchpad rows that an operation reads when it starts. -/
def mopRows (m : MOp) : List Nat :=
  let rows := fun (d : Word) (n : Nat) => if descVsrc d then [] else (List.range n).map (rowBase d)
  match m.kind with
  | .cim => rows m.desc (descRows m.desc)
  | .smx => rows m.desc (descRows m.desc) ++ rows m.descB (smxBRows m)
      ++ (if smxSecond m then rows (descSecond m.descB) (smxBRows m) else [])
  | _ => []

/-! ### Route cards (R97, R98) -/

/-- Field of `n` bytes at byte `b` of a card. -/
def cardField (card : BitVec 1024) (b n : Nat) : Nat := bitsOf card.toNat (8 * b) (8 * n)

/-- RUN. -/
def cardRun (card : BitVec 1024) : Nat := cardField card 16 4
/-- DIMS. -/
def cardDims (card : BitVec 1024) : Nat := cardField card 20 1
/-- The source is global. -/
def cardSrcG (card : BitVec 1024) : Bool := bitOf (cardField card 21 1) 0
/-- The destination is global. -/
def cardDstG (card : BitVec 1024) : Bool := bitOf (cardField card 21 1) 1
/-- ZERO. -/
def cardZero (card : BitVec 1024) : Bool := bitOf (cardField card 21 1) 2

/-- COUNTd: dimensions at or above DIMS count as 1. -/
def cardCount (card : BitVec 1024) (d : Nat) : Nat := if d < cardDims card then cardField card (32 + 16 * d) 4 else 1

/-- The number of runs. -/
def cardRuns (card : BitVec 1024) : Nat := (List.range 6).foldl (fun n d => n * cardCount card d) 1

/-- The index of dimension `d` in run `n` of the walk, dimension 0 innermost. -/
def runIndex (card : BitVec 1024) (n d : Nat) : Nat := n / ((List.range d).foldl (fun m e => m * cardCount card e) 1) % cardCount card d

/-- Σ jd × stride, the strides at byte `b` of each dimension. -/
def runShift (card : BitVec 1024) (n b : Nat) : Int :=
  (List.range 6).foldl (fun z d => z + (runIndex card n d : Int) * toSigned 32 (cardField card (b + 16 * d) 4)) 0

/-- The source of run `n`, as an address or an offset. -/
def runSrc (card : BitVec 1024) (n : Nat) : Word := BitVec.ofInt 64 ((cardField card 0 8 : Int) + runShift card n 40)

/-- The destination of run `n`. -/
def runDst (card : BitVec 1024) (n : Nat) : Word := BitVec.ofInt 64 ((cardField card 8 8 : Int) + runShift card n 44)

/-- A transfer still has to read a byte of a scratchpad row: of the run that is being read, what is left of it. -/
def xferReads (x : Xfer) (row : Nat) : Bool :=
  !x.restripe && !x.dropped && !cardSrcG x.card && !cardZero x.card && (List.range (x.count - x.next)).any (fun i =>
    let got := if i = 0 then x.buf.length else 0
    let o := ((runSrc x.card (x.next + i)).toNat + got) % 2 ^ 23
    got < cardRun x.card && decide ((row + 32768 - o / 256) % 32768 ≤ (o % 256 + (cardRun x.card - got) - 1) / 256))

/-- A `send` from the scratchpad still has to read the row. -/
def linkReads (l : LinkOp) (row : Nat) : Bool :=
  l.send && !l.fromQueue && decide ((row + 32768 - l.row % 32768) % 32768 < l.left)

/-- A store of the context to the row blocks (R135, R199, R384). -/
def rowHeld (c : Ctx) (row : Nat) : Bool :=
  c.mops.any (fun m => !m.started && (mopRows m).any (fun o => o / 256 == row)) || c.xfers.any (fun x => xferReads x row)
    || c.links.any (fun l => linkReads l row)

/-! ### The operations -/

/-- The operation's common part: slot, guard, address register, post-update, the range fault, and the block on banks
and acquires (R171, R172, R193, R318). -/
def scrBase (sl : LSlot) (g : BitVec 3) (a m : BitVec 4) (off n access : Nat) (p : Nat) (s : State) : OpSem :=
  let c := getCtx s p
  { opBase c sl.num g with
    reads := memReads a.toNat m.toNat
    res := postUpdate c a.toNat m.toNat
    cause := if seen c [aReg a.toNat] then rangeCause s p sl.num off access else none
    blocks := !banksReady s p (bankIds p off n) || acquiring s p
    effect := takeBanks p (bankIds p off n) }

/-- The write of a scratchpad access joins those of the step's end (R391). -/
def pushWrite (w : EndWrite) (s : State) : State := { s with endw := s.endw ++ [w] }

/-- A load of `n` bytes: it waits on full granules unless `.nw`, and `.c` empties them in the same access (R168, R342,
R359). -/
def semLoad (sl : LSlot) (g : BitVec 3) (r : BitVec 4) (f : BitVec 3) (a m : BitVec 4) (w k : BitVec 1) (n : Nat) (p : Nat)
    (s : State) : OpSem :=
  let c := getCtx s p
  let off := scrOff c a / n * n
  let b := scrBase sl g a m off n 1 p s
  let bad := gransBad s p off n
  let v : Vec := BitVec.ofNat 2048 (rdNat s.mem (scratchKey (clusterOf p) off) n)
  { b with
    res := ⟨.reg (physReg c (fileOfCode f.toNat) r.toNat), v, fullMask, 4, bad || anyBad c b.reads⟩ :: b.res
    cread := if k = 1 then granKeys p off n else []
    blocks := b.blocks || (w == 0 && !gransFull s p off n)
    effect := fun t =>
      let t1 := poisonRead p bad (b.effect t)
      if k = 1 then pushWrite ⟨p, sl.num, scratchKey (clusterOf p) off, [], granKeys p off n, true, false, true⟩ t1 else t1 }

/-- `ld` (R359). -/
def semLd (sl : LSlot) (g : BitVec 3) (r : BitVec 4) (f : BitVec 3) (a m : BitVec 4) (w k : BitVec 1) : Nat → State → OpSem :=
  semLoad sl g r f a m w k 256
/-- `lds` (R359). -/
def semLds (sl : LSlot) (g : BitVec 3) (r : BitVec 4) (f : BitVec 3) (a m : BitVec 4) (w k : BitVec 1) : Nat → State → OpSem :=
  semLoad sl g r f a m w k 8

/-- A store of `n` bytes from value `v` (R391). -/
def semStore (sl : LSlot) (g : BitVec 3) (a m : BitVec 4) (n : Nat) (v : Vec) (rs : List Reg) (bad : Bool) (p : Nat) (s : State) :
    OpSem :=
  let c := getCtx s p
  let off := scrOff c a / n * n
  let b := scrBase sl g a m off n 2 p s
  { b with
    reads := rs ++ b.reads
    blocks := b.blocks || rowHeld c (off / 256)
    effect := fun t => pushWrite ⟨p, sl.num, scratchKey (clusterOf p) off, bytesLE n v.toNat, granKeys p off n, false,
      bad || anyBad c (rs ++ b.reads), false⟩ (b.effect t) }

/-- `st` (R391). -/
def semSt (sl : LSlot) (g : BitVec 3) (r : BitVec 4) (f : BitVec 3) (a m : BitVec 4) (p : Nat) (s : State) : OpSem :=
  let c := getCtx s p
  let q := physReg c (fileOfCode f.toNat) r.toNat
  semStore sl g a m 256 (regGet c q) [q] false p s

/-- `sts` (R391): a common source takes a port (R56). -/
def semSts (sl : LSlot) (g : BitVec 3) (r : BitVec 4) (f : BitVec 3) (a m : BitVec 4) (k : BitVec 2) (p : Nat) (s : State) : OpSem :=
  let c := getCtx s p
  let q := physReg c (fileOfCode f.toNat) r.toNat
  { semStore sl g a m 8 (regGet c q) [q] false p s with ports := if f = 5 then [(r.toNat, k.toNat)] else [] }

/-- `stq` (R391, R157): it pops a row. -/
def semStq (sl : LSlot) (g : BitVec 3) (q : BitVec 4) (a m : BitVec 4) (p : Nat) (pre : Pre) (s : State) : OpSem :=
  let r := popCheck s p sl.num q.toNat (pre.pops.countP (· == q.toNat)) (popsNeed pre q.toNat 1)
  let row := r.1.getD ⟨0, false⟩
  let b := semStore sl g a m 256 row.row [] row.bad p s
  { b with
    pops := [q.toNat]
    cause := match r.2.1 with
      | some e => some e
      | none => b.cause
    blocks := b.blocks || r.2.2
    effect := fun t => b.effect (popRow p q.toNat t) }

/-- A granule operation on a granule or, with `w`, a row (R342): `some e` sets the bits empty or full, `none` waits. -/
def semGran (sl : LSlot) (g : BitVec 3) (a m : BitVec 4) (w : BitVec 1) (set : Option Bool) (p : Nat) (s : State) : OpSem :=
  let c := getCtx s p
  let n := if w = 1 then 256 else 16
  let off := scrOff c a / n * n
  let b := scrBase sl g a m off n (if set.isSome then 2 else 1) p s
  match set with
  | some e => { b with
      effect := fun t => pushWrite ⟨p, sl.num, scratchKey (clusterOf p) off, [], granKeys p off n, e, false, false⟩ (b.effect t) }
  | none => { b with blocks := b.blocks || !gransFull s p off n }

/-- `fset` (R342). -/
def semFset (sl : LSlot) (g : BitVec 3) (a m : BitVec 4) (w : BitVec 1) : Nat → State → OpSem := semGran sl g a m w (some false)
/-- `fclr` (R342). -/
def semFclr (sl : LSlot) (g : BitVec 3) (a m : BitVec 4) (w : BitVec 1) : Nat → State → OpSem := semGran sl g a m w (some true)
/-- `fwait` (R342). -/
def semFwait (sl : LSlot) (g : BitVec 3) (a m : BitVec 4) (w : BitVec 1) : Nat → State → OpSem := semGran sl g a m w none

/-- The spill-map entry that `e` names: with two contexts per core each context has 32 (R371).  So has a handler, also beside a
context that has the core and 64 entries to itself. (DESIGN CHOICE, log 110.) -/
def parkEntry (c : Ctx) (e : BitVec 6) : Nat := if c.wide then e.toNat else e.toNat % 32

/-- `park` (R371). -/
def semPark (sl : LSlot) (g : BitVec 3) (r : BitVec 4) (f : BitVec 3) (k : BitVec 2) (e : BitVec 6) (p : Nat) (s : State) : OpSem :=
  let c := getCtx s p
  let q := physReg c (fileOfCode f.toNat) r.toNat
  { opBase c sl.num g with
    reads := [q]
    ports := if f = 5 then [(r.toNat, k.toNat)] else []
    effect := pushWrite ⟨p, sl.num, parkKey p (parkEntry c e), bytesLE 256 (regGet c q).toNat, [], false, regBad c q, false⟩ }

/-- `unpark` (R371). -/
def semUnpark (sl : LSlot) (g : BitVec 3) (r : BitVec 4) (f : BitVec 3) (e : BitVec 6) (p : Nat) (s : State) : OpSem :=
  let c := getCtx s p
  { opBase c sl.num g with
    res := [⟨.reg (physReg c (fileOfCode f.toNat) r.toNat), smGet 0 c.park (parkEntry c e), fullMask, 4,
      c.parkBad.contains (parkEntry c e)⟩] }

/-- `exec` of `.ld`. -/
def execLd (sl : LSlot) (g : BitVec 3) (r : BitVec 4) (f : BitVec 3) (a : BitVec 4) (m : BitVec 4) (w : BitVec 1) (c : BitVec 1) (s : State) : Host.Outcome State Fault Refusal :=
  issueSolo (.ld sl g r f a m w c) (semLd sl g r f a m w c s.cur s) s
/-- `exec` of `.st`. -/
def execSt (sl : LSlot) (g : BitVec 3) (r : BitVec 4) (f : BitVec 3) (a : BitVec 4) (m : BitVec 4) (s : State) : Host.Outcome State Fault Refusal :=
  issueSolo (.st sl g r f a m) (semSt sl g r f a m s.cur s) s
/-- `exec` of `.lds`. -/
def execLds (sl : LSlot) (g : BitVec 3) (r : BitVec 4) (f : BitVec 3) (a : BitVec 4) (m : BitVec 4) (w : BitVec 1) (c : BitVec 1) (s : State) : Host.Outcome State Fault Refusal :=
  issueSolo (.lds sl g r f a m w c) (semLds sl g r f a m w c s.cur s) s
/-- `exec` of `.sts`. -/
def execSts (sl : LSlot) (g : BitVec 3) (r : BitVec 4) (f : BitVec 3) (a : BitVec 4) (m : BitVec 4) (p : BitVec 2) (s : State) : Host.Outcome State Fault Refusal :=
  issueSolo (.sts sl g r f a m p) (semSts sl g r f a m p s.cur s) s
/-- `exec` of `.stq`. -/
def execStq (sl : LSlot) (g : BitVec 3) (q : BitVec 4) (a : BitVec 4) (m : BitVec 4) (s : State) : Host.Outcome State Fault Refusal :=
  issueSolo (.stq sl g q a m) (semStq sl g q a m s.cur {} s) s
/-- `exec` of `.fset`. -/
def execFset (sl : LSlot) (g : BitVec 3) (a : BitVec 4) (m : BitVec 4) (w : BitVec 1) (s : State) : Host.Outcome State Fault Refusal :=
  issueSolo (.fset sl g a m w) (semFset sl g a m w s.cur s) s
/-- `exec` of `.fclr`. -/
def execFclr (sl : LSlot) (g : BitVec 3) (a : BitVec 4) (m : BitVec 4) (w : BitVec 1) (s : State) : Host.Outcome State Fault Refusal :=
  issueSolo (.fclr sl g a m w) (semFclr sl g a m w s.cur s) s
/-- `exec` of `.fwait`. -/
def execFwait (sl : LSlot) (g : BitVec 3) (a : BitVec 4) (m : BitVec 4) (w : BitVec 1) (s : State) : Host.Outcome State Fault Refusal :=
  issueSolo (.fwait sl g a m w) (semFwait sl g a m w s.cur s) s
/-- `exec` of `.park`. -/
def execPark (sl : LSlot) (g : BitVec 3) (r : BitVec 4) (f : BitVec 3) (p : BitVec 2) (e : BitVec 6) (s : State) : Host.Outcome State Fault Refusal :=
  issueSolo (.park sl g r f p e) (semPark sl g r f p e s.cur s) s
/-- `exec` of `.unpark`. -/
def execUnpark (sl : LSlot) (g : BitVec 3) (r : BitVec 4) (f : BitVec 3) (e : BitVec 6) (s : State) : Host.Outcome State Fault Refusal :=
  issueSolo (.unpark sl g r f e) (semUnpark sl g r f e s.cur s) s

end Sys2Proof.Machine
end

