-- ==== Sys2Proof/Machine/Matrix.lean ====
section
/-! DEFINITION. The matrix slot MX: acceptance, residency, the dot-product order, drains, and the engine's own steps
(R122 to R124, R129 to R161, R320, R332, R388, R389, R414).

The arrays hold no image of their own: by R149 an operation computes on the image in memory at its start, and a Valid
copy always equals it (R151). -/

namespace Sys2Proof.Machine

/-! ### The dot-product order (R122 to R124) -/

/-- An f32 pattern of a block sum (R122): clamped to the largest finite, zero below the smallest normal, an exact zero
+0. -/
def blockValue (x : Num) : Nat :=
  match x with
  | .nan => fNan 12
  | .inf s => withSign 12 s (fInf 12)
  | .fin s m e =>
    if m = 0 then 0
    else
      let v := encFloat 12 rneMode (.fin s m e)
      let mag := v % 2 ^ 31
      withSign 12 s (if 0x7F800000 ≤ mag then 0x7F7FFFFF else if mag < 0x00800000 then 0 else mag)

/-- binary32 addition to nearest even (R123). -/
def add32 (a b : Nat) : Nat := encFloat 12 rneMode (addNum (decFloat 12 a) (decFloat 12 b))

/-- The two chains over the block values: even positions first (R123). -/
def chains : List Nat → Bool → Nat × Nat → Nat × Nat
  | [], _, r => r
  | b :: bs, true, r => chains bs false (add32 r.1 b, r.2)
  | b :: bs, false, r => chains bs true (r.1, add32 r.2 b)

/-- `chain_update` (R123). -/
def chainUpdate (a : Nat) (bs : List Nat) (ov : Bool) : Nat :=
  let r := chains bs true (if ov then 0 else a, 0)
  add32 r.1 r.2

/-- An exact sum of products; infinities of both signs give NaN (R122). -/
def sumNums (xs : List Num) : Num := xs.foldl addNum (.fin false 0 0)

/-! ### Operand rows (R134, R136) -/

/-- A scratchpad operand row with its rotation: logical granule g is granule (g + ROT × i) mod 16 of the row. -/
def scrRow (s : State) (p : Nat) (d : Word) (i : Nat) : Vec :=
  let v := rdNat s.mem (scratchKey (clusterOf p) (rowBase d i)) 256
  ofElems 128 16 (fun g => bitsOf v (128 * ((g + descRot d * i) % 16)) 128)

/-- Row `i` of an operand: the va rows captured at issue, or the scratchpad (R134). -/
def operandRow (s : State) (p : Nat) (d : Word) (held : List Vec) (i : Nat) : Vec :=
  if descVsrc d then held.getD i 0 else scrRow s p d i

/-- The va rows that an operand reads at issue: a register above 15 reads as zero (R134). -/
def vaRows (c : Ctx) (d : Word) (first n : Nat) : List Vec :=
  if descVsrc d then (List.range n).map (fun i =>
    if descV0 d + first + i ≤ 15 then regGet c (physReg c .va (descV0 d + first + i)) else 0) else []

/-- The registers of those rows. -/
def vaReads (c : Ctx) (d : Word) (first n : Nat) : List Reg :=
  if descVsrc d then (List.range n).filterMap (fun i =>
    if descV0 d + first + i ≤ 15 then some (physReg c .va (descV0 d + first + i)) else none) else []

/-- Block `b` contributes +0 (R142). -/
def skipped (m : MOp) (b : Nat) : Bool := m.skip.getLsbD b

/-! ### Tiles (R129, R130, R149) -/

/-- Column `n` of a tile as values, k ascending. -/
def tileCol (s : State) (m : MOp) (n : Nat) : List Num :=
  if m.tag.wfmt = 13 then
    let v := rdNat s.mem (m.key + 64 * n) 64
    (i4Elems m.tag.outl (BitVec.ofNat 2048 v) 128).map i4Num
  else (rdBytes s.mem (m.key + 128 * n) 128).map (fun b => numOfInt b.toInt)

/-- The scale index of block (b, n): nibble 4n + b of the index area (R117). -/
def scaleIndex (s : State) (m : MOp) (b n : Nat) : Nat :=
  let i := 4 * n + b
  bitsOf (rdByte s.mem (m.key + (if m.tag.wfmt = 13 then 8192 else 16384) + i / 2)).toNat (4 * (i % 2)) 4

/-- An e8m0 code as a factor. -/
def e8Num (c : Nat) : Num := if c % 256 = 255 then .nan else .fin false 1 (e8Exp (c % 256))

/-- The weight scale of block (b, n), resolved through a scale table (R118). -/
def wscl (s : State) (m : MOp) (table : BitVec 128) (b n : Nat) : Num :=
  e8Num (bitsOf table.toNat (8 * scaleIndex s m b n) 8)

/-- Activation elements of a row by AFMT: int8, or plain four-bit (R104, R136). -/
def actElems (f : BitVec 16) (v : Vec) : List Num :=
  if fmtA f = 13 then (i4Elems false v 128).map i4Num else (List.range 128).map (fun i => numOfInt (toSigned 8 (byteOf v i)))

/-- The activation scale of block `b`. -/
def ascl (d : Word) (v : Vec) (b : Nat) : Num := if descUscl d then .fin false 1 0 else e8Num (byteOf v (128 + b))

/-- The accumulator row of a context's row number (R137). -/
def accRow (c : Ctx) (p r : Nat) : Nat := if c.wide then r % 512 else 256 * (p % 2) + r % 256

/-- An accumulator element as an f32 pattern. -/
def accElem (v : BitVec 8192) (j : Nat) : Nat := bitsOf v.toNat (32 * j) 32

/-- An accumulator row with columns `c0` to `c0 + n - 1` replaced. -/
def accPut (v : BitVec 8192) (c0 n : Nat) (f : Nat → Nat) : BitVec 8192 :=
  BitVec.ofNat 8192 (packList 32 ((List.range 256).map (fun j => if c0 ≤ j ∧ j < c0 + n then f (j - c0) else accElem v j)))

/-- The first column of a column block. -/
def cbFirst (cb : Nat) : Nat := if cb = 1 then 128 else 0

/-- One element of `cim` (R140). -/
def cimElem (m : MOp) (a : Vec) (acts : List Num) (cols : Nat → List Num) (ws : Nat → Nat → Num) (acc j : Nat) : Nat :=
  let bs := (List.range 4).map (fun b =>
    if skipped m b then 0
    else
      let s := sumNums ((List.range 32).map (fun i =>
        let q := 32 * b + i
        let w := if m.t then (cols q).getD j .nan else (cols j).getD q .nan
        let sc := if m.t then ws (j / 32) q else ws b j
        mulNum (mulNum (acts.getD q .nan) w) (mulNum (ascl m.desc a b) sc)))
      blockValue s)
  chainUpdate acc bs m.ov

/-- One element of `smx` (R389). -/
def smxElem (m : MOp) (a : Nat → Num) (b : Nat → Num) (acc : Nat) : Nat :=
  chainUpdate acc ((List.range (smxK m.fmt)).map (fun k => if skipped m (k / 32) then 0 else blockValue (mulNum (a k) (b k)))) m.ov

/-- What a matrix operation writes: the accumulator rows after it (R140, R154, R389). -/
def mopResult (s : State) (p : Nat) (m : MOp) (table : BitVec 128) : SMap (BitVec 8192) :=
  let c := getCtx s p
  let acc := fun r => smGet 0 (getCore s (coreOf p)).acc r
  let c0 := cbFirst m.cb
  let n := cbCols m.cb
  match m.kind with
  | .acz => (List.range (descRows m.desc)).map (fun i =>
      let r := accRow c p (descArow m.desc + i)
      (r, accPut (acc r) c0 n (fun _ => 0)))
  | .cim =>
    let cols := (List.range 128).map (tileCol s m)
    (List.range (descRows m.desc)).map (fun i =>
      let r := accRow c p (descArow m.desc + i)
      let a := operandRow s p m.desc m.rowsA i
      let acts := actElems m.fmt a
      (r, accPut (acc r) (128 * m.cb) 128 (fun j =>
        cimElem m a acts (fun q => cols.getD q []) (wscl s m table) (accElem (acc r) (128 * m.cb + j)) j)))
  | .smx =>
    let ta := fmtA m.fmt
    let tb := fmtW m.fmt
    (List.range (descRows m.desc)).map (fun i =>
      let r := accRow c p (descArow m.desc + i)
      let a := operandRow s p m.desc m.rowsA i
      (r, accPut (acc r) c0 n (fun j =>
        smxElem m (fun k => decFloat ta (elem a (typeWidth ta) k))
          (fun k =>
            if !m.t then decFloat tb (elem (operandRow s p m.descB m.rowsB j) (typeWidth tb) k)
            else if typeWidth tb = 16 ∧ 128 ≤ j then
              decFloat tb (elem (operandRow s p (descSecond m.descB) m.rowsC k) 16 (j - 128))
            else decFloat tb (elem (operandRow s p m.descB m.rowsB k) (typeWidth tb) j))
          (accElem (acc r) (c0 + j)))))
  | _ => []

/-! ### Acceptance (R138, R145, R146, R150) -/

/-- An array that holds nothing. -/
def arrNone : Arr := ⟨.invalid, ⟨0, 0, 0, false⟩, false, 0, 0, 0, 0, 0, none⟩

/-- Array `a` of a core. -/
def getArr (s : State) (core a : Nat) : Arr := smGet arrNone (getCore s core).arrays a

/-- Array `a` changed. -/
def setArr (core a : Nat) (x : Arr) (s : State) : State :=
  updCore core (fun k => { k with arrays := smSet arrNone k.arrays a x }) s

/-- The accepted operations of both contexts of a core. -/
def coreMops (s : State) (core : Nat) : List MOp := (getCtx s (2 * core)).mops ++ (getCtx s (2 * core + 1)).mops

/-- An accepted operation waits to run in array `a`. -/
def waitsIn (s : State) (core a : Nat) : Bool := (coreMops s core).any (fun m => m.arr == some a && !m.started)

/-- A copy eligible as a victim (R145). -/
def eligible (s : State) (core a : Nat) : Bool :=
  let x := getArr s core a
  !x.pin && x.st != .filling && !waitsIn s core a

/-- The arrays that hold a copy of a tag in one of some states. -/
def copiesOf (s : State) (core : Nat) (t : Tag) (sts : List ArrState) : List Nat :=
  (List.range 16).filter (fun a => (getArr s core a).tag == t && sts.contains (getArr s core a).st)

/-- The home set of a tile (R130). -/
def homeSet (t : Tag) : Nat := t.page % 4

/-- The arrays of a set. -/
def setArrays (n : Nat) : List Nat := (List.range 4).map (· + 4 * n)

/-- Steps 2 to 4 of R146 among the arrays `as`. -/
def victimOf (s : State) (core : Nat) (as : List Nat) : Option Nat :=
  let el := as.filter (eligible s core)
  match el.find? (fun a => (getArr s core a).st == .invalid) with
  | some a => some a
  | none => match el.find? (fun a => (getArr s core a).st == .stale) with
    | some a => some a
    | none => el.foldl (fun o a => match o with
      | none => some a
      | some b => if (getArr s core a).age < (getArr s core b).age then some a else some b) none

/-- The Stale copy of the tag in a set, or the victim of R146. -/
def refillOf (s : State) (core : Nat) (t : Tag) (set : Nat) : Option Nat :=
  match (setArrays set).find? (fun a => (getArr s core a).tag == t && (getArr s core a).st == .stale) with
  | some a => some a
  | none => victimOf s core (setArrays set)

/-- The cycles that a `cim` takes in an array (Table 8-10). (DEDUCED, log 76.) -/
def cimCost (m : MOp) : Nat := 12 + descRows m.desc * (if fmtA m.fmt = 13 then 4 else 8)

/-- The cycles until the work accepted for an array has finished (R145). -/
def arrWork (s : State) (core a : Nat) : Nat :=
  (((coreMops s core).filter (fun m => m.arr == some a)).map (fun m =>
    if m.started then cimCost m - ((getCore s core).cycle - m.begun) else cimCost m)).sum

/-- The paths of Table 8-5: the array that serves, and whether it must be filled; none is the streamed fallback.  Of
several Filling copies the lowest-numbered serves. (DESIGN CHOICE, log 76.) -/
def lookupTile (s : State) (core : Nat) (t : Tag) : Option (Nat × Bool) :=
  match copiesOf s core t [.valid] with
  | a :: as => some (as.foldl (fun b x => if arrWork s core x < arrWork s core b then x else b) a, false)
  | [] => match copiesOf s core t [.filling] with
    | a :: _ => some (a, false)
    | [] => (refillOf s core t (homeSet t)).map (fun a => (a, true))

/-- An array set Filling for a tag: a Stale copy of it that is refilled keeps its PIN (R146), and a replica, which has a source, is
unpinned (R158, R415). -/
def startFill (core a : Nat) (t : Tag) (key : Nat) (place : Word) (table : BitVec 128) (source : Option Nat) (s : State) : State :=
  let x := getArr s core a
  setArr core a ⟨.filling, t, x.pin && x.tag == t && x.st == .stale && source.isNone, x.age, key, place, table, table, source⟩ s

/-- The tag of a tile at FMT (R130). -/
def tagOf (c : Ctx) (f : BitVec 16) (va : Word) : Tag :=
  ⟨c.asn, pageOf va, fmtW f, fmtW f == 13 && fmtOutl f⟩

/-- What the check of a tile page gives: its storage key and placement, or the cause (R138, R181). -/
def tileCheck (s : State) (p : Nat) (va : Word) : Except Cause (Nat × Word) :=
  let v := va &&& ~~~0xFFFF
  match translate s p v .read with
  | .ok e => .ok (placeKey e.place (dieOf p) (physAddr e v), e.place)
  | .absent _ => .error { plainCause 0x10 8 with addr := v, access := 1 }
  | .fault code pl => .error { plainCause code 8 with addr := v, place := pl, access := 1 }

/-- The launch has four live cores of the cluster (R138). -/
def fullCluster (s : State) (p : Nat) : Bool :=
  (List.range 4).all (fun q => coreLive s (4 * clusterOf p + q)) && (match findLaunch s (getCtx s p).lseq with
    | some l => recField l.record 10 1 == 4
    | none => false)

/-- The rows of a context's allocation (R137). -/
def accRows (c : Ctx) : Nat := if c.wide then 512 else 256

/-- A region descriptor's fault: bit 63, or rows beyond the allocation, or a handler task (Table 8-3). -/
def descBad (c : Ctx) (d : Word) : Bool := d.getLsbD 63 || accRows c < descArow d + descRows d || c.sup

/-- Sixteen accepted operations are outstanding. -/
def mxFull (c : Ctx) : Bool := Config.matrixOps ≤ c.mops.length

/-- Two accepted operations with a VSRC = 1 operand have not started (R134). -/
def vsrcFull (c : Ctx) : Bool :=
  2 ≤ (c.mops.filter (fun m => !m.started && (descVsrc m.desc || (m.kind == .smx && descVsrc m.descB)) &&
    (m.kind == .cim || m.kind == .smx))).length

/-- The first failing check of a list: a cause. -/
def firstOf (l : List (Bool × Cause)) : Option Cause := (l.find? (·.1)).map (·.2)

/-- An operation with nothing in it but its kind. -/
def mopBase (c : Ctx) (k : MKind) : MOp where
  kind := k
  gaddr := c.pc
  t := false
  ov := false
  cl := false
  desc := 0
  descB := 0
  cb := 0
  skip := 0
  tag := ⟨0, 0, 0, false⟩
  key := 0
  place := 0
  table := c.scl
  fmt := c.fmt
  q := 0
  n := 0
  rowsA := []
  rowsB := []
  rowsC := []
  bad := false
  arr := none
  fallback := false
  started := false
  result := []
  seed := 0
  nextRow := 0
  pair := 0
  overflow := 0
  waited := 0
  num := 0
  begun := 0
  lost := false

/-- An operation is accepted, with its place among the core's operations and among the context's `.cl` ones. -/
def accept (p : Nat) (m : MOp) (s : State) : State :=
  let s1 := updCtx p (fun c => { c with
    mops := c.mops ++ [{ m with pair := c.clCount, num := s.order }]
    clCount := if m.cl then c.clCount + 1 else c.clCount }) s
  { s1 with order := s.order + 1 }

/-- Acceptance of a `cim`: the path of Table 8-5 (R145, R150). -/
def acceptCim (p : Nat) (m : MOp) (s : State) : State :=
  let k := coreOf p
  match lookupTile s k m.tag with
  | some (a, fill) => accept p { m with arr := some a } (if fill then startFill k a m.tag m.key m.place m.table none s else s)
  | none => updCtx p (fun c => { c with wfb := true, wfbcnt := c.wfbcnt + 1 }) (accept p { m with fallback := true } s)

/-- What the metadata word of a `.m` operation comes to: its cause, the word, whether its line waits, and the page whose
recall it waits for (R142, R233), and whether it is a stack in thermal hold that it waits for (R297). -/
structure MetaRead where
  cause : Option Cause := none
  word : Word := 0
  waits : Bool := false
  held : Bool := false
  recalls : List Nat := []

/-- The metadata word of a `.m` operation. -/
def metaOf (s : State) (p : Nat) (m : BitVec 1) : MetaRead :=
  if m = 0 then {}
  else match metaWord s p with
    | .ok w => { word := w }
    | .error (.cause e) => { cause := some e }
    | .error (.waits page) => { waits := true, recalls := page.toList }
    | .error .held => { waits := true, held := true }

/-- MPC moves past the word, whose line has entered the instruction cache. -/
def metaStep (p : Nat) (m : BitVec 1) (s : State) : State :=
  if m = 0 then s
  else
    let a := (getCtx s p).mpc &&& ~~~7
    let s1 := match fetchLine s p a with
      | .ok l => fillCode p [(a, l)] s
      | .error _ => s
    updCtx p (fun c => { c with mpc := c.mpc + 8 }) s1

/-- The cause of the first scratchpad row of a matrix operation at a dead core (R166). -/
def deadRow (s : State) (p : Nat) (m : MOp) : Option Cause := (mopRows m).findSome? (fun o => rangeCause s p 8 o 1)

/-- A matrix operation as far as slot, ports and the block at sixteen go; that block comes before the faults of Table
8-3. (DEDUCED, log 17.)  One issued while a load is made again after a save waits for it (R289). -/
def mxBase (s : State) (p : Nat) (g : BitVec 3) (ports : List (Nat × Nat)) (e : Option Cause) : OpSem :=
  let c := getCtx s p
  { opBase c 8 g with
    reads := ports.map (fun q => commonReg q.1)
    ports := ports
    isMx := true
    cause := if mxFull c then none else e
    blocks := mxFull c || remaking s p }

/-- `cim` (R140, R332). -/
def semCim (g : BitVec 3) (r : BitVec 5) (rp : BitVec 2) (tr : BitVec 5) (tp b : BitVec 2) (m l o t : BitVec 1) (p : Nat)
    (s : State) : OpSem :=
  let c := getCtx s p
  let d := regWord c (commonReg r.toNat)
  let va := regWord c (commonReg tr.toNat)
  let mw := metaOf s p m
  let tile := tileCheck s p va
  let place := match tile with
    | .ok x => x.2
    | .error _ => 0
  let key := match tile with
    | .ok x => x.1
    | .error _ => 0
  let fault := fun n => { plainCause n 8 with addr := va &&& ~~~0xFFFF }
  let atD := seen c [commonReg r.toNat]
  let atT := seen c [commonReg tr.toNat]
  let mo : MOp := { mopBase c .cim with
    t := t == 1
    ov := o == 1
    cl := l == 1
    desc := d
    cb := b.toNat
    skip := mw.word
    tag := tagOf c c.fmt va
    key := key
    place := place }
  let dead := deadRow s p mo
  let checks := firstOf [
    (mw.cause.isSome, mw.cause.getD (plainCause 0 8)),
    (atT && (match tile with
      | .ok _ => false
      | .error _ => true), (match tile with
      | .ok _ => plainCause 0 8
      | .error e => e)),
    (!([0, 13].contains (fmtA c.fmt) && [0, 13].contains (fmtW c.fmt)), plainCause 4 8),
    (atD && descBad c d || atT && plRepl place == 1 || c.sup || (l == 1 && !fullCluster s p), fault 5),
    (atT && (lookupTile s (coreOf p) (tagOf c c.fmt va)).isNone && (getCore s (coreOf p)).wfault, fault 6),
    (atD && dead.isSome, dead.getD (plainCause 0 8))]
  let base := mxBase s p g [(r.toNat, rp.toNat), (tr.toNat, tp.toNat)] checks
  let rows := vaReads c d 0 (descRows d)
  { base with
    reads := base.reads ++ rows
    blocks := base.blocks || mw.waits || (descVsrc d && vsrcFull c)
    recalls := mw.recalls
    held := mw.held
    effect := fun s0 => metaStep p m (touchExtent p va (acceptCim p { mo with
      rowsA := vaRows c d 0 (descRows d)
      bad := anyBad c (base.reads ++ rows) } s0)) }

/-- The type pairing of `smx` (R104): the same 16-bit type, or 8-bit types in any pairing. -/
def smxFmtOk (f : BitVec 16) : Bool :=
  ((fmtA f == 10 || fmtA f == 11) && fmtW f == fmtA f) || ((fmtA f == 8 || fmtA f == 9) && (fmtW f == 8 || fmtW f == 9))

/-- `smx` (R388, R389). -/
def semSmx (g : BitVec 3) (r : BitVec 5) (rp : BitVec 2) (br : BitVec 5) (bp b : BitVec 2) (m l o t : BitVec 1) (p : Nat)
    (s : State) : OpSem :=
  let c := getCtx s p
  let d := regWord c (commonReg r.toNat)
  let e := regWord c (commonReg br.toNat)
  let mw := metaOf s p m
  let atD := seen c [commonReg r.toNat]
  let atE := seen c [commonReg br.toNat]
  let mo : MOp := { mopBase c .smx with
    t := t == 1
    ov := o == 1
    cl := l == 1
    desc := d
    descB := e
    cb := b.toNat
    skip := mw.word }
  let dead := deadRow s p mo
  let checks := firstOf [
    (mw.cause.isSome, mw.cause.getD (plainCause 0 8)),
    (!smxFmtOk c.fmt, plainCause 4 8),
    (atD && descBad c d || atE && e.getLsbD 63 || c.sup || (l == 1 && !fullCluster s p), plainCause 5 8),
    (atD && atE && dead.isSome, dead.getD (plainCause 0 8))]
  let base := mxBase s p g [(r.toNat, rp.toNat), (br.toNat, bp.toNat)] checks
  let nb := smxBRows mo
  let rows := vaReads c d 0 (descRows d) ++ vaReads c e 0 nb ++ (if smxSecond mo then vaReads c e (descTpitch e) nb else [])
  { base with
    reads := base.reads ++ rows
    blocks := base.blocks || mw.waits || ((descVsrc d || descVsrc e) && vsrcFull c)
    recalls := mw.recalls
    held := mw.held
    effect := fun s0 => metaStep p m (accept p { mo with
      rowsA := vaRows c d 0 (descRows d)
      rowsB := vaRows c e 0 nb
      rowsC := if smxSecond mo then vaRows c e (descTpitch e) nb else []
      bad := anyBad c (base.reads ++ rows) } s0) }

/-- `acz` (R320). -/
def semAcz (g : BitVec 3) (r : BitVec 5) (rp b : BitVec 2) (p : Nat) (s : State) : OpSem :=
  let c := getCtx s p
  let d := regWord c (commonReg r.toNat)
  { mxBase s p g [(r.toNat, rp.toNat)] (firstOf [(seen c [commonReg r.toNat] && descBad c d || c.sup, plainCause 5 8)]) with
    effect := accept p { mopBase c .acz with desc := d, cb := b.toNat } }

/-- The drain types (Table 6-4). -/
def drainType (t : Nat) : Bool := [0, 2, 4, 8, 9, 10, 11, 12].contains t

/-- `drn` (R155): the draws of all its elements are taken at issue (R110). -/
def semDrn (g : BitVec 3) (r : BitVec 5) (rp b : BitVec 2) (n : BitVec 3) (p : Nat) (pre : Pre) (s : State) : OpSem :=
  let c := getCtx s p
  let d := regWord c (commonReg r.toNat)
  let t := fmtD c.fmt
  let drawn := if fmtRnd c.fmt = 2 then descRows d * cbCols b.toNat else 0
  { mxBase s p g [(r.toNat, rp.toNat)] (firstOf [
      (!drainType t || fmtRnd c.fmt == 3, plainCause 4 8),
      (seen c [commonReg r.toNat] && descBad c d || c.sup || (queueOf c p n.toNat).isNone, plainCause 5 8)]) with
    draws := drawn
    effect := accept p { mopBase c .drn with
      desc := d
      cb := b.toNat
      q := n.toNat
      seed := advanceSeed pre.draws c.seed } }

/-- A residency form's tag, checks and effect (R158, R414). -/
def semTile (g : BitVec 3) (tr : BitVec 5) (tp : BitVec 2) (report : Bool) (f : Tag → Nat → Word → State → State) (p : Nat) (s : State) :
    OpSem :=
  let c := getCtx s p
  let va := regWord c (commonReg tr.toNat)
  let tile := tileCheck s p va
  let place := match tile with
    | .ok x => x.2
    | .error _ => 0
  let key := match tile with
    | .ok x => x.1
    | .error _ => 0
  let atT := seen c [commonReg tr.toNat]
  { mxBase s p g [(tr.toNat, tp.toNat)] (firstOf [
      (atT && (match tile with
        | .ok _ => false
        | .error _ => true), (match tile with
        | .ok _ => plainCause 0 8
        | .error e => e)),
      (!([0, 13].contains (fmtW c.fmt)), plainCause 4 8),
      (atT && plRepl place == 1 || (c.sup && !report), { plainCause 5 8 with addr := va &&& ~~~0xFFFF })]) with
    effect := fun s0 => touchExtent p va (f (tagOf c c.fmt va) key place s0) }

/-- The tile made resident as a miss would, never by fallback (R158). -/
def makeResident (p : Nat) (t : Tag) (key : Nat) (place : Word) (table : BitVec 128) (s : State) : State :=
  match lookupTile s (coreOf p) t with
  | some (a, true) => startFill (coreOf p) a t key place table none s
  | _ => s

/-- `wpre` (R158): n is FN 1:0 + 1 copies. -/
def semWpre (g : BitVec 3) (tr : BitVec 5) (tp n : BitVec 2) (p : Nat) (s : State) : OpSem :=
  let c := getCtx s p
  semTile g tr tp false (fun t key place s0 => accept p { mopBase c .wpre with tag := t, key := key, place := place, n := n.toNat + 1, started := true }
    (makeResident p t key place c.scl s0)) p s

/-- PIN on each copy whose set holds fewer than three pinned arrays (R158). -/
def pinCopies (core : Nat) (t : Tag) (s : State) : State :=
  (copiesOf s core t [.valid, .filling, .stale]).foldl (fun z a =>
    if ((setArrays (a / 4)).filter (fun b => (getArr z core b).pin)).length < 3 then setArr core a { getArr z core a with pin := true } z
    else z) s

/-- The tile of a `wpre` or `wpin` is made resident, and pinned for a `wpin` (R158). -/
def resideMop (core : Nat) (m : MOp) (s : State) : State :=
  let s1 := makeResident (2 * core) m.tag m.key m.place m.table s
  if m.kind == .wpin then pinCopies core m.tag s1 else s1

/-- `wpin` (R158): PIN is set as soon as the tile is being made resident, while its array is still Filling. -/
def semWpin (g : BitVec 3) (tr : BitVec 5) (tp : BitVec 2) (p : Nat) (s : State) : OpSem :=
  let c := getCtx s p
  semTile g tr tp false (fun t key place s0 => accept p { mopBase c .wpin with tag := t, key := key, place := place, n := 1, started := true }
    (pinCopies (coreOf p) t (makeResident p t key place c.scl s0))) p s

/-- PIN of every copy of a tag. -/
def setPins (core : Nat) (t : Tag) (b : Bool) (as : List Nat) (s : State) : State :=
  as.foldl (fun z a => if (getArr z core a).tag == t then setArr core a { getArr z core a with pin := b } z else z) s

/-- `wunp` (R158): it completes at acceptance. -/
def semWunp (g : BitVec 3) (tr : BitVec 5) (tp : BitVec 2) (p : Nat) (s : State) : OpSem :=
  semTile g tr tp false (fun t _ _ s0 => setPins (coreOf p) t false (copiesOf s0 (coreOf p) t [.filling, .valid, .stale]) s0) p s

/-- A `cim` accepted before the operation `num` and assigned to a copy of the tile has not completed. -/
def tileAssigned (s : State) (core : Nat) (t : Tag) (num : Nat) : Bool :=
  (coreMops s core).any (fun e => e.kind == .cim && e.tag == t && e.arr.isSome && e.num < num)

/-- A `winv` of the tile accepted before the operation `num` has not yet acted: the operation may not use the copies it will
drop. (DEDUCED, log 53.) -/
def dropsSoon (s : State) (core : Nat) (t : Tag) (num : Nat) : Bool :=
  (coreMops s core).any (fun e => e.kind == .winv && e.tag == t && e.num < num)

/-- Every copy of the tile goes Invalid (R158). -/
def dropTile (core : Nat) (t : Tag) (s : State) : State :=
  (copiesOf s core t [.filling, .valid, .stale]).foldl (fun z a => setArr core a arrNone z) s

/-- The earliest `cim` accepted that waits to run in an array. -/
def firstIn (s : State) (core a : Nat) : Option MOp :=
  ((coreMops s core).filter (fun m => m.arr == some a && !m.started)).foldl (fun o m => match o with
    | none => some m
    | some b => some (if m.num < b.num then m else b)) none

/-- Array `a` set aside for operation `m` of a tag, which waits to run in it: it is filled, or, where the page of the tile has been
recalled, Stale until the operation has the new translation (R235). -/
def refill (core a : Nat) (t : Tag) (m : MOp) (s : State) : State :=
  let s1 := startFill core a t m.key m.place m.table none s
  if m.lost then setArr core a { getArr s1 core a with st := .stale } s1 else s1

/-- `winv` acts (R158): every copy goes Invalid; an array that later instructions of the tile wait in is filled anew for the
first of them, and a `wpre` or `wpin` accepted since makes the tile resident again (R119), one whose page has been recalled once
it is mapped again (R235). (DEDUCED, log 53.) -/
def actWinv (core : Nat) (t : Tag) (s : State) : State :=
  let s1 := (copiesOf s core t [.filling, .valid, .stale]).foldl (fun z a => match firstIn s core a with
    | some m => refill core a t m z
    | none => z) (dropTile core t s)
  (coreMops s core).foldl (fun z m =>
    if (m.kind == .wpre || m.kind == .wpin) && m.tag == t && !m.lost && dropsSoon s core t m.num then resideMop core m z else z) s1

/-- `winv` (R158): at once where no instruction is assigned to a copy, so that the next use of the tile resolves its scales
anew (R119). -/
def semWinv (g : BitVec 3) (tr : BitVec 5) (tp : BitVec 2) (p : Nat) (s : State) : OpSem :=
  let c := getCtx s p
  semTile g tr tp false (fun t key place s0 =>
    if tileAssigned s0 (coreOf p) t s0.order then
      accept p { mopBase c .winv with tag := t, key := key, place := place, started := true } s0
    else dropTile (coreOf p) t s0) p s

/-- The report of Table 8-8. -/
def tileReport (s : State) (core : Nat) (t : Tag) : Word :=
  let mask := fun (l : List Nat) => (l.map (fun a => 2 ^ a)).sum
  let pinned := (copiesOf s core t [.filling, .valid, .stale]).filter (fun a => (getArr s core a).pin)
  BitVec.ofNat 64 (mask (copiesOf s core t [.valid]) + 2 ^ 16 * mask pinned + 2 ^ 32 * homeSet t
    + 2 ^ 34 * (!(copiesOf s core t [.filling]).isEmpty).toNat + 2 ^ 35 * (!(copiesOf s core t [.stale]).isEmpty).toNat)

/-- `wprb` (R159): the report lands with latency 4. -/
def semWprb (g : BitVec 3) (d : BitVec 5) (tr : BitVec 5) (tp : BitVec 2) (p : Nat) (s : State) : OpSem :=
  let c := getCtx s p
  let va := regWord c (commonReg tr.toNat)
  { semTile g tr tp true (fun _ _ _ s0 => s0) p s with
    res := [wordRes (commonReg d.toNat) (tileReport s (coreOf p) (tagOf c c.fmt va)) 4 (regBad c (commonReg tr.toNat))] }

/-! ### The engine's own steps -/

/-- The accumulator rows of an operation's region. -/
def mopRegion (m : MOp) : Nat × Nat × Nat × Nat := (descArow m.desc, descRows m.desc, cbFirst m.cb, cbCols m.cb)

/-- Two operations touch a common accumulator element. -/
def mopsMeet (a b : MOp) : Bool :=
  let x := mopRegion a
  let y := mopRegion b
  x.1 < y.1 + y.2.1 && y.1 < x.1 + x.2.1 && x.2.2.1 < y.2.2.1 + y.2.2.2 && y.2.2.1 < x.2.2.1 + x.2.2.2

/-- The operations that read or write the accumulator. -/
def usesAcc (m : MOp) : Bool := m.kind == .cim || m.kind == .smx || m.kind == .acz || m.kind == .drn

/-- The scratchpad rows it reads are full and not locked, whoever owns their banks (R135; DESIGN CHOICE, log 105), and none lies at
a core that has died since. (DESIGN CHOICE, log 92.) -/
def rowsReady (s : State) (p : Nat) (m : MOp) : Bool :=
  (mopRows m).all (fun o => coreLive s (holderOf p o) && gransFull s p o 256 && (bankIds p o 256).all (fun id => !(id / 128 == coreOf p && bankLocked s id)))

/-- The image of a tile carries the mark. -/
def imageBad (s : State) (m : MOp) : Bool := keysBad s m.place m.key (imageBytes m.tag.wfmt / 64)

/-- The lines of a tile's image, as far as their homes: what is asked for, and whether they may be read now. -/
def imageAsk (core : Nat) (place : Word) (key wfmt : Nat) (s : State) : State × Bool :=
  linesAsk core (core / 64) place key (imageBytes wfmt / 64) s

/-- The tile of a `cim` is ready: a Valid copy in its array that no `winv` before it is to drop, or the streamed path with a
clean image at hand (R139, R148, R149). -/
def tileReady (s : State) (p : Nat) (m : MOp) : Bool :=
  m.kind != .cim || (match m.arr with
    | some a => (getArr s (coreOf p) a).st == .valid && (getArr s (coreOf p) a).tag == m.tag
        && !dropsSoon s (coreOf p) m.tag m.num
    | none => m.fallback && (imageAsk (coreOf p) m.place m.key m.tag.wfmt s).2 && !imageBad s m)

/-- Operation `k` of a context may start, its pairing apart (R139). -/
def mopReady (s : State) (p k : Nat) : Bool :=
  let c := getCtx s p
  match c.mops[k]? with
  | none => false
  | some m => usesAcc m && !m.started && !m.lost && !remaking s p && (c.mops.take k).all (fun e => !usesAcc e || (e.started && !mopsMeet e m))
      && tileReady s p m && rowsReady s p m

/-- The partners of a `.cl` operation: the launch's contexts of the same number in the cluster (R143). -/
def partners (s : State) (p : Nat) : List Nat :=
  let c := getCtx s p
  ((List.range 8).map (fun i => 8 * clusterOf p + i)).filter (fun q =>
    let d := getCtx s q
    d.st != .free && !d.sup && d.lseq == c.lseq && d.lclus == c.lclus && d.lctxn == c.lctxn)

/-- The place of the `pair`-th `.cl` operation among a context's accepted ones. -/
def pairAt (s : State) (p pair : Nat) : Option Nat := (getCtx s p).mops.findIdx? (fun m => m.cl && m.pair == pair)

/-- The pairing has dissolved (R144): a member left it, or has ended. -/
def dissolvedAt (s : State) (p pair : Nat) : Bool :=
  let k := getCluster s (clusterOf p)
  let me := clPair (getCtx s p) pair
  k.dissolved.contains me || k.ended.any (fun e => e.seq == me.seq && e.clus == me.clus && e.ctx == me.ctx && decide (e.pair ≤ pair))

/-- The operations that start together with operation `k`: itself alone, or its pairing (R143, R144). -/
def startSet (s : State) (p k : Nat) : Option (List (Nat × Nat)) :=
  match (getCtx s p).mops[k]? with
  | none => none
  | some m =>
    if !m.cl || dissolvedAt s p m.pair then some [(p, k)]
    else
      let l := (partners s p).filterMap (fun q => (pairAt s q m.pair).map (fun j => (q, j)))
      if l.length = 4 then some l else none

/-- A poisoned scratchpad row among those read. -/
def rowsBad (s : State) (p : Nat) (m : MOp) : Bool := (mopRows m).any (fun o => gransBad s p o 256)

/-- One operation starts: its result is computed on the operands and the image as they stand (R149).  Poisoned operand rows poison
the result (R290); they are read by no load and no fill, so that no event follows (R291). (DEDUCED, log 102.) -/
def startOne (p k : Nat) (s : State) : State :=
  match (getCtx s p).mops[k]? with
  | none => s
  | some m =>
    let core := coreOf p
    let table := match m.arr with
      | some a => (getArr s core a).table
      | none => m.table
    let bad := m.bad || rowsBad s p m
    let res := mopResult s p m table
    let s1 := updCtx p (fun c => { c with mops := c.mops.set k { m with
      started := true
      begun := (getCore s core).cycle
      result := res
      bad := bad } }) s
    let s2 := match m.arr with
      | some a => setArr core a { getArr s1 core a with age := (getCore s1 core).cycle } s1
      | none => s1
    let s3 := if m.fallback then linesDrop (dieOf p) m.place m.key (imageBytes m.tag.wfmt / 64) s2 else s2
    s3

/-- The engine works for the context: it is bound, and its state is none in which its operations wait (R161). -/
def engineRuns (s : State) (p : Nat) : Bool :=
  p < 512 && (match (getCtx s p).st with
    | .ready | .blocked | .trapped | .draining => true
    | _ => false)

/-- The address of an operation's tile. -/
def tileVa (m : MOp) : Word := sextW 48 (m.tag.page * 2 ^ 16)

/-- Operation `k` of a context, whose tile's page has been recalled: its page is looked up again, and it waits while that is
absent (R235). -/
def retargetMop (p k : Nat) (s : State) : State :=
  match (getCtx s p).mops[k]? with
  | none => s
  | some m => match tileCheck s p (tileVa m) with
    | .error _ => s
    | .ok (key, place) =>
      let m1 : MOp := { m with key := key, place := place, lost := false }
      let s1 := updCtx p (fun c => { c with mops := c.mops.set k m1 }) s
      if m.kind == .wpre || m.kind == .wpin then resideMop (coreOf p) m1 s1 else s1

/-- MATRIX_OP_START (R139, R143): the operation, or its whole pairing, starts; a `cim` whose array has gone Stale has it
refilled in place first (R146), under the translation taken when it issued. (DEDUCED, log 77.) -/
def doMatrixStart (p k : Nat) (s : State) : State :=
  match (getCtx s p).mops[k]? with
  | none => s
  | some m =>
    let core := coreOf p
    let stale : Bool := match m.arr with
      | some a => (getArr s core a).st == .stale && (getArr s core a).tag == m.tag && !dropsSoon s core m.tag m.num
      | none => false
    let image := imageAsk core m.place m.key m.tag.wfmt s
    if !engineRuns s p || m.started then s
    else if m.lost then retargetMop p k s
    else if stale then startFill core (m.arr.getD 0) m.tag m.key m.place m.table none s
    else if m.fallback && !image.2 then image.1
    else if m.fallback && imageBad s m then poisonRead p true s
    else match startSet s p k with
      | none => s
      | some l =>
        if l.all (fun (e : Nat × Nat) => engineRuns s e.1 && mopReady s e.1 e.2) then
          l.foldl (fun (t : State) (e : Nat × Nat) => startOne e.1 e.2 t) (if m.fallback then image.1 else s)
        else s

/-- A copy of the tag is Filling. -/
def tagFilling (s : State) (core : Nat) (t : Tag) : Bool := !(copiesOf s core t [.filling]).isEmpty

/-- A set that qualifies for a replica (R147): it holds no Valid or Filling copy, and a Stale one of the tag or an
eligible array that is Invalid or has been idle for 4,096 cycles. -/
def replicaSet (s : State) (core : Nat) (t : Tag) (n : Nat) : Option Nat :=
  let as := setArrays n
  if as.any (fun a => (copiesOf s core t [.valid, .filling]).contains a) then none
  else match as.find? (fun a => (getArr s core a).tag == t && (getArr s core a).st == .stale) with
    | some a => some a
    | none =>
      if as.any (fun a => eligible s core a && ((getArr s core a).st == .invalid
          || (getArr s core a).age + 4096 ≤ (getCore s core).cycle)) then victimOf s core as else none

/-- A set without a copy that has an eligible array, or a Stale copy: while there is one, `wpre` goes on (R158). -/
def preSet (s : State) (core : Nat) (t : Tag) (n : Nat) : Option Nat :=
  if (setArrays n).any (fun a => (copiesOf s core t [.valid, .filling]).contains a) then none else refillOf s core t n

/-- Accepted instructions that wait for the tile (R147). -/
def waiters (s : State) (core : Nat) (t : Tag) : Nat :=
  ((coreMops s core).filter (fun m => m.kind == .cim && !m.started && m.tag == t)).length

/-- A `wpre` of the tag that still lacks copies: Valid and Filling ones count, and a Stale one is refilled. (DESIGN CHOICE,
log 104.) -/
def lacksCopies (s : State) (core : Nat) (t : Tag) : Bool :=
  (coreMops s core).any (fun m => m.kind == .wpre && m.tag == t && (copiesOf s core t [.valid, .filling]).length < m.n)

/-- The array that a replica of the tag held in `src` would take: for two waiters, or for a `wpre`, which ignores that
condition (R147, R158). -/
def replicaOf (s : State) (core src : Nat) : Option Nat :=
  let x := getArr s core src
  if x.st != .valid then none
  else
    if 2 ≤ waiters s core x.tag || lacksCopies s core x.tag then (List.range 4).findSome? (replicaSet s core x.tag) else none

/-- The scale table at the issue of the instruction that causes a replica: the latest that waits for the tile, or the
`wpre` that lacks copies (R118, R147). (DESIGN CHOICE, log 78.) -/
def replicaTable (s : State) (core : Nat) (t : Tag) : BitVec 128 :=
  ((coreMops s core).filter (fun m => m.tag == t && ((m.kind == .cim && !m.started) || m.kind == .wpre))).foldl
    (fun (o : Nat × BitVec 128) m => if o.1 ≤ m.num then (m.num, m.table) else o) (0, 0) |>.2

/-- REPLICA_START (R147): a replica of the tile in array `src` begins, with its resolved codes. -/
def doReplicaStart (core src : Nat) (s : State) : State :=
  match replicaOf s core src with
  | some a =>
    let x := getArr s core src
    let s1 := startFill core a x.tag x.key x.place x.table (some src) s
    setArr core a { getArr s1 core a with again := replicaTable s core x.tag } s1
  | none => s

/-- A fill or replica ends: the array is Valid and counts as used (R131). -/
def endFill (core a : Nat) (s : State) : State :=
  setArr core a { getArr s core a with st := .valid, source := none, age := (getCore s core).cycle } s

/-- An operation waits for a tile to be filled: a `cim` not started, a `wpre` or a `wpin`. -/
def waitsFill (t : Tag) (m : MOp) : Bool := m.tag == t && (m.kind == .cim && !m.started || m.kind == .wpre || m.kind == .wpin)

/-- Launches of the contexts that wait on a tile have read poisoned data; what waits does not complete (R148, R291). -/
def poisonFill (core : Nat) (t : Tag) (s : State) : State :=
  [2 * core, 2 * core + 1].foldl (fun z p =>
    poisonRead p ((getCtx z p).mops.any (waitsFill t)) (updCtx p (fun c => { c with
      mops := c.mops.map (fun m => if waitsFill t m then { m with bad := true } else m) }) z)) s

/-- The image of array `a` carries the mark. -/
def arrImageBad (s : State) (core a : Nat) : Bool :=
  let x := getArr s core a
  keysBad s x.place x.key (imageBytes x.tag.wfmt / 64)

/-- TILE_FILL_COMPLETE (R148): the fill has the lines of the image, or asks for them; one that read poisoned data leaves the
array Invalid. -/
def doTileFill (core a : Nat) (s : State) : State :=
  let x := getArr s core a
  if x.st == .filling && x.source.isNone then
    let z := imageAsk core x.place x.key x.tag.wfmt s
    if !z.2 then z.1
    else linesDrop (core / 64) x.place x.key (imageBytes x.tag.wfmt / 64)
      (if arrImageBad s core a then setArr core a arrNone (poisonFill core x.tag z.1) else endFill core a z.1)
  else s

/-- REPLICA_COMPLETE (R147). -/
def doReplicaEnd (core a : Nat) (s : State) : State :=
  let x := getArr s core a
  if x.st == .filling && x.source.isSome then endFill core a s else s

/-- The `wpre` or `wpin` has nothing more to wait for (R414); one whose fill read poisoned data does not complete (R148). -/
def preDone (s : State) (core : Nat) (m : MOp) : Bool :=
  !m.bad && !dropsSoon s core m.tag m.num && !tagFilling s core m.tag && (m.n ≤ (copiesOf s core m.tag [.valid]).length
    || (List.range 4).all (fun n => (preSet s core m.tag n).isNone) || (copiesOf s core m.tag [.valid]).isEmpty)

/-- Operation `k` leaves the context's list. -/
def dropMop (p k : Nat) (s : State) : State := updCtx p (fun c => { c with mops := c.mops.eraseIdx k }) s

/-- MATRIX_OP_COMPLETE (R139, R414): the accumulator takes the result, or the residency operation has had its effect. -/
def doMatrixComplete (p k : Nat) (s : State) : State :=
  let core := coreOf p
  match (getCtx s p).mops[k]? with
  | none => s
  | some m =>
    if 512 ≤ p then s
    else if m.lost then (if m.kind == .wpre || m.kind == .wpin then retargetMop p k s else s)
    else match m.kind with
    | .drn => s
    | .wpre | .wpin => if preDone s core m then dropMop p k s else s
    | .wunp => dropMop p k s
    | .winv =>
      if tileAssigned s core m.tag m.num || dropsSoon s core m.tag m.num then s else dropMop p k (actWinv core m.tag s)
    | _ =>
      if m.started then dropMop p k (landMop core m s) else s

/-- The queue rows of accumulator row `i` of a drain (R155). -/
def drainRows (s : State) (p : Nat) (m : MOp) (i : Nat) : List Vec :=
  let c := getCtx s p
  let t := fmtD m.fmt
  let n := cbCols m.cb
  let v := smGet 0 (getCore s (coreOf p)).acc (accRow c p (descArow m.desc + i))
  let on := List.replicate n true
  let rnd := if t = 12 then 0 else fmtRnd m.fmt
  let ms := modes rnd (if rnd = 2 then advanceSeed (n * i) m.seed else m.seed) on
  let es := List.zipWith (fun md j => convertBits 12 t (fmtSat m.fmt) md (accElem v (cbFirst m.cb + j))) ms (List.range n)
  let bits := packList (typeWidth t) es
  (List.range ((n * typeWidth t + 2047) / 2048)).map (fun r => BitVec.ofNat 2048 (bits / 2 ^ (2048 * r)))

/-- Queue rows per accumulator row (Table 8-6). -/
def rowsPer (m : MOp) : Nat := (cbCols m.cb * typeWidth (fmtD m.fmt) + 2047) / 2048

/-- DRAIN_ROW_PUSH (R155): the next row enters the queue when it has room; the last one ends the drain.  A drain
stopped by queue overflow pushes nothing (R156). -/
def doDrainPush (p k : Nat) (s : State) : State :=
  let c := getCtx s p
  match c.mops[k]? with
  | none => s
  | some m => match queueOf c p m.q with
    | none => s
    | some q =>
      if engineRuns s p && m.kind == .drn && m.started && m.overflow == 0 && (queueRows s p q).length < Config.queueEntries then
        let i := m.nextRow / rowsPer m
        let row := (drainRows s p m i).getD (m.nextRow % rowsPer m) 0
        let bad := (getCore s (coreOf p)).accBad.contains (accRow c p (descArow m.desc + i))
        let s1 := updCore (coreOf p) (fun x => { x with queues := smSet [] x.queues q (smGet [] x.queues q ++ [⟨row, bad⟩]) }) s
        if m.nextRow + 1 = descRows m.desc * rowsPer m then dropMop p k s1
        else updCtx p (fun c => { c with mops := c.mops.set k { m with nextRow := m.nextRow + 1, waited := 0 } }) s1
      else s

/-- A drain holds a converted row while its queue is full (R156). -/
def drainWaits (s : State) (p : Nat) (m : MOp) : Bool :=
  m.kind == .drn && m.started && m.overflow == 0 && (match queueOf (getCtx s p) p m.q with
    | some q => decide (Config.queueEntries ≤ (queueRows s p q).length)
    | none => false)

/-- The context is Ready or Blocked, so that its drains count their waits (R156). -/
def countsWaits (c : Ctx) : Bool := c.st == .ready || c.st == .blocked

/-- `n` cycles of the core pass for the drains of a context that wait for room (R156). -/
def countWaits (p n : Nat) (s : State) : State :=
  if countsWaits (getCtx s p) && (getCtx s p).mops.any (drainWaits s p) then
    updCtx p (fun c => { c with mops := c.mops.map (fun m => if drainWaits s p m then { m with waited := m.waited + n } else m) }) s
  else s

/-- QUEUE_OVERFLOW (R156): the drain's wait has reached 4,096 cycles; the fault is taken at a group boundary. -/
def doQueueOverflow (p k : Nat) (s : State) : State :=
  match (getCtx s p).mops[k]? with
  | none => s
  | some m =>
    if drainWaits s p m && countsWaits (getCtx s p) && decide (Config.drainLimit ≤ m.waited) then
      updCtx p (fun c => { c with
        mops := c.mops.set k { m with overflow := 1 + (c.mops.map (·.overflow)).foldl Nat.max 0 }
        after := c.after ++ [{ plainCause 7 8 with num := m.q, info := m.gaddr }] }) s
    else s

/-- `exec` of `.cim`. -/
def execCim (g : BitVec 3) (r : BitVec 5) (p : BitVec 2) (s0 : BitVec 5) (q : BitVec 2) (b : BitVec 2) (m : BitVec 1) (l : BitVec 1) (o : BitVec 1) (t : BitVec 1) (s : State) : Host.Outcome State Fault Refusal :=
  issueSolo (.cim g r p s0 q b m l o t) (semCim g r p s0 q b m l o t s.cur s) s
/-- `exec` of `.smx`. -/
def execSmx (g : BitVec 3) (r : BitVec 5) (p : BitVec 2) (s0 : BitVec 5) (q : BitVec 2) (b : BitVec 2) (m : BitVec 1) (l : BitVec 1) (o : BitVec 1) (t : BitVec 1) (s : State) : Host.Outcome State Fault Refusal :=
  issueSolo (.smx g r p s0 q b m l o t) (semSmx g r p s0 q b m l o t s.cur s) s
/-- `exec` of `.acz`. -/
def execAcz (g : BitVec 3) (r : BitVec 5) (p : BitVec 2) (b : BitVec 2) (s : State) : Host.Outcome State Fault Refusal :=
  issueSolo (.acz g r p b) (semAcz g r p b s.cur s) s
/-- `exec` of `.drn`. -/
def execDrn (g : BitVec 3) (r : BitVec 5) (p : BitVec 2) (b : BitVec 2) (n : BitVec 3) (s : State) : Host.Outcome State Fault Refusal :=
  issueSolo (.drn g r p b n) (semDrn g r p b n s.cur {} s) s
/-- `exec` of `.wpre`. -/
def execWpre (g : BitVec 3) (s0 : BitVec 5) (q : BitVec 2) (n : BitVec 2) (s : State) : Host.Outcome State Fault Refusal :=
  issueSolo (.wpre g s0 q n) (semWpre g s0 q n s.cur s) s
/-- `exec` of `.wpin`. -/
def execWpin (g : BitVec 3) (s0 : BitVec 5) (q : BitVec 2) (s : State) : Host.Outcome State Fault Refusal :=
  issueSolo (.wpin g s0 q) (semWpin g s0 q s.cur s) s
/-- `exec` of `.wunp`. -/
def execWunp (g : BitVec 3) (s0 : BitVec 5) (q : BitVec 2) (s : State) : Host.Outcome State Fault Refusal :=
  issueSolo (.wunp g s0 q) (semWunp g s0 q s.cur s) s
/-- `exec` of `.winv`. -/
def execWinv (g : BitVec 3) (s0 : BitVec 5) (q : BitVec 2) (s : State) : Host.Outcome State Fault Refusal :=
  issueSolo (.winv g s0 q) (semWinv g s0 q s.cur s) s
/-- `exec` of `.wprb`. -/
def execWprb (g : BitVec 3) (d : BitVec 5) (s0 : BitVec 5) (q : BitVec 2) (s : State) : Host.Outcome State Fault Refusal :=
  issueSolo (.wprb g d s0 q) (semWprb g d s0 q s.cur s) s
/-- `exec` of `.matrixOpStart`. -/
def execMatrixOpStart (p k : Nat) (s : State) : Host.Outcome State Fault Refusal := .next (doMatrixStart p k s)
/-- `exec` of `.matrixOpComplete`. -/
def execMatrixOpComplete (p k : Nat) (s : State) : Host.Outcome State Fault Refusal := .next (doMatrixComplete p k s)
/-- `exec` of `.tileFillComplete`. -/
def execTileFillComplete (core arr : Nat) (s : State) : Host.Outcome State Fault Refusal := .next (doTileFill core arr s)
/-- `exec` of `.replicaStart`. -/
def execReplicaStart (core arr : Nat) (s : State) : Host.Outcome State Fault Refusal := .next (doReplicaStart core arr s)
/-- `exec` of `.replicaComplete`. -/
def execReplicaComplete (core arr : Nat) (s : State) : Host.Outcome State Fault Refusal := .next (doReplicaEnd core arr s)
/-- `exec` of `.drainRowPush`. -/
def execDrainRowPush (p k : Nat) (s : State) : Host.Outcome State Fault Refusal := .next (doDrainPush p k s)
/-- `exec` of `.queueOverflow`. -/
def execQueueOverflow (p k : Nat) (s : State) : Host.Outcome State Fault Refusal := .next (doQueueOverflow p k s)

end Sys2Proof.Machine
end

