-- ==== Sys2Proof/Machine/Lattice.lean ====
section
/-! DEFINITION. Lattice pages: types, joins, replicas, exchange and rebuild (R212 to R224, R314).

A replica cell is named by its storage key: the copy of its die and its physical address. -/

namespace Sys2Proof.Machine

/-! ### Types (Table 13-1) -/

/-- The cell size in bytes. -/
def cellSize (t : Nat) : Nat := if t = 6 then 16 else if t = 7 then 64 else 8

/-- Lane `i` of a value: 64 bits. -/
def lane64 (v i : Nat) : Nat := bitsOf v (64 * i) 64

/-- The order a ⊑ b. -/
def latLeq (t a b : Nat) : Bool :=
  match t with
  | 1 => a ≤ b
  | 2 => b ≤ a
  | 3 => toSigned 64 a ≤ toSigned 64 b
  | 4 => a &&& b == a
  | 5 => a &&& b == b
  | 6 => lane64 a 0 < lane64 b 0 || (lane64 a 0 == lane64 b 0 && lane64 a 1 ≤ lane64 b 1)
  | _ => (List.range 8).all (fun i => lane64 a i ≤ lane64 b i)

/-- The join a ⊔ b. -/
def latJoin (t a b : Nat) : Nat :=
  match t with
  | 4 => a ||| b
  | 5 => a &&& b
  | 7 => packList 64 ((List.range 8).map (fun i => Nat.max (lane64 a i) (lane64 b i)))
  | _ => if latLeq t a b then b else a

/-- The least value. -/
def latBottom (t : Nat) : Nat :=
  match t with
  | 2 | 5 => 2 ^ 64 - 1
  | 3 => 2 ^ 63
  | _ => 0

/-- The value of a GCNT cell: the saturated sum of its lanes (R213). -/
def latSum (v : Nat) : Nat := Nat.min (((List.range 8).map (lane64 v)).sum) (2 ^ 64 - 1)

/-! ### Replica cells -/

/-- The cell of a page of placement `w` that holds a storage key. -/
def cellOf (w : Word) (key : Nat) : Nat := key / cellSize (plLtype w) * cellSize (plLtype w)

/-- A cell's value. -/
def cellGet (s : State) (w : Word) (cell : Nat) : Nat := rdNat s.mem cell (cellSize (plLtype w))

/-- The cell is marked for rebuild (R224). -/
def cellMarked (s : State) (cell : Nat) : Bool := (smGet none s.rebuild cell).isSome

/-- The cell's storage lies on a failed channel (R314). -/
def cellLost (s : State) (w : Word) (cell : Nat) : Bool := lineLost s w (keyDie cell) (cell % 2 ^ 52)

/-- Loads of the cell hold, and checks wait: it is marked, or its storage reads poisoned and will be (R224); a cell on
a failed channel holds nothing (R314). -/
def cellHolds (s : State) (w : Word) (cell : Nat) : Bool :=
  !cellLost s w cell && (cellMarked s cell || smGet false s.lineBad (cell / 64))

/-- The cells that `n` bytes from a storage key touch. -/
def cellsIn (w : Word) (key n : Nat) : List Nat :=
  let z := cellSize (plLtype w)
  (List.range ((n + z - 1) / z)).map (fun i => cellOf w key + z * i)

/-- The other dies. -/
def partnersOf (d : Nat) : List Nat := [0, 1, 2, 3].filter (· != d)

/-- The cell becomes dirty toward some dies (R221). -/
def soil (w : Word) (cell : Nat) (ds : List Nat) (s : State) : State :=
  { s with dirty := ds.foldl (fun m e => smSet 0 m (4 * cell + e) w) s.dirty }

/-- The cell becomes clean toward every die. -/
def cleanse (cell : Nat) (s : State) : State :=
  { s with dirty := [0, 1, 2, 3].foldl (fun m e => smErase m (4 * cell + e)) s.dirty }

/-- Every launch with a context bound on a die meets the uncorrectable-error event (R224). -/
def poisonDie (d : Nat) (s : State) : State :=
  { s with launches := s.launches.map (fun l =>
      if s.ctxs.any (fun e => e.1 < 512 && dieOf e.1 == d && e.2.st != .free && e.2.lseq == l.seq) then { l with poison := true }
      else l) }

/-- A cell whose storage reads poisoned is marked for rebuild; a change sent to no partner is lost (R224). -/
def spoilCell (w : Word) (cell : Nat) (s : State) : State :=
  if cellMarked s cell then s
  else
    let d := keyDie cell
    let lost := (partnersOf d).all (fun e => smGet 0 s.dirty (4 * cell + e) != 0)
    let s1 := cleanse cell { s with
      rebuild := smSet none s.rebuild cell (some (3, w, BitVec.ofNat 512 (latBottom (plLtype w)))) }
    if lost then poisonDie d s1 else s1

/-- Every cell of a poisoned line is marked, and the line's own mark lifted. -/
def spoilLine (w : Word) (line : Nat) (s : State) : State :=
  let s1 := (cellsIn w (64 * line) 64).foldl (fun t c => spoilCell w c t) s
  { s1 with lineBad := smErase s1.lineBad line }

/-- cell := cell ⊔ v at a replica (R215).  A marked cell gathers the value, one on a failed channel discards it.  `src`
is the die whose exchange sent the value: the cell stays clean toward it where the value stands as sent (R221).
(DEDUCED, log 32.) -/
def cellJoin (w : Word) (cell v : Nat) (src : Option Nat) (s : State) : State :=
  let t := plLtype w
  if cellLost s w cell then s
  else
    let s1 := if smGet false s.lineBad (cell / 64) then spoilLine w (cell / 64) s else s
    match smGet none s1.rebuild cell with
    | some (n, w', g) => { s1 with
        rebuild := smSet none s1.rebuild cell (some (n, w', BitVec.ofNat 512 (latJoin t g.toNat v))) }
    | none =>
      let old := cellGet s1 w cell
      let new := latJoin t old v
      if new = old then s1
      else soil w cell ((partnersOf (keyDie cell)).filter (fun e => !(src == some e && new == v)))
        (setMem (wrNat s1.mem cell (cellSize t) new) s1)

/-- The part of a value that `z` bytes from byte `o` make. -/
def partOf (v o z : Nat) : Nat := bitsOf v (8 * o) (8 * z)

/-- The bytes `v` joined into every cell they cover (R217, R218). -/
def cellsJoin (w : Word) (key n v : Nat) (s : State) : State :=
  let z := cellSize (plLtype w)
  (cellsIn w key n).zipIdx.foldl (fun t c => cellJoin w c.1 (partOf v (z * c.2) z) none t) s

/-- The check of R218: every covered cell rises or stays; one on a failed channel, which discards the write, is not asked
(R314). (DESIGN CHOICE, log 93.) -/
def storeRises (s : State) (w : Word) (key n v : Nat) : Bool :=
  let z := cellSize (plLtype w)
  (cellsIn w key n).zipIdx.all (fun c => cellLost s w c.1 || latLeq (plLtype w) (cellGet s w c.1) (partOf v (z * c.2) z))

/-- A cell's rebuild ends without a value. -/
def dropMark (cell : Nat) (s : State) : State := { s with rebuild := smErase s.rebuild cell }

/-- A raw write (R216): the bytes replace those of the replica, the cells are clean toward every partner, and a rebuild of
one of them ends, its value being the one written. (DESIGN CHOICE, log 94.)  Cells written unequal stay so until a join changes
one of them. (DESIGN CHOICE, log 112.) -/
def rawWrite (w : Word) (key : Nat) (bs : List Byte) (s : State) : State :=
  (cellsIn w key (bs.length + key - cellOf w key)).foldl (fun t c => dropMark c (cleanse c t)) (setMem (wrBytes s.mem key bs) s)

/-! ### Milestones (Table 13-3) -/

/-- The cell's value passes the milestone: `vec` says that REG is a vector register. -/
def latPasses (t : Nat) (vec : Bool) (v m : Nat) : Bool :=
  match t with
  | 7 => m % 2 ^ 64 ≤ latSum v
  | 6 => if vec then latLeq 6 (m % 2 ^ 128) v else m % 2 ^ 64 ≤ lane64 v 0
  | _ => latLeq t (m % 2 ^ 64) v

/-- The result of `lwt`. -/
def latResult (t : Nat) (vec : Bool) (v : Nat) : Nat :=
  if vec then v
  else match t with
    | 7 => latSum v
    | 6 => lane64 v 1
    | _ => v

/-! ### Exchange (R221 to R224) -/

/-- The partner of a die in a phase. -/
def partnerIn (phase d : Nat) : Nat := d ^^^ (phase % 3 + 1)

/-- The same cell in the replica of another die. -/
def cellIn (cell d : Nat) : Nat := memKey (1 + d) (cell % 2 ^ 52)

/-- The cell's stack is in thermal hold (R222, R297). -/
def cellWaits (s : State) (w : Word) (cell : Nat) : Bool := lineHeld s w (keyDie cell) (cell % 2 ^ 52)

/-- An access to the cell waits: for a rebuild, or at a stack in thermal hold (R224, R297). -/
def cellStops (s : State) (w : Word) (cell : Nat) : Bool := cellHolds s w cell || cellWaits s w cell

/-- The placement of the lattice page that holds a storage key, as some extent of the package maps it, or as a cell of its
line that is dirty or marked has it. -/
def latticeAt (s : State) (key : Nat) : Option Word :=
  let mapped := s.ctxs.findSome? (fun e => (e.2.extents.find? (fun x => !x.absent && plLtype x.place != 0 && 1 ≤ key / 2 ^ 52 && key / 2 ^ 52 ≤ 4
    && x.frame ≤ key % 2 ^ 52 && key % 2 ^ 52 < x.frame + x.pages * 2 ^ 16)).map (·.place))
  match mapped with
  | some w => some w
  | none => match s.dirty.find? (fun d => d.1 / 4 / 64 == key / 64) with
    | some d => some d.2
    | none => s.rebuild.findSome? (fun r => if r.1 / 64 = key / 64 then r.2.map (fun x => x.2.1) else none)

/-- Every poisoned line of a lattice replica is marked for rebuild. (DEDUCED, log 32.) -/
def spoilAll (s : State) : State :=
  s.lineBad.foldl (fun t e => match latticeAt s (64 * e.1) with
    | some w => if cellLost s w (64 * e.1) then t else spoilLine w e.1 t
    | none => t) s

/-- A read meets cells: those whose own storage reads poisoned are marked for rebuild, whether or not a context maps their page
(R224). -/
def spoilRead (w : Word) (cells : List Nat) (s : State) : State :=
  cells.foldl (fun t c => if smGet false t.lineBad (c / 64) && !cellLost t w c && !cellWaits t w c then spoilLine w (c / 64) t else t) s

/-- A cell as sent to a partner. -/
def sendCell (s : State) (w : Word) (cell e : Nat) : Exch :=
  ⟨keyDie cell, cellIn cell e, w, BitVec.ofNat 512 (cellGet s w cell), smGet false s.lineBad (cell / 64)⟩

/-- The dirty cells that die `d` sends in this phase: the first 4,096 in ascending order, those behind a held stack
excepted (R222). -/
def dueCells (s : State) (d : Nat) : List (Nat × Word) :=
  let e := partnerIn s.phase d
  ((s.dirty.filter (fun k => k.1 % 4 == e && keyDie (k.1 / 4) == d && !cellWaits s k.2 (k.1 / 4))).map
    (fun k => (k.1 / 4, k.2))).take Config.snapshot

/-- Die `d` has a value of a marked cell to send. -/
def rebuildFrom (s : State) (cell d : Nat) (w : Word) : Bool :=
  !cellMarked s (cellIn cell d) && !cellLost s w (cellIn cell d)

/-- The cells that die `d` sends because its partner rebuilds them, those behind a held stack excepted (R222, R224). -/
def rebuildCells (s : State) (d : Nat) : List (Nat × Word) :=
  s.rebuild.filterMap (fun k => match k.2 with
    | some (_, w, _) =>
      if keyDie k.1 == partnerIn s.phase d && rebuildFrom s k.1 d w && !cellWaits s w (cellIn k.1 d) then some (cellIn k.1 d, w)
      else none
    | none => none)

/-- The phases still to come for a marked cell after this one: a partner's cell behind a held stack begins the three anew
(R222, R224). -/
def phasesLeft (s : State) (cell n : Nat) (w : Word) : Nat :=
  let d := partnerIn s.phase (keyDie cell)
  if rebuildFrom s cell d w && cellWaits s w (cellIn cell d) then 3 else n - 1

/-- EXCHANGE_PHASE (R221): every die sends the cells dirty toward its partner, and those its partner rebuilds. -/
def doExchangePhase (s : State) : State :=
  let s1 := spoilAll s
  let due := [0, 1, 2, 3].map (fun d => (d, dueCells s1 d))
  let sent := due.flatMap (fun d => (d.2.filter (fun c => !cellLost s1 c.2 c.1)).map (fun c => sendCell s1 c.2 c.1 (partnerIn s.phase d.1)))
  let more := [0, 1, 2, 3].flatMap (fun d => (rebuildCells s1 d).map (fun c => sendCell s1 c.2 c.1 (partnerIn s.phase d)))
  { s1 with
    dirty := due.foldl (fun m d => d.2.foldl (fun m c => smErase m (4 * c.1 + partnerIn s.phase d.1)) m) s1.dirty
    exch := s1.exch ++ sent ++ more
    rebuild := s1.rebuild.map (fun k => (k.1, match k.2 with
      | some (n, w, g) => some (phasesLeft s1 k.1 n w, w, g)
      | none => none))
    phase := s1.phase + 1 }

/-- An error found in storage that no launch reads is reported to the host: EVENT bit 0 (R290). -/
def reportError (s : State) : State := { s with event := s.event ||| 1 }

/-- EXCHANGE_APPLY (R221, R224): a received cell is joined at the partner's replica; a poisoned one is dropped and
reported; one whose stack is in thermal hold waits (R222). -/
def doExchangeApply (k : Nat) (s : State) : State :=
  match s.exch[k]? with
  | none => s
  | some x =>
    if cellWaits s x.place x.cell then s
    else
      let s1 := { s with exch := s.exch.eraseIdx k }
      if x.bad then reportError s1 else cellJoin x.place x.cell x.data.toNat (some x.die) s1

/-- LATTICE_REBUILD_END (R224): three phases have passed and their cells are applied; the cell takes the value gathered,
dirty toward every partner.  One on a channel that has failed since takes nothing (R314). -/
def doRebuildEnd (die cell : Nat) (s : State) : State :=
  let c := memKey (1 + die) cell
  match smGet none s.rebuild c with
  | some (0, w, g) =>
    if s.exch.any (fun x => x.cell == c) then s
    else if cellLost s w c then dropMark c s
    else soil w c (partnersOf die) (setMem (wrNat s.mem c (cellSize (plLtype w)) g.toNat) (dropMark c s))
  | _ => s

/-- `exec` of `.exchangePhase`. -/
def execExchangePhase (s : State) : Host.Outcome State Fault Refusal := .next (doExchangePhase s)
/-- `exec` of `.exchangeApply`. -/
def execExchangeApply (k : Nat) (s : State) : Host.Outcome State Fault Refusal := .next (doExchangeApply k s)
/-- `exec` of `.latticeRebuildEnd`. -/
def execLatticeRebuildEnd (die cell : Nat) (s : State) : Host.Outcome State Fault Refusal := .next (doRebuildEnd die cell s)

end Sys2Proof.Machine
end

