-- ==== Sys2Proof/Machine/Global.lean ====
section
/-! DEFINITION. The global path: the slot GM, requests at their home L2s, timestamps, the write log, the side log, and
the HBM calendar (R174 to R183, R192 to R209, R217 to R236, R290 to R295, R347 to R355). -/

namespace Sys2Proof.Machine

/-! ### Caches and timestamps (R202) -/

/-- No copy. -/
def lcNone : LcLine := ⟨false, 0, 0, 0, false⟩

/-- A core's line-cache copy. -/
def lcGet (s : State) (core line : Nat) : LcLine := smGet lcNone (getCore s core).lcache line

/-- A core's line cache takes a copy, in the place of another where it is full (R13). -/
def lcSet (core line : Nat) (x : LcLine) (s : State) : State :=
  { updCore core (fun k => { k with lcache := cacheSet Config.cacheLines s.fresh lcNone k.lcache line x }) s with fresh := s.fresh + 1 }

/-- A core's copy of a line is dropped, or one on its way. -/
def lcDrop (core line : Nat) (s : State) : State :=
  updCore core (fun k => { k with lcache := smErase k.lcache line, fills := k.fills.filter (fun f => f.line != line) }) s

/-- All copies of a core are dropped, and those on their way. -/
def lcClear (core : Nat) (s : State) : State := updCore core (fun k => { k with lcache := [], fills := [] }) s

/-- A core's pts jumps to at least `t` (R205, R206). -/
def jumpPts (core : Nat) (t : Stamp) (s : State) : State := updCore core (fun k => { k with pts := serMax k.pts t }) s

/-- The live cores. -/
def liveCores (s : State) : List Nat := (List.range 256).filter (coreLive s)

/-- All copies of the live cores are dropped, and those on their way. -/
def dropCopies (s : State) : State := { s with cores := smMap {} (fun _ k => { k with lcache := [], fills := [] }) s.cores }

/-- The largest and the least pts of the live cores of the package (R207, R227). -/
def ptsSpan (s : State) : Option (Stamp × Stamp) :=
  (liveCores s).foldl (fun o k =>
    let t := (getCore s k).pts
    match o with
    | none => some (t, t)
    | some (a, b) => some (serMax a t, serMin b t)) none

/-- The largest pts of the live cores of the package. -/
def topPts (s : State) : Stamp :=
  match ptsSpan s with
  | some (t, _) => t
  | none => 0

/-! ### Writes at home (R151, R206, R290 to R294) -/

/-- Array `a` of a core holds or fills the tile image that the line belongs to. -/
def arrHolds (x : Arr) (line : Nat) : Bool :=
  x.st != .invalid && x.key / 64 ≤ line && line < x.key / 64 + imageBytes x.tag.wfmt / 64

/-- A write to a line stales its tiles on every core (R151). -/
def staleTiles (line : Nat) (s : State) : State := staleWhere (fun x => arrHolds x line) s

/-- The tiles of pages of an address space go Stale (R152). -/
def stalePages (asn page n : Nat) (s : State) : State :=
  staleWhere (fun x => x.tag.asn == asn && page ≤ x.tag.page && x.tag.page < page + n) s

/-- A launch becomes non-restartable and its entries are discarded (R294). -/
def unrestart (seq : Nat) (s : State) : State :=
  let s1 := updLaunch seq (fun l => { l with restartable := false }) s
  { s1 with dies := smMap {} (fun _ d => { d with wlog := d.wlog.filter (fun e => e.seq != seq) }) s1.dies }

/-- Entries that a die's write log holds: units of 64 MiB, 128 bytes each (R292, Table 19-4). -/
def logRoom (s : State) : Nat := s.wlogsz.toNat * 2 ^ 26 / 128

/-- A write of a launch is entered in the log of the line's home die (R292, R294). -/
def logWrite (seq : Option Nat) (w : Word) (home line : Nat) (s : State) : State :=
  match seq with
  | none => s
  | some n =>
    match findLaunch s n with
    | none => s
    | some l =>
      if !l.restartable || plLtype w != 0 then s
      else if 2 ≤ plTier w then unrestart n s
      else if logRoom s ≤ (getDie s home).wlog.length then unrestart n s
      else updDie home (fun d => { d with
        wlog := d.wlog ++ [⟨line, w, n, BitVec.ofNat 512 (rdNat s.mem (64 * line) 64), smGet false s.lineBad line⟩] }) s

/-- The bytes and the mark of a line written at its home: `v` at byte key `key`.  A line on a failed channel discards
them (R290, R314). -/
def putLine (w : Word) (key size v : Nat) (bad : Bool) (s : State) : State :=
  if lineLost s w (keyDie key) (key % 2 ^ 52) then s
  else
    let s1 := setMem (wrNat s.mem key size v) s
    { s1 with lineBad := if bad then smSet false s1.lineBad (key / 64) true
        else if size = 64 then smErase s1.lineBad (key / 64) else s1.lineBad }

/-- A write of `size` bytes within a line, at its home: logged, performed, its tiles staled (R151, R292).  `seq` is the
launch whose write is logged. -/
def writeHome (seq : Option Nat) (w : Word) (home key size v : Nat) (bad : Bool) (s : State) : State :=
  staleTiles (key / 64) (putLine w key size v bad (logWrite seq w home (key / 64) s))

/-- The timestamps of a write at its home (R206): the new wts, which rts takes too. -/
def stampWrite (s : State) (home line : Nat) (p : Stamp) : Stamp :=
  serMax p ((l2Get s home line).rts + 1)

/-- A write under R206: the stamps and the line. -/
def writeStamped (seq : Option Nat) (w : Word) (home key size v : Nat) (bad : Bool) (p : Stamp) (s : State) : State :=
  let t := stampWrite s home (key / 64) p
  writeHome seq w home key size v bad (l2Set home (key / 64) { l2Get s home (key / 64) with wts := t, rts := t } s)

/-- The line of a storage key as it stands. -/
def lineNow (s : State) (key : Nat) : BitVec 512 := BitVec.ofNat 512 (rdNat s.mem (key / 64 * 64) 64)

/-! ### Requests in flight (R192 to R196) -/

/-- Two accesses touch a common byte. -/
def reqMeets (a b : GReq) : Bool := a.key < b.key + b.size && b.key < a.key + a.size

/-- The bytes of a request within its line, shifted into place. -/
def reqMask (r : GReq) : BitVec 512 := BitVec.ofNat 512 ((2 ^ (8 * r.size) - 1) <<< (8 * (r.key % 64)))

/-- A load takes the bytes of the context's own pending stores issued before it (R196). -/
def overlay (earlier : List GReq) (r : GReq) (line : BitVec 512) : BitVec 512 :=
  (earlier.filter (fun e => e.kind == .store && e.key / 64 == r.key / 64)).foldl
    (fun v e => (v &&& ~~~reqMask e) ||| (e.data &&& reqMask e)) line

/-- The mark of a line as those stores leave it: a poisoned one sets it, a clean one of the whole line clears it (R290,
R347). -/
def overlayBad (earlier : List GReq) (r : GReq) (bad : Bool) : Bool :=
  (earlier.filter (fun e => e.kind == .store && e.key / 64 == r.key / 64)).foldl
    (fun b e => e.bad || (b && e.size != 64)) bad

/-- A load waits for the context's earlier accesses to its bytes: loads in order, atomics acknowledged, joins performed
(R195). (DEDUCED, log 29.) -/
def loadWaits (earlier : List GReq) (r : GReq) : Bool :=
  earlier.any (fun e => reqMeets e r && (match e.kind with
    | .store | .pf => false
    | .ljn => !e.done
    | _ => true))

/-- A write waits for the context's earlier accesses to its bytes (R195). -/
def storeWaits (earlier : List GReq) (r : GReq) : Bool :=
  earlier.any (fun e => reqMeets e r && !e.done && e.kind != .pf)

/-- What request `k` of a context may have to wait for: the earlier accesses of the context that are not performed, or not
acknowledged (R195). -/
def earlier (c : Ctx) (k : Nat) (r : GReq) : List GReq := (openLoads c).filter (fun q => decide (q.id < r.id)) ++ c.reqs.take k

/-- The request is of a `gld` or `lwt`, whose data a save discards (R287). -/
def remade (r : GReq) : Bool := r.kind == .load || r.kind == .lwt

/-- The request writes, or may. -/
def writes (r : GReq) : Bool := r.kind == .store || r.kind == .gam || r.kind == .ljn

/-- A part of an interlocked destination's data arrives: what request `r` brings.  Data that are whole while a result of their
group still has to land are held for it (R33), and a save no longer discards them. (DEDUCED, log 48.) -/
def pendPart (r : GReq) (lane v : Nat) (bad : Bool) (c : Ctx) : Ctx :=
  { c with pend := c.pend.map (fun e => if e.id == r.id then
      { e with
        left := e.left - 1
        value := e.value ||| (BitVec.ofNat 2048 v <<< (512 * lane))
        bad := e.bad || bad
        got := if e.left ≤ 1 && isLanding c e.dest then [] else if remade r then e.got ++ [r] else e.got } else e) }

/-- Request `k` leaves the list. -/
def dropReq (p k : Nat) (s : State) : State := updCtx p (fun c => { c with reqs := c.reqs.eraseIdx k }) s

/-- A load, or an atomic that writes nothing, is performed with the line `line`: its bytes go to its destination (R192,
R290); only a load takes bytes of pending stores, with their marks (R347). -/
def deliver (p k : Nat) (r : GReq) (line : BitVec 512) (bad : Bool) (s : State) : State :=
  if r.kind == .pf then dropReq p k s
  else
    let own := if r.kind == .load then (getCtx s p).reqs.take k else []
    let v := overlay own r line
    let mark := overlayBad own r bad
    poisonRead p mark (updCtx p (pendPart r r.lane (bitsOf v.toNat (8 * (r.key % 64)) (8 * r.size)) (mark || r.bad)) (dropReq p k s))

/-- The page that holds a storage key is being restriped, by whatever context and under whatever virtual address (R190). -/
def restriping (s : State) (w : Word) (key : Nat) : Bool := plTier w ≤ 1 && restripingFrame s (key % 2 ^ 52 / 2 ^ 16)

/-- What an acquire on the lattice, on a line that no home stamps, or by a fence brings: the copies of lines are dropped, of
every core, so that no later load returns what was current before the release, here or where the context releases in turn
(R194, R209, R226).  No pts changes (R204, R214).  The scope is not read: every acquire and every fence acts as the widest scope
does, which R194 allows toward agents outside a narrower one. (DESIGN CHOICE, log 79.) -/
def acquired (acq : Bool) (s : State) : State := if acq then dropCopies s else s

/-- A lattice load at the replica (R214): the line as it stands; on a failed channel, poisoned. -/
def latticeLoad (p k : Nat) (r : GReq) (s : State) : State :=
  if (cellsIn r.place r.key r.size).any (cellStops s r.place) then s
  else
    let bad := (cellsIn r.place r.key r.size).any (cellLost s r.place)
    acquired r.acq (
      if r.kind == .lwt then
        let t := plLtype r.place
        let v := latResult t (r.op == 1) (cellGet s r.place r.key)
        poisonRead p bad (updCtx p (pendPart r 0 v (bad || r.bad)) (dropReq p k s))
      else deliver p k r (lineNow s r.key) bad s)

/-- A load served at its home L2 (R205): lease, jump, and a copy on its way to the core (R208). -/
def serveLoad (p k : Nat) (r : GReq) (s : State) : State :=
  let core := coreOf p
  let line := r.key / 64
  let l := l2Get s r.home line
  let lease : Stamp := (getCore s core).lease.setWidth 24
  let rts := serMax (serMax l.rts (l.wts + lease)) (r.pts + lease)
  let bad := keyBad s r.place r.key
  let v := lineNow s r.key
  let s1 := dropUnkept r.place r.home line (l2Set r.home line { l with rts := rts } s)
  deliver p k r v bad (jumpPts core l.wts (updCore core (fun c => { c with
    fills := c.fills ++ [⟨r.home, line, ⟨true, v, l.wts, rts, bad⟩⟩] }) s1))

/-- A COH 1 page: ownership is asked for (R234). -/
def needsOwner (w : Word) : Bool := plTier w == 2 && plCoh w == 1

/-- The page of a request was recalled after the request issued (R235): the request waits until the page is mapped again,
and takes the new translation; a write waits for the ownership of a page mapped with COH 1 (R234). (DEDUCED, log 80.) -/
def retarget (p k : Nat) (r : GReq) (s : State) : State :=
  let a : Access := if writes r then .write else .read
  match translate s p r.va a with
  | .ok e =>
    if a == .write && needsOwner e.place then s else
    let z := placeOf s e.place (dieOf p) (physAddr e r.va)
    let key := if r.kind == .lwt || r.kind == .ljn then cellOf e.place z.1 else z.1
    updCtx p (fun c => { c with reqs := c.reqs.set k { r with place := e.place, key := key, home := z.2, lost := false } }) s
  | _ => s

/-- A prefetch into the home L2 is performed as a load of the line is, as far as its home (R233, R311, R354). -/
def prefetchHome (p k : Nat) (r : GReq) (s : State) : State :=
  if grantHolds s r.place r.key false then askRecall (r.key % 2 ^ 52 / 2 ^ 16) s
  else if farWaits s r.place r.home r.key then s
  else
    let z := reachLine (coreOf p) r.home r.place r.key false s
    if z.2 then dropReq p k (dropUnkept r.place r.home (r.key / 64) z.1) else z.1

/-- GLOBAL_LOAD_PERFORM (R205): request `k` is served from a copy that has not expired, or at its home; where its line
is not in the home L2, its block is asked for.  A prefetch waits for no other access (R354). -/
def doLoadPerform (p k : Nat) (s : State) : State :=
  let c := getCtx s p
  match c.reqs[k]? with
  | none => s
  | some r =>
    let core := coreOf p
    if 512 ≤ p || !(r.kind == .load || r.kind == .lwt || r.kind == .pf) || (r.kind != .pf && loadWaits (earlier c k r) r) then s
    else if r.lost then retarget p k r s
    else if r.kind == .pf && r.op == 1 then prefetchHome p k r s
    else if plLtype r.place != 0 then latticeLoad p k r s
    else if grantHolds s r.place r.key false then askRecall (r.key % 2 ^ 52 / 2 ^ 16) s
    else if farWaits s r.place r.home r.key then s
    else if !timed r.place then deliver p k r (lineNow s r.key) (keyBad s r.place r.key) (acquired r.acq s)
    else
      let copy := lcGet s core (r.key / 64)
      if copy.here && serLe (getCore s core).pts copy.rts then deliver p k r copy.data copy.bad s
      else
        let z := reachLine core r.home r.place r.key false
          (updCore core (fun x => { x with lcache := smErase x.lcache (r.key / 64) }) s)
        if z.2 then serveLoad p k r z.1 else z.1

/-- The value that `gam` leaves, where it writes (R349). -/
def gamNew (op : Nat) (old v w : Word) : Option Word :=
  match op with
  | 0 => some (old + v)
  | 1 => some (if old.toInt ≤ v.toInt then old else v)
  | 2 => some (if v.toInt ≤ old.toInt then old else v)
  | 3 => some (old &&& v)
  | 4 => some (old ||| v)
  | 5 => some v
  | _ => if old = v then some w else none

/-- The launch whose writes a context's are (a handler's are those of the launch it serves). -/
def seqOfCtx (s : State) (p : Nat) : Option Nat := some (getCtx s p).lseq

/-- Request `k` is performed: it waits for its acknowledgement with the line and stamp its home returns (R206). -/
def markDone (p k : Nat) (r : GReq) (t : Stamp) (s : State) : State :=
  updCtx p (fun c => { c with reqs := c.reqs.set k { r with done := true, data := lineNow s r.key, wts := t } }) s

/-- The word that a request names in its line. -/
def reqWord (s : State) (r : GReq) : Word := BitVec.ofNat 64 (rdNat s.mem r.key 8)

/-- The homes and keys at which a write of a request is made: those of every copy, where the page has become a read replica
since the request issued (R190, R230). -/
def reqHomes (s : State) (r : GReq) : List (Nat × Nat) :=
  if plRepl r.place = 2 then
    (copiesAt r.place).map (fun d => (homeDie s r.place d (r.key % 2 ^ 52), placeKey r.place d (r.key % 2 ^ 52)))
  else [(r.home, r.key)]

/-- A store or atomic performed on a line whose home keeps it in its L2 (`stamped`), or on a peer or host line. -/
def performAt (p k : Nat) (r : GReq) (stamped : Bool) (s : State) : State :=
  let seq := seqOfCtx s p
  let line := r.key / 64
  let t := if stamped then stampWrite s r.home line r.pts else r.pts
  let put := fun (size v : Nat) (bad : Bool) (z : State) => (reqHomes s r).foldl (fun y h =>
    if stamped then writeStamped seq r.place h.1 h.2 size v bad r.pts (takeLine r.place h.1 h.2 y)
    else writeHome seq r.place h.1 h.2 size v bad y) z
  if r.kind == .gam then
    let old := reqWord s r
    let bad := keyBad s r.place r.key
    match gamNew r.op old (r.data.setWidth 64) r.arg with
    | none => deliver p k r (lineNow s r.key) bad (acquired r.acq s)
    | some n =>
      let s1 := poisonRead p bad (updCtx p (pendPart r 0 old.toNat bad) (put 8 n.toNat (bad || r.bad) s))
      markDone p k r t s1
  else markDone p k r t (put r.size (bitsOf r.data.toNat (8 * (r.key % 64)) (8 * r.size)) r.bad s)

/-- An earlier write of the context to the line is not acknowledged: acknowledgements of one line come in the order of its
writes, so that a load finds the latest (R195, R196). -/
def ackWaits (earlier : List GReq) (r : GReq) : Bool :=
  earlier.any (fun e => (e.kind == .store || e.kind == .gam) && e.key / 64 == r.key / 64)

/-- The atomic would write nothing as its word stands: it is a load (R349). -/
def failsNow (s : State) (r : GReq) : Bool :=
  r.kind == .gam && (gamNew r.op (reqWord s r) (r.data.setWidth 64) r.arg).isNone

/-- GLOBAL_STORE_PERFORM (R206, R219, R349): request `k` is written at its point of coherence.  Atomics and joins to a
page under restripe wait for the commit (R190); a join to a cell being rebuilt is gathered with it (R224); an atomic that
writes nothing waits, as a load, for the context's earlier writes of its line to be acknowledged (R195). -/
def doStorePerform (p k : Nat) (s : State) : State :=
  let c := getCtx s p
  match c.reqs[k]? with
  | none => s
  | some r =>
    let core := coreOf p
    if !writes r || r.done || storeWaits (earlier c k r) r then s
    else if r.lost then retarget p k r s
    else if r.kind != .store && restriping s r.place r.key then s
    else if r.kind == .ljn && cellWaits s r.place r.key then s
    else if r.kind == .ljn then dropReq p k (cellJoin r.place r.key (bitsOf r.data.toNat 0 (8 * r.size)) none s)
    else if grantHolds s r.place r.key true then askRecall (r.key % 2 ^ 52 / 2 ^ 16) s
    else if farWaits s r.place r.home r.key then s
    else if failsNow s r && ackWaits (c.reqs.take k) r then s
    else if !timed r.place then performAt p k r false s
    else
      let z := reachLine core r.home r.place r.key r.again s
      if !z.2 then z.1
      else if failsNow s r then serveLoad p k r z.1
      else (reqHomes s r).foldl (fun t h => dropWritten r.place h.1 (h.2 / 64) t) (performAt p k r true z.1)

/-- STORE_ACK (R196, R206): the core's copy takes what the home returned, and the writer's pts jumps. -/
def doStoreAck (p k : Nat) (s : State) : State :=
  match (getCtx s p).reqs[k]? with
  | none => s
  | some r =>
    if !r.done || ackWaits ((getCtx s p).reqs.take k) r then s
    else
      let core := coreOf p
      let line := r.key / 64
      let s1 := if timed r.place && (lcGet s core line).here then
          lcSet core line ⟨true, r.data, r.wts, r.wts, keyBad s r.place r.key⟩ s else s
      dropReq p k (acquired (r.acq && !timed r.place) (jumpPts core r.wts s1))

/-- INTERLOCK_DATA_ARRIVAL (R32, R33): the data of pending destination `k` are complete, and are written once no
exposed-latency result for the register is in flight.  Of two interlocked operations of one group that name one register each
writes as its data come, so that the later arrival stands (DESIGN CHOICE, log 107). (DEDUCED, log 12.) -/
def doDataArrival (p k : Nat) (s : State) : State :=
  let c := getCtx s p
  match c.pend[k]? with
  | none => s
  | some e =>
    if e.left = 0 && !isLanding c e.dest then
      setCtx p (regWrite { c with pend := c.pend.eraseIdx k } e.dest e.value e.mask e.bad) s
    else s

/-! ### The side log (R183, R295) -/

/-- Side-log entries of a context. -/
def sideOf (s : State) (p : Nat) : List SideEntry := (getCore s (coreOf p)).slog.filter (fun e => e.pos == p)

/-- The bytes that a side-log entry may write: of a vector join, those of the 64-byte block that holds its cell. -/
def sideSpan (e : SideEntry) : Nat × Nat := if e.kind == .ljn && e.size == 64 then (e.va.toNat / 64 * 64, 64) else (e.va.toNat, e.size)

/-- A load overlaps an entry of the context's side log. -/
def sideMeets (s : State) (p : Nat) (va : Word) (size : Nat) : Bool :=
  (sideOf s p).any (fun e => decide ((sideSpan e).1 < va.toNat + size) && decide (va.toNat < (sideSpan e).1 + (sideSpan e).2))

/-- The checks on a write whose page is present, in the order of R347: a cause, or none. (DEDUCED, log 31.) -/
def writeCause (w : Word) (kind : GKind) (size : Nat) (vec bad : Bool) (va : Word) (slot : Nat) : Option Cause :=
  let e := fun n => some { plainCause n slot with addr := va, place := w, access := 2 }
  if plRepl w = 2 then e 0x22
  else if plLtype w = 0 then (if kind == .ljn then e 0x31 else none)
  else match kind with
    | .gam => e 0x22
    | .ljn => if !vec && cellSize (plLtype w) != 8 then e 0x31 else if bad then e 0x32 else none
    | _ => if size = 8 && cellSize (plLtype w) != 8 then e 0x31 else if bad then e 0x32 else none

/-- The kind of access of a write. -/
def writeAccess : GKind → Access
  | .ljn => .join
  | _ => .write

/-- What the replay of an entry comes to: it waits, meets a cause, or may be made with this extent. -/
inductive Replay where
  | waits
  | cause (e : Cause)
  | go (e : Extent)

/-- The entry's replay as the context's extents stand (R183). -/
def replayOf (s : State) (e : SideEntry) : Replay :=
  match translate s e.pos e.va (writeAccess e.kind) with
  | .absent _ => .waits
  | .fault code place => if bySched code then .waits else .cause { plainCause code 11 with addr := e.va, place := place, access := 2 }
  | .ok x => match writeCause x.place e.kind e.size (e.size == 64) e.bad e.va 11 with
    | some c => .cause c
    | none =>
      if needsOwner x.place || (e.kind != .store && restriping s x.place (physAddr x e.va)) then .waits else .go x

/-- The entry as a request of its context. -/
def replayReq (s : State) (e : SideEntry) (x : Extent) : GReq :=
  let k := placeOf s x.place (dieOf e.pos) (physAddr x e.va)
  { kind := e.kind, id := e.id, va := e.va, key := k.1, home := k.2, place := x.place, size := e.size,
    data := e.data, bad := e.bad, op := e.op, arg := e.arg, dest := e.dest, lane := 0, acq := e.acq, scope := e.scope,
    pts := (getCore s (coreOf e.pos)).pts, done := false, wts := 0, again := true, lost := false }

/-- The entries of the core's side log that are first of their context and have met no cause. -/
def replayable (l : List SideEntry) : List Nat :=
  (List.range l.length).filter (fun i => match l[i]? with
    | some e => e.cause.isNone && !(l.take i).any (fun d => d.pos == e.pos)
    | none => false)

/-- An entry leaves the side log. -/
def dropSide (core i : Nat) (s : State) : State := updCore core (fun k => { k with slog := k.slog.eraseIdx i }) s

/-- A replayed plain lattice store (R183, R218): its check is made now, for each entry of a 256-byte store by itself.
(DESIGN CHOICE, log 113.) -/
def replayLattice (core i : Nat) (e : SideEntry) (r : GReq) (s : State) : State :=
  let v := bitsOf r.data.toNat (8 * (r.key % 64)) (8 * r.size)
  let cells := cellsIn r.place r.key r.size
  if cells.any (cellStops s r.place) then s
  else if (getCtx s e.pos).replay || storeRises s r.place r.key r.size v then
    touchExtent e.pos e.va (dropSide core i (cellsJoin r.place r.key r.size v s))
  else
    let cause := { plainCause 0x30 11 with addr := e.va, place := r.place, access := 2, info := BitVec.ofNat 64 (2 ^ 63 + i) }
    updCtx e.pos (fun c => { c with after := c.after ++ [cause] })
      (updCore core (fun k => { k with slog := k.slog.set i { e with cause := some cause } }) s)

/-- SIDE_LOG_REPLAY (R183, R295): the first entry that can be replayed becomes an access of its context again, in entry
order; a fault stops the context's entries and waits for its next group boundary. -/
def doSideReplay (core : Nat) (s : State) : State :=
  let l := (getCore s core).slog
  match (replayable l).find? (fun i => match l[i]? with
      | some e => match replayOf s e with
        | .waits => false
        | _ => true
      | none => false) with
  | none => s
  | some i => match l[i]? with
    | none => s
    | some e => match replayOf s e with
      | .waits => s
      | .cause c0 =>
        let c := { c0 with info := BitVec.ofNat 64 (2 ^ 63 + i) }
        updCtx e.pos (fun z => { z with after := z.after ++ [c] })
          (updCore core (fun k => { k with slog := k.slog.set i { e with cause := some c } }) s)
      | .go x =>
        let r := replayReq s e x
        if plLtype r.place != 0 && e.kind == .store then replayLattice core i e r s
        else touchExtent e.pos e.va (updCtx e.pos (fun c => { c with reqs := c.reqs ++ [if e.kind == .ljn then
            { r with key := cellOf r.place r.key, size := if e.size = 64 then cellSize (plLtype r.place) else 8 } else r] })
          (dropSide core i s))

/-! ### Issue of the GM slot -/

/-- The address of a GM operation with its low bits cleared (R174). -/
def gmAddr (c : Ctx) (a : BitVec 4) (size : Nat) : Word :=
  BitVec.ofNat 64 ((regWord c (aReg a.toNat)).toNat / size * size)

/-- A GM operation as far as its slot, address and post-update go; later accesses wait for an acquire (R193). -/
def gmBase (g : BitVec 3) (a m : BitVec 4) (p : Nat) (s : State) : OpSem :=
  let c := getCtx s p
  { opBase c 11 g with
    reads := memReads a.toNat m.toNat
    res := postUpdate c a.toNat m.toNat
    blocks := acquiring s p }

/-- Earlier accesses that a release waits for: those in flight, loads whose data stand with a pending destination, and those in
the side log (R193, R228). -/
def releasing (s : State) (p : Nat) : Bool :=
  (getCtx s p).reqs.any (fun r => r.kind != .pf) || !(openLoads (getCtx s p)).isEmpty || !(sideOf s p).isEmpty

/-- The cause of a load's address (Table 10-3). -/
def loadCause (va : Word) (x : XlOut) : Option Cause :=
  match x with
  | .ok _ => none
  | .absent _ => some { plainCause 0x10 11 with addr := va, access := 1 }
  | .fault code place => some { plainCause code 11 with addr := va, place := place, access := 1 }

/-- The extent that a translation found. -/
def foundExtent (x : XlOut) : Option Extent :=
  match x with
  | .ok e => some e
  | .absent e => some e
  | .fault _ _ => none

/-- A request for `size` bytes at an address under an extent, as it issues. -/
def reqAt (s : State) (p : Nat) (kind : GKind) (id : Nat) (e : Extent) (va : Word) (size : Nat) : GReq :=
  let k := placeOf s e.place (dieOf p) (physAddr e va)
  { kind := kind, id := id, va := va, key := k.1, home := k.2, place := e.place, size := size, data := 0, bad := false,
    op := 0, arg := 0, dest := none, lane := 0, acq := false, scope := 5, pts := (getCore s (coreOf p)).pts, done := false,
    wts := 0, again := false, lost := false }

/-- Requests join those in flight. -/
def addReqs (p : Nat) (rs : List GReq) (s : State) : State := updCtx p (fun c => { c with reqs := c.reqs ++ rs }) s

/-- The bytes that a size code moves (R174). -/
def gmSize (z : BitVec 2) : Nat := if z = 0 then 8 else if z = 1 then 64 else 256

/-- `gld` (R352): one request a line (`arg` is their number), the destination pending until all have been performed. -/
def semGld (g : BitVec 3) (r : BitVec 4) (f : BitVec 3) (a m : BitVec 4) (sc : BitVec 3) (o z : BitVec 2) (p : Nat) (s : State) : OpSem :=
  let c := getCtx s p
  let size := gmSize z
  let va := gmAddr c a size
  let x := translate s p va .read
  let b := gmBase g a m p s
  let d := physReg c (fileOfCode f.toNat) r.toNat
  { b with
    ilocks := [d]
    cause := if seen c [aReg a.toNat] then loadCause va x else none
    blocks := b.blocks || sideMeets s p va size || (match foundExtent x with
      | some e => farSpan s p e va size
      | none => false)
    effect := fun t => match foundExtent x with
      | none => t
      | some e =>
        let id := (getCtx t p).nextId
        let n := if size = 256 then 4 else 1
        let part := Nat.min size 64
        let rs := (List.range n).map (fun i =>
          { reqAt t p .load id e (va + BitVec.ofNat 64 (64 * i)) part with
            dest := some d, arg := BitVec.ofNat 64 n, lane := i, acq := o == 1, scope := sc.toNat, bad := anyBad c b.reads })
        touchExtent p va (addReqs p rs (addPend p d fullMask id n 0 false (takeId p t))) }

/-- The side-log entries that a write makes, one a line. -/
def sideEntries (p : Nat) (kind : GKind) (id : Nat) (va : Word) (size : Nat) (v : Nat) (bad : Bool) (op : Nat) (arg : Word)
    (d : Option Reg) (acq : Bool) (sc : Nat) : List SideEntry :=
  (List.range (if size = 256 then 4 else 1)).map (fun i =>
    let a := va + BitVec.ofNat 64 (64 * i)
    let part := Nat.min size 64
    let off := if kind == .store then a.toNat % 64 else 0
    { pos := p, kind := kind, id := id, va := a, size := part,
      data := BitVec.ofNat 512 (bitsOf v (512 * i) (8 * part) <<< (8 * off)), bad := bad, op := op, arg := arg, dest := d,
      acq := acq, scope := sc, cause := none })

/-- Where a write goes: its cause, into the side log, or to memory under an extent (R183, R347). -/
inductive WriteWay where
  | cause (e : Cause)
  | log
  | go (e : Extent)

/-- The way of a write of `n` entries. -/
def writeWay (s : State) (p : Nat) (kind : GKind) (va : Word) (size : Nat) (vec bad : Bool) : WriteWay :=
  let room := fun (_ : Unit) =>
    if Config.queueEntries < (getCore s (coreOf p)).slog.length + (if size = 256 then 4 else 1) then
      WriteWay.cause { plainCause 0x13 11 with addr := va, access := 2 } else .log
  match translate s p va (writeAccess kind) with
  | .absent _ => room ()
  | .fault code place => .cause { plainCause code 11 with addr := va, place := place, access := 2 }
  | .ok e => match writeCause e.place kind size vec bad va 11 with
    | some c => .cause c
    | none =>
      if !(sideOf s p).isEmpty then room ()
      else if needsOwner e.place then .cause { plainCause 0x14 11 with addr := va, place := e.place, access := 2 }
      else .go e

/-- A write of the GM slot: `v` its data, `d` the destination of an atomic. (DESIGN CHOICE, log 30.) -/
def semWrite (g : BitVec 3) (a m : BitVec 4) (kind : GKind) (size : Nat) (vec : Bool) (v : Nat) (rs : List Reg) (d : Option Reg)
    (op : Nat) (arg : Word) (rel acq : Bool) (sc : Nat) (p : Nat) (s : State) : OpSem :=
  let c := getCtx s p
  let va := gmAddr c a (if kind == .ljn then 8 else size)
  let b := gmBase g a m p s
  let bad := anyBad c (rs ++ b.reads)
  let way := writeWay s p kind va size vec (bad && seen c (rs ++ b.reads))
  let key := fun (e : Extent) => (placeOf s e.place (dieOf p) (physAddr e va)).1
  let plain := fun (e : Extent) => kind == .store && plLtype e.place != 0
  { b with
    reads := rs ++ b.reads
    ilocks := d.toList
    cause := if !seen c [aReg a.toNat] then none else match way with
      | .cause e => some e
      | .log => none
      | .go e =>
        if plain e && !c.replay && seen c rs && !(cellsIn e.place (key e) size).any (cellStops s e.place)
            && !storeRises s e.place (key e) size v then
          some { plainCause 0x30 11 with addr := va, place := e.place, access := 2 }
        else none
    blocks := b.blocks || (rel && releasing s p) || (match way with
      | .go e => farSpan s p e va size || plain e && ((cellsIn e.place (key e) size).any (cellStops s e.place)
          || c.reqs.any (fun r => r.kind == .ljn && !r.done && r.key < key e + size && key e < r.key + r.size))
      | _ => false)
    held := match way with
      | .go e => plain e && (cellsIn e.place (key e) size).any (cellWaits s e.place)
      | _ => false
    effect := fun t =>
      let id := (getCtx t p).nextId
      let t1 := match d with
        | some q => addPend p q fullMask id 1 0 bad (takeId p t)
        | none => t
      match way with
      | .cause _ => t
      | .log => updCore (coreOf p) (fun k => { k with
          slog := k.slog ++ sideEntries p kind id va size v bad op arg d acq sc }) t1
      | .go e =>
        if plain e then touchExtent p va (cellsJoin e.place (key e) size v t1)
        else
          let q := reqAt t1 p kind id e va (Nat.min size 64)
          let one := { q with bad := bad, op := op, arg := arg, dest := d, acq := acq, scope := sc }
          touchExtent p va (addReqs p (match kind with
            | .ljn => [{ one with key := cellOf e.place q.key, size := if vec then cellSize (plLtype e.place) else 8, data := BitVec.ofNat 512 v }]
            | .gam => [{ one with data := BitVec.ofNat 512 v }]
            | _ => (List.range (if size = 256 then 4 else 1)).map (fun i =>
                let z := reqAt t1 p kind id e (va + BitVec.ofNat 64 (64 * i)) (Nat.min size 64)
                { z with bad := bad, scope := sc, data := BitVec.ofNat 512 (bitsOf v (512 * i) (8 * z.size) <<< (8 * (z.key % 64))) })) t1) }

/-- `gst` (R355); on a lattice page a plain lattice store (R218). -/
def semGst (g : BitVec 3) (r : BitVec 4) (f : BitVec 3) (a m : BitVec 4) (sc : BitVec 3) (o z : BitVec 2) (p : Nat) (s : State) : OpSem :=
  let c := getCtx s p
  let q := physReg c (fileOfCode f.toNat) r.toNat
  semWrite g a m .store (gmSize z) false (regGet c q).toNat [q] none 0 0 (o == 2) false sc.toNat p s

/-- `gam` (R349). -/
def semGam (g : BitVec 3) (r : BitVec 4) (f : BitVec 3) (a m : BitVec 4) (sc : BitVec 3) (o : BitVec 2) (n : BitVec 3) (p : Nat)
    (s : State) : OpSem :=
  let c := getCtx s p
  let q := physReg c (fileOfCode f.toNat) r.toNat
  let w := physReg c (fileOfCode f.toNat) (r.toNat + 1)
  semWrite g a m .gam 8 false (regWord c q).toNat (if n = 6 then [q, w] else [q]) (some q) n.toNat (regWord c w)
    (o == 2 || o == 3) (o == 1 || o == 3) sc.toNat p s

/-- `ljn` (R219, R361). -/
def semLjn (g : BitVec 3) (r : BitVec 4) (f : BitVec 3) (a m : BitVec 4) (p : Nat) (s : State) : OpSem :=
  let c := getCtx s p
  let q := physReg c (fileOfCode f.toNat) r.toNat
  let vec : Bool := f.toNat ≤ 2
  let v := regGet c q
  semWrite g a m .ljn (if vec then 64 else 8) vec (if vec then bitsOf v.toNat 0 512 else bitsOf v.toNat 0 64) [q] none 0 0 false false 5 p s

/-- `lwt` (R220, R364): the group blocks until the local replica passes the milestone; one load follows.  A cell on a failed channel
passes by the bytes last held there. (DESIGN CHOICE, log 93.) -/
def semLwt (g : BitVec 3) (r : BitVec 4) (f : BitVec 3) (a m : BitVec 4) (o : BitVec 2) (p : Nat) (s : State) : OpSem :=
  let c := getCtx s p
  let b := gmBase g a m p s
  let va := gmAddr c a 8
  let q := physReg c (fileOfCode f.toNat) r.toNat
  let vec : Bool := f.toNat ≤ 2
  let x := translate s p va .wait
  let cell := fun (e : Extent) => cellOf e.place (placeOf s e.place (dieOf p) (physAddr e va)).1
  let at_ := seen c [aReg a.toNat]
  let base := { b with reads := q :: b.reads, ilocks := [q] }
  match x with
  | .ok e =>
    if plLtype e.place = 0 then { base with cause := if !at_ then none else some { plainCause 0x31 11 with addr := va, place := e.place, access := 1 } }
    else { base with
      blocks := b.blocks || cellStops s e.place (cell e) || sideMeets s p va 8
        || !latPasses (plLtype e.place) vec (cellGet s e.place (cell e)) (regGet c q).toNat
      held := cellWaits s e.place (cell e)
      effect := fun t =>
        let id := (getCtx t p).nextId
        let z := reqAt t p .lwt id e va (cellSize (plLtype e.place))
        let one := { z with
          key := cellOf e.place z.key, op := vec.toNat, dest := some q, acq := o == 1, scope := 3, bad := anyBad c (q :: b.reads) }
        touchExtent p va (addReqs p [one]
          (addPend p q fullMask id 1 0 false (takeId p t))) }
  | _ => { base with cause := if at_ then loadCause va x else none }

/-- The extent through which a prefetch or a drop reaches its line: none outside the extents, on an absent one or, for
a prefetch, where R lacks (R351, R354). -/
def quietExtent (s : State) (p : Nat) (va : Word) : Option Extent :=
  match extentAt (getCtx s (extOwner s p)).extents va with
  | some e => if e.absent then none else some e
  | none => none

/-- `gpf` (R354): a request that is no access for ordering, for the line cache (target 0) or the home L2 (target 1).  It is
dropped in the cases that R354 names, and where there is nothing to bring in: for the line cache a lattice line (R214), and for
either target a line that no home L2 takes (Table 14-3). -/
def semGpf (g : BitVec 3) (a m : BitVec 4) (t : BitVec 2) (p : Nat) (s : State) : OpSem :=
  let c := getCtx s p
  let va := gmAddr c a 64
  { gmBase g a m p s with
    blocks := false
    effect := fun z => match quietExtent s p va with
      | none => z
      | some e =>
        let r := { reqAt z p .pf 0 e va 64 with op := t.toNat }
        if !grantsAt z p e va .read || !timed e.place || (t == 0 && plLtype e.place != 0) then z else addReqs p [r] z }

/-- `gcb` (R351): copies of the core's line cache are dropped, for both contexts. -/
def semGcb (g : BitVec 3) (a m : BitVec 4) (t : BitVec 2) (p : Nat) (s : State) : OpSem :=
  let c := getCtx s p
  let va := gmAddr c a 64
  { gmBase g a m p s with
    reads := if t = 1 then [] else memReads a.toNat m.toNat
    blocks := false
    effect := fun z =>
      if t = 1 then lcClear (coreOf p) z
      else match quietExtent s p va with
        | none => z
        | some e => lcDrop (coreOf p) ((placeOf s e.place (dieOf p) (physAddr e va)).1 / 64) z }

/-! ### The HBM calendar and the caches' own steps (R175, R178, R202 to R208, R227) -/

/-- The burst that a slot serves: its owner's, else of the bulk traffic that of the core next in turn after the one served
last (R178). -/
def slotBurst (s : State) (stack chan slot : Nat) : Option Nat :=
  let at_ := fun (b : Burst) => b.stack == stack && b.chan == chan && !b.served
  match s.bursts.findIdx? (fun b => at_ b && !b.bulk && b.core % 64 == slot && coreLive s b.core) with
  | some i => some i
  | none =>
    let last := smGet 0 s.lent (32 * stack + chan)
    let turn := fun (b : Burst) => (b.core + 255 - last) % 256
    (s.bursts.zipIdx.filter (fun e => at_ e.1 && e.1.bulk)).foldl (fun (o : Option (Nat × Nat)) e => match o with
      | none => some (e.2, turn e.1)
      | some x => if turn e.1 < x.2 then some (e.2, turn e.1) else some x) none |>.map (·.1)

/-- HBM_CALENDAR_SLOT (R178): a slot of a live channel passes; a stack in thermal hold serves nothing (R297). -/
def doCalendarSlot (stack chan slot : Nat) (s : State) : State :=
  if !chanLive s stack chan then s
  else
    let s1 := { s with slots := smSet 0 s.slots (32 * stack + chan) ((slot + 1) % 64) }
    if s.holds.contains stack then s1
    else match slotBurst s stack chan slot with
      | none => s1
      | some i => match s.bursts[i]? with
        | some b => { s1 with
            bursts := s.bursts.set i { b with served := true }
            lent := if b.bulk then smSet 0 s.lent (32 * stack + chan) b.core else s.lent }
        | none => s1

/-- The lines that a burst brings into the L2: the four of its block, or the one of a page that no L2 keeps (R178, R187). -/
def burstLines (b : Burst) : List Nat :=
  match b.use with
  | .line l => [l]
  | .block _ => [0, 1, 2, 3].map (4 * b.block + ·)
  | _ => []

/-- HBM_DATA_RETURN (R178): the data of burst `k` enter the L2; a copy of a restripe or a writeback has been made. -/
def doDataReturn (k : Nat) (s : State) : State :=
  match s.bursts[k]? with
  | none => s
  | some b =>
    if !b.served then s
    else (burstLines b).foldl (fun t l => enterL2 b.die l (some (b.stack, b.chan)) (b.use == .block true) t) { s with bursts := s.bursts.eraseIdx k }

/-- L2_EVICTION (R175, R202): MTS takes the line's rts; an HBM line falls to the memory-side cache of its stack. -/
def doL2Eviction (die line : Nat) (s : State) : State := leaveL2 die line true s

/-- PTS_TICK (R204): every live core's pts rises by one. -/
def doPtsTick (s : State) : State :=
  let s1 := { s with ticks := (s.ticks + 1) % 2 ^ 20 }
  (liveCores s1).foldl (fun t k => updCore k (fun c => { c with pts := c.pts + 1 }) t) s1

/-- PTS_WINDOW_RAISE (R207): every live core's pts is raised to at least the largest less 2^20. -/
def doWindowRaise (s : State) : State :=
  match ptsSpan s with
  | none => s
  | some (top, _) => (liveCores s).foldl (fun t k => jumpPts k (top - 0x100000) t) s

/-- Stamps that wait with a launch, a request, an engine, a barrier or a fill rise to the floor too, so that none leaves the
window in which stamps compare (R203, R207). (DESIGN CHOICE, log 95.) -/
def raiseKept (fl : Stamp) (s : State) : State :=
  { s with
    launches := s.launches.map (fun l => { l with ptsFloor := serMax fl l.ptsFloor })
    ctxs := smMap {} (fun _ c => { c with
      ceWts := c.ceWts.map (serMax fl)
      xlWts := c.xlWts.map (serMax fl)
      reqs := c.reqs.map (fun r => { r with pts := serMax fl r.pts, wts := serMax fl r.wts }) }) s.ctxs
    clusters := smMap {} (fun _ k => { k with
      parts := k.parts.map (fun e => (e.1, e.2.map (fun a => (a.1, serMax fl a.2)))) }) s.clusters
    cores := smMap {} (fun _ k => { k with
      fills := k.fills.map (fun f => { f with copy := { f.copy with rts := serMax fl f.copy.rts } }) }) s.cores }

/-- TIMESTAMP_SWEEP (R207): the die's lines and MTS are raised to the floor, the least pts less 2^21. -/
def doSweep (die : Nat) (s : State) : State :=
  match ptsSpan s with
  | none => s
  | some (_, low) =>
    let fl := low - 0x200000
    raiseKept fl <| updDie die (fun d => { d with
      mts := serMax fl d.mts
      l2 := d.l2.map (fun e => (e.1, { e.2 with wts := serMax fl e.2.wts, rts := serMax fl e.2.rts })) }) s

/-- LINE_CACHE_EXPIRY_DROP (R207): a core drops every copy whose rts is below its pts. -/
def doExpiryDrop (core : Nat) (s : State) : State :=
  updCore core (fun k => { k with lcache := k.lcache.filter (fun e => serLe k.pts e.2.rts) }) s

/-- `exec` of `.gld`. -/
def execGld (g : BitVec 3) (r : BitVec 4) (f : BitVec 3) (a : BitVec 4) (m : BitVec 4) (c : BitVec 3) (o : BitVec 2) (z : BitVec 2) (s : State) : Host.Outcome State Fault Refusal :=
  issueSolo (.gld g r f a m c o z) (semGld g r f a m c o z s.cur s) s
/-- `exec` of `.gst`. -/
def execGst (g : BitVec 3) (r : BitVec 4) (f : BitVec 3) (a : BitVec 4) (m : BitVec 4) (c : BitVec 3) (o : BitVec 2) (z : BitVec 2) (s : State) : Host.Outcome State Fault Refusal :=
  issueSolo (.gst g r f a m c o z) (semGst g r f a m c o z s.cur s) s
/-- `exec` of `.gam`. -/
def execGam (g : BitVec 3) (r : BitVec 4) (f : BitVec 3) (a : BitVec 4) (m : BitVec 4) (c : BitVec 3) (o : BitVec 2) (n : BitVec 3) (s : State) : Host.Outcome State Fault Refusal :=
  issueSolo (.gam g r f a m c o n) (semGam g r f a m c o n s.cur s) s
/-- `exec` of `.ljn`. -/
def execLjn (g : BitVec 3) (r : BitVec 4) (f : BitVec 3) (a : BitVec 4) (m : BitVec 4) (s : State) : Host.Outcome State Fault Refusal :=
  issueSolo (.ljn g r f a m) (semLjn g r f a m s.cur s) s
/-- `exec` of `.lwt`. -/
def execLwt (g : BitVec 3) (r : BitVec 4) (f : BitVec 3) (a : BitVec 4) (m : BitVec 4) (o : BitVec 2) (s : State) : Host.Outcome State Fault Refusal :=
  issueSolo (.lwt g r f a m o) (semLwt g r f a m o s.cur s) s
/-- `exec` of `.gpf`. -/
def execGpf (g : BitVec 3) (a : BitVec 4) (m : BitVec 4) (t : BitVec 2) (s : State) : Host.Outcome State Fault Refusal :=
  issueSolo (.gpf g a m t) (semGpf g a m t s.cur s) s
/-- `exec` of `.gcb`. -/
def execGcb (g : BitVec 3) (a : BitVec 4) (m : BitVec 4) (t : BitVec 2) (s : State) : Host.Outcome State Fault Refusal :=
  issueSolo (.gcb g a m t) (semGcb g a m t s.cur s) s
/-- `exec` of `.globalLoadPerform`. -/
def execGlobalLoadPerform (p k : Nat) (s : State) : Host.Outcome State Fault Refusal := .next (doLoadPerform p k s)
/-- `exec` of `.globalStorePerform`. -/
def execGlobalStorePerform (p k : Nat) (s : State) : Host.Outcome State Fault Refusal := .next (doStorePerform p k s)
/-- `exec` of `.storeAck`. -/
def execStoreAck (p k : Nat) (s : State) : Host.Outcome State Fault Refusal := .next (doStoreAck p k s)
/-- `exec` of `.interlockDataArrival`. -/
def execInterlockDataArrival (p k : Nat) (s : State) : Host.Outcome State Fault Refusal := .next (doDataArrival p k s)
/-- `exec` of `.sideLogReplay`. -/
def execSideLogReplay (core : Nat) (s : State) : Host.Outcome State Fault Refusal := .next (doSideReplay core s)
/-- `exec` of `.hbmCalendarSlot`. -/
def execHbmCalendarSlot (stack chan slot : Nat) (s : State) : Host.Outcome State Fault Refusal := .next (doCalendarSlot stack chan slot s)
/-- `exec` of `.hbmDataReturn`. -/
def execHbmDataReturn (k : Nat) (s : State) : Host.Outcome State Fault Refusal := .next (doDataReturn k s)
/-- `exec` of `.l2Eviction`. -/
def execL2Eviction (die line : Nat) (s : State) : Host.Outcome State Fault Refusal := .next (doL2Eviction die line s)
/-- `exec` of `.ptsTick`. -/
def execPtsTick (s : State) : Host.Outcome State Fault Refusal := .next (doPtsTick s)
/-- `exec` of `.ptsWindowRaise`. -/
def execPtsWindowRaise (s : State) : Host.Outcome State Fault Refusal := .next (doWindowRaise s)
/-- `exec` of `.timestampSweep`. -/
def execTimestampSweep (die : Nat) (s : State) : Host.Outcome State Fault Refusal := .next (doSweep die s)
/-- `exec` of `.lineCacheExpiryDrop`. -/
def execLineCacheExpiryDrop (core : Nat) (s : State) : Host.Outcome State Fault Refusal := .next (doExpiryDrop core s)

end Sys2Proof.Machine
end

