-- ==== Sys2Proof/Machine/Xlate.lean ====
section
/-! DEFINITION. The slot XL, page-table walks, and the invalidation of translations (R182, R184 to R187, R212, R232,
R418, R419, R427). -/

namespace Sys2Proof.Machine

/-! ### Page tables (R185 to R187) -/

/-- How a walk ends: at an entry that is not present, at a leaf, or at an entry that breaks R186 or R187. -/
inductive WalkKind where
  | absent | leaf | broken
  deriving DecidableEq, Repr

/-- The last entry that a walk reaches: its frame word, its placement word, the physical address of the entry, and the bytes
that it maps.  The placement word is zero where LEAF is 0, and the entry's own where it is 1, V = 0 or not. (DESIGN CHOICE,
log 97.) -/
structure WalkEnd where
  frame : Word
  place : Word
  addr : Nat
  span : Nat
  kind : WalkKind

/-- ADDR of a frame word. -/
def frameAddr (w : Word) : Nat := bitsOf w.toNat 9 43 * 2 ^ 9

/-- A placement word breaks R187, R212 or R232. -/
def placeBad (s : State) (w : Word) : Bool :=
  let dies := plDies w
  let lt := plLtype w
  let tier := plTier w
  bitsOf w.toNat 0 11 != 0 || plRepl w == 3 || plCache w == 3 || 8 ≤ lt || dies == 0
    || (if tier = 0 then !(List.range 4).all (fun d => bitOf dies d == (diesStacks (plStacks w) d != 0)) else plStacks w != 0)
    || (plChsel w != 3 && plChan w != 0) || (tier != 2 && plDev w != 0)
    || ((lt != 0) != (plRepl w == 1)) || (plRepl w == 2 && tier != 0)
    || (tier == 2 && plCoh w == 0) || (tier ≤ 1 && plCoh w != 0) || (tier == 3 && plCoh w != 3)
    || (lt != 0 && (tier != 0 || dies != 15))
    || (tier == 0 && (setBits 4 dies).any (fun d => (chanList s (copyStacks w d) (plChsel w) (plChan w)).isEmpty))

/-- The lowest index bit and the number of index bits of each level (Table 10-4). -/
def walkLevels : List (Nat × Nat) := [(39, 9), (30, 9), (21, 9), (16, 5)]

/-- A walk from level `n` on, the table of that level at physical address `t`. -/
def walkDown (s : State) (va : Word) : List (Nat × Nat) → Nat → Nat → WalkEnd
  | [], _, _ => ⟨0, 0, 0, 2 ^ 16, .broken⟩
  | (lo, k) :: ls, n, t =>
    let ea := t + 16 * bitsOf va.toNat lo k
    let fw : Word := BitVec.ofNat 64 (rdNat s.mem (memKey 0 ea) 8)
    let pw : Word := BitVec.ofNat 64 (rdNat s.mem (memKey 0 (ea + 8)) 8)
    let leaf := fw.getLsbD 1
    let e : WalkEnd := ⟨fw, if leaf then pw else 0, ea, 2 ^ lo, .absent⟩
    let a := frameAddr fw
    if !fw.getLsbD 0 then e
    else if fw.getLsbD 8 || bitsOf fw.toNat 52 12 != 0 || (leaf && n == 0) || (!leaf && n == 3) then { e with kind := .broken }
    else if leaf then { e with kind := if a % 2 ^ lo != 0 || placeBad s pw then .broken else .leaf }
    else if a % (if n = 2 then 512 else 8192) != 0 then { e with kind := .broken }
    else walkDown s va ls (n + 1) a

/-- The walk of an address in an address space; without a root nothing is present (R185). -/
def walkTable (s : State) (asn : Nat) (va : Word) : WalkEnd :=
  match s.roots.find? (fun r => r.1 == asn) with
  | some r => walkDown s va walkLevels 0 r.2
  | none => ⟨0, 0, 0, 2 ^ 48, .absent⟩

/-- The pages of the entries that a walk reads, from level `ls` on. -/
def walkPages (s : State) (va : Word) : List (Nat × Nat) → Nat → List Nat
  | [], _ => []
  | (lo, k) :: ls, t =>
    let ea := t + 16 * bitsOf va.toNat lo k
    let fw : Word := BitVec.ofNat 64 (rdNat s.mem (memKey 0 ea) 8)
    ea / 2 ^ 16 :: (if fw.getLsbD 0 && !fw.getLsbD 1 then walkPages s va ls (frameAddr fw) else [])

/-- The pages that a walk waits for, owned by another device, or shared where the walk also writes its last entry (R233). -/
def walkBars (s : State) (asn : Nat) (va : Word) (write : Bool) : List Nat :=
  match s.roots.find? (fun r => r.1 == asn) with
  | none => []
  | some r =>
    let ps := walkPages s va walkLevels r.2
    ps.filter (pageGranted s · false) ++ (if write then [ps.getLastD 0].filter (pageGranted s · true) else [])

/-- Recalls of pages are asked for. -/
def askRecalls (ps : List Nat) (s : State) : State := ps.foldl (fun t k => askRecall k t) s

/-- The pages that a read of the device itself waits for: those owned by another device, and those that a write of its own
waits for (R233). -/
def deviceBars (s : State) (ps : List Nat) : List Nat :=
  ps.filter (fun k => pageGranted s k false || s.waiting.any (fun e => e.1 / 2 ^ 16 == k))

/-- A walk that is to set A, or D for a write, finds it clear in a leaf (R186). -/
def setsBit (e : WalkEnd) (write : Bool) : Bool := e.kind == .leaf && !e.frame.getLsbD (if write then 7 else 6)

/-- The larger of two acknowledged stamps. -/
def ackMax (o : Option Stamp) (t : Stamp) : Option Stamp :=
  match o with
  | none => some t
  | some u => some (serMax u t)

/-- The stamp that a write to a line of the page tables takes at its home, which no placement word names: the largest that any
die would give it (R206). (DEDUCED, log 33.) -/
def tableStamp (s : State) (line : Nat) : Stamp :=
  ([0, 1, 2, 3].map (fun d => if (l2Get s d line).here then (l2Get s d line).rts + 1 else (getDie s d).mts + 1)).foldl serMax
    ((getDie s 0).mts + 1)

/-- A walk sets A, for a read or an execute, and D, for a write, by an indivisible update of the entry (R186). -/
def walkMark (e : WalkEnd) (a d : Bool) (s : State) : State :=
  let fw := e.frame ||| (if a then 0x40 else 0) ||| (if d then 0x80 else 0)
  if fw = e.frame then s else deviceWrite e.addr (bytesLE 8 fw.toNat) s

/-- The same by a walk of context `p`, which the update's stamp is acknowledged to (R238). -/
def walkOwn (p : Nat) (e : WalkEnd) (write : Bool) (s : State) : State :=
  if e.frame.getLsbD (if write then 7 else 6) then s
  else updCtx p (fun c => { c with xlWts := ackMax c.xlWts (tableStamp s (e.addr / 64)) }) (walkMark e (!write) write s)

/-- The extent of a leaf's one page or large page (R182); the kinds of the declared ranges that its pages lie in are checked
at each access (R253). (DEDUCED, log 25.) -/
def leafExtent (va : Word) (e : WalkEnd) : Extent :=
  let n := e.span / 2 ^ 16
  { vpn := pageOf va / n * n, pages := n, frame := frameAddr e.frame, place := e.place, perm := e.frame, kinds := 15
    absent := false }

/-- A leaf installed for a context (R182). -/
def installLeaf (o : Nat) (va : Word) (e : WalkEnd) (s : State) : State := installExtent o (leafExtent va e) s

/-! ### Issue of the XL slot -/

/-- `xlt` and `xlp`: the group issues at once, both destinations pending (R182, R419). -/
def semWalk (probe : Bool) (g : BitVec 3) (d : BitVec 5) (a : BitVec 4) (w : BitVec 1) (p : Nat) (s : State) : OpSem :=
  let c := getCtx s p
  let r1 := commonReg d.toNat
  let r2 := commonReg ((d.toNat + 1) % 32)
  { opBase c 12 g with
    reads := [aReg a.toNat]
    ilocks := [r1, r2]
    blocks := remaking s p
    effect := fun t =>
      let id := (getCtx t p).nextId
      let bad := anyBad c [aReg a.toNat]
      updCtx p (fun z => { z with
        walks := z.walks ++ [⟨probe, w == 1, c.pc, regWord c (aReg a.toNat), id, none, t.order⟩] })
        (addPend p r2 fullMask (id + 1) 1 0 bad (addPend p r1 fullMask id 1 0 bad (takeId p (takeId p { t with order := t.order + 1 })))) }

/-- `xlt` (R182). -/
def semXlt (g : BitVec 3) (d : BitVec 5) (a : BitVec 4) (w : BitVec 1) (p : Nat) (s : State) : OpSem := semWalk false g d a w p s
/-- `xlp` (R182). -/
def semXlp (g : BitVec 3) (d : BitVec 5) (a : BitVec 4) (w : BitVec 1) (p : Nat) (s : State) : OpSem := semWalk true g d a w p s

/-- A privilege fault (R279: rank 4). -/
def privCause (slot : Nat) : Cause := ⟨2, 4, slot, 0, 0, 0, 0, 0, 0⟩

/-- `xinv` (R184, R418): privileged; it waits for the context's last one. -/
def semXinv (g : BitVec 3) (a : BitVec 4) (n : BitVec 14) (p : Nat) (s : State) : OpSem :=
  let c := getCtx s p
  { opBase c 12 g with
    reads := [aReg a.toNat]
    cause := if c.sup then none else some (privCause 12)
    blocks := !c.xinvOut.isEmpty
    effect := fun t => updCtx p (fun z => { z with xinvOut := z.xinvOut ++ [(pageOf (regWord c (aReg a.toNat)), n.toNat + 1)] }) t }

/-! ### The walks' own steps -/

/-- A walk's two registers are written in one step, and the walk ends (R419). -/
def endWalk (p k : Nat) (w : Walk) (frame place : Word) (s : State) : State :=
  updCtx p (fun c =>
    let put := fun (z : Ctx) (id : Nat) (v : Word) => match z.pend.find? (fun e => e.id == id) with
      | some e => { regWrite z e.dest (v.setWidth 2048) e.mask e.bad with pend := z.pend.filter (fun x => x.id != id) }
      | none => z
    let c1 := put (put c w.id frame) (w.id + 1) place
    { c1 with walks := c1.walks.eraseIdx k }) s

/-- The walk meets a cause: one of the scheduler's holds it, any other also waits for the next group boundary (R427). -/
def holdWalk (p k : Nat) (w : Walk) (e : Cause) (s : State) : State :=
  updCtx p (fun c => { c with
    walks := c.walks.set k { w with held := some e }
    after := if bySched e.code then c.after else c.after ++ [{ e with info := w.gaddr }] }) s

/-- The walk has to wait for an exposed-latency result to land in one of its registers (R33). -/
def walkBusy (c : Ctx) (w : Walk) : Bool := c.pend.any (fun e => (e.id == w.id || e.id == w.id + 1) && isLanding c e.dest)

/-- Fewer than 128 active walks of the die began before this one: it does not queue (R14, R182).  A walk that a page fault holds is
not active, and takes its place by its age again once it goes on. (DESIGN CHOICE, log 103.) -/
def walkTurn (s : State) (p : Nat) (w : Walk) : Bool :=
  decide (((s.ctxs.filter (fun e => e.1 < 512 && dieOf e.1 == dieOf p)).flatMap (fun e => e.2.walks)).countP
    (fun x => x.held.isNone && decide (x.num < w.num)) < Config.dieWalks)

/-- WALK_COMPLETE (R182): walk `k` reads the table; `xlt` marks and installs the leaf or meets its cause.  One whose entries lie
in a page owned by another device waits for its recall (R233). -/
def doWalkComplete (p k : Nat) (s : State) : State :=
  let c := getCtx s p
  match c.walks[k]? with
  | none => s
  | some w =>
    let o := extOwner s p
    let e := walkTable s (getCtx s o).asn w.va
    let bars := walkBars s (getCtx s o).asn w.va (!w.probe && setsBit e w.write)
    if w.held.isSome || walkBusy c w || 512 ≤ p || !walkTurn s p w then s
    else if !bars.isEmpty then askRecalls bars s
    else
      let cause := fun (code : Nat) => { plainCause code 12 with
        addr := w.va, place := e.place, frame := e.frame, access := if w.write then 2 else 1 }
      if w.probe then endWalk p k w e.frame e.place s
      else match e.kind with
        | .absent => holdWalk p k w { cause 0x10 with place := 0 } s
        | .broken => holdWalk p k w (cause 0x24) s
        | .leaf =>
          if leafGrants e.frame (if w.write then 3 else 2) c.sup then
            let fw := e.frame ||| (if w.write then 0x80 else 0x40)
            endWalk p k w fw e.place (installLeaf o w.va { e with frame := fw } (walkOwn p e w.write s))
          else holdWalk p k w (cause (if w.write then 0x22 else 0x21)) s

/-- A context without the extents of an address space that overlap `n` pages from page `v`. -/
def purge (asn v n : Nat) (c : Ctx) : Ctx :=
  if c.asn == asn then { c with extents := c.extents.filter (fun e => e.vpn + e.pages ≤ v || v + n ≤ e.vpn) } else c

/-- Every core acknowledges, those whose filter shows the range after searching their tables; saved tables are purged
(R184); tiles go Stale (R152). -/
def invalidate (asn v n : Nat) (s : State) : State :=
  stalePages asn v n { s with
    ctxs := smMap {} (fun p c => if 512 ≤ p || filterHits (getCore s (coreOf p)).filter v n then purge asn v n c else c) s.ctxs }

/-- XINV_COMPLETE (R184): the context's outstanding invalidation has acted on every core and saved table.
(DESIGN CHOICE, log 34.) -/
def doXinvComplete (p : Nat) (s : State) : State :=
  match (getCtx s p).xinvOut with
  | [] => s
  | (v, n) :: rest => updCtx p (fun c => { c with xinvOut := rest }) (invalidate (getCtx s (extOwner s p)).asn v n s)

/-- `exec` of `.xlt`. -/
def execXlt (g : BitVec 3) (d : BitVec 5) (a : BitVec 4) (w : BitVec 1) (s : State) : Host.Outcome State Fault Refusal :=
  issueSolo (.xlt g d a w) (semXlt g d a w s.cur s) s
/-- `exec` of `.xlp`. -/
def execXlp (g : BitVec 3) (d : BitVec 5) (a : BitVec 4) (w : BitVec 1) (s : State) : Host.Outcome State Fault Refusal :=
  issueSolo (.xlp g d a w) (semXlp g d a w s.cur s) s
/-- `exec` of `.xinv`. -/
def execXinv (g : BitVec 3) (a : BitVec 4) (n : BitVec 14) (s : State) : Host.Outcome State Fault Refusal :=
  issueSolo (.xinv g a n) (semXinv g a n s.cur s) s
/-- `exec` of `.walkComplete`. -/
def execWalkComplete (p k : Nat) (s : State) : Host.Outcome State Fault Refusal := .next (doWalkComplete p k s)
/-- `exec` of `.xinvComplete`. -/
def execXinvComplete (p : Nat) (s : State) : Host.Outcome State Fault Refusal := .next (doXinvComplete p s)

end Sys2Proof.Machine
end

