-- ==== Sys2Proof/Machine/Ext.lean ====
section
/-! DEFINITION. The slot EX but for `dlc`: transfers, restripes and link rows, and the copy engine's and the links' own
steps (R97, R98, R169 to R171, R189 to R191, R231, R269 to R273, R375, R380, R383, R384, R416, R417, R421, R427). -/

namespace Sys2Proof.Machine

/-! ### Route cards at issue (R97, R417) -/

/-- A card breaks R97. -/
def cardBad (card : BitVec 1024) : Bool :=
  let dims := List.range 6
  let src := !cardZero card && !cardSrcG card
  let dst := !cardDstG card
  let run := cardRun card
  run < 16 || 1048576 < run || run % 16 != 0 || 6 < cardDims card || 8 ≤ cardField card 21 1 || cardField card 22 10 != 0
    || dims.any (fun d =>
      if d < cardDims card then
        cardField card (32 + 16 * d) 4 == 0 || cardField card (36 + 16 * d) 4 != 0
          || (src && cardField card (40 + 16 * d) 4 % 16 != 0) || (dst && cardField card (44 + 16 * d) 4 % 16 != 0)
      else cardField card (32 + 16 * d) 16 != 0)
    || (src && cardField card 0 8 % 16 != 0) || (dst && cardField card 8 8 % 16 != 0)

/-- The scratchpad ranges that the card's runs touch on one side: offset and length.  Offsets beyond 8 MiB wrap.
(DESIGN CHOICE, log 81.) -/
def cardRanges (card : BitVec 1024) (dst : Bool) : List (Nat × Nat) :=
  if dst then (if cardDstG card then [] else (List.range (cardRuns card)).map (fun n => ((runDst card n).toNat % 2 ^ 23, cardRun card)))
  else if cardZero card || cardSrcG card then []
  else (List.range (cardRuns card)).map (fun n => ((runSrc card n).toNat % 2 ^ 23, cardRun card))

/-- The banks of scratchpad ranges. -/
def rangeBanks (p : Nat) (rs : List (Nat × Nat)) : List Nat := (rs.flatMap (fun r => bankIds p r.1 r.2)).eraseDups

/-- The granule keys of scratchpad ranges. -/
def rangeGrans (p : Nat) (rs : List (Nat × Nat)) : List Nat := (rs.flatMap (fun r => granKeys p r.1 r.2)).eraseDups

/-- The first range that reaches a dead core's offsets (R166). -/
def rangesDead (s : State) (p slot access : Nat) (rs : List (Nat × Nat)) : Option Cause :=
  (rs.flatMap (fun r => granOffs r.1 r.2)).findSome? (fun o => rangeCause s p slot (o % 2 ^ 23) access)

/-- The parts of a byte range that lie within one aligned unit of `u` bytes each: address and length. -/
def cutAt (u : Nat) : Nat → Word → Nat → List (Word × Nat)
  | 0, _, _ => []
  | fuel + 1, a, n =>
    if n = 0 then [] else
      let k := Nat.min n (u - a.toNat % u)
      (a, k) :: cutAt u fuel (a + BitVec.ofNat 64 k) (n - k)

/-- The line pieces of a run. -/
def runPieces (a : Word) (n : Nat) : List (Word × Nat) := cutAt 64 (n / 64 + 2) a n

/-- The page parts of a run. -/
def runParts (a : Word) (n : Nat) : List (Word × Nat) := cutAt (2 ^ 16) (n / 2 ^ 16 + 2) a n

/-- Bytes of a lattice page that do not make whole cells (Table 13-2). -/
def splitsCell (w : Word) (a : Word) (n : Nat) : Bool :=
  plLtype w != 0 && (a.toNat % cellSize (plLtype w) != 0 || n % cellSize (plLtype w) != 0)

/-- A run of the card does not cover whole cells of a lattice page that is mapped (Table 13-2). -/
def cardSplits (s : State) (p : Nat) (card : BitVec 1024) : Bool :=
  cardDstG card && (List.range (cardRuns card)).any (fun n =>
    (runParts (runDst card n) (cardRun card)).any (fun q => match translate s p q.1 .write with
      | .ok e => splitsCell e.place q.1 q.2
      | _ => false))

/-- The 16-byte parts of a card in global memory: extent, storage key and home, where they are mapped. -/
def cardParts (s : State) (p : Nat) (va : Word) : List (Extent × Nat × Nat) :=
  (List.range 8).filterMap (fun i =>
    let a := va + BitVec.ofNat 64 (16 * i)
    match translate s p a .read with
    | .ok e => some (e, placeOf s e.place (dieOf p) (physAddr e a))
    | _ => none)

/-- A card in global memory waits at a stack in thermal hold (R297). -/
def cardHeld (s : State) (p : Nat) (va : Word) : Bool :=
  (cardParts s p va).any (fun e =>
    if plLtype e.1.place != 0 then (cellsIn e.1.place e.2.1 16).any (cellWaits s e.1.place)
    else stackWaits s e.1.place (dieOf p) e.2.2 e.2.1)

/-- A card in global memory waits, as a load of it would. -/
def cardWaits (s : State) (p : Nat) (va : Word) : Bool :=
  (cardParts s p va).any (fun e =>
    if plLtype e.1.place != 0 then (cellsIn e.1.place e.2.1 16).any (cellStops s e.1.place)
    else readWaits s e.1.place (dieOf p) e.2.2 e.2.1)

/-- The pages whose recall it waits for. -/
def cardRecalls (s : State) (p : Nat) (va : Word) : List Nat :=
  (cardParts s p va).filterMap (fun e => if grantHolds s e.1.place e.2.1 false then some (e.2.1 % 2 ^ 52 / 2 ^ 16) else none)

/-- A card in global memory, read as a load is: its cause, its bits and its mark (R417). -/
def globalCard (s : State) (p : Nat) (va : Word) : Option Cause × BitVec 1024 × Bool :=
  let cause := (List.range 8).findSome? (fun i =>
    let a := va + BitVec.ofNat 64 (16 * i)
    (loadCause a (translate s p a .read)).map (fun c => { c with slot := 13 }))
  let parts := cardParts s p va
  (cause, BitVec.ofNat 1024 (natLE (parts.flatMap (fun e => rdBytes s.mem e.2.1 16))), parts.any (fun e => keyBad s e.1.place e.2.1))

/-- An EX operation as far as slot and ports go; one issued while a load is made again after a save waits for it (R289). -/
def exBase (s : State) (p : Nat) (g : BitVec 3) (ports : List (Nat × Nat)) : OpSem :=
  { opBase (getCtx s p) 13 g with reads := ports.map (fun q => commonReg q.1), ports := ports, blocks := remaking s p }

/-- Granules become empty or full at once. -/
def setGrans (ks : List Nat) (empty : Bool) (s : State) : State :=
  { s with empties := ks.foldl (fun m k => smSet false m k empty) s.empties }

/-- `xfer` (R417).  A card in the scratchpad that runs past 8 MiB goes on at the start of the cluster's scratchpad. (DESIGN CHOICE,
log 81.) -/
def semXfer (g : BitVec 3) (r : BitVec 5) (rp : BitVec 2) (v : BitVec 1) (tag : BitVec 6) (p : Nat) (s : State) : OpSem :=
  let c := getCtx s p
  let a := regWord c (commonReg r.toNat) &&& ~~~15
  let off := a.toNat % 2 ^ 23
  let gc := globalCard s p a
  let card : BitVec 1024 := if v = 1 then gc.2.1 else BitVec.ofNat 1024 (natLE (scrBytes s p off 128))
  let ready := (v == 1 && !cardWaits s p a) || v == 0 && (gransFull s p off 128 && (bankIds p off 128).all (fun id => !(id / 128 == coreOf p && bankLocked s id)))
  let bad := if v = 1 then gc.2.2 else gransBad s p off 128
  let src := cardRanges card false
  let dst := cardRanges card true
  { exBase s p g [(r.toNat, rp.toNat)] with
    cause := if !seen c [commonReg r.toNat] then none else firstOf [
      (v == 1 && gc.1.isSome, gc.1.getD (plainCause 0 13)),
      (v == 0 && (rangesDead s p 13 1 [(off, 128)]).isSome, { plainCause 0x0A 13 with addr := BitVec.ofNat 64 off, access := 1 }),
      (ready && cardBad card, plainCause 9 13),
      (ready && !cardBad card && (rangesDead s p 13 1 src).isSome, (rangesDead s p 13 1 src).getD (plainCause 0x0A 13)),
      (ready && !cardBad card && (rangesDead s p 13 2 dst).isSome, (rangesDead s p 13 2 dst).getD (plainCause 0x0A 13)),
      (ready && !cardBad card && cardSplits s p card, plainCause 9 13)]
    blocks := remaking s p || !ready || Config.transfers ≤ (c.xfers.filter (fun x => !x.restripe)).length
      || !banksReady s p (rangeBanks p (src ++ dst))
    recalls := if v = 1 then cardRecalls s p a else []
    held := v == 1 && cardHeld s p a
    effect := fun t =>
      let x : Xfer := {
        restripe := false, tag := tag.toNat, gaddr := c.pc, card := card, first := 0, count := cardRuns card, place := 0, next := 0
        marked := false, locks := rangeBanks p dst, held := none, dropped := false, landed := false, buf := [], bufBad := false, old := 0, pa := 0, leaf := 0
        own := (rangeGrans p src).filter (fun k => (rangeGrans p dst).contains k && !smGet false t.empties k), num := t.order }
      let t1 := updCtx p (fun z => { z with xfers := z.xfers ++ [x] })
        (takeBanks p (rangeBanks p (src ++ dst)) (setGrans (rangeGrans p dst) true t))
      let t2 : State := { t1 with order := t.order + 1 }
      poisonRead p bad (if v = 1 then touchExtent p (a + 112) (touchExtent p a t2) else t2) }

/-- `xwt` (R421). -/
def semXwt (g : BitVec 3) (tag : BitVec 6) (p : Nat) (s : State) : OpSem :=
  let c := getCtx s p
  { opBase c 13 g with blocks := c.xfers.any (fun x => !x.restripe && x.tag == tag.toNat) }

/-! ### Runs (R98, R169, R170, R427) -/

/-- What the source of a run has given: the state that the reads leave, the bytes with their mark, and the cause that the
next read meets, if it meets one (R427). -/
structure Got where
  st : State
  bytes : List Byte
  bad : Bool
  cause : Option Cause

/-- A cause that a piece of a run meets. -/
def pieceCause (code : Nat) (va place : Word) (access : Nat) : Cause :=
  { plainCause code 13 with addr := va, place := place, access := access }

/-- Pieces read in order by the copy engine, as far as they can be read now (Table 10-3, R178, R214). -/
def readPieces (p : Nat) : List (Word × Nat) → Got → Got
  | [], g => g
  | (a, n) :: rest, g =>
    match translate g.st p a .read with
    | .absent _ => { g with cause := some (pieceCause 0x10 a 0 1) }
    | .fault code place => { g with cause := some (pieceCause code a place 1) }
    | .ok e =>
      let z := placeOf g.st e.place (dieOf p) (physAddr e a)
      let r := if plLtype e.place != 0 then (g.st, !(cellsIn e.place z.1 n).any (cellStops g.st e.place))
        else lineAsk (coreOf p) (dieOf p) e.place z.1 false g.st
      if !r.2 then { g with st := r.1 }
      else readPieces p rest { g with
        st := touchExtent p a (dropUnkept e.place z.2 (z.1 / 64) r.1)
        bytes := g.bytes ++ rdBytes g.st.mem z.1 n
        bad := g.bad || keyBad g.st e.place z.1 }

/-- The banks of the context's core that the runs of a card touch. -/
def cardBanks (p : Nat) (card : BitVec 1024) : List Nat :=
  (rangeBanks p (cardRanges card false ++ cardRanges card true)).filter (fun id => id / 128 == coreOf p)

/-- A lock that stands in the core keeps the runs of its transfer or `recv` of number `num`, which itself holds `locks`, off a
bank (R171, R272): that of one issued earlier, or of a later one of another core that does not itself wait for it.
(DEDUCED, log 82.) -/
def lockedAgainst (s : State) (p num : Nat) (locks : List Nat) (id : Nat) : Bool :=
  id / 128 == coreOf p && s.ctxs.any (fun e =>
    e.2.links.any (fun l => l.num != num && l.locks.contains id
      && (decide (l.num < num) || !l.locks.any (fun b => b / 128 == coreOf e.1 && locks.contains b)))
    || e.2.xfers.any (fun y => y.num != num && y.locks.contains id
      && (decide (y.num < num) || !(cardBanks e.1 y.card).any (locks.contains ·))))

/-- The bytes from a scratchpad offset are not locked against a transfer. -/
def openFor (s : State) (p : Nat) (x : Xfer) (off n : Nat) : Bool := !(bankIds p off n).any (lockedAgainst s p x.num x.locks)

/-- A granule of a source run can be read (R417): it is full, or was until the transfer itself marked it empty.
(DEDUCED, log 87.) -/
def granOpen (s : State) (p : Nat) (x : Xfer) (off : Nat) : Bool :=
  (granFull s p off || x.own.contains (granKey (scratchKey (clusterOf p) off))) && openFor s p x off 16

/-- The granules of a source run read in ascending order, as far as they can be read now (R417). -/
def readGrans (s : State) (p : Nat) (x : Xfer) : Got :=
  let got := x.buf.length
  let gs := (granOffs ((runSrc x.card x.next).toNat % 2 ^ 23 + got) (cardRun x.card - got)).takeWhile (granOpen s p x)
  ⟨s, gs.flatMap (fun o => rdBytes s.mem (scratchKey (clusterOf p) o) 16), gs.any (fun o => gransBad s p o 16), none⟩

/-- What is still to be read of the run's source (R98, R417): zeros, scratchpad granules, or global memory. -/
def runSource (s : State) (p : Nat) (x : Xfer) : Got :=
  let got := x.buf.length
  let n := cardRun x.card
  if cardZero x.card then ⟨s, List.replicate (n - got) 0, false, none⟩
  else if cardSrcG x.card then readPieces p (runPieces (runSrc x.card x.next + BitVec.ofNat 64 got) (n - got)) ⟨s, [], false, none⟩
  else readGrans s p x

/-- The cause that a write of a piece meets, before any piece is written. -/
def writeCheck (s : State) (p : Nat) (bad : Bool) (a : Word) (n : Nat) : Option Cause :=
  match translate s p a .write with
  | .absent _ => some (pieceCause 0x10 a 0 2)
  | .fault code place => some (pieceCause code a place 2)
  | .ok e =>
    if plRepl e.place = 2 then some (pieceCause 0x22 a e.place 2)
    else if needsOwner e.place then some (pieceCause 0x14 a e.place 2)
    else if splitsCell e.place a n then some (pieceCause 9 a e.place 2)
    else if plLtype e.place != 0 && bad then some (pieceCause 0x32 a e.place 2)
    else none

/-- What the writes of pieces ask for, and whether all may be made now (R178, R233, R297). -/
def writeAsk (p : Nat) (ps : List (Word × Nat)) (s : State) : State × Bool :=
  ps.foldl (fun (z : State × Bool) q => match translate z.1 p q.1 .write with
    | .ok e =>
      let k := placeOf z.1 e.place (dieOf p) (physAddr e q.1)
      let r := if plLtype e.place != 0 then (z.1, !(cellsIn e.place k.1 q.2).any (cellWaits z.1 e.place))
        else lineAsk (coreOf p) (dieOf p) e.place k.1 true z.1
      (r.1, z.2 && r.2)
    | _ => (z.1, false)) (s, true)

/-- A piece written at its home by the copy engine: joined on a lattice page, else under R206 with the context's
launch logged (R206, R240, R292). -/
def writePiece (p : Nat) (a : Word) (bs : List Byte) (bad : Bool) (s : State) : State :=
  match translate s p a .write with
  | .ok e =>
    let z := placeOf s e.place (dieOf p) (physAddr e a)
    touchExtent p a <| if plLtype e.place != 0 then cellsJoin e.place z.1 bs.length (natLE bs) s
    else
      let seq := seqOfCtx s p
      let pts := (getCore s (coreOf p)).pts
      if timed e.place then
        let s1 := takeLine e.place z.2 z.1 s
        let t := stampWrite s1 z.2 (z.1 / 64) pts
        updCtx p (fun c => { c with ceWts := ackMax c.ceWts t })
          (dropWritten e.place z.2 (z.1 / 64) (writeStamped seq e.place z.2 z.1 bs.length (natLE bs) bad pts s1))
      else writeHome seq e.place z.2 z.1 bs.length (natLE bs) bad s
  | _ => s

/-- Pieces written in order. -/
def writePieces (p : Nat) (bad : Bool) : List (Word × Nat) → List Byte → State → State
  | [], _, s => s
  | (a, n) :: rest, bs, s => writePieces p bad rest (bs.drop n) (writePiece p a (bs.take n) bad s)

/-- The run's bytes land in the scratchpad: a granule becomes full with the last of the runs that write it (R169). -/
def landScratch (p : Nat) (x : Xfer) (bs : List Byte) (bad : Bool) (s : State) : State :=
  let n := cardRun x.card
  let off := (runDst x.card x.next).toNat % 2 ^ 23
  let later := (List.range (x.count - x.next - 1)).map (fun i => ((runDst x.card (x.next + 1 + i)).toNat % 2 ^ 23, n))
  let ks := granKeys p off n
  let mem := (granOffs off n).zipIdx.foldl (fun m o => wrBytes m (scratchKey (clusterOf p) o.1) ((bs.drop (16 * o.2)).take 16)) s.mem
  setGrans (ks.filter (fun k => !(rangeGrans p later).contains k)) false { s with
    mem := mem
    granBad := ks.foldl (fun m k => smSet false m k bad) s.granBad }

/-- Transfer `k` changed. -/
def setXfer (p k : Nat) (x : Xfer) (s : State) : State := updCtx p (fun c => { c with xfers := c.xfers.set k x }) s

/-- Transfer `k` meets a cause (R427).  Once its context has ended, one that no resolution can end drops the rest. -/
def holdXfer (p k : Nat) (x : Xfer) (e : Cause) (s : State) : State :=
  if 512 ≤ p && !bySched e.code && !s.saved.any (fun v => v.key == p) then setXfer p k { x with dropped := true } s
  else updCtx p (fun c => { c with
    xfers := c.xfers.set k { x with held := some e }
    after := if bySched e.code then c.after else c.after ++ [{ e with info := x.gaddr }] }) s

/-- A run whose bytes are all read lands, or waits, or is held by the cause that it meets. -/
def landRun (p k : Nat) (x : Xfer) (s : State) : State :=
  let n := cardRun x.card
  let a := runDst x.card x.next
  let done := fun (t : State) => setXfer p k { x with
    next := x.next + 1, landed := x.next + 1 == x.count, buf := [], bufBad := false } t
  if !cardDstG x.card then
    (if openFor s p x (a.toNat % 2 ^ 23) n then done (landScratch p x x.buf x.bufBad s) else s)
  else
    match (runPieces a n).findSome? (fun q => writeCheck s p x.bufBad q.1 q.2) with
    | some e => holdXfer p k x e s
    | none =>
      let z := writeAsk p (runPieces a n) s
      if z.2 then done (writePieces p x.bufBad (runPieces a n) x.buf z.1) else z.1

/-- XFER_RUN_LAND (R98, R169, R417): the next run of transfer `k` in walk order is read as far as it can be, and lands once all
of it has been read.  A source byte that an earlier run has written reads that run's value. (DESIGN CHOICE, log 22.) -/
def doRunLand (p k : Nat) (s : State) : State :=
  match (getCtx s p).xfers[k]? with
  | none => s
  | some x =>
    if x.restripe || x.dropped || x.held.isSome || x.count ≤ x.next then s
    else
      let r := runSource s p x
      let y := { x with buf := x.buf ++ r.bytes, bufBad := x.bufBad || r.bad }
      let s1 := poisonRead p r.bad (setXfer p k y r.st)
      match r.cause with
      | some e => holdXfer p k y e s1
      | none => if y.buf.length < cardRun x.card then s1 else landRun p k y s1

/-- XFER_COMPLETE (R170, R171): every run or page is done, or the rest is dropped; the locks lift. -/
def doXferComplete (p k : Nat) (s : State) : State :=
  match (getCtx s p).xfers[k]? with
  | none => s
  | some x => if x.dropped || x.count ≤ x.next then updCtx p (fun c => { c with xfers := c.xfers.eraseIdx k }) s else s

/-! ### Restripe (R189 to R191, R231, R380) -/

/-- The fields of a placement word that a restripe may not change: LTYPE, COH, DEV and the reserved bits. -/
def fixedFields (w : Word) : Word := w &&& 0x3FFFC7FF

/-- A page cannot be restriped: what R189 asks of its leaf. -/
def stripeFrom (sup : Bool) (e : WalkEnd) : Bool :=
  e.kind != .leaf || e.span != 2 ^ 16 || !leafGrants e.frame 3 sup || 2 ≤ plTier e.place || plRepl e.place % 2 == 1

/-- No page can be restriped to the placement: what R189 asks of the new word. -/
def stripeTo (s : State) (new : Word) : Bool := 2 ≤ plTier new || plRepl new % 2 == 1 || placeBad s new

/-- The two placements differ in a field that a restripe may not change. -/
def stripeDiffers (e : WalkEnd) (new : Word) : Bool := fixedFields (e.place &&& ~~~0x800) != fixedFields new

/-- A page breaks R189 for the new placement. -/
def stripeBad (s : State) (sup : Bool) (e : WalkEnd) (new : Word) : Bool :=
  stripeFrom sup e || stripeTo s new || stripeDiffers e new

/-- The placement fault of a page: at issue no access has been made, afterwards the page's move was one (R427, Table 18-2). -/
def stripeCause (va : Word) (e : WalkEnd) (access : Nat) : Cause :=
  { plainCause 0x25 13 with addr := va, place := e.place, frame := e.frame, access := access }

/-- `rstr` (R189, R380): a page that breaks the rules faults at issue; one whose leaf lies in a page owned by another device
blocks the group for its recall (R233). -/
def semRstr (g : BitVec 3) (r : BitVec 5) (rp : BitVec 2) (w : BitVec 5) (wp : BitVec 2) (n : BitVec 9) (p : Nat) (s : State) : OpSem :=
  let c := getCtx s p
  let va := regWord c (commonReg r.toNat) &&& ~~~0xFFFF
  let new := regWord c (commonReg w.toNat) &&& ~~~0x800
  let asn := (getCtx s (extOwner s p)).asn
  let pages := (List.range (n.toNat + 1)).map (fun i => va + BitVec.ofNat 64 (2 ^ 16 * i))
  let atV := seen c [commonReg r.toNat]
  let atW := seen c [commonReg w.toNat]
  let bars := if atV then pages.flatMap (fun a => walkBars s asn a false) else []
  { exBase s p g [(r.toNat, rp.toNat), (w.toNat, wp.toNat)] with
    cause := pages.findSome? (fun a =>
      let e := walkTable s asn a
      let from_ := atV && (walkBars s asn a false).isEmpty
      if from_ && stripeFrom c.sup e || atW && stripeTo s new || from_ && atW && stripeDiffers e new then some (stripeCause a e 0)
      else none)
    blocks := remaking s p || !bars.isEmpty
    recalls := bars
    effect := fun t =>
      let x : Xfer := {
        restripe := true, tag := 0, gaddr := c.pc, card := 0, first := va, count := n.toNat + 1, place := new, next := 0
        marked := false, locks := [], held := none, dropped := false, landed := false, buf := [], bufBad := false, own := []
        num := t.order, old := 0, pa := 0, leaf := 0 }
      updCtx p (fun z => { z with xfers := z.xfers ++ [x] }) { t with order := t.order + 1 } }

/-- The placement word of the entry at a physical address rewritten by the device in one write. -/
def putPlace (leaf : Nat) (w : Word) (s : State) : State := deviceWrite (leaf + 8) (bytesLE 8 w.toNat) s

/-- A page's copies written with the clean bytes of the old placement's lowest copy, which lifts the marks that stood there; a
line on a failed channel takes nothing (R189, R230, R290, R314). -/
def copyPage (old new : Word) (pa : Nat) (s : State) : State :=
  if plRepl old = plRepl new ∧ plRepl new = 0 then s
  else (copiesAt new).foldl (fun t d => (List.range 1024).foldl (fun z i =>
    let q := pa + 64 * i
    putLine new (placeKey new d q) 64 (rdNat s.mem (placeKey old ((copiesAt old).headD 0) q) 64) false z) t) s

/-- A line of a page leaves its old homes, and their memory-side caches, and enters the new ones, a full L2 giving up another
(R175), with the stamps that it takes there: the largest of its old homes and of the new die's MTS (R231).  The move is no
eviction, and leaves the old die's MTS as it is (R202).  A page that no L2 keeps leaves it again (R187). -/
def moveLine (old new : Word) (pa : Nat) (s : State) : State :=
  let homes := fun (w : Word) => (copiesAt w).map (fun d => (homeDie s w d pa, placeKey w d pa / 64))
  let was := fun (h : Nat × Nat) => let l := l2Get s h.1 h.2; if l.here then (l.wts, l.rts) else ((getDie s h.1).mts, (getDie s h.1).mts)
  let top := ((homes old).map was).foldl (fun (a : Option (Stamp × Stamp)) b => match a with
    | none => some b
    | some c => some (serMax c.1 b.1, serMax c.2 b.2)) none
  let s1 := (homes old).foldl (fun t h => updDie h.1 (fun d => { d with
    l2 := smErase d.l2 h.2
    msc := smErase d.msc h.2 }) t) s
  match top with
  | none => s1
  | some (w, r) => (homes new).foldl (fun t h =>
      let t1 := updDie h.1 (fun d => { d with msc := smErase d.msc h.2 }) (roomL2 h.1 h.2 t)
      let m := (getDie t1 h.1).mts
      dropUnkept new h.1 h.2
        (l2Set h.1 h.2 ⟨true, lineChan s new h.1 (64 * h.2 % 2 ^ 52), plCache new == 1, serMax w m, serMax r m⟩ t1)) s1

/-- The extents of a context that map the frame take the new placement, each of them; one that also covers other pages is
split (R189). -/
def moveExtents (old new : Word) (pa : Nat) (c : Ctx) : Ctx :=
  let hits := c.extents.filter (fun e => !e.absent && e.place &&& ~~~0x800 == old && decide (e.frame ≤ pa) && decide (pa < e.frame + e.pages * 2 ^ 16))
  let es := hits.foldl (fun l e =>
    let v := e.vpn + (pa - e.frame) / 2 ^ 16
    carve v 1 l ++ [{ e with vpn := v, pages := 1, frame := pa, place := new }]) c.extents
  { c with extents := es.drop (es.length - extentRoom c) }

/-- The copies of the page's lines in a core's line cache, and those on their way to it, are found under the keys of the new
placement: they stay until they expire (R231). -/
def moveCopies (s : State) (old new : Word) (pa core : Nat) (k : Core) : Core :=
  let from_ := placeKey old (core / 64) pa / 64
  let to_ := placeKey new (core / 64) pa / 64
  let here := fun (l : Nat) => l / 1024 == from_ / 1024
  if from_ = to_ then k
  else { k with
    lcache := (k.lcache.filter (fun e => here e.1)).foldl (fun m e => smSet lcNone m (to_ + e.1 % 1024) e.2)
      (k.lcache.filter (fun e => !here e.1))
    fills := k.fills.map (fun f => if here f.line then { f with
      line := to_ + f.line % 1024
      home := (placeOf s new (core / 64) (64 * f.line % 2 ^ 52)).2 } else f) }

/-- Accesses and matrix operations on their way to the old home go to the new one, and writes performed and not yet
acknowledged are known by the new one, so that a later load of the context finds them (R195, R196, R231). -/
def moveWork (s : State) (old new : Word) (pa p : Nat) (c : Ctx) : Ctx :=
  let here := fun (key : Nat) => key / 2 ^ 16 == placeKey old (dieOf p) pa / 2 ^ 16
  let to' := fun (key : Nat) => placeOf s new (dieOf p) (key % 2 ^ 52)
  { c with
    reqs := c.reqs.map (fun r => if here r.key && r.place &&& ~~~0x800 == old then
      { r with place := new, key := (to' r.key).1, home := (to' r.key).2 } else r)
    mops := c.mops.map (fun m => if m.kind != .smx && m.key != 0 && here m.key then { m with place := new, key := (to' m.key).1 } else m) }

/-- The tiles of the page go Stale, and fills in progress go on at the new placement (R148, R152). -/
def moveTiles (old new : Word) (pa : Nat) (s : State) : State :=
  { s with cores := smMap {} (fun k c => { c with
      arrays := c.arrays.map (fun a =>
        let d := k / 64
        if a.2.key / 2 ^ 16 == placeKey old d pa / 2 ^ 16 && a.2.st != .invalid then
          (a.1, staleArr { a.2 with place := new, key := placeKey new d (a.2.key % 2 ^ 52) })
        else a) }) s.cores }

/-- An uncorrectable error of a restripe copy is reported against no launch: as one that the device's own read finds (R290,
EVENT bit 0) and as the event of R291 (R380, EVENT bit 1). (DEDUCED, log 88.) -/
def reportCopy (s : State) : State := { s with event := s.event ||| 3 }

/-- An entry of a write log for a line of the page, as the log of the line's new home holds it (R291, R292).  It takes its place
there even in a full log: a move is no write of the launch, which stays restartable (R294). (DESIGN CHOICE, log 101.) -/
def moveEntry (new : Word) (s : State) (e : WLog) : State :=
  let d := (copiesAt new).headD 0
  let q := 64 * e.line % 2 ^ 52
  let home := homeDie s new d q
  match findLaunch s e.seq with
  | some l =>
    if !l.restartable then s
    else updDie home (fun k => { k with wlog := k.wlog ++ [{ e with line := placeKey new d q / 64, place := new }] }) s
  | none => s

/-- The entries of the write logs for lines of the page follow them to their new homes: those of its lowest copy, which stand
for every copy (R291, R292). -/
def moveLog (old new : Word) (pa : Nat) (s : State) : State :=
  let at_ := fun (d : Nat) (e : WLog) => e.place &&& ~~~0x800 == old && e.line / 1024 == placeKey old d pa / 2 ^ 16
  let d0 := (copiesAt old).headD 0
  let mine := [0, 1, 2, 3].flatMap (fun d => (getDie s d).wlog.filter (at_ d0))
  mine.foldl (moveEntry new) { s with dies := smMap {} (fun _ k => { k with
    wlog := k.wlog.filter (fun e => !(copiesAt old).any (fun d => at_ d e)) }) s.dies }

/-- The home L2 has the four lines of a block. -/
def blockThere (s : State) (w : Word) (d pa : Nat) : Bool :=
  [0, 1, 2, 3].all (fun j => (l2Get s (homeDie s w d pa) (placeKey w d pa / 64 + j)).here)

/-- The move of a page takes a block from, or to, a stack in thermal hold (R297). -/
def moveHeld (s : State) (old new : Word) (pa : Nat) : Bool :=
  let d0 := (copiesAt old).headD 0
  (List.range 256).any (fun i =>
    let q := pa + 256 * i
    (!blockThere s old d0 q && lineHeld s old d0 q) || (copiesAt new).any (fun d => lineHeld s new d q))

/-- The bursts that the copy of a page takes of HBM: those of the old blocks that the L2 lacks, and those of the new ones; they
are bulk traffic (R178). (DESIGN CHOICE, log 89.) -/
def copyBursts (old new : Word) (pa num : Nat) (s : State) : State :=
  let d0 := (copiesAt old).headD 0
  let read := (List.range 256).foldl (fun t i =>
    let q := pa + 256 * i
    if blockThere s old d0 q then t
    else bulkBurst (homeDie s old d0 q) (placeKey old d0 q / 256) (lineChan s old d0 q) (.copy num) t) s
  (copiesAt new).foldl (fun t d => (List.range 256).foldl (fun z i =>
    let q := pa + 256 * i
    bulkBurst (homeDie s new d q) (placeKey new d q / 256) (lineChan s new d q) (.copy num) z) t) read

/-- The page at `pa` is copied from the placement that its leaf held when it was marked and committed in that leaf (R189 steps 2
to 4, R190, R231): an uncorrectable error leaves it where it is. (DESIGN CHOICE, log 35.) -/
def commitPage (leaf pa : Nat) (old new : Word) (s : State) : State :=
  if keysBad s old (placeKey old ((copiesAt old).headD 0) pa) 1024 then reportCopy (putPlace leaf old s)
  else
    let s1 := (List.range 1024).foldl (fun t i => moveLine old new (pa + 64 * i) t) (copyPage old new pa s)
    let s2 := putPlace leaf new (moveLog old new pa s1)
    moveTiles old new pa { s2 with
      cores := smMap {} (moveCopies s2 old new pa) s2.cores
      ctxs := smMap {} (fun p c => moveWork s2 old new pa p (moveExtents old new pa c)) s2.ctxs }

/-- The move of a page waits to begin: for a recall of the page, or at a stack in thermal hold (R233, R297). -/
def moveWaits (s : State) (old new : Word) (pa : Nat) : Bool := grantHolds s old (placeKey old 0 pa) true || moveHeld s old new pa

/-- A move that waits for a recall asks for it. -/
def moveRecall (old : Word) (pa : Nat) (s : State) : State :=
  if grantHolds s old (placeKey old 0 pa) true then askRecall (pa / 2 ^ 16) s else s

/-- RESTRIPE_PAGE_COMMIT (R189): the next page of restripe `k` is first checked afresh and marked RS, then, its bursts served,
copied from the placement found and committed; a page that no longer meets the rules holds the restripe with the placement
fault.  A page that another restripe has marked waits for that commit (R190). -/
def doPageCommit (p k : Nat) (s : State) : State :=
  let c := getCtx s p
  match c.xfers[k]? with
  | none => s
  | some x =>
    if !x.restripe || x.dropped || x.held.isSome || x.count ≤ x.next then s
    else if x.marked then
      if pageGranted s (x.leaf / 2 ^ 16) true then askRecall (x.leaf / 2 ^ 16) s
      else if s.bursts.any (fun b => b.use == .copy x.num) then s
      else setXfer p k { x with marked := false, next := x.next + 1, landed := x.next + 1 == x.count } (commitPage x.leaf x.pa x.old x.place s)
    else
      let va := x.first + BitVec.ofNat 64 (2 ^ 16 * x.next)
      let e := walkTable s c.asn va
      let old := e.place &&& ~~~0x800
      let pa := frameAddr e.frame
      let bars := walkBars s c.asn va true
      if !bars.isEmpty then askRecalls bars s
      else if restriping s old pa then s
      else if stripeBad s c.sup { e with place := old } x.place then holdXfer p k x (stripeCause va e 2) s
      else if moveWaits s old x.place pa then moveRecall old pa s
      else setXfer p k { x with marked := true, old := old, pa := pa, leaf := e.addr }
        (putPlace e.addr (e.place ||| 0x800) (copyBursts old x.place pa x.num s))

/-! ### Links (R269 to R273) -/

/-- A link channel. -/
def getChan (s : State) (ch : Nat) : Chan := smGet {} s.chans ch

/-- A link channel changed. -/
def updChan (ch : Nat) (f : Chan → Chan) (s : State) : State := { s with chans := smSet {} s.chans ch (f (getChan s ch)) }

/-- The rows of a scratchpad descriptor (R270). -/
def linkRows (d : Word) : Nat := bitsOf d.toNat 23 8 + 1

/-- The offsets of its rows; past 8 MiB they go on at the start of the cluster's scratchpad. (DESIGN CHOICE, log 81.) -/
def linkOffs (d : Word) : List Nat := (List.range (linkRows d)).map (fun i => (bitsOf d.toNat 8 15 + i) % 32768 * 256)

/-- What the link-descriptor fault of R273 asks of the channel register: an enabled channel, no reserved bit. -/
def chanBad (s : State) (k : Word) : Bool := !(getChan s (k.toNat % 256)).enabled || 256 ≤ k.toNat

/-- What it asks of the descriptor or row count: no reserved bit, a count in its set. -/
def rowsBadFor (d : Word) (queue : Bool) : Bool := if queue then d.toNat = 0 || 64 < d.toNat else 2 ^ 31 ≤ d.toNat

/-- The link-descriptor fault of R273, as far as the two registers are at hand (R279). -/
def linkFault (s : State) (c : Ctx) (r w : BitVec 5) (queue : Bool) : Bool :=
  seen c [commonReg r.toNat] && chanBad s (regWord c (commonReg r.toNat))
    || seen c [commonReg w.toNat] && rowsBadFor (regWord c (commonReg w.toNat)) queue

/-- A row of the scratchpad is full and not locked against this core (R168, R171). -/
def rowOpen (s : State) (p off : Nat) : Bool :=
  gransFull s p off 256 && (bankIds p off 256).all (fun id => !(id / 128 == coreOf p && bankLocked s id))

/-- `send` from the scratchpad (R271, R384). -/
def semSend (g : BitVec 3) (r : BitVec 5) (rp : BitVec 2) (w : BitVec 5) (wp : BitVec 2) (p : Nat) (s : State) : OpSem :=
  let c := getCtx s p
  let k := regWord c (commonReg r.toNat)
  let d := regWord c (commonReg w.toNat)
  let n := linkRows d
  { exBase s p g [(r.toNat, rp.toNat), (w.toNat, wp.toNat)] with
    cause := firstOf [
      (linkFault s c r w false, plainCause 0x0B 13),
      (seen c [commonReg w.toNat] && (rangesDead s p 13 1 ((linkOffs d).map (fun o => (o, 256)))).isSome,
        (rangesDead s p 13 1 ((linkOffs d).map (fun o => (o, 256)))).getD (plainCause 0x0A 13))]
    blocks := remaking s p || portsDown s || (getChan s (k.toNat % 256)).room < n || !(linkOffs d).all (rowOpen s p)
    effect := fun t => updCtx p (fun z => { z with links := z.links ++ [⟨true, k.toNat % 256, bitsOf d.toNat 8 15, n, [], false, [], t.order⟩] })
      (unrestart c.lseq (updChan (k.toNat % 256) (fun h => { h with room := h.room - n }) { t with order := t.order + 1 })) }

/-- `send` from a result queue (R271, R384). -/
def semSendQueue (g : BitVec 3) (r : BitVec 5) (rp : BitVec 2) (w : BitVec 5) (wp : BitVec 2) (q : BitVec 3) (p : Nat) (pre : Pre)
    (s : State) : OpSem :=
  let c := getCtx s p
  let k := regWord c (commonReg r.toNat)
  let d := regWord c (commonReg w.toNat)
  let n := d.toNat % 128
  let first := pre.pops.countP (· == q.toNat)
  let rows := (List.range n).map (fun i => popCheck s p 13 q.toNat (first + i) (popsNeed pre q.toNat n))
  let atD := seen c [commonReg w.toNat]
  let short := rows.findSome? (fun x => x.2.1)
  { exBase s p g [(r.toNat, rp.toNat), (w.toNat, wp.toNat)] with
    pops := if atD then List.replicate n q.toNat else []
    cause := firstOf [
      (linkFault s c r w true, plainCause 0x0B 13),
      ((queueOf c p q.toNat).isNone, plainCause 5 13),
      (atD && short.isSome, short.getD (plainCause 8 13))]
    blocks := remaking s p || portsDown s || (getChan s (k.toNat % 256)).room < n || rows.any (fun x => x.2.2)
    effect := fun t => updCtx p (fun z => { z with
        links := z.links ++ [⟨true, k.toNat % 256, 0, n, rows.map (fun x => x.1.getD ⟨0, false⟩), true, [], t.order⟩] })
      (unrestart c.lseq (updChan (k.toNat % 256) (fun h => { h with room := h.room - n })
        ((List.range n).foldl (fun z _ => popRow p q.toNat z) { t with order := t.order + 1 }))) }

/-- `recv` (R272, R375): the oldest rows are taken, the destination rows emptied and locked until they land.
(DEDUCED, log 36.) -/
def semRecv (g : BitVec 3) (r : BitVec 5) (rp : BitVec 2) (w : BitVec 5) (wp : BitVec 2) (p : Nat) (s : State) : OpSem :=
  let c := getCtx s p
  let k := regWord c (commonReg r.toNat)
  let d := regWord c (commonReg w.toNat)
  let n := linkRows d
  let rs := (linkOffs d).map (fun o => (o, 256))
  let q := (getChan s (k.toNat % 256)).queue
  { exBase s p g [(r.toNat, rp.toNat), (w.toNat, wp.toNat)] with
    cause := firstOf [
      (linkFault s c r w false, plainCause 0x0B 13),
      (seen c [commonReg w.toNat] && (rangesDead s p 13 2 rs).isSome, (rangesDead s p 13 2 rs).getD (plainCause 0x0A 13))]
    blocks := remaking s p || q.length < n || !banksReady s p (rangeBanks p rs)
    effect := fun t => updCtx p (fun z => { z with
        links := z.links ++ [⟨false, k.toNat % 256, bitsOf d.toNat 8 15, n, q.take n, true, rangeBanks p rs, t.order⟩] })
      (unrestart c.lseq (takeBanks p (rangeBanks p rs) (setGrans (rangeGrans p rs) true
        (updChan (k.toNat % 256) (fun h => { h with queue := h.queue.drop n }) { t with order := t.order + 1 })))) }

/-- LINK_ROW_RECEIVE (R269): a row arrives in a channel's receive queue, which has room for 256. -/
def doRowReceive (ch : Nat) (row : Vec) (bad : Bool) (s : State) : State :=
  if ch < 256 ∧ !portsDown s ∧ (getChan s ch).queue.length < Config.linkRows then updChan ch (fun h => { h with queue := h.queue ++ [⟨row, bad⟩] }) s
  else s

/-- RECV_ROW_LAND (R272): the next row of link operation `k` lands, once no lock stands against it, and its granules become
full. -/
def doRowLand (p k : Nat) (s : State) : State :=
  match (getCtx s p).links[k]? with
  | none => s
  | some l => match l.send, l.queue with
    | false, row :: rest =>
      let off := l.row % 32768 * 256
      let ks := granKeys p off 256
      if (bankIds p off 256).any (lockedAgainst s p l.num l.locks) then s else
      let s1 := setGrans ks false { s with
        mem := wrNat s.mem (scratchKey (clusterOf p) off) 256 row.row.toNat
        granBad := ks.foldl (fun m g => smSet false m g row.bad) s.granBad }
      updCtx p (fun c => { c with
        links := if rest.isEmpty then c.links.eraseIdx k else c.links.set k { l with row := l.row + 1, left := l.left - 1, queue := rest } }) s1
    | _, _ => s

/-- The oldest send on a channel that still has rows to read: its context and place (R269). -/
def senderOn (s : State) (ch : Nat) : Option (Nat × Nat) :=
  (s.ctxs.flatMap (fun e => (e.2.links.zipIdx.filter (fun l => l.1.send && l.1.ch == ch)).map (fun l => (e.1, l.2, l.1.num)))).foldl
    (fun (o : Option (Nat × Nat × Nat)) x => match o with
      | none => some x
      | some y => if x.2.2 < y.2.2 then some x else some y) none |>.map (fun x => (x.1, x.2.1))

/-- The row that a send reads next can be read: one of a queue, or one that is full and unlocked (R384). -/
def sendOpen (s : State) (p : Nat) (l : LinkOp) : Bool := l.fromQueue || rowOpen s p (l.row % 32768 * 256)

/-- The row that a send reads next, with its mark. -/
def sendRow (s : State) (p : Nat) (l : LinkOp) : QRow :=
  if l.fromQueue then l.queue.headD ⟨0, false⟩
  else
    let off := l.row % 32768 * 256
    ⟨BitVec.ofNat 2048 (rdNat s.mem (scratchKey (clusterOf p) off) 256), gransBad s p off 256⟩

/-- REMOTE_QUEUE_ROOM (R271, R384): the remote queue reports `n` rows of room, or, with n = 0, accepts the next row of
the oldest send on the channel, which is then read (DESIGN CHOICE, log 37).  A send's rows go by the channel's number, whatever
a command has bound the channel to meanwhile (DESIGN CHOICE, log 96). -/
def doRemoteRoom (ch n : Nat) (s : State) : State :=
  if portsDown s then s
  else if n ≠ 0 then (if ch < 256 then updChan ch (fun h => { h with room := Nat.min Config.linkRows (h.room + n) }) s else s)
  else match senderOn s ch with
    | none => s
    | some (p, i) => match (getCtx s p).links[i]? with
      | none => s
      | some l =>
        if !sendOpen s p l then s else
        let s1 := { s with sent := s.sent ++ [(ch, sendRow s p l)] }
        updCtx p (fun c => { c with
          links := if l.left ≤ 1 then c.links.eraseIdx i else c.links.set i { l with row := l.row + 1, left := l.left - 1, queue := l.queue.drop 1 } }) s1

/-- `exec` of `.xfer`. -/
def execXfer (g : BitVec 3) (r : BitVec 5) (p : BitVec 2) (v : BitVec 1) (t : BitVec 6) (s : State) : Host.Outcome State Fault Refusal :=
  issueSolo (.xfer g r p v t) (semXfer g r p v t s.cur s) s
/-- `exec` of `.xwt`. -/
def execXwt (g : BitVec 3) (t : BitVec 6) (s : State) : Host.Outcome State Fault Refusal :=
  issueSolo (.xwt g t) (semXwt g t s.cur s) s
/-- `exec` of `.rstr`. -/
def execRstr (g : BitVec 3) (r : BitVec 5) (p : BitVec 2) (s0 : BitVec 5) (q : BitVec 2) (n : BitVec 9) (s : State) : Host.Outcome State Fault Refusal :=
  issueSolo (.rstr g r p s0 q n) (semRstr g r p s0 q n s.cur s) s
/-- `exec` of `.send`. -/
def execSend (g : BitVec 3) (r : BitVec 5) (p : BitVec 2) (s0 : BitVec 5) (q : BitVec 2) (s : State) : Host.Outcome State Fault Refusal :=
  issueSolo (.send g r p s0 q) (semSend g r p s0 q s.cur s) s
/-- `exec` of `.sendQueue`. -/
def execSendQueue (g : BitVec 3) (r : BitVec 5) (p : BitVec 2) (s0 : BitVec 5) (q : BitVec 2) (n : BitVec 3) (s : State) : Host.Outcome State Fault Refusal :=
  issueSolo (.sendQueue g r p s0 q n) (semSendQueue g r p s0 q n s.cur {} s) s
/-- `exec` of `.recv`. -/
def execRecv (g : BitVec 3) (r : BitVec 5) (p : BitVec 2) (s0 : BitVec 5) (q : BitVec 2) (s : State) : Host.Outcome State Fault Refusal :=
  issueSolo (.recv g r p s0 q) (semRecv g r p s0 q s.cur s) s
/-- `exec` of `.xferRunLand`. -/
def execXferRunLand (p k : Nat) (s : State) : Host.Outcome State Fault Refusal := .next (doRunLand p k s)
/-- `exec` of `.xferComplete`. -/
def execXferComplete (p k : Nat) (s : State) : Host.Outcome State Fault Refusal := .next (doXferComplete p k s)
/-- `exec` of `.restripePageCommit`. -/
def execRestripePageCommit (p k : Nat) (s : State) : Host.Outcome State Fault Refusal := .next (doPageCommit p k s)
/-- `exec` of `.linkRowReceive`. -/
def execLinkRowReceive (ch : Nat) (row : BitVec 2048) (bad : Bool) (s : State) : Host.Outcome State Fault Refusal := .next (doRowReceive ch row bad s)
/-- `exec` of `.recvRowLand`. -/
def execRecvRowLand (p k : Nat) (s : State) : Host.Outcome State Fault Refusal := .next (doRowLand p k s)
/-- `exec` of `.remoteQueueRoom`. -/
def execRemoteQueueRoom (ch n : Nat) (s : State) : Host.Outcome State Fault Refusal := .next (doRemoteRoom ch n s)

end Sys2Proof.Machine
end

