-- ==== Sys2Proof/Machine/Ctl.lean ====
section
/-! DEFINITION. The slot CX: formats and scales, cluster barriers, the count queue, bank release, control registers
(R92, R105, R106, R173, R324 to R327, R336, R337, R346, R376, R381). -/

namespace Sys2Proof.Machine

/-- A CX operation as far as slot, ports and the registers read through them go. -/
def cxBase (c : Ctx) (g : BitVec 3) (ports : List (Nat × Nat)) : OpSem :=
  { opBase c 14 g with reads := ports.map (fun q => commonReg q.1), ports := ports }

/-- FMT takes an image after four steps (R105, R346). -/
def landFmt (o : OpSem) (v : Word) (bad : Bool) : OpSem :=
  { o with res := [⟨.fmt, v.setWidth 2048, fullMask, 4, bad⟩], isFmt := true }

/-- `fmt imm16` (R346). -/
def semFmtImm (g : BitVec 3) (i : BitVec 16) (p : Nat) (s : State) : OpSem :=
  landFmt (cxBase (getCtx s p) g []) (i.setWidth 64) false

/-- `fmt cS` (R346): the image is not checked. -/
def semFmtReg (g : BitVec 3) (rp : BitVec 2) (r : BitVec 5) (p : Nat) (s : State) : OpSem :=
  let c := getCtx s p
  landFmt (cxBase c g [(r.toNat, rp.toNat)]) (regWord c (commonReg r.toNat)) (regBad c (commonReg r.toNat))

/-- `sclt` (R381): byte n of cL gives entry n, byte n of cH entry 8 + n. -/
def semSclt (g : BitVec 3) (hp : BitVec 2) (h : BitVec 5) (lp : BitVec 2) (l : BitVec 5) (p : Nat) (s : State) : OpSem :=
  let c := getCtx s p
  let lo := regWord c (commonReg l.toNat)
  let hi := regWord c (commonReg h.toNat)
  { cxBase c g [(h.toNat, hp.toNat), (l.toNat, lp.toNat)] with
    res := [⟨.scl, BitVec.ofNat 2048 (lo.toNat + hi.toNat * 2 ^ 64), fullMask, 4, anyBad c [commonReg l.toNat, commonReg h.toNat]⟩]
    isScl := true }

/-! ### Barriers (R324 to R327) -/

/-- The phase of a barrier completes: ARR returns to zero, and the cores of its arrivals take the largest of their pts
at arrival (R325).  Every wait ends after the completion and as an acquire does, also that of a core that made no arrival, so
that the copies that could be out of date go with it (R326). (DESIGN CHOICE, log 79.) -/
def barComplete (cl b : Nat) (s : State) : State :=
  let ps := smGet [] (getCluster s cl).parts b
  let s1 := acquired true (updCluster cl (fun k => { k with arr := smSet 0 k.arr b 0, parts := smSet [] k.parts b [] }) s)
  match ps with
  | [] => s1
  | e :: es =>
    let top := es.foldl (fun t q => serMax t q.2) e.2
    ps.foldl (fun t q => jumpPts q.1 top t) s1

/-- An arrival at a barrier, at issue (R325). -/
def barArrive (p b : Nat) (s : State) : State :=
  let cl := clusterOf p
  let pts := (getCore s (coreOf p)).pts
  let s1 := updCluster cl (fun k => { k with parts := smSet [] k.parts b (smGet [] k.parts b ++ [(coreOf p, pts)]) }) s
  if smGet 0 (getCluster s cl).count b = 0 then barComplete cl b s1
  else
    let n := smGet 0 (getCluster s cl).arr b + 1
    let s2 := updCluster cl (fun k => { k with arr := smSet 0 k.arr b n }) s1
    if n = smGet 0 (getCluster s cl).count b then barComplete cl b s2 else s2

/-- `bar` and `bar.arrive`: the arrival follows the context's earlier accesses as a `fence.rel.cl` would make it (R326);
for `bar` the wait falls on the next group (R325). (DEDUCED, log 41.) -/
def semArrive (wait : Bool) (g : BitVec 3) (b : BitVec 11) (p : Nat) (s : State) : OpSem :=
  { cxBase (getCtx s p) g [] with
    blocks := releasing s p
    effect := fun t =>
      let t1 := barArrive p b.toNat t
      if wait then updCtx p (fun c => { c with barWait := some b.toNat }) t1 else t1 }

/-- `bar` (R325). -/
def semBar (g : BitVec 3) (b : BitVec 11) : Nat → State → OpSem := semArrive true g b
/-- `bar.arrive` (R325). -/
def semBarArrive (g : BitVec 3) (b : BitVec 11) : Nat → State → OpSem := semArrive false g b

/-- `bar.wait` (R325). -/
def semBarWait (g : BitVec 3) (b : BitVec 11) (p : Nat) (s : State) : OpSem :=
  { cxBase (getCtx s p) g [] with blocks := smGet 0 (getCluster s (clusterOf p)).arr b.toNat != 0 }

/-- `barc` (R327). -/
def semBarc (g : BitVec 3) (rp : BitVec 2) (r : BitVec 5) (b : BitVec 11) (p : Nat) (s : State) : OpSem :=
  let c := getCtx s p
  let n := (regWord c (commonReg r.toNat)).toNat % 2 ^ 16
  { cxBase c g [(r.toNat, rp.toNat)] with
    effect := updCluster (clusterOf p) (fun k => { k with
      count := smSet 0 k.count b.toNat n
      arr := smSet 0 k.arr b.toNat 0
      parts := smSet [] k.parts b.toNat [] }) }

/-! ### The count queue, banks, control registers -/

/-- `cqp` (R92, R336). -/
def semCqp (g : BitVec 3) (rp : BitVec 2) (r : BitVec 5) (p : Nat) (s : State) : OpSem :=
  let c := getCtx s p
  let v : BitVec 32 := (regWord c (commonReg r.toNat)).setWidth 32
  { cxBase c g [(r.toNat, rp.toNat)] with
    blocks := Config.queueEntries ≤ (getCore s (coreOf p)).cq.length
    effect := updCore (coreOf p) (fun k => { k with cq := k.cq ++ [v] }) }

/-- The bank is one of the issuing core's that the mask names. -/
def bankNamed (p : Nat) (m : BitVec 8) (id : Nat) : Bool := id / 128 == coreOf p && m.getLsbD (id % 128 / 16)

/-- A transfer still has a run to read from, or to land in, a named bank (R376): of the run that is being read, what is left to
read of it, granule by granule (R417); one that has been read whole waits only to land (Table 14-4). -/
def runsLeftIn (p : Nat) (m : BitVec 8) (x : Xfer) : Bool :=
  let n := cardRun x.card
  !x.restripe && !x.dropped && (List.range (x.count - x.next)).any (fun i =>
    let got := if i = 0 then x.buf.length else 0
    let src := ((runSrc x.card (x.next + i)).toNat + got) % 2 ^ 23
    let dst := (runDst x.card (x.next + i)).toNat % 2 ^ 23
    (!cardZero x.card && !cardSrcG x.card && decide (got < n) && (bankIds p src (n - got)).any (bankNamed p m))
      || (!cardDstG x.card && (bankIds p dst n).any (bankNamed p m)))

/-- `rel` (R173, R376): the context's banks of the named groups become owned by none. -/
def semRel (g : BitVec 3) (m : BitVec 8) (p : Nat) (s : State) : OpSem :=
  let c := getCtx s p
  { cxBase c g [] with
    blocks := c.xfers.any (runsLeftIn p m)
    effect := updCore (coreOf p) (fun k => { k with
      owners := k.owners.filter (fun e => !(m.getLsbD (e.1 / 16) && e.2 == .ctx (p % 2))) }) }

/-- The data of a line are on their way to its L2: the burst that brings them has been served (R178). -/
def onItsWay (s : State) (home line : Nat) : Bool := s.bursts.any (fun b => b.served && b.die == home && (burstLines b).contains line)

/-- A line access of the context waits at a stack in thermal hold (R297), and for no recall and no port first. -/
def waitsHeld (s : State) (p : Nat) (w : Word) (key home size : Nat) (write : Bool) : Bool :=
  if plLtype w != 0 then (cellsIn w key size).any (cellWaits s w)
  else !grantHolds s w key write && !farWaits s w home key && stackWaits s w (dieOf p) home key && !onItsWay s home (key / 64)

/-- The same of a piece of a transfer's run. -/
def pieceHeld (s : State) (p : Nat) (a : Access) (q : Word × Nat) : Bool :=
  match translate s p q.1 a with
  | .ok e =>
    let k := placeOf s e.place (dieOf p) (physAddr e q.1)
    waitsHeld s p e.place k.1 k.2 q.2 (a == .write)
  | _ => false

/-- A restripe has a request that waits at a stack in thermal hold: of a page marked, a burst of its copy; of the next page, one that
no recall and no other restripe keeps from beginning (R190, R233, R297). -/
def stripeHeld (s : State) (p : Nat) (x : Xfer) : Bool :=
  let asn := (getCtx s p).asn
  if x.marked then s.bursts.any (fun b => b.use == .copy x.num && !b.served && s.holds.contains b.stack)
  else
    let va := x.first + BitVec.ofNat 64 (2 ^ 16 * x.next)
    let e := walkTable s asn va
    let old := e.place &&& ~~~0x800
    let pa := frameAddr e.frame
    (walkBars s asn va true).isEmpty && !restriping s old pa && !stripeBad s (getCtx s p).sup { e with place := old } x.place && !grantHolds s old (placeKey old 0 pa) true
      && moveHeld s old x.place pa

/-- A transfer or restripe has a request that waits at a held stack. -/
def xferHeld (s : State) (p : Nat) (x : Xfer) : Bool :=
  let n := cardRun x.card
  let got := x.buf.length
  !x.dropped && x.held.isNone && decide (x.next < x.count) &&
    (if x.restripe then stripeHeld s p x
    else if got < n then
      cardSrcG x.card && !cardZero x.card
        && ((runPieces (runSrc x.card x.next + BitVec.ofNat 64 got) (n - got)).take 1).any (pieceHeld s p .read)
    else cardDstG x.card && (runPieces (runDst x.card x.next) n).any (pieceHeld s p .write))

/-- Array `a` is being filled from memory. -/
def fillsFrom (s : State) (core a : Nat) : Bool := (getArr s core a).st == .filling && (getArr s core a).source.isNone

/-- A matrix operation waits for the image of its tile: a `cim` that has not started, a `wpre` or a `wpin` (R148). -/
def imageWaits (s : State) (p : Nat) (m : MOp) : Bool :=
  match m.kind with
  | .cim => !m.started && (m.fallback || (match m.arr with
      | some a => fillsFrom s (coreOf p) a
      | none => false))
  | .wpre | .wpin => (copiesOf s (coreOf p) m.tag [.filling]).any (fillsFrom s (coreOf p))
  | _ => false

/-- A matrix operation waits for the image of its tile behind a held stack. -/
def imageHeld (s : State) (p : Nat) (m : MOp) : Bool :=
  imageWaits s p m
    && (List.range (imageBytes m.tag.wfmt / 64)).any (fun i =>
      let key := m.key + 64 * i
      waitsHeld s p m.place key (homeDie s m.place (copyDie m.place (dieOf p)) (key % 2 ^ 52)) 64 false)

/-- Request `k` waits for something else than its line: the return of its page, an earlier access, a restripe (R190, R195,
R235). -/
def waitsFirst (s : State) (c : Ctx) (k : Nat) (r : GReq) : Bool :=
  r.lost || (if writes r then storeWaits (earlier c k r) r || (r.kind != .store && restriping s r.place r.key)
      || (failsNow s r && ackWaits (c.reqs.take k) r)
    else r.kind != .pf && loadWaits (earlier c k r) r)

/-- An unexpired copy of the core's line cache serves the request (R205). -/
def copyServes (s : State) (p : Nat) (r : GReq) : Bool :=
  let l := lcGet s (coreOf p) (r.key / 64)
  timed r.place && !writes r && (r.kind != .pf || r.op == 0) && l.here && serLe (getCore s (coreOf p)).pts l.rts

/-- Request `k` of a context waits at a stack in thermal hold (R297).  A prefetch into an L2 asks for the line of a lattice page
too. -/
def reqHeld (s : State) (p k : Nat) (r : GReq) : Bool :=
  !r.done && !waitsFirst s (getCtx s p) k r && !copyServes s p r
    && (if r.kind == .pf then stackWaits s r.place (dieOf p) r.home r.key && !grantHolds s r.place r.key false
        && !farWaits s r.place r.home r.key && !onItsWay s r.home (r.key / 64)
      else waitsHeld s p r.place r.key r.home r.size (writes r))

/-- The replay of the context's first side-log entry, a plain lattice store, waits at a stack in thermal hold (R183, R297). -/
def sideHeld (s : State) (p : Nat) : Bool :=
  match (sideOf s p).head? with
  | none => false
  | some e => e.cause.isNone && e.kind == .store && (match replayOf s e with
    | .go x => plLtype x.place != 0 && (cellsIn x.place (placeOf s x.place (dieOf p) (physAddr x e.va)).1 e.size).any (cellWaits s x.place)
    | _ => false)

/-- STATUS.HOLD: a request of the context waits at a stack in thermal hold (R79, R297). -/
def ctxHeld (s : State) (p : Nat) : Bool :=
  let c := getCtx s p
  c.reqs.zipIdx.any (fun e => reqHeld s p e.2 e.1)
    || sideHeld s p || c.xfers.any (xferHeld s p) || c.mops.any (imageHeld s p) || c.stalled

/-- STATUS (Table 4-3). -/
def statusWord (s : State) (p : Nat) : Word :=
  let c := getCtx s p
  let k := getCore s (coreOf p)
  BitVec.ofNat 64 (c.wcol.toNat + 2 * c.wfb.toNat + 4 * c.sup.toNat + 8 * c.replay.toNat + 16 * (ctxHeld s p).toNat
    + 32 * (k.split % 4) + 256 * (k.op % 8))

/-- The value that `csrr` reads (Table 4-2); an unassigned number reads zero. -/
def csrValue (s : State) (p n : Nat) : Word :=
  let c := getCtx s p
  match n with
  | 0x000 => c.fmt.setWidth 64
  | 0x001 => statusWord s p
  | 0x002 => ctlWord (getCore s (coreOf p))
  | 0x003 => c.age.setWidth 64
  | 0x004 => (c.gpred ||| 1).setWidth 64
  | 0x005 => c.seed.setWidth 64
  | 0x006 => c.mpc
  | 0x008 => BitVec.ofNat 64 c.stepc
  | 0x009 => BitVec.ofNat 64 (getCore s (coreOf p)).cycle
  | 0x00A => c.wfbcnt
  | 0x010 => BitVec.ofNat 64 c.lseq
  | 0x011 => BitVec.ofNat 64 c.lclus
  | 0x012 => BitVec.ofNat 64 c.lclcnt
  | 0x013 => BitVec.ofNat 64 c.lqpos
  | 0x014 => BitVec.ofNat 64 c.lctxn
  | 0x020 => c.scl.setWidth 64
  | 0x021 => (c.scl >>> 64).setWidth 64
  | n =>
    if 0x018 ≤ n ∧ n ≤ 0x01D then loopIndex c (n - 0x018)
    else if 0x100 ≤ n ∧ n ≤ 0x107 then (servedRec s p).getD (n - 0x100) 0
    else 0

/-- The privilege fault of a Supervisor register outside supervisor mode (R78). -/
def csrCause (c : Ctx) (n : BitVec 12) : Option Cause := if csrSupervisor n.toNat && !c.sup then some (privCause 14) else none

/-- The state as a group of the context issues: the group waits for no stack. -/
def unstalled (p : Nat) (s : State) : State := updCtx p (fun c => { c with stalled := false }) s

/-- `csrr` (R78, R337): the value at issue lands after two steps. -/
def semCsrr (g : BitVec 3) (d : BitVec 5) (n : BitVec 12) (p : Nat) (s : State) : OpSem :=
  let c := getCtx s p
  { cxBase c g [] with
    res := [wordRes (commonReg d.toNat) (csrValue (unstalled p s) p n.toNat) 2 false]
    cause := csrCause c n }

/-- `csrw` (R78, R337): the register changes for groups from step s + 2. -/
def semCsrw (g : BitVec 3) (rp : BitVec 2) (r : BitVec 5) (n : BitVec 12) (p : Nat) (s : State) : OpSem :=
  let c := getCtx s p
  { cxBase c g [(r.toNat, rp.toNat)] with
    res := [⟨.csr n.toNat, (regWord c (commonReg r.toNat)).setWidth 2048, fullMask, 2, false⟩]
    cause := csrCause c n }

/-- `exec` of `.fmtImm`. -/
def execFmtImm (g : BitVec 3) (i : BitVec 16) (s : State) : Host.Outcome State Fault Refusal :=
  issueSolo (.fmtImm g i) (semFmtImm g i s.cur s) s
/-- `exec` of `.fmtReg`. -/
def execFmtReg (g : BitVec 3) (p : BitVec 2) (r : BitVec 5) (s : State) : Host.Outcome State Fault Refusal :=
  issueSolo (.fmtReg g p r) (semFmtReg g p r s.cur s) s
/-- `exec` of `.sclt`. -/
def execSclt (g : BitVec 3) (q : BitVec 2) (h : BitVec 5) (p : BitVec 2) (l : BitVec 5) (s : State) : Host.Outcome State Fault Refusal :=
  issueSolo (.sclt g q h p l) (semSclt g q h p l s.cur s) s
/-- `exec` of `.bar`. -/
def execBar (g : BitVec 3) (b : BitVec 11) (s : State) : Host.Outcome State Fault Refusal :=
  issueSolo (.bar g b) (semBar g b s.cur s) s
/-- `exec` of `.barArrive`. -/
def execBarArrive (g : BitVec 3) (b : BitVec 11) (s : State) : Host.Outcome State Fault Refusal :=
  issueSolo (.barArrive g b) (semBarArrive g b s.cur s) s
/-- `exec` of `.barWait`. -/
def execBarWait (g : BitVec 3) (b : BitVec 11) (s : State) : Host.Outcome State Fault Refusal :=
  issueSolo (.barWait g b) (semBarWait g b s.cur s) s
/-- `exec` of `.barc`. -/
def execBarc (g : BitVec 3) (p : BitVec 2) (r : BitVec 5) (b : BitVec 11) (s : State) : Host.Outcome State Fault Refusal :=
  issueSolo (.barc g p r b) (semBarc g p r b s.cur s) s
/-- `exec` of `.cqp`. -/
def execCqp (g : BitVec 3) (p : BitVec 2) (r : BitVec 5) (s : State) : Host.Outcome State Fault Refusal :=
  issueSolo (.cqp g p r) (semCqp g p r s.cur s) s
/-- `exec` of `.rel`. -/
def execRel (g : BitVec 3) (m : BitVec 8) (s : State) : Host.Outcome State Fault Refusal :=
  issueSolo (.rel g m) (semRel g m s.cur s) s
/-- `exec` of `.csrr`. -/
def execCsrr (g : BitVec 3) (d : BitVec 5) (n : BitVec 12) (s : State) : Host.Outcome State Fault Refusal :=
  issueSolo (.csrr g d n) (semCsrr g d n s.cur s) s
/-- `exec` of `.csrw`. -/
def execCsrw (g : BitVec 3) (p : BitVec 2) (s0 : BitVec 5) (n : BitVec 12) (s : State) : Host.Outcome State Fault Refusal :=
  issueSolo (.csrw g p s0 n) (semCsrw g p s0 n s.cur s) s

end Sys2Proof.Machine
end

