-- ==== Sys2Proof/Machine/Branch.lean ====
section
/-! DEFINITION. The slot BR, and `skip`: branches, loops, breakpoints, fences, waits, the metadata counter, the ends of
tasks (R75, R90 to R95, R193, R228, R238, R239, R280, R285, R329 to R331, R341, R343, R356, R363, R366, R378, R387,
R393, R394, R413, R422). -/

namespace Sys2Proof.Machine

/-- A BR operation as far as its slot goes. -/
def brBase (c : Ctx) (g : BitVec 3) : OpSem := opBase c 15 g

/-- The address `4 × sext(o, 16)` bytes from the group's. -/
def relative (c : Ctx) (o : BitVec 16) : Word := c.pc + BitVec.ofInt 64 (4 * o.toInt)

/-- The condition field names a register: not c0 on port 0 (R75). -/
def hasCond (r : BitVec 5) (q : BitVec 2) : Bool := !(r == 0 && q == 0)

/-- The condition holds: absent, or its register non-zero (R329). -/
def condOn (c : Ctx) (r : BitVec 5) (q : BitVec 2) : Bool := !hasCond r q || regWord c (commonReg r.toNat) != 0

/-- A BR operation with a condition. -/
def condBase (c : Ctx) (g : BitVec 3) (r : BitVec 5) (q : BitVec 2) : OpSem :=
  { brBase c g with
    reads := if hasCond r q then [commonReg r.toNat] else []
    ports := if hasCond r q then [(r.toNat, q.toNat)] else [] }

/-- `br` (R329). -/
def semBr (g : BitVec 3) (r : BitVec 5) (q : BitVec 2) (o : BitVec 16) (p : Nat) (s : State) : OpSem :=
  let c := getCtx s p
  { condBase c g r q with seq := if condOn c r q then .jump (relative c o) true else .flow }

/-- `call` (R331): taken, it lands the address past the group in c31. -/
def semCall (g : BitVec 3) (r : BitVec 5) (q : BitVec 2) (o : BitVec 16) (p : Nat) (pre : Pre) (s : State) : OpSem :=
  let c := getCtx s p
  { condBase c g r q with
    res := if condOn c r q then [wordRes (commonReg 31) pre.next 1 false] else []
    seq := if condOn c r q then .jump (relative c o) false else .flow }

/-- `ret` (R378): c31 is read through the sequencer and takes no port. -/
def semRet (g : BitVec 3) (r : BitVec 5) (q : BitVec 2) (p : Nat) (s : State) : OpSem :=
  let c := getCtx s p
  let b := condBase c g r q
  { b with
    reads := commonReg 31 :: b.reads
    seq := if condOn c r q then .jump (regWord c (commonReg 31) &&& ~~~3) true else .flow }

/-! ### Loops (R90, R91, R363) -/

/-- The entry that `loop` pushes, or with `stages` that `lsp` pushes, for a count that is not zero. -/
def loopEntry (stages : Option Nat) (n len : Nat) : LoopEntry :=
  { lsp := stages.isSome, index := 0, bound := match stages with
      | some k => n + k - 1
      | none => n
    stages := stages.getD 0, start := 0, len := len, fmtBit := false, scltBit := false, opBit := false, scan := 0, last := 0,
    left := len, here := 0, buf := len ≤ 64, fresh := len ≤ 64, full := false }

/-- `loop` and `lsp` with their count read (R363): a count of zero passes over the body; a seventh entry is a fault. -/
def semLoopN (b : OpSem) (c : Ctx) (stages : Option Nat) (n len : Nat) : OpSem :=
  { b with
    cause := if n ≠ 0 ∧ Config.loopDepth ≤ c.loops.length then some (plainCause 3 15) else none
    seq := if n = 0 then .over len else .push (loopEntry stages n len) }

/-- The count of a common register: bits 31:0 (R91).  Whether a seventh entry is asked for rests on it. -/
def semLoopC (c : Ctx) (g : BitVec 3) (stages : Option Nat) (q : BitVec 2) (r : BitVec 5) (len : Nat) : OpSem :=
  let o := semLoopN { brBase c g with reads := [commonReg r.toNat], ports := [(r.toNat, q.toNat)] } c stages
    ((regWord c (commonReg r.toNat)).toNat % 2 ^ 32) len
  { o with cause := if seen c [commonReg r.toNat] then o.cause else none }

/-- The count of the core's count queue: its head is consumed at issue; an empty queue blocks (R92). -/
def semLoopP (p : Nat) (s : State) (g : BitVec 3) (stages : Option Nat) (len : Nat) : OpSem :=
  let c := getCtx s p
  match (getCore s (coreOf p)).cq with
  | [] => { brBase c g with blocks := true }
  | n :: _ => { semLoopN (brBase c g) c stages n.toNat len with
      effect := updCore (coreOf p) (fun k => { k with cq := k.cq.drop 1 }) }

/-- `loop` with an immediate count (R363). -/
def semLoop (g : BitVec 3) (l : BitVec 12) (n : BitVec 9) (p : Nat) (s : State) : OpSem :=
  semLoopN (brBase (getCtx s p) g) (getCtx s p) none n.toNat (l.toNat + 1)
/-- `loop` counted by a common register (R363). -/
def semLoopReg (g : BitVec 3) (l : BitVec 12) (q : BitVec 2) (r : BitVec 5) (p : Nat) (s : State) : OpSem :=
  semLoopC (getCtx s p) g none q r (l.toNat + 1)
/-- `loop.q` (R363). -/
def semLoopQ (g : BitVec 3) (l : BitVec 12) (p : Nat) (s : State) : OpSem := semLoopP p s g none (l.toNat + 1)
/-- `lsp` with an immediate count (R363). -/
def semLsp (g k : BitVec 3) (l n : BitVec 9) (p : Nat) (s : State) : OpSem :=
  semLoopN (brBase (getCtx s p) g) (getCtx s p) (some (k.toNat + 1)) n.toNat (l.toNat + 1)
/-- `lsp` counted by a common register (R363). -/
def semLspReg (g k : BitVec 3) (l : BitVec 9) (q : BitVec 2) (r : BitVec 5) (p : Nat) (s : State) : OpSem :=
  semLoopC (getCtx s p) g (some (k.toNat + 1)) q r (l.toNat + 1)
/-- `lsp.q` (R363). -/
def semLspQ (g k : BitVec 3) (l : BitVec 9) (p : Nat) (s : State) : OpSem := semLoopP p s g (some (k.toNat + 1)) (l.toNat + 1)

/-! ### Traps by instruction (R280, R330, R393) -/

/-- `brk` (R330). -/
def semBrk (g : BitVec 3) (k : BitVec 16) (p : Nat) (s : State) : OpSem :=
  { brBase (getCtx s p) g with seq := .trap 0x0C k.toNat }
/-- `trap` (R393). -/
def semTrap (g : BitVec 3) (k : BitVec 16) (p : Nat) (s : State) : OpSem :=
  { brBase (getCtx s p) g with seq := .trap 0x0D k.toNat }

/-! ### Fences and waits (R183, R184, R193, R228, R238, R343, R356, R413) -/

/-- What every fence waits for beside accesses: side-log replay and the context's last `xinv` (R183, R184). -/
def fenceWaits (s : State) (p : Nat) : Bool := !(sideOf s p).isEmpty || !(getCtx s p).xinvOut.isEmpty

/-- Some earlier load is not performed. -/
def loadsOut (c : Ctx) : Bool :=
  c.reqs.any (fun r => r.kind == .load || r.kind == .lwt || r.kind == .gam) || !(openLoads c).isEmpty

/-- `fence` (R193, R228, R343): `.acq` waits for earlier loads, the other kinds for every earlier access to be
acknowledged; `.acq` and the full fence end an acquire.  The scope is not read. (DESIGN CHOICE, log 79.) -/
def semFence (g : BitVec 3) (k : BitVec 2) (_sc : BitVec 3) (p : Nat) (s : State) : OpSem :=
  let c := getCtx s p
  { brBase c g with
    blocks := fenceWaits s p || (if k = 1 then loadsOut c else releasing s p)
    effect := acquired (k == 0 || k == 1) }

/-- The path of a `fence.x` mask is still busy (R238).  The runs of completed transfers have all been performed. -/
def pathBusy (s : State) (p : Nat) (m : BitVec 5) : Bool :=
  let c := getCtx s p
  (m.getLsbD 0 && releasing s p) || (m.getLsbD 2 && c.mops.any (fun o => !o.started)) || (m.getLsbD 3 && !c.links.isEmpty)
    || (m.getLsbD 4 && !c.walks.isEmpty)

/-- A core's pts rises to a stamp, where there is one. -/
def raiseTo (core : Nat) (o : Option Stamp) (s : State) : State :=
  match o with
  | some t => jumpPts core t s
  | none => s

/-- pts rises to the stamps acknowledged to the context on the named paths, where GM is one (R238): those of the GM path
have raised it already (R206). -/
def fenceRaise (p : Nat) (m : BitVec 5) (s : State) : State :=
  let c := getCtx s p
  raiseTo (coreOf p) (if m.getLsbD 0 && m.getLsbD 4 then c.xlWts else none)
    (raiseTo (coreOf p) (if m.getLsbD 0 && m.getLsbD 1 then c.ceWts else none) s)

/-- `fence.x` (R238, R239, R343). -/
def semFenceX (g : BitVec 3) (_sc : BitVec 3) (m : BitVec 5) (p : Nat) (s : State) : OpSem :=
  { brBase (getCtx s p) g with
    blocks := fenceWaits s p || pathBusy s p m
    effect := fenceRaise p m }

/-- Fetched code is discarded: the context's loop buffer and its core's instruction cache (R257, R356). -/
def dropCode (p : Nat) (s : State) : State :=
  updCore (coreOf p) (fun k => { k with icache := [] }) (updCtx p (unbuffer false s p) s)

/-- `ifence` (R356). -/
def semIfence (g : BitVec 3) (p : Nat) (s : State) : OpSem :=
  let c := getCtx s p
  { brBase c g with
    blocks := c.reqs.any (fun r => r.kind == .store || r.kind == .gam) || !c.xfers.isEmpty
      || (sideOf s p).any (fun e => e.kind == .store || e.kind == .gam)
    effect := dropCode p }

/-- `wait n` (R413). -/
def semWait (g : BitVec 3) (n : BitVec 4) (p : Nat) (s : State) : OpSem :=
  let c := getCtx s p
  { brBase c g with
    blocks := match n.toNat with
      | 0 => !c.pend.isEmpty
      | 1 => !c.xfers.isEmpty
      | 2 => c.mops.any (fun m => m.kind == .drn)
      | _ => !(sideOf s p).isEmpty
    seq := if n = 0 then .idle else .flow }

/-- `mpc` (R366): for groups from the next step on. -/
def semMpc (g : BitVec 3) (o : BitVec 16) (p : Nat) (s : State) : OpSem :=
  let c := getCtx s p
  { brBase c g with seq := .metaTo (relative c o) }

/-- `yld` (R422). -/
def semYld (g : BitVec 3) (p : Nat) (s : State) : OpSem := { brBase (getCtx s p) g with seq := .yield }

/-! ### Ends (R31, R260, R285, R341, R394) -/

/-- `done` (R31, R285, R341). -/
def semDone (g : BitVec 3) (p : Nat) (s : State) : OpSem :=
  let c := getCtx s p
  { brBase c g with
    blocks := !c.mops.isEmpty || !c.xfers.isEmpty || !(sideOf s p).isEmpty
    seq := .ended
    effect := fun t =>
      let t1 := updCtx p (fun z => { z with st := .draining }) (dissolveAll p t)
      match (getCtx t p).serves with
      | some q => drainTrapped q t1
      | none => t1 }

/-- `tret` (R285, R394): it waits as a full fence of scope `.core` would; the handler ends, its landing-buffer entries
landing as for `done`, and the served context is Ready. -/
def semTret (g : BitVec 3) (p : Nat) (s : State) : OpSem :=
  let c := getCtx s p
  { brBase c g with
    cause := if c.sup then none else some (privCause 15)
    blocks := fenceWaits s p || releasing s p
    seq := .ended
    effect := fun t =>
      let t1 := updCtx p (fun z => { z with st := .draining }) t
      match (getCtx t p).serves with
      | some q => trapReturn q t1
      | none => t1 }

/-! ### Idle groups (R27, R50, R387) -/

/-- The group that `skip` makes: IDLE + 1 steps, no operation, its operating-point request. -/
def skipGrp (c : Ctx) (i : BitVec 8) (v : BitVec 1) (o : BitVec 3) : Grp :=
  ⟨c.pc, c.pc, c.pc + 4, if v = 1 then some o else none, [], i.toNat + 1⟩

/-- `exec` of `.skip`: its first step issues; the others follow one a cycle. -/
def execSkip (i : BitVec 8) (v : BitVec 1) (o : BitVec 3) (s : State) : Host.Outcome State Fault Refusal :=
  let p := s.cur
  let c := getCtx s p
  if competes c then
    let g := skipGrp c i v o
    let f : Fetched := ⟨g, 0, if (Instr.skip i v o).wf then [] else [illegal 16], []⟩
    let a := tryGroup s p f []
    let s1 := settleAttempt p a s
    match a with
    | .ready g ops => .next (issueGroup p g ops s1)
    | _ => .next s1
  else .next s

/-- `exec` of `.br`. -/
def execBr (g : BitVec 3) (c : BitVec 5) (p : BitVec 2) (o : BitVec 16) (s : State) : Host.Outcome State Fault Refusal :=
  issueSolo (.br g c p o) (semBr g c p o s.cur s) s
/-- `exec` of `.call`. -/
def execCall (g : BitVec 3) (c : BitVec 5) (p : BitVec 2) (o : BitVec 16) (s : State) : Host.Outcome State Fault Refusal :=
  issueSolo (.call g c p o)
    (semCall g c p o s.cur { next := (soloGrp (getCtx s s.cur) (.call g c p o) 15).next } s) s
/-- `exec` of `.ret`. -/
def execRet (g : BitVec 3) (c : BitVec 5) (p : BitVec 2) (s : State) : Host.Outcome State Fault Refusal :=
  issueSolo (.ret g c p) (semRet g c p s.cur s) s
/-- `exec` of `.loop`. -/
def execLoop (g : BitVec 3) (l : BitVec 12) (n : BitVec 9) (s : State) : Host.Outcome State Fault Refusal :=
  issueSolo (.loop g l n) (semLoop g l n s.cur s) s
/-- `exec` of `.loopReg`. -/
def execLoopReg (g : BitVec 3) (l : BitVec 12) (p : BitVec 2) (r : BitVec 5) (s : State) : Host.Outcome State Fault Refusal :=
  issueSolo (.loopReg g l p r) (semLoopReg g l p r s.cur s) s
/-- `exec` of `.loopQ`. -/
def execLoopQ (g : BitVec 3) (l : BitVec 12) (s : State) : Host.Outcome State Fault Refusal :=
  issueSolo (.loopQ g l) (semLoopQ g l s.cur s) s
/-- `exec` of `.lsp`. -/
def execLsp (g : BitVec 3) (s0 : BitVec 3) (l : BitVec 9) (n : BitVec 9) (s : State) : Host.Outcome State Fault Refusal :=
  issueSolo (.lsp g s0 l n) (semLsp g s0 l n s.cur s) s
/-- `exec` of `.lspReg`. -/
def execLspReg (g : BitVec 3) (s0 : BitVec 3) (l : BitVec 9) (p : BitVec 2) (r : BitVec 5) (s : State) : Host.Outcome State Fault Refusal :=
  issueSolo (.lspReg g s0 l p r) (semLspReg g s0 l p r s.cur s) s
/-- `exec` of `.lspQ`. -/
def execLspQ (g : BitVec 3) (s0 : BitVec 3) (l : BitVec 9) (s : State) : Host.Outcome State Fault Refusal :=
  issueSolo (.lspQ g s0 l) (semLspQ g s0 l s.cur s) s
/-- `exec` of `.brk`. -/
def execBrk (g : BitVec 3) (c : BitVec 16) (s : State) : Host.Outcome State Fault Refusal :=
  issueSolo (.brk g c) (semBrk g c s.cur s) s
/-- `exec` of `.fence`. -/
def execFence (g : BitVec 3) (k : BitVec 2) (s0 : BitVec 3) (s : State) : Host.Outcome State Fault Refusal :=
  issueSolo (.fence g k s0) (semFence g k s0 s.cur s) s
/-- `exec` of `.fenceX`. -/
def execFenceX (g : BitVec 3) (s0 : BitVec 3) (p : BitVec 5) (s : State) : Host.Outcome State Fault Refusal :=
  issueSolo (.fenceX g s0 p) (semFenceX g s0 p s.cur s) s
/-- `exec` of `.ifence`. -/
def execIfence (g : BitVec 3) (s : State) : Host.Outcome State Fault Refusal :=
  issueSolo (.ifence g) (semIfence g s.cur s) s
/-- `exec` of `.wait`. -/
def execWait (g : BitVec 3) (n : BitVec 4) (s : State) : Host.Outcome State Fault Refusal :=
  issueSolo (.wait g n) (semWait g n s.cur s) s
/-- `exec` of `.mpc`. -/
def execMpc (g : BitVec 3) (o : BitVec 16) (s : State) : Host.Outcome State Fault Refusal :=
  issueSolo (.mpc g o) (semMpc g o s.cur s) s
/-- `exec` of `.yld`. -/
def execYld (g : BitVec 3) (s : State) : Host.Outcome State Fault Refusal :=
  issueSolo (.yld g) (semYld g s.cur s) s
/-- `exec` of `.trap`. -/
def execTrap (g : BitVec 3) (c : BitVec 16) (s : State) : Host.Outcome State Fault Refusal :=
  issueSolo (.trap g c) (semTrap g c s.cur s) s
/-- `exec` of `.tret`. -/
def execTret (g : BitVec 3) (s : State) : Host.Outcome State Fault Refusal :=
  issueSolo (.tret g) (semTret g s.cur s) s
/-- `exec` of `.done`. -/
def execDone (g : BitVec 3) (s : State) : Host.Outcome State Fault Refusal :=
  issueSolo (.done g) (semDone g s.cur s) s

end Sys2Proof.Machine
end

