-- ==== Sys2Proof/Machine/Launch.lean ====
section
/-! DEFINITION. The scheduler up to binding: commands, the journal, launch records and their checks, `dlc`, apportioning,
dispatch, and the final states of launches (R22, R245 to R268, R292, R340). -/

namespace Sys2Proof.Machine

/-! ### The journal (R249 to R251) -/

/-- The record slot of a launch. -/
def slotOf (s : State) (seq : Nat) : Nat :=
  match ringOf s with
  | some r => r.area + 8192 * (seq % r.size)
  | none => 0

/-- The codes of Table 16-5. -/
def stateCode : LState → Nat
  | .accepted => 0
  | .dispatched => 1
  | .running => 2
  | .completed => 3
  | .faulted => 4
  | .relaunched => 5

/-- The fields of a launch's entry that change, and its STATE last (R250, R251). -/
def journalLaunch (l : Launch) (s : State) : State :=
  journalPut l.seq 8 1 (stateCode l.st) (journalPut l.seq 40 8 l.fgroup.toNat
    (journalPut l.seq 32 4 l.bound (journalPut l.seq 10 2 l.cause s)))

/-- The entry that a launch number would use is in a final state (R247, R263). -/
def entryFree (s : State) (seq : Nat) : Bool :=
  match ringOf s with
  | some r => s.launches.all (fun l => l.seq % r.size != seq % r.size)
  | none => false

/-- A new entry: every field written, STATE last (Table 16-4). -/
def journalNew (seq src origin cause : Nat) (st : LState) (s : State) : State :=
  match ringOf s with
  | none => s
  | some r => deviceWrite (r.base + 64 * (seq % r.size)) (bytesLE 8 seq ++ bytesLE 1 (stateCode st) ++ bytesLE 1 src
      ++ bytesLE 2 cause ++ bytesLE 4 0 ++ bytesLE 8 (slotOf s seq) ++ bytesLE 8 origin ++ bytesLE 32 0) s

/-! ### The record's checks (R22, R252, R254) -/

/-- The live cores of a cluster. -/
def clusterLive (s : State) (cl : Nat) : List Nat := ((List.range 4).map (· + 4 * cl)).filter (coreLive s)

/-- The live clusters that can hold a number of cores. -/
def capable (s : State) (cores : Nat) : Nat := (List.range 64).countP (fun cl => cores ≤ (clusterLive s cl).length)

/-- NCLUS. -/
def recNclus (r : BitVec 4096) : Nat := recField r 8 2
/-- CORES. -/
def recCores (r : BitVec 4096) : Nat := recField r 10 1
/-- CTXS. -/
def recCtxs (r : BitVec 4096) : Nat := recField r 11 1
/-- CLASS = 1. -/
def recLatency (r : BitVec 4096) : Bool := recField r 12 1 == 1
/-- FLAGS: bit 0 INDIRECT, 1 MILE, 2 GANG. -/
def recFlag (r : BitVec 4096) (i : Nat) : Bool := bitOf (recField r 13 1) i
/-- RANGEi: base, length, kinds, reserved byte. -/
def recRange (r : BitVec 4096) (i : Nat) : Nat × Nat × Nat × Nat :=
  (recField r (128 + 16 * i) 8, recField r (136 + 16 * i) 6, recField r (142 + 16 * i) 1, recField r (143 + 16 * i) 1)
/-- The declared ranges in use. -/
def recRanges (r : BitVec 4096) : List Range :=
  (List.range (Nat.min 16 (recField r 14 1))).map (fun i => ⟨(recRange r i).1, (recRange r i).2.1, (recRange r i).2.2.1⟩)
/-- The predecessors in use. -/
def recPreds (r : BitVec 4096) : List Nat := (List.range (Nat.min 4 (recField r 15 1))).map (fun i => recField r (16 + 8 * i) 8)

/-- A range outside its set. -/
def rangeBad (x : Nat × Nat × Nat × Nat) : Bool :=
  x.1 % 65536 != 0 || x.2.1 == 0 || x.2.1 % 65536 != 0 || 16 ≤ x.2.2.1 || x.2.2.2 != 0

/-- Two of the ranges overlap. -/
def rangesMeet (rs : List Range) : Bool :=
  (List.range rs.length).any (fun i => (List.range i).any (fun j => match rs[i]?, rs[j]? with
    | some a, some b => a.base < b.base + b.len && b.base < a.base + a.len
    | _, _ => false))

/-- A field outside its set, or a reserved one not zero (Table 16-6). -/
def recordBad (r : BitVec 4096) (block : Bool) : Bool :=
  recCores r == 0 || 4 < recCores r || recCtxs r == 0 || 2 < recCtxs r || 1 < recField r 12 1 || 8 ≤ recField r 13 1
    || 16 < recField r 14 1 || 4 < recField r 15 1 || recField r 82 6 != 0 || recField r 120 8 != 0 || recField r 424 88 != 0
    || (!block && !recFlag r 0 && (recNclus r == 0 || 1024 < recNclus r))
    || (List.range (Nat.min 16 (recField r 14 1))).any (fun i => rangeBad (recRange r i))
    || (List.range 16).any (fun i => recField r 14 1 ≤ i && recRange r i != (0, 0, 0, 0))
    || rangesMeet (recRanges r)

/-- A predecessor that is not below the launch, or whose entry does not hold it. -/
def predBad (s : State) (seq q : Nat) : Bool :=
  seq ≤ q || ((findLaunch s q).isNone && (smGet none s.finals q).isNone) || (match ringOf s with
    | some r => q + r.size ≤ seq || q < r.first
    | none => true)

/-- GANG with more clusters than the live ones that can hold the footprint (R254). -/
def gangShort (s : State) (r : BitVec 4096) (n : Nat) : Bool := recFlag r 2 && capable s (recCores r) < n

/-- The cause with which a record is faulted at acceptance, 0 for none (R22, R254). (DEDUCED, log 42.) -/
def recordCause (s : State) (seq : Nat) (r : BitVec 4096) (block : Bool) : Nat :=
  if recordBad r block || (recPreds r).any (predBad s seq) then 0x50
  else if capable s (recCores r) = 0 then 0x54
  else if !recFlag r 0 && !block && gangShort s r (recNclus r) then 0x54
  else 0

/-! ### Apportioned blocks (R264 to R267) -/

/-- NGRP, CBUD and NTILE of a block. -/
def blkWord (b : List Byte) (off n : Nat) : Nat := natLE ((b.drop off).take n)

/-- The tile records: number, GROUP, ROWS. -/
def blkTiles (b : List Byte) : List (Nat × Nat × Nat) :=
  (List.range (blkWord b 516 2)).map (fun t => (t, blkWord b (832 + 16 * t) 2, blkWord b (834 + 16 * t) 2))

/-- GROUP numbers ascend. -/
def ascending : List (Nat × Nat × Nat) → Bool
  | x :: y :: r => x.2.1 ≤ y.2.1 && ascending (y :: r)
  | _ => true

/-- The block is invalid (R266). -/
def blockBad (r : BitVec 4096) (b : List Byte) : Bool :=
  let g := blkWord b 512 2
  let c := blkWord b 514 2
  let n := blkWord b 516 2
  recNclus r != 0 || recFlag r 0 || recFlag r 1 || g == 0 || 64 < g || c == 0 || 1024 < c || n == 0 || 448 < n
    || (blkTiles b).any (fun t => g ≤ t.2.1 || t.2.2 == 0 || 32 < t.2.2) || !ascending (blkTiles b)

/-- The capacities applied in record order (R265): the tiles that remain with their rows, and the rows dropped. -/
def capWalk (cap : Nat → Nat) : List (Nat × Nat × Nat) → Nat → Nat → List (Nat × Nat × Nat) × Nat
  | [], _, _ => ([], 0)
  | (t, g, r) :: rest, cur, tot =>
    let had := if g = cur then tot else 0
    let k := if cap g = 0 then r else Nat.min r (cap g - had)
    let z := capWalk cap rest g (had + k)
    (if k = 0 then z.1 else (t, g, k) :: z.1, z.2 + (r - k))

/-- The tiles of a block that remain, and DROPPED. -/
def capped (b : List Byte) : List (Nat × Nat × Nat) × Nat := capWalk (fun g => blkWord b (576 + 4 * g) 4) (blkTiles b) 65536 0

/-- The clusters of each group, in group order: group, first tile, tiles, clusters (R267). -/
def groupShares (ts : List (Nat × Nat × Nat)) (cbud : Nat) : List (Nat × Nat × Nat × Nat) :=
  let gs := (List.range 64).filterMap (fun g =>
    let mine := ts.filter (fun t => t.2.1 == g)
    match mine with
    | [] => none
    | t :: _ => some (g, t.1, mine.length, (mine.map (fun x => x.2.2)).sum))
  let n := gs.length
  let e := cbud - n
  let total := (gs.map (fun x => x.2.2.2)).sum
  let part := fun (rows : Nat) => e * rows / total
  let rem := fun (rows : Nat) => e * rows % total
  let extra := e - (gs.map (fun x => part x.2.2.2)).sum
  gs.map (fun x =>
    let ahead := gs.countP (fun y => rem x.2.2.2 < rem y.2.2.2 || (rem x.2.2.2 == rem y.2.2.2 && y.1 < x.1))
    (x.1, x.2.1, x.2.2.1, Nat.min x.2.2.1 (1 + part x.2.2.2 + (if ahead < extra then 1 else 0))))

/-- The tiles of the `j`-th of `k` clusters that share `n` tiles from tile `t`: first tile and number. -/
def shareOf (t n k j : Nat) : Nat × Nat :=
  (t + j * (n / k) + Nat.min j (n % k), n / k + (if j < n % k then 1 else 0))

/-- The apportioned clusters in the order of their numbers: group, first tile, tiles (R267). -/
def apportion (ts : List (Nat × Nat × Nat)) (cbud : Nat) : List (Nat × Nat × Nat) :=
  (groupShares ts cbud).flatMap (fun x => (List.range x.2.2.2).map (fun j =>
    let z := shareOf x.2.1 x.2.2.1 x.2.2.2 j
    (x.1, z.1, z.2)))

/-- The clusters of a block. -/
def blockAssign (b : List Byte) : List (Nat × Nat × Nat) := apportion (capped b).1 (blkWord b 514 2)

/-- The cause with which a block is faulted at acceptance beside those of its record: an invalid block, or GANG with too many
clusters (R254, R266). -/
def blockCause (s : State) (r : BitVec 4096) (b : List Byte) : Nat :=
  if blockBad r b then 0x52 else if gangShort s r (blockAssign b).length then 0x54 else 0

/-! ### Final states (R250, R255, R260, R261, R292) -/

/-- A launch reaches a final state: journal, the predecessors' tracking, its log entries discarded. -/
def finishLaunch (seq : Nat) (ok : Bool) (cause : Nat) (s : State) : State :=
  match findLaunch s seq with
  | none => s
  | some l0 =>
    let l := { l0 with st := if ok then .completed else .faulted, cause := if ok then 0 else cause }
    let s1 := journalLaunch l s
    { s1 with
      launches := (s1.launches.filter (fun x => x.seq != seq)).map (fun x => { x with
        preds := x.preds.map (fun q => if q.1 == seq then (q.1, some ok) else q) })
      finals := smSet none s1.finals seq (some ok)
      ctxs := s1.ctxs.filter (fun e => !(512 ≤ e.1 && e.2.lseq == seq && noLeft e.2))
      dies := smMap {} (fun _ d => { d with wlog := d.wlog.filter (fun e => e.seq != seq) }) s1.dies }

/-! ### Acceptance (R246 to R249, R263) -/

/-- A launch is accepted with the next sequence number: its record copied, its entry written, and faulted at once where
a check fails. -/
def acceptLaunch (r : BitVec 4096) (bs : List Byte) (block : Bool) (asn src origin : Nat) (pts : Stamp) (s : State) : State :=
  let seq := s.nextSeq
  let c0 := recordCause s seq r block
  let cause := if c0 = 0 && block then blockCause s r bs else c0
  let s1 := deviceWrite (slotOf s seq) bs { s with nextSeq := seq + 1 }
  let s2 := journalNew seq src origin cause (if cause = 0 then .accepted else .faulted) s1
  if cause ≠ 0 then { s2 with finals := smSet none s2.finals seq (some false) }
  else
    let l : Launch := {
      seq := seq, record := r, apportioned := block, groups := 0, assign := [], asn := asn, origin := origin, st := .accepted
      cause := 0, preds := (recPreds r).map (fun q => (q, smGet none s.finals q)), nclus := 0, bound := 0, waves := []
      fgroup := 0, ending := false, replays := 0, restartable := true, poison := false, raised := false, ptsFloor := pts
      slot := slotOf s seq }
    { s2 with launches := s2.launches ++ [l] }

/-! ### Host commands (R245 to R248, R269) -/

/-- Field of `n` bytes at byte `b` of a command. -/
def cmdField (cmd : BitVec 512) (b n : Nat) : Nat := bitsOf cmd.toNat (8 * b) (8 * n)

/-- Bytes that a kind does not name are not zero (Table 16-2). -/
def cmdReserved (cmd : BitVec 512) : Bool :=
  match cmdField cmd 0 1 with
  | 1 => cmdField cmd 1 7 != 0 || cmdField cmd 16 48 != 0
  | 2 => cmdField cmd 1 15 != 0 || cmdField cmd 48 16 != 0
  | 3 => cmdField cmd 1 7 != 0 || cmdField cmd 17 7 != 0 || cmdField cmd 32 32 != 0
  | 4 => cmdField cmd 1 15 != 0 || cmdField cmd 17 1 != 0 || cmdField cmd 22 42 != 0
  | _ => true

/-- A field outside its set, or a condition of R247. -/
def cmdWrong (cmd : BitVec 512) (s : State) : Bool :=
  match cmdField cmd 0 1 with
  | 1 => cmdField cmd 8 8 % 64 != 0 || 2 ^ 52 ≤ cmdField cmd 8 8 || !entryFree s s.nextSeq
  | 2 => (List.range 4).any (fun d => 16 < popBits 64 (cmdField cmd (16 + 8 * d) 8))
  | 3 => cmdField cmd 8 8 % 65536 != 0 || 2 ^ 52 ≤ cmdField cmd 8 8 || cmdField cmd 16 1 < 6 || 16 < cmdField cmd 16 1
      || cmdField cmd 24 8 % 65536 != 0 || 2 ^ 52 ≤ cmdField cmd 24 8 || !s.launches.isEmpty
  | _ => 1024 ≤ cmdField cmd 18 2 || 2 ≤ cmdField cmd 21 1

/-- The command stream refuses everything until it is open (R303). -/
def cmdRefused (cmd : BitVec 512) (s : State) : Bool := s.bustat != 5 || cmdReserved cmd || cmdWrong cmd s

/-- The new ring: every entry empty (R250). -/
def clearRing (base n : Nat) (s : State) : State :=
  let s1 := deviceZero base (64 * n) s
  setMem ((List.range n).foldl (fun m i => wrByte m (base + 64 * i + 8) 6) s1.mem) s1

/-- The pages whose recall a command waits for (R233): those of the record that a launch command reads, and those of the ring that
a journal command writes. -/
def cmdBars (cmd : BitVec 512) (s : State) : List Nat :=
  let a := cmdField cmd 8 8
  match cmdField cmd 0 1 with
  | 1 => deviceBars s [a / 2 ^ 16, (a + 511) / 2 ^ 16]
  | 3 => ((List.range ((64 * 2 ^ cmdField cmd 16 1 + 2 ^ 16 - 1) / 2 ^ 16)).map (a / 2 ^ 16 + ·)).filter (pageGranted s · true)
  | _ => []

/-- An accepted command's effect, beside its number.  A channel bound anew has no room until its new remote queue reports some
(DESIGN CHOICE, log 96). -/
def cmdEffect (cmd : BitVec 512) (s : State) : State :=
  match cmdField cmd 0 1 with
  | 1 =>
    let bs := rdBytes s.mem (memKey 0 (cmdField cmd 8 8)) 512
    let r : BitVec 4096 := BitVec.ofNat 4096 (natLE bs)
    acceptLaunch r bs false (recField r 80 2) 0 0 (topPts s) s
  | 2 => (List.range 4).foldl (fun t d => updDie d (fun k => { k with reserve := BitVec.ofNat 64 (cmdField cmd (16 + 8 * d) 8) }) t)
      { s with nextSeq := s.nextSeq + 1 }
  | 3 => clearRing (cmdField cmd 8 8) (2 ^ cmdField cmd 16 1) { s with
      journal := some (cmdField cmd 8 8, cmdField cmd 16 1, cmdField cmd 24 8, s.nextSeq)
      nextSeq := s.nextSeq + 1 }
  | _ => updChan (cmdField cmd 16 1) (fun h => { h with
      dev := cmdField cmd 18 2, chan := cmdField cmd 20 1, enabled := bitOf (cmdField cmd 21 1) 0, room := 0 }) { s with nextSeq := s.nextSeq + 1 }

/-- A command that waits for no page: refused, or accepted with the next number (R245, R247). -/
def takeCommand (cmd : BitVec 512) (s : State) : State :=
  if cmdRefused cmd s then { s with lastRef := true } else { cmdEffect cmd s with lastRef := false, lastSeq := s.nextSeq }

/-- Commands in the order in which they were written, as far as the first that is accepted and waits for a page: its read of the
record, or its writes of the ring, hold until the page has been recalled, and LAST reports it then (R233, R250). (DESIGN CHOICE,
log 98.) -/
def takeCommands : List (BitVec 512) → State → State
  | [], s => { s with cmds := [] }
  | c :: cs, s =>
    if !cmdRefused c s && !(cmdBars c s).isEmpty then askRecalls (cmdBars c s) { s with cmds := c :: cs }
    else takeCommands cs (takeCommand c s)

/-- One 64-byte write to CMD (R245): the command follows those that wait. -/
def runCommand (cmd : BitVec 512) (s : State) : State := takeCommands (s.cmds ++ [cmd]) s

/-- CMD_LAUNCH (R246). -/
def doCmdLaunch (cmd : BitVec 512) (s : State) : State := runCommand cmd s
/-- CMD_RESERVE_SETS (R246). -/
def doCmdReserveSets (cmd : BitVec 512) (s : State) : State := runCommand cmd s
/-- CMD_JOURNAL (R250). -/
def doCmdJournal (cmd : BitVec 512) (s : State) : State := runCommand cmd s
/-- CMD_LINK_CHANNEL (R269). -/
def doCmdLinkChannel (cmd : BitVec 512) (s : State) : State := runCommand cmd s

/-! ### `dlc` (R262 to R264, R340) -/

/-- The bytes of the block at a scratchpad offset: an apportioned one as far as its NTILE says, one outside its set counting for
448 where it is larger. (DESIGN CHOICE, log 100.) -/
def dlcBytes (s : State) (p off : Nat) (block : Bool) : Nat :=
  if !block then 512
  else if !gransFull s p off 832 then 832
  else 832 + 16 * Nat.min 448 (rdNat s.mem (scratchKey (clusterOf p) (off + 516)) 2)

/-- The rows of `n` bytes from an offset. -/
def dlcRows (n : Nat) : Nat := (n + 255) / 256 * 256

/-- `dlc` and `dlc.a` (R263, R340): it waits for full, unlocked rows, a free journal entry, and as
`fence.x gm,ce,mx,fb` does; the block is read and the launch accepted.  A block that runs past 8 MiB goes on at the start of
the cluster's scratchpad (DESIGN CHOICE, log 81); one that holds poisoned granules is read as it stands (DEDUCED, log 102). -/
def semDlcOf (block : Bool) (g : BitVec 3) (r : BitVec 5) (rp : BitVec 2) (p : Nat) (s : State) : OpSem :=
  let c := getCtx s p
  let off := (regWord c (commonReg r.toNat)).toNat % 2 ^ 23 / 256 * 256
  let n := dlcBytes s p off block
  let rows := dlcRows n
  { exBase s p g [(r.toNat, rp.toNat)] with
    cause := if seen c [commonReg r.toNat] then rangesDead s p 13 1 [(off, rows)] else none
    blocks := remaking s p || !gransFull s p off rows || (bankIds p off rows).any (fun id => id / 128 == coreOf p && bankLocked s id)
      || fenceWaits s p || pathBusy s p 0xF || !entryFree s s.nextSeq
    effect := fun t =>
      let bs := scrBytes s p off n
      let t1 := fenceRaise p 0xF t
      acceptLaunch (BitVec.ofNat 4096 (natLE (bs.take 512))) bs block (getCtx s p).asn 1 c.lseq (getCore t1 (coreOf p)).pts t1 }

/-- `dlc` (R263). -/
def semDlc (g : BitVec 3) (r : BitVec 5) (rp : BitVec 2) : Nat → State → OpSem := semDlcOf false g r rp
/-- `dlc.a` (R264). -/
def semDlcApportioned (g : BitVec 3) (r : BitVec 5) (rp : BitVec 2) : Nat → State → OpSem := semDlcOf true g r rp

/-! ### Dispatch (R255, R258, R261, R265, R267) -/

/-- MCELL: the entry of its page and the cell at die 0's replica; `none` for a cell that does not translate to a lattice page. -/
def milePlace (s : State) (l : Launch) : Option (WalkEnd × Nat) :=
  let va : Word := BitVec.ofNat 64 (recField l.record 104 8)
  let e := walkTable s l.asn va
  if e.kind != .leaf || plLtype e.place == 0 then none
  else some (e, cellOf e.place (memKey 1 (frameAddr e.frame + va.toNat % e.span)))

/-- What the test of MCELL comes to: `none` for a cell that does not translate to a lattice page. -/
def milePasses (s : State) (l : Launch) : Option Bool :=
  (milePlace s l).map (fun q =>
    !cellStops s q.1.place q.2 && latPasses (plLtype q.1.place) false (cellGet s q.1.place q.2) (recField l.record 112 8))

/-- What the test does beside: its walk, one for a read, sets A in the leaf (R186), and a cell whose storage reads poisoned is marked
for rebuild (R224). -/
def mileRead (l : Launch) (s : State) : State :=
  match milePlace s l with
  | some q => spoilRead q.1.place [q.2] (walkMark q.1 true false s)
  | none => s

/-- The count word: the entry of its page, and its key, where it translates to a present page with R; of a page with a copy per die,
the copy that die 0 uses. (DESIGN CHOICE, log 114.) -/
def countPlace (s : State) (l : Launch) : Option (WalkEnd × Nat) :=
  let va : Word := BitVec.ofNat 64 (recField l.record 96 8 / 8 * 8)
  let e := walkTable s l.asn va
  if e.kind == .leaf && e.frame.getLsbD 2 then some (e, placeKey e.place 0 (frameAddr e.frame + va.toNat % e.span)) else none

/-- A launch that has left the accepted state moves to the end of the list, whose order is that of dispatch. -/
def toBack (seq : Nat) (s : State) : State :=
  { s with launches := s.launches.filter (fun l => l.seq != seq) ++ s.launches.filter (fun l => l.seq == seq) }

/-- The launch is dispatched with `n` clusters; one of none completes at once (R256, R261). -/
def dispatchWith (l : Launch) (n : Nat) (assign : List (Nat × Nat × Nat)) (s : State) : State :=
  let l1 := { l with st := .dispatched, nclus := n, assign := assign, groups := assign.length, ptsFloor := serMax l.ptsFloor (topPts s) }
  let s1 := toBack l.seq (updLaunch l.seq (fun _ => l1) (journalLaunch l1 s))
  if n = 0 then finishLaunch l.seq true 0 s1 else s1

/-- The rows of reduced tiles written into the copied block (R265). -/
def cutRows (slot : Nat) (old new : List (Nat × Nat × Nat)) (s : State) : State :=
  new.foldl (fun t x => if old.contains x then t else deviceWrite (slot + 834 + 16 * x.1) (bytesLE 2 x.2.2) t) s

/-- Capacities and apportioning of a block, from its copy in the record slot, as it is dispatched. (DESIGN CHOICE, log 99.)  A
slot in a page owned by another device waits for the recall (R233). -/
def dispatchBlock (l : Launch) (s : State) : State :=
  let bars := deviceBars s [l.slot / 2 ^ 16]
  if !bars.isEmpty then askRecalls bars s else
  let head := rdBytes s.mem (memKey 0 l.slot) 832
  let b := head ++ rdBytes s.mem (memKey 0 (l.slot + 832)) (16 * blkWord head 516 2)
  let z := capped b
  dispatchWith l (blockAssign b).length (blockAssign b) (journalPut l.seq 12 4 z.2 (cutRows l.slot (blkTiles b) z.1 s))

/-- The count of an indirect launch is read (R258); in a lattice cell that is marked, once its rebuild has ended (R224). -/
def dispatchIndirect (l : Launch) (s : State) : State :=
  match countPlace s l with
  | none => finishLaunch l.seq false 0x50 s
  | some (e, k) =>
    let cells := if plLtype e.place = 0 then [] else cellsIn e.place k 8
    if readWaits s e.place 0 (homeDie s e.place 0 (k % 2 ^ 52)) k then readRecall e.place k s
    else if cells.any (cellStops s e.place) then spoilRead e.place cells s
    else
      let n := rdNat s.mem k 4
      let s1 := walkMark e true false s
      if 1024 < n then finishLaunch l.seq false 0x53 s1
      else if gangShort s l.record n then finishLaunch l.seq false 0x54 s1
      else dispatchWith l n [] s1

/-- The pages that the walks of a launch's dispatch wait for: those of MCELL and of the count word (R233). -/
def dispatchBars (s : State) (l : Launch) : List Nat :=
  let bars := fun (va : Word) => walkBars s l.asn va (setsBit (walkTable s l.asn va) false)
  (if recFlag l.record 1 then bars (BitVec.ofNat 64 (recField l.record 104 8)) else [])
    ++ (if recFlag l.record 0 then bars (BitVec.ofNat 64 (recField l.record 96 8 / 8 * 8)) else [])

/-- DISPATCH (R255): the conditions of an accepted launch are met. -/
def doDispatch (seq : Nat) (s : State) : State :=
  match findLaunch s seq with
  | none => s
  | some l =>
    if l.st != .accepted || !l.preds.all (fun q => q.2 == some true) then s
    else if !(dispatchBars s l).isEmpty then askRecalls (dispatchBars s l) s
    else
      let mile := if recFlag l.record 1 then milePasses s l else some true
      let s1 := if recFlag l.record 1 then mileRead l s else s
      match mile with
      | none => finishLaunch seq false 0x50 s
      | some false => s1
      | some true =>
        if l.apportioned then dispatchBlock l s1
        else if recFlag l.record 0 then dispatchIndirect l s1
        else dispatchWith l (recNclus l.record) [] s1

/-- PREDECESSOR_FAULTED (R255). -/
def doPredFaulted (seq : Nat) (s : State) : State :=
  match findLaunch s seq with
  | none => s
  | some l => if l.st == .accepted && l.preds.any (fun q => q.2 == some false) then finishLaunch seq false 0x51 s else s

/-- Work of a launch's contexts and engines that has not been performed. -/
def launchBusy (s : State) (seq : Nat) : Bool := s.ctxs.any (fun e => e.2.lseq == seq && !noLeft e.2)

/-- LAUNCH_COMPLETE (R261): every cluster has been bound, every context has ended, every write is performed. -/
def doLaunchComplete (seq : Nat) (s : State) : State :=
  match findLaunch s seq with
  | none => s
  | some l =>
    if l.st == .accepted || l.ending || l.poison || l.raised || l.bound < l.nclus || !(ctxsOf s seq).isEmpty || launchBusy s seq then s
    else finishLaunch seq true 0 s

/-- LAUNCH_FAULTED (R260): a launch with a faulted context has no context left. -/
def doLaunchFaulted (seq : Nat) (s : State) : State :=
  match findLaunch s seq with
  | none => s
  | some l => if l.ending && (ctxsOf s seq).isEmpty then finishLaunch seq false l.cause s else s

/-- `exec` of `.dlc`. -/
def execDlc (g : BitVec 3) (r : BitVec 5) (p : BitVec 2) (s : State) : Host.Outcome State Fault Refusal :=
  issueSolo (.dlc g r p) (semDlc g r p s.cur s) s
/-- `exec` of `.dlcApportioned`. -/
def execDlcApportioned (g : BitVec 3) (r : BitVec 5) (p : BitVec 2) (s : State) : Host.Outcome State Fault Refusal :=
  issueSolo (.dlcApportioned g r p) (semDlcApportioned g r p s.cur s) s
/-- `exec` of `.cmdLaunch`. -/
def execCmdLaunch (cmd : BitVec 512) (s : State) : Host.Outcome State Fault Refusal := .next (doCmdLaunch cmd s)
/-- `exec` of `.cmdReserveSets`. -/
def execCmdReserveSets (cmd : BitVec 512) (s : State) : Host.Outcome State Fault Refusal := .next (doCmdReserveSets cmd s)
/-- `exec` of `.cmdJournal`. -/
def execCmdJournal (cmd : BitVec 512) (s : State) : Host.Outcome State Fault Refusal := .next (doCmdJournal cmd s)
/-- `exec` of `.cmdLinkChannel`. -/
def execCmdLinkChannel (cmd : BitVec 512) (s : State) : Host.Outcome State Fault Refusal := .next (doCmdLinkChannel cmd s)
/-- `exec` of `.dispatch`. -/
def execDispatch (seq : Nat) (s : State) : Host.Outcome State Fault Refusal := .next (doDispatch seq s)
/-- `exec` of `.predecessorFaulted`. -/
def execPredecessorFaulted (seq : Nat) (s : State) : Host.Outcome State Fault Refusal := .next (doPredFaulted seq s)
/-- `exec` of `.launchComplete`. -/
def execLaunchComplete (seq : Nat) (s : State) : Host.Outcome State Fault Refusal := .next (doLaunchComplete seq s)
/-- `exec` of `.launchFaulted`. -/
def execLaunchFaulted (seq : Nat) (s : State) : Host.Outcome State Fault Refusal := .next (doLaunchFaulted seq s)

end Sys2Proof.Machine
end

