-- ==== Sys2Proof/Machine/Sched.lean ====
section
/-! DEFINITION. Binding, pre-emption, saving and resuming of contexts, and handler tasks (R22 to R26, R31, R40 to R42,
R137, R161, R173, R180, R256, R257, R268, R282 to R289). -/

namespace Sys2Proof.Machine

/-! ### Extents from declared ranges (R180) -/

/-- Two extents that R180 merges: contiguous in both addresses, equal in placement, permissions and kinds. -/
def mergeable (a b : Extent) : Bool :=
  a.vpn + a.pages == b.vpn && a.absent == b.absent && a.kinds == b.kinds
    && (a.absent || (a.frame + a.pages * 2 ^ 16 == b.frame && a.place == b.place && (a.perm ^^^ b.perm) &&& 0x3C == 0))

/-- An extent joins a table of at most `room`, merged with the last one where it can be; without room it is left out.
The table is held last first. -/
def pushExtent (room : Nat) (es : List Extent) (e : Extent) : List Extent :=
  match es with
  | [] => if room = 0 then [] else [e]
  | a :: rest =>
    if mergeable a e then { a with pages := a.pages + e.pages } :: rest
    else if es.length < room then e :: es else es

/-- The extents of `n` pages from page `v` of a range, entry by entry of the page table; a page whose entry breaks the
rules is left unmapped. (DEDUCED, log 50.)  A BASE is taken modulo 2^48. (DESIGN CHOICE, log 115.) -/
def rangeExtents (s : State) (asn room kinds : Nat) : Nat → Nat → Nat → List Extent → List Extent
  | 0, _, _, es => es
  | fuel + 1, v, n, es =>
    if n = 0 then es
    else
      let w := walkTable s asn (sextW 48 (v % 2 ^ 32 * 2 ^ 16))
      let span := w.span / 2 ^ 16
      let k := Nat.min n (span - v % span)
      let e : Extent := {
        vpn := v % 2 ^ 32, pages := k, frame := frameAddr w.frame + v % span * 2 ^ 16, place := w.place, perm := w.frame
        kinds := kinds, absent := w.kind == .absent }
      let f : Extent := if e.absent then { e with frame := 0, place := 0, perm := 0 } else e
      rangeExtents s asn room kinds fuel (v + k) (n - k) (if w.kind == .broken then es else pushExtent room es f)

/-- The extent table that the scheduler fills from declared ranges, in range order. -/
def tableOf (s : State) (asn room : Nat) (rs : List Range) : List Extent :=
  (rs.foldl (fun es r => rangeExtents s asn room r.kinds (r.len / 65536 + 1) (r.base / 65536) (r.len / 65536) es) []).reverse

/-- The walks of those pages mark their entries: A where the range grants reads or execution, D where it grants writes
(R186). (DEDUCED, log 85.) -/
def markRange (asn kinds : Nat) : Nat → Nat → Nat → State → State
  | 0, _, _, s => s
  | fuel + 1, v, n, s =>
    if n = 0 then s
    else
      let w := walkTable s asn (sextW 48 (v % 2 ^ 32 * 2 ^ 16))
      let span := w.span / 2 ^ 16
      let k := Nat.min n (span - v % span)
      markRange asn kinds fuel (v + k) (n - k)
        (if w.kind == .leaf then walkMark w (bitOf kinds 0 || bitOf kinds 2) (bitOf kinds 1 && w.frame.getLsbD 3) s else s)

/-- The same for the declared ranges. -/
def markRanges (asn : Nat) (rs : List Range) (s : State) : State :=
  rs.foldl (fun t r => markRange asn r.kinds (r.len / 65536 + 1) (r.base / 65536) (r.len / 65536) t) s

/-- The walk of a declared page is to set A or D (R186). -/
def rangeSets (e : WalkEnd) (kinds : Nat) : Bool :=
  e.kind == .leaf && ((bitOf kinds 0 || bitOf kinds 2) && !e.frame.getLsbD 6
    || bitOf kinds 1 && e.frame.getLsbD 3 && !e.frame.getLsbD 7)

/-- The pages that the walks of `n` pages from page `v` wait for: those of the first walk that waits (R233). -/
def rangeBar (s : State) (asn kinds : Nat) : Nat → Nat → Nat → List Nat
  | 0, _, _ => []
  | fuel + 1, v, n =>
    if n = 0 then []
    else
      let va := sextW 48 (v % 2 ^ 32 * 2 ^ 16)
      let w := walkTable s asn va
      let span := w.span / 2 ^ 16
      let k := Nat.min n (span - v % span)
      match walkBars s asn va (rangeSets w kinds) with
      | [] => rangeBar s asn kinds fuel (v + k) (n - k)
      | ps => ps

/-- The same for the declared ranges. -/
def rangeBars (s : State) (asn : Nat) (rs : List Range) : List Nat :=
  if s.grants.isEmpty then []
  else rs.flatMap (fun r => rangeBar s asn r.kinds (r.len / 65536 + 1) (r.base / 65536) (r.len / 65536))

/-! ### Positions and save areas -/

/-- Both positions of the core are Free. -/
def coreFree (s : State) (k : Nat) : Bool := (getCtx s (2 * k)).st == .free && (getCtx s (2 * k + 1)).st == .free

/-- A save area of the pool is in use: by a bound or saved context (R302). -/
def areaUsed (s : State) (a : Nat) : Bool := s.ctxs.any (fun e => e.2.area == some a)

/-- The free save areas, lowest first. -/
def freeAreas (s : State) : List Nat :=
  ((List.range s.savecnt.toNat).map (fun i => s.savebase.toNat + i * 2 ^ 20)).filter (fun a => !areaUsed s a)

/-- The core lies in its die's reserve set (R41, R246). -/
def inReserve (s : State) (k : Nat) : Bool := (getDie s (k / 64)).reserve.getLsbD (k % 64)

/-- A borrower: a bulk context bound to a reserve core (R41). -/
def isBorrower (s : State) (p : Nat) : Bool :=
  let c := getCtx s p
  c.st != .free && !c.latency && !c.sup && inReserve s (coreOf p)

/-- The bank-group masks of a record's positions together. -/
def allBanks (r : BitVec 4096) : Nat := (List.range 8).foldl (fun m i => m ||| recField r (416 + i) 1) 0

/-- Banks that the borrowers of a reserve core hold meet a bank-group mask: those that bound ones own, which are held once
they are saved, and those that saved ones hold, so that a latency launch may not take the position (R173). -/
def lentMeets (s : State) (k m : Nat) : Bool :=
  inReserve s k && (getCore s k).owners.any (fun e => bitOf m (e.1 / 16) && (match e.2 with
    | .none => false
    | .ctx _ => true
    | .held q => !(getCtx s q).latency && !(getCtx s q).sup))

/-! ### The order of binding (R41, R256) -/

/-- The launch has clusters to bind; one that is to be rolled back keeps its place. -/
def toBind (l : Launch) : Bool := l.st != .accepted && !l.ending && l.bound < l.nclus

/-- The launch may bind. -/
def binds (l : Launch) : Bool := toBind l && !l.raised

/-- A saved borrower: a bulk context saved off a reserve core, which keeps its sequence position in the queue (R41). -/
def savedBorrower (s : State) (v : Saved) : Bool := !(getCtx s v.key).latency && inReserve s v.core

/-- An earlier entry of the queue of a class: a launch that still has clusters to bind, or a saved borrower (R41, R256). -/
def waitsBefore (s : State) (latency : Bool) (seq : Nat) : Bool :=
  s.launches.any (fun x => toBind x && x.seq < seq && recLatency x.record == latency)
    || (!latency && s.saved.any (fun v => savedBorrower s v && (getCtx s v.key).lseq < seq))

/-- The launch has to wait for an earlier one of its class. -/
def passedBy (s : State) (l : Launch) : Bool := waitsBefore s (recLatency l.record) l.seq

/-- The latency launch that is next to bind. -/
def nextLatency (s : State) : Option Launch :=
  s.launches.find? (fun l => recLatency l.record && binds l && !passedBy s l)

/-- The contexts of a launch, bound or saved, that belong to a physical cluster. -/
def usesCluster (s : State) (l : Launch) (cl : Nat) : Bool := (ctxsOf s l.seq).any (fun p => clusterOf p == cl)

/-- A core whose positions are free or held by borrowers that a latency launch may have pre-empted (R41, R173). -/
def coreWinnable (s : State) (l : Launch) (k : Nat) : Bool :=
  coreLive s k && !lentMeets s k (allBanks l.record) && (coreFree s k || (inReserve s k
    && [2 * k, 2 * k + 1].all (fun p => (getCtx s p).st == .free || isBorrower s p)))

/-- The cluster could hold the launch's next cluster with reserve positions. -/
def clusterWinnable (s : State) (l : Launch) (cl : Nat) : Bool :=
  !usesCluster s l cl && recCores l.record ≤ ((clusterLive s cl).countP (coreWinnable s l))

/-- The target die of the next cluster of a waiting latency launch beside clusters `got` (R41). -/
def targetDie (s : State) (l : Launch) (got : List Nat) : Option Nat :=
  (List.range 4).find? (fun d => (List.range 16).any (fun i => !got.contains (16 * d + i) && clusterWinnable s l (16 * d + i)))

/-- The place of a launch in the order of dispatch. -/
def dispatchRank (s : State) (seq : Nat) : Nat := (s.launches.findIdx? (fun l => l.seq == seq)).getD 0

/-- The borrowers bound to a core. -/
def borrowersOf (s : State) (k : Nat) : List Nat := [2 * k, 2 * k + 1].filter (isBorrower s)

/-- A core costs less to win than another: fewer borrowers, then the one dispatched more recently (R41), then the lower number.
(DESIGN CHOICE, log 111.) -/
def cheaper (s : State) (a b : Nat) : Bool :=
  let n := fun (k : Nat) => (borrowersOf s k).length
  let d := fun (k : Nat) => ((borrowersOf s k).map (fun p => dispatchRank s (getCtx s p).lseq)).foldl Nat.max 0
  n a < n b || (n a == n b && (d b < d a || (d a == d b && a < b)))

/-- The cores with borrowers that a cluster must win for a launch: of those it may win, the cheapest. -/
def toWin (s : State) (l : Launch) (cl : Nat) : List Nat :=
  let ks := (clusterLive s cl).filter (coreWinnable s l)
  let free := ks.countP (coreFree s)
  let taken := ks.filter (fun k => !coreFree s k)
  taken.filter (fun k => taken.countP (fun x => cheaper s x k) < recCores l.record - free)

/-- The borrowers to pre-empt in a cluster. -/
def toPreempt (s : State) (l : Launch) (cl : Nat) : List Nat := (toWin s l cl).flatMap (borrowersOf s)

/-- The target cluster on the target die, beside clusters `got`: the fewest borrowers, then the lower number (R41).  It is found
afresh from each state while the launch waits. (DESIGN CHOICE, log 111.) -/
def targetCluster (s : State) (l : Launch) (got : List Nat) : Option Nat :=
  match targetDie s l got with
  | none => none
  | some d =>
    let cs := ((List.range 16).map (· + 16 * d)).filter (fun c => !got.contains c && clusterWinnable s l c)
    cs.find? (fun c => cs.all (fun x => (toPreempt s l c).length ≤ (toPreempt s l x).length))

/-- `n` target clusters one after the other, as far as there are any. -/
def targetsFrom (s : State) (l : Launch) : Nat → List Nat → List Nat
  | 0, got => got
  | n + 1, got => match targetCluster s l got with
    | some c => targetsFrom s l n (got ++ [c])
    | none => got

/-- The clusters that one act binds for a launch: one, or with GANG all that are still to be bound (R256). -/
def actSize (l : Launch) : Nat := if recFlag l.record 2 then l.nclus - l.bound else 1

/-- The clusters that a waiting latency launch waits for: its target cluster, or with GANG one for each that is to be bound in
the act (R41, R256). (DEDUCED, log 44.) -/
def targetClusters (s : State) (l : Launch) : List Nat := targetsFrom s l (Nat.min 64 (actSize l)) []

/-- A waiting latency launch has the core's die as a target die. -/
def dieClaimed (s : State) (k : Nat) : Bool :=
  s.launches.any (fun l => recLatency l.record && binds l && (targetClusters s l).any (fun c => c / 16 == k / 64))

/-- A core may take contexts of the launch now: those of a latency launch whenever it is free (R41) and no borrower saved there
holds banks of its masks (R173). -/
def coreUsable (s : State) (l : Launch) (k : Nat) : Bool :=
  coreLive s k && coreFree s k
    && (if recLatency l.record then !lentMeets s k (allBanks l.record) else !(inReserve s k && dieClaimed s k))
    && (!l.apportioned || (getCore s k).cq.length + recCtxs l.record ≤ Config.queueEntries)

/-- The cores of a cluster that the launch's next cluster would take. (DESIGN CHOICE, log 44.) -/
def coresFor (s : State) (l : Launch) (cl : Nat) : Option (List Nat) :=
  let ks := (clusterLive s cl).filter (coreUsable s l)
  if cl < 64 && recCores l.record ≤ ks.length && !usesCluster s l cl then some (ks.take (recCores l.record)) else none

/-- The clusters that can take the launch's next cluster. -/
def clustersFor (s : State) (l : Launch) : List Nat := (List.range 64).filter (fun cl => (coresFor s l cl).isSome)

/-- What one act binds, `cl` first (R256): its physical clusters with the cores they take. -/
def actOf (s : State) (l : Launch) (cl : Nat) : Option (List (Nat × List Nat)) :=
  let others := (clustersFor s l).filter (· != cl)
  let n := actSize l
  if (coresFor s l cl).isSome && n ≤ others.length + 1
      && n * recCores l.record * recCtxs l.record ≤ (freeAreas s).length then
    some ((cl :: others.take (n - 1)).map (fun c => (c, (coresFor s l c).getD [])))
  else none

/-- The launch is next in its class, and a bulk launch binds only while no latency launch can (R256). -/
def mayBind (s : State) (l : Launch) : Bool :=
  binds l && !passedBy s l && (recLatency l.record || (match nextLatency s with
    | some x => !(List.range 64).any (fun cl => (actOf s x cl).isSome)
    | none => true))

/-! ### Binding (R72, R137, R173, R257, R268) -/

/-- c0 to c3 as a new context takes them. -/
def paramFiles (ps : List Nat) : SMap Word :=
  (List.range 4).foldl (fun m i => smSet 0 m i (BitVec.ofNat 64 (ps.getD i 0))) []

/-- PARAM0 to PARAM3. -/
def recParams (r : BitVec 4096) : List Nat := (List.range 4).map (fun i => recField r (48 + 8 * i) 8)

/-- The context of a launch for place (q, c) of its cluster `n`, as it is bound. -/
def newCtx (s : State) (l : Launch) (n q c a : Nat) : Ctx :=
  let r := l.record
  let params := match l.assign[n]? with
    | some x => if l.apportioned then [l.slot + 832 + 16 * x.2.1, x.1, recField r 64 8, recField r 72 8] else recParams r
    | none => recParams r
  let pc : Word := BitVec.ofNat 64 (recField r 0 8 + recField r (384 + 4 * (2 * q + c)) 4)
  let wide := recCtxs r == 1
  { st := .restoring
    files := { c := paramFiles params }
    pc := pc
    mpc := pc
    extents := tableOf s l.asn (if wide then 64 else 32) (recRanges r)
    ranges := recRanges r
    replay := l.replays != 0
    latency := recLatency r
    asn := l.asn
    lseq := l.seq
    lclus := n
    lclcnt := l.nclus
    lqpos := q
    lctxn := c
    wide := wide
    area := some a
    binding := true }

/-- The banks of a bank-group mask that are owned by none become the context's (R173). -/
def claimBanks (p m : Nat) (s : State) : State :=
  updCore (coreOf p) (fun k => { k with
    owners := (List.range 128).foldl (fun o b => if bitOf m (b / 16) && smGet .none o b == .none then smSet .none o b (.ctx (p % 2)) else o) k.owners }) s

/-- The core's filter takes the bits of a context's extents (R184). -/
def filterCtx (p : Nat) (s : State) : State :=
  updCore (coreOf p) (fun k => { k with filter := (getCtx s p).extents.foldl filterAdd k.filter }) s

/-- A context is put into its position: ballast ends there, code fetched earlier is invalidated, the point in force
follows (R257, R306, R310). -/
def seat (p : Nat) (c : Ctx) (s : State) : State :=
  let s1 := setCtx p c { s with ballast := s.ballast.filter (· != coreOf p) }
  repoint 2 (coreOf p) (filterCtx p (dropCode p s1))

/-- The tile count of an apportioned cluster enters the core's count queue, once for each context (R268). -/
def pushCounts (l : Launch) (n k : Nat) (s : State) : State :=
  match l.assign[n]? with
  | some x => if l.apportioned then updCore k (fun z => { z with
      cq := z.cq ++ List.replicate (recCtxs l.record) (BitVec.ofNat 32 x.2.2) }) s else s
  | none => s

/-- The contexts of one core of a cluster are bound. -/
def bindCore (l : Launch) (n q k : Nat) (s : State) : State :=
  let s1 := (List.range (recCtxs l.record)).foldl (fun t c =>
    let p := 2 * k + c
    claimBanks p (recField l.record (416 + 2 * q + c) 1) (seat p (newCtx t l n q c ((freeAreas t).headD 0)) t)) s
  jumpPts k l.ptsFloor (pushCounts l n k s1)

/-- The next cluster of a launch is bound to cores `ks` of a physical cluster (R256, R257). -/
def bindOne (seq cl : Nat) (ks : List Nat) (s : State) : State :=
  match findLaunch s seq with
  | none => s
  | some l =>
    let mine := fun (x : ClPair) => x.seq == seq && x.clus == l.bound
    let s0 := updCluster cl (fun k => { k with
      dissolved := k.dissolved.filter (fun x => !mine x)
      ended := k.ended.filter (fun x => !mine x) }) s
    let s1 := ks.zipIdx.foldl (fun t e => bindCore l l.bound e.2 e.1 t) (markRanges l.asn (recRanges l.record) s0)
    let l1 := { l with
      bound := l.bound + 1
      waves := l.waves ++ [(l.bound, cl)]
      st := if l.st == .dispatched then .running else l.st }
    journalLaunch l1 (updLaunch seq (fun _ => l1) s1)

/-- BIND_CLUSTER (R256): the next cluster, or with GANG every cluster in one act, on the cores that the state before the act
gives them.  Walks of the declared ranges that meet a page owned by another device wait for its recall (R233). -/
def doBindCluster (seq cl : Nat) (s : State) : State :=
  match findLaunch s seq with
  | none => s
  | some l =>
    if !mayBind s l then s
    else match actOf s l cl with
      | none => s
      | some cls =>
        let bars := rangeBars s l.asn (recRanges l.record)
        if bars.isEmpty then cls.foldl (fun t c => bindOne seq c.1 c.2 t) s else askRecalls bars s

/-- RESTORE_COMPLETE (R25, R284): the position is Ready, or Trapped where the context was saved so; where its launch names no
handler for the cause, it ends then (R259). -/
def doRestoreComplete (p : Nat) (s : State) : State :=
  let c := getCtx s p
  if c.st != .restoring then s
  else handlerless p (setCtx p { c with st := if c.needHandler || c.hold.isSome then .trapped else .ready, binding := false } s)

/-! ### Pre-emption requests (R41, R283, R284) -/

/-- A borrower whose position the waiting latency launch needs: in one of its target clusters, where it has all that the act
takes. -/
def wantedBorrower (s : State) (p : Nat) : Bool :=
  match nextLatency s with
  | none => false
  | some l =>
    let cls := targetClusters s l
    cls.length == actSize l && cls.any (fun cl => (toPreempt s l cl).contains p)

/-- A context that a trapped context's handler needs to displace (R284). -/
def inHandlerWay (s : State) (p : Nat) : Bool :=
  let o := getCtx s (otherPos p)
  o.st == .trapped && o.needHandler

/-- A context held on a cause that the scheduler is to resolve: its group is blocked, and stands at a pre-emption point
(R34, R40). -/
def onHold (c : Ctx) : Bool := c.st == .trapped && c.hold.isSome && !c.needHandler

/-- PREEMPTION_REQUEST (R41, R284): of a borrower that a waiting latency launch needs, or of a context in a handler's
place. -/
def doPreemptionRequest (p : Nat) (s : State) : State :=
  let c := getCtx s p
  if p < 512 && (c.st == .ready || c.st == .blocked || onHold c) && !c.sup && (wantedBorrower s p || inHandlerWay s p) then
    setCtx p { c with preempt := true } s
  else s

/-- The context stands at a pre-emption point (R40). -/
def atPreemption (c : Ctx) : Bool :=
  match c.st with
  | .ready => c.loops.isEmpty || c.atPoint
  | .blocked => true
  | _ => onHold c

/-- A trapped context that gives way to the one of its core that trapped earlier (R284). -/
def givesWay (s : State) (p : Nat) : Bool :=
  let c := getCtx s p
  c.st == .trapped && c.needHandler && inHandlerWay s p && (getCtx s (otherPos p)).trapNo < c.trapNo

/-- PREEMPT_SAVE (R287): the request lands at a pre-emption point, or a waiting trapped context is lifted. -/
def doPreemptSave (p : Nat) (s : State) : State :=
  let c := getCtx s p
  if p < 512 && ((c.preempt && atPreemption c) || givesWay s p) then
    dissolve p (setCtx p { c with st := .saving, preempt := false } s)
  else s

/-- PREEMPTION_OVERDUE (R42): the launch of a context that has reached no pre-emption point ends. (DEDUCED, log 46.) -/
def doPreemptionOverdue (p : Nat) (s : State) : State :=
  let c := getCtx s p
  if p < 512 && c.preempt && (c.st == .ready || c.st == .blocked || c.st == .trapped) && !atPreemption c then endLaunch c.lseq 0x40 c.pc s else s

/-! ### Saving (R161, R173, R287) -/

/-- A walk does not keep the save waiting: it is held, or can end only once the context has issued further steps (R33, R287).
(DEDUCED, log 48.) -/
def walkSaves (c : Ctx) (w : Walk) : Bool := w.held.isSome || walkBusy c w

/-- An interlocked destination does not keep the save waiting: its data come from a load that is made again, from a
logged atomic, or from a walk that does not either; or they have come and wait for a landing (R33, R287). -/
def pendSaves (s : State) (p : Nat) (c : Ctx) (e : Pend) : Bool :=
  !e.got.isEmpty || c.reqs.any (fun r => remade r && r.id == e.id)
    || (getCore s (coreOf p)).slog.any (fun x => x.pos == p && x.id == e.id)
    || c.walks.any (fun w => walkSaves c w && (w.id == e.id || w.id + 1 == e.id)) || landHeld c e

/-- What the save waits for has come; started operations that write the accumulator have run to completion (R161, R287). -/
def saveReady (s : State) (p : Nat) : Bool :=
  let c := getCtx s p
  c.pend.all (pendSaves s p c) && c.walks.all (walkSaves c) && c.mops.all (fun m => !m.started || !(m.kind == .cim || m.kind == .smx || m.kind == .acz))

/-- A request whose data are discarded goes back to its place among the others: before the first that issued later.  A write
has the number that the next load takes. -/
def putBack (rs : List GReq) (r : GReq) : List GReq :=
  let before := fun (x : GReq) => decide (x.id < r.id) || (x.id == r.id && (!remade x || decide (x.lane < r.lane)))
  rs.takeWhile before ++ r :: rs.dropWhile before

/-- The pending data of every `gld` and `lwt` are discarded, those that have come too, and each is made again whole (R287).
Data that came whole while a landing was awaited are kept, since later accesses have not waited for them. (DEDUCED, log 48.) -/
def reissue (c : Ctx) : Ctx :=
  { c with
    reqs := (openLoads c).foldl putBack c.reqs
    pend := c.pend.map (fun e => if e.got.isEmpty then e else { e with left := e.left + e.got.length, value := 0, bad := false, got := [] }) }

/-- The accumulator rows that a context owns: the first and their number (R137). -/
def accFirst (c : Ctx) (p : Nat) : Nat := if c.wide then 0 else 256 * (p % 2)

/-- The result queues that a context owns: the first. -/
def queueFirst (c : Ctx) (p : Nat) : Nat := if c.wide then 0 else 4 * (p % 2)

/-- The first `n` registers of a file as bytes, `size` bytes each (Table 18-4). -/
def fileBytes (c : Ctx) (fl : File) (n size : Nat) : List Byte :=
  (List.range n).flatMap (fun i => bytesLE size (regGet c ⟨fl, i⟩).toNat)

/-- Row `r` of an operand of a saved operation, as it was read at issue: of the second one, the rows of both parts of an `smx.t`
B row are those of one run of va registers (R134). -/
def heldRow (m : MOp) (b : Bool) (r : Nat) : Vec :=
  if b then (match m.rowsB[r]? with
    | some v => v
    | none => m.rowsC.getD (r - descTpitch m.descB) 0)
  else m.rowsA.getD r 0

/-- The operand rows of the unstarted operations with VSRC = 1: two operations, two operands of 16 rows each (R134, R288). -/
def operandParts (c : Ctx) : List (Nat × List Byte) :=
  ((c.mops.filter (fun m => !m.started && (!m.rowsA.isEmpty || !m.rowsB.isEmpty))).take 2).zipIdx.flatMap (fun e =>
    [false, true].map (fun b => (0x11000 + 8192 * e.2 + 4096 * b.toNat, (List.range 16).flatMap (fun r => bytesLE 256 (heldRow e.1 b r).toNat))))

/-- The parts of the save area that Table 18-4 places: offset and bytes.  Files stand in the order named, a file's
registers by physical number, a queue's rows oldest first (DEDUCED, log 23). -/
def savedParts (s : State) (p : Nat) : List (Nat × List Byte) :=
  let c := getCtx s p
  let k := getCore s (coreOf p)
  [(0x1000, fileBytes c .x 32 8), (0x1100, fileBytes c .y 32 8), (0x1200, fileBytes c .a 16 8), (0x1280, fileBytes c .w 16 8),
    (0x1300, fileBytes c .c 32 8), (0x1400, fileBytes c .ka 8 32), (0x1500, fileBytes c .kb 8 32), (0x1600, fileBytes c .kc 8 32),
    (0x2000, fileBytes c .va 16 256), (0x3000, fileBytes c .vb 16 256), (0x4000, fileBytes c .vc 16 256),
    (0x5000, fileBytes c .f 8 256), (0x5800, fileBytes c .z 8 256),
    (0x1C0, bytesLE 16 c.scl.toNat),
    (0xC000, (List.range (if c.wide then 64 else 32)).flatMap (fun i => bytesLE 256 (smGet 0 c.park i).toNat))]
    ++ operandParts c
    ++ (List.range (if c.wide then 8 else 4)).map (fun q => (0x20000 + 0x4000 * q,
        ((smGet [] k.queues (queueFirst c p + q)).take Config.queueEntries).flatMap (fun r => bytesLE 256 r.row.toNat)))
    ++ (List.range (accRows c)).map (fun r => (0x80000 + 1024 * r, bytesLE 1024 (smGet 0 k.acc (accFirst c p + r)).toNat))

/-- The parts whose layout Table 18-4 leaves open: offset and length. -/
def openParts : List (Nat × Nat) := [(0x40, 384), (0x6000, 20480), (0xB000, 3072), (0x10000, 2048)]

/-- The resumable state written into the save area by device writes (R151, R287, R288); bytes whose place is open are free
values (log 23). -/
def writeArea (p : Nat) (s : State) : State :=
  match (getCtx s p).area with
  | none => s
  | some b =>
    let free := openParts.map (fun e => (e.1, (List.range e.2).map (fun i => Config.saveByte s.fresh (e.1 + i))))
    (free ++ savedParts s p).foldl (fun t e => deviceWrite (b + e.1) e.2 t) { s with fresh := s.fresh + 1 }

/-- A context as it is saved: its loop buffer empty, its junction counters at zero (R24, R96). -/
def savedCtx (s : State) (p : Nat) (c : Ctx) : Ctx :=
  { unbuffer true s p (reissue c) with st := .free, binding := false, yield := 0, denials := 0, stalled := false }

/-- SAVE_COMPLETE (R25, R287, R288): the resumable state leaves the core for its save area; its banks are held.
(DEDUCED, log 23.) -/
def doSaveComplete (p : Nat) (s : State) : State :=
  let c := getCtx s p
  if 512 ≤ p || c.st != .saving || !saveReady s p then s
  else
    let k := getCore s (coreOf p)
    let key := freeKey s p
    let a0 := accFirst c p
    let mine := fun (r : Nat) => decide (a0 ≤ r ∧ r < a0 + accRows c)
    let v : Saved := {
      key := key, core := coreOf p
      acc := (k.acc.filter (fun e => mine e.1)).map (fun e => (e.1 - a0, e.2))
      accBad := (k.accBad.filter mine).map (· - a0)
      queues := (k.queues.filter (fun e => ownsQueue c p e.1)).map (fun e => (e.1 - queueFirst c p, e.2))
      banks := (k.owners.filter (fun e => e.2 == .ctx (p % 2))).map (·.1) }
    let s1 := updCore (coreOf p) (fun z => { z with
      owners := z.owners.map (fun e => if e.2 == .ctx (p % 2) then (e.1, .held key) else e)
      queues := z.queues.filter (fun e => !ownsQueue c p e.1)
      accBad := z.accBad.filter (fun r => !mine r)
      slog := z.slog.map (fun e => if e.pos == p then { e with pos := key } else e) }) (writeArea p s)
    afterFree p (setCtx p {} (setCtx key (savedCtx s p c) { s1 with saved := s1.saved ++ [v] }))

/-! ### Resuming (R137, R161, R289) -/

/-- A saved context may take position `p` of its core beside what the other position holds (R137, R284). -/
def mayResume (s : State) (c : Ctx) (p : Nat) : Bool :=
  let o := getCtx s (otherPos p)
  (getCtx s p).st == .free && coreLive s (coreOf p) && (o.st == .free || (!o.sup && !o.wide && !c.wide))
    && !inHandlerWay s p && !(!c.latency && inReserve s (coreOf p) && (dieClaimed s (coreOf p) || waitsBefore s false c.lseq))

/-- A load made again goes by the context's extents as they stand, and before any later access (R184, R289). -/
def madeAgain (s : State) (p : Nat) (r : GReq) : GReq :=
  if r.kind == .load || r.kind == .lwt then
    let q := { r with again := true, lost := false }
    match translate s p r.va .read with
    | .ok e => let k := placeOf s e.place (dieOf p) (physAddr e r.va)
      { q with key := if r.kind == .lwt then cellOf e.place k.1 else k.1, home := k.2, place := e.place }
    | _ => { q with lost := true }
  else r

/-- A walk that was held when its context was saved, unless by a cause still to be taken, is made again (R427). -/
def walkAgain (w : Walk) : Walk :=
  match w.held with
  | some h => if bySched h.code then { w with held := none } else w
  | none => w

/-- The saved matrix operations that have not started are accepted again, with fresh residency outcomes (R145, R161); one that
finds no array takes the streamed path and counts, whatever CTL.WFAULT says. (DESIGN CHOICE, log 84.) -/
def reaccept (p : Nat) (s : State) : State :=
  (List.range (getCtx s p).mops.length).foldl (fun t i => match (getCtx t p).mops[i]? with
    | none => t
    | some m =>
      if m.lost then t
      else if m.kind == .wpre || m.kind == .wpin then resideMop (coreOf p) m t
      else if m.kind != .cim || m.started then t
      else
        let k := coreOf p
        match lookupTile t k m.tag with
        | some (a, fill) => updCtx p (fun c => { c with mops := c.mops.set i { m with arr := some a, fallback := false } })
            (if fill then startFill k a m.tag m.key m.place m.table none t else t)
        | none => updCtx p (fun c => { c with
            mops := c.mops.set i { m with arr := none, fallback := true }
            wfb := true
            wfbcnt := c.wfbcnt + 1 }) t) s

/-- The unstarted operations of a saved context hold no array. -/
def unassign (c : Ctx) : Ctx :=
  { c with mops := c.mops.map (fun m => if m.kind == .cim && !m.started then { m with arr := none, fallback := false } else m) }

/-- The pages of a context's save area. -/
def areaPages (c : Ctx) : List Nat :=
  match c.area with
  | some a => (List.range 16).map (· + a / 2 ^ 16)
  | none => []

/-- RESUME (R289): the saved context `key` takes position `p`, whose whole allocation it gets back; ballast ends on its core
(R310).  A save area in a page owned by another device waits for its recall (R233). -/
def doResume (key p : Nat) (s : State) : State :=
  match s.saved.find? (fun v => v.key == key) with
  | none => s
  | some v =>
    let c := getCtx s key
    let bars := deviceBars s (areaPages c)
    if 512 ≤ p || coreOf p != v.core || !mayResume s c p then s
    else if !bars.isEmpty then askRecalls bars s
    else
      let s1 := setCtx p { unassign c with st := .restoring } (setCtx key {} { s with saved := s.saved.filter (fun x => x.key != key) })
      let others := fun (r : Nat) => !decide (accFirst c p ≤ r ∧ r < accFirst c p + accRows c)
      let s2 := updCore v.core (fun z => { z with
        owners := z.owners.map (fun e => if e.2 == .held key then (e.1, .ctx (p % 2)) else e)
        acc := v.acc.foldl (fun m e => smSet 0 m (e.1 + accFirst c p) e.2) (z.acc.filter (fun e => others e.1))
        accBad := v.accBad.map (· + accFirst c p) ++ z.accBad.filter others
        queues := v.queues.foldl (fun m e => smSet [] m (e.1 + queueFirst c p) e.2) z.queues
        slog := z.slog.map (fun e => if e.pos == key then { e with pos := p } else e) }) s1
      let s3 := updCtx p (fun z => { z with reqs := z.reqs.map (madeAgain s2 p), walks := z.walks.map walkAgain }) s2
      reaccept p (repoint (if c.windowOpen then p % 2 else 2) v.core (filterCtx p { s3 with ballast := s3.ballast.filter (· != v.core) }))

/-! ### Handler tasks (R282 to R286, R394) and the end of draining (R31) -/

/-- The handler of a trapped context as it is bound (R283). (DEDUCED, log 49.) -/
def handlerCtx (l : Launch) (c : Ctx) (q p a : Nat) : Ctx :=
  let pc : Word := BitVec.ofNat 64 (recField l.record 88 8)
  { st := .restoring
    files := { c := paramFiles (recParams l.record) }
    pc := pc
    mpc := pc
    sup := true
    replay := c.replay
    serves := some q
    latency := true
    asn := c.asn
    lseq := c.lseq
    lclus := c.lclus
    lclcnt := c.lclcnt
    lqpos := c.lqpos
    lctxn := p % 2
    area := some a }

/-- HANDLER_BIND (R283, R284): the handler of the trapped context `q` takes the other, free, position of its core. -/
def doHandlerBind (q : Nat) (s : State) : State :=
  let c := getCtx s q
  let p := otherPos q
  match findLaunch s c.lseq, freeAreas s with
  | some l, a :: _ =>
    if q < 512 && c.st == .trapped && c.needHandler && (getCtx s p).st == .free && coreLive s (coreOf q) then
      updCtx q (fun z => { z with needHandler := false }) (seat p (handlerCtx l c q p a) s)
    else s
  | _, _ => s

/-- The steps that the landing buffer still needs. -/
def landLeft (c : Ctx) : Nat := (c.landing.map (·.rem)).foldl Nat.max 0

/-- A store, atomic or join of the context has still to be performed. -/
def writesLeft (c : Ctx) : Bool := c.reqs.any (fun r => (r.kind == .store || r.kind == .gam || r.kind == .ljn) && !r.done)

/-- DRAIN_COMPLETE (R31, R173): the remaining results land in order of their due steps and the banks are released; once the
context's writes have been performed too, the position is Free (DEDUCED, log 83). -/
def doDrainComplete (p : Nat) (s : State) : State :=
  let c := getCtx s p
  if p < 512 && c.st == .draining then
    let s1 := freeBanks p (landSteps p (landLeft c) s)
    if writesLeft c then s1 else vacate p (finishStarted p s1)
  else s

/-- `exec` of `.bindCluster`. -/
def execBindCluster (seq cl : Nat) (s : State) : Host.Outcome State Fault Refusal := .next (doBindCluster seq cl s)
/-- `exec` of `.restoreComplete`. -/
def execRestoreComplete (p : Nat) (s : State) : Host.Outcome State Fault Refusal := .next (doRestoreComplete p s)
/-- `exec` of `.preemptionRequest`. -/
def execPreemptionRequest (p : Nat) (s : State) : Host.Outcome State Fault Refusal := .next (doPreemptionRequest p s)
/-- `exec` of `.preemptSave`. -/
def execPreemptSave (p : Nat) (s : State) : Host.Outcome State Fault Refusal := .next (doPreemptSave p s)
/-- `exec` of `.saveComplete`. -/
def execSaveComplete (p : Nat) (s : State) : Host.Outcome State Fault Refusal := .next (doSaveComplete p s)
/-- `exec` of `.resume`. -/
def execResume (k p : Nat) (s : State) : Host.Outcome State Fault Refusal := .next (doResume k p s)
/-- `exec` of `.preemptionOverdue`. -/
def execPreemptionOverdue (p : Nat) (s : State) : Host.Outcome State Fault Refusal := .next (doPreemptionOverdue p s)
/-- `exec` of `.handlerBind`. -/
def execHandlerBind (p : Nat) (s : State) : Host.Outcome State Fault Refusal := .next (doHandlerBind p s)
/-- `exec` of `.drainComplete`. -/
def execDrainComplete (p : Nat) (s : State) : Host.Outcome State Fault Refusal := .next (doDrainComplete p s)

end Sys2Proof.Machine
end

