-- ==== Sys2Proof/Machine/Junction.lean ====
section
/-! DEFINITION. The junction: the operations of a group evaluated together, what each context of a core may issue, and one
issue cycle (R27, R35 to R39, R52, R257, R279, R308, R422, R425). -/

namespace Sys2Proof.Machine

/-- What an operation of a group does, issued by position `me` in state `st`; `none` for an event, which no word
encodes. -/
def semOf (i : Instr) (me : Nat) (pre : Pre) (st : State) : Option OpSem :=
  match i with
  | .add sl g d a b => some (semAdd sl g d a b me st)
  | .addImm sl g d a i => some (semAddImm sl g d a i me st)
  | .sub sl g d a b => some (semSub sl g d a b me st)
  | .mul sl g d a b => some (semMul sl g d a b me st)
  | .mulh sl g d a b u => some (semMulh sl g d a b u me st)
  | .div sl g d a b u => some (semDiv sl g d a b u me st)
  | .rem sl g d a b u => some (semRem sl g d a b u me st)
  | .and sl g d a b => some (semAnd sl g d a b me st)
  | .andImm sl g d a i => some (semAndImm sl g d a i me st)
  | .or sl g d a b => some (semOr sl g d a b me st)
  | .orImm sl g d a i => some (semOrImm sl g d a i me st)
  | .xor sl g d a b => some (semXor sl g d a b me st)
  | .xorImm sl g d a i => some (semXorImm sl g d a i me st)
  | .shl sl g d a b => some (semShl sl g d a b me st)
  | .shlImm sl g d a n => some (semShlImm sl g d a n me st)
  | .shr sl g d a b => some (semShr sl g d a b me st)
  | .shrImm sl g d a n => some (semShrImm sl g d a n me st)
  | .sra sl g d a b => some (semSra sl g d a b me st)
  | .sraImm sl g d a n => some (semSraImm sl g d a n me st)
  | .min sl g d a b u => some (semMin sl g d a b u me st)
  | .max sl g d a b u => some (semMax sl g d a b u me st)
  | .cmp sl g d a b c => some (semCmp sl g d a b c me st)
  | .cmpImm sl g d a i => some (semCmpImm sl g d a i me st)
  | .sel sl g d a b c => some (semSel sl g d a b c me st)
  | .li sl g d e => some (semLi sl g d e me st)
  | .lih sl g d e => some (semLih sl g d e me st)
  | .bfx sl g d a w o => some (semBfx sl g d a w o me st)
  | .bfi sl g d a w o => some (semBfi sl g d a w o me st)
  | .clz sl g d a => some (semClz sl g d a me st)
  | .popc sl g d a => some (semPopc sl g d a me st)
  | .cpy sl g d a f => some (semCpy sl g d a f me st)
  | .cpyCommon sl g d a p f => some (semCpyCommon sl g d a p f me st)
  | .vadd sl g d a b k t => some (semVadd sl g d a b k t me st)
  | .vsub sl g d a b k t => some (semVsub sl g d a b k t me st)
  | .vmul sl g d a b k t => some (semVmul sl g d a b k t me st)
  | .vmad sl g d a b k t => some (semVmad sl g d a b k t me st)
  | .vmin sl g d a b k t => some (semVmin sl g d a b k t me st)
  | .vmax sl g d a b k t => some (semVmax sl g d a b k t me st)
  | .vabs sl g d a k t => some (semVabs sl g d a k t me st)
  | .vand sl g d a b k t => some (semVand sl g d a b k t me st)
  | .vor sl g d a b k t => some (semVor sl g d a b k t me st)
  | .vxor sl g d a b k t => some (semVxor sl g d a b k t me st)
  | .vshl sl g d a b k t => some (semVshl sl g d a b k t me st)
  | .vshr sl g d a b k t => some (semVshr sl g d a b k t me st)
  | .vcmp sl g d a b c k t => some (semVcmp sl g d a b c k t me st)
  | .vsel sl g d a b k t => some (semVsel sl g d a b k t me st)
  | .vred sl g d a c k t => some (semVred sl g d a c k t me st)
  | .vscan sl g d a c k t => some (semVscan sl g d a c k t me st)
  | .vhist sl g d a k t => some (semVhist sl g d a k t me st)
  | .vtopk sl g d a c k t => some (semVtopk sl g d a c k t me st)
  | .vcvt sl g d a s0 k t => some (semVcvt sl g d a s0 k t me pre st)
  | .vbcast sl g d r p k t => some (semVbcast sl g d r p k t me st)
  | .vmov sl g d a f k t => some (semVmov sl g d a f k t me st)
  | .vkop sl g d a b c => some (semVkop sl g d a b c me st)
  | .vcnt sl g d k t => some (semVcnt sl g d k t me st)
  | .vpop sl g d q k t => some (semVpop sl g d q k t me pre st)
  | .frcp g d a t => some (semFrcp g d a t me st)
  | .frsq g d a t => some (semFrsq g d a t me st)
  | .fexp2 g d a t => some (semFexp2 g d a t me st)
  | .flog2 g d a t => some (semFlog2 g d a t me st)
  | .ftanh g d a t => some (semFtanh g d a t me st)
  | .fsig g d a t => some (semFsig g d a t me st)
  | .fmov g d a f => some (semFmov g d a f me st)
  | .pack g d a r p t => some (semPack g d a r p t me pre st)
  | .packAuto g d a t => some (semPackAuto g d a t me pre st)
  | .unpk g d a t => some (semUnpk g d a t me pre st)
  | .rmrg g d a b r p => some (semRmrg g d a b r p me st)
  | .shuf g d a b t => some (semShuf g d a b t me st)
  | .trns g d a b t => some (semTrns g d a b t me st)
  | .ilv g d a b t => some (semIlv g d a b t me st)
  | .dil g d a b t => some (semDil g d a b t me st)
  | .pscl g d a r p t => some (semPscl g d a r p t me pre st)
  | .pmov g d a f => some (semPmov g d a f me st)
  | .aset g d r p => some (semAset g d r p me st)
  | .ainc g d m => some (semAinc g d m me st)
  | .amod g d r p e => some (semAmod g d r p e me st)
  | .amov g d a s0 w => some (semAmov g d a s0 w me st)
  | .cim g r p s0 q b m l o t => some (semCim g r p s0 q b m l o t me st)
  | .smx g r p s0 q b m l o t => some (semSmx g r p s0 q b m l o t me st)
  | .acz g r p b => some (semAcz g r p b me st)
  | .drn g r p b n => some (semDrn g r p b n me pre st)
  | .wpre g s0 q n => some (semWpre g s0 q n me st)
  | .wpin g s0 q => some (semWpin g s0 q me st)
  | .wunp g s0 q => some (semWunp g s0 q me st)
  | .winv g s0 q => some (semWinv g s0 q me st)
  | .wprb g d s0 q => some (semWprb g d s0 q me st)
  | .ld sl g r f a m w c => some (semLd sl g r f a m w c me st)
  | .st sl g r f a m => some (semSt sl g r f a m me st)
  | .lds sl g r f a m w c => some (semLds sl g r f a m w c me st)
  | .sts sl g r f a m p => some (semSts sl g r f a m p me st)
  | .stq sl g q a m => some (semStq sl g q a m me pre st)
  | .fset sl g a m w => some (semFset sl g a m w me st)
  | .fclr sl g a m w => some (semFclr sl g a m w me st)
  | .fwait sl g a m w => some (semFwait sl g a m w me st)
  | .park sl g r f p e => some (semPark sl g r f p e me st)
  | .unpark sl g r f e => some (semUnpark sl g r f e me st)
  | .gld g r f a m c o z => some (semGld g r f a m c o z me st)
  | .gst g r f a m c o z => some (semGst g r f a m c o z me st)
  | .gam g r f a m c o n => some (semGam g r f a m c o n me st)
  | .ljn g r f a m => some (semLjn g r f a m me st)
  | .lwt g r f a m o => some (semLwt g r f a m o me st)
  | .gpf g a m t => some (semGpf g a m t me st)
  | .gcb g a m t => some (semGcb g a m t me st)
  | .xlt g d a w => some (semXlt g d a w me st)
  | .xlp g d a w => some (semXlp g d a w me st)
  | .xinv g a n => some (semXinv g a n me st)
  | .xfer g r p v t => some (semXfer g r p v t me st)
  | .xwt g t => some (semXwt g t me st)
  | .rstr g r p s0 q n => some (semRstr g r p s0 q n me st)
  | .send g r p s0 q => some (semSend g r p s0 q me st)
  | .sendQueue g r p s0 q n => some (semSendQueue g r p s0 q n me pre st)
  | .recv g r p s0 q => some (semRecv g r p s0 q me st)
  | .fmtImm g i => some (semFmtImm g i me st)
  | .fmtReg g p r => some (semFmtReg g p r me st)
  | .sclt g q h p l => some (semSclt g q h p l me st)
  | .bar g b => some (semBar g b me st)
  | .barArrive g b => some (semBarArrive g b me st)
  | .barWait g b => some (semBarWait g b me st)
  | .barc g p r b => some (semBarc g p r b me st)
  | .cqp g p r => some (semCqp g p r me st)
  | .rel g m => some (semRel g m me st)
  | .csrr g d n => some (semCsrr g d n me st)
  | .csrw g p s0 n => some (semCsrw g p s0 n me st)
  | .br g c p o => some (semBr g c p o me st)
  | .call g c p o => some (semCall g c p o me pre st)
  | .ret g c p => some (semRet g c p me st)
  | .loop g l n => some (semLoop g l n me st)
  | .loopReg g l p r => some (semLoopReg g l p r me st)
  | .loopQ g l => some (semLoopQ g l me st)
  | .lsp g s0 l n => some (semLsp g s0 l n me st)
  | .lspReg g s0 l p r => some (semLspReg g s0 l p r me st)
  | .lspQ g s0 l => some (semLspQ g s0 l me st)
  | .brk g c => some (semBrk g c me st)
  | .fence g k s0 => some (semFence g k s0 me st)
  | .fenceX g s0 p => some (semFenceX g s0 p me st)
  | .ifence g => some (semIfence g me st)
  | .wait g n => some (semWait g n me st)
  | .mpc g o => some (semMpc g o me st)
  | .yld g => some (semYld g me st)
  | .trap g c => some (semTrap g c me st)
  | .tret g => some (semTret g me st)
  | .done g => some (semDone g me st)
  | .dlc g r p => some (semDlc g r p me st)
  | .dlcApportioned g r p => some (semDlcApportioned g r p me st)
  | _ => none

/-- The operations of a group, evaluated on the state before it issues: a lower slot's pops and draws come first (R35,
R110, R157). -/
def evalOps (s : State) (p : Nat) : Pre → List (Nat × Instr) → List OpSem
  | _, [] => []
  | pre, x :: xs =>
    match semOf x.2 p pre s with
    | none => evalOps s p pre xs
    | some o => o :: evalOps s p (if o.on then { pre with
        pops := pre.pops ++ o.pops
        draws := pre.draws + o.draws } else pre) xs

/-- The operations of a group, each knowing how many rows the pops of all take of each queue (R157). -/
def groupOps (s : State) (p : Nat) (next : Word) (l : List (Nat × Instr)) : List OpSem :=
  let ops := evalOps s p { next := next } l
  evalOps s p { next := next, total := (ops.filter (·.on)).flatMap (·.pops) } l

/-- The operations of a group in slot order. -/
def slotOrder (ops : List (Nat × Instr)) : List (Nat × Instr) :=
  (List.range 16).filterMap (fun k => ops.find? (fun x => x.1 == k))

/-- A context of the same cluster of the launch is still being loaded for the cluster's start (R257). -/
def gateShut (s : State) (p : Nat) : Bool :=
  let c := getCtx s p
  (List.range 8).any (fun i =>
    let d := getCtx s (8 * clusterOf p + i)
    d.binding && d.st == .restoring && d.lseq == c.lseq && d.lclus == c.lclus)

/-- The idle steps of a `skip` or a `wait 0` are under way. -/
def midGroup (c : Ctx) : Bool := c.idle != 0 || c.waitIdle

/-- The context stands at the group `a` that it reached at its pc; the buffer keeps the way where it is being filled. -/
def passMark (a : Word) (c : Ctx) : Ctx :=
  let fills : Bool := match c.loops with
    | e :: _ => e.fresh
    | [] => false
  { c with
    pc := a
    lmarks := if fills then (c.pc, a) :: c.lmarks else c.lmarks }

/-- The context stands at its next group: bodies left or passed over are walked, line-end marks are passed over (R46, R94,
R425). -/
def toGroup (p : Nat) (s : State) : State :=
  if !competes (getCtx s p) then s
  else
    let s1 := walkOn p s
    let c := getCtx s1 p
    let a := reached s1 p c.pc
    if c.exiting || c.bodyWalk.isSome || midGroup c || a == c.pc then s1 else setCtx p (passMark a c) s1

/-- What fetching a context's next group comes to. -/
inductive Fetching where
  /-- The context does not have its turn. -/
  | no
  /-- A fetch faults: the cause and the group it names. -/
  | fault (e : Cause) (gaddr : Word)
  /-- The fetch waits: for the recall of a page, where one is named, or (`held`) at a stack in thermal hold. -/
  | far (page : Option Nat) (held : Bool)
  /-- An idle step is due. -/
  | idle
  /-- The group. -/
  | got (f : Fetched)

/-- A fetch that stops, for the group at `ga`. -/
def stopAt (x : Stop) (ga : Word) : Fetching :=
  match x with
  | .cause e => .fault e ga
  | .waits page => .far page false
  | .held => .far none true

/-- The fetch for a context's next group. -/
def fetchFor (s : State) (p : Nat) : Fetching :=
  let c := getCtx s p
  if !competes c || gateShut s p then .no
  else if c.exiting then
    match (popTo s p c.pc c.loops).2 with
    | some x => stopAt x.1 x.2
    | none => .no
  else match c.bodyWalk with
    | some (a, n) => match walkFrom s p n a with
      | .error (e, ga, _) => stopAt e ga
      | .ok _ => .no
    | none =>
      if midGroup c then .idle
      else match fetchGroup s p c.pc with
        | .error e => stopAt e c.pc
        | .ok f => .got f

/-- The lines fetched enter the instruction cache; a page that the fetch waits for is recalled (R233). -/
def fillFor (p : Nat) (f : Fetching) (s : State) : State :=
  match f with
  | .got f => fillCode p f.lines s
  | .far (some page) _ => askRecall page s
  | _ => s

/-- What the context's attempt to issue comes to, its group fetched. -/
def attempt (s : State) (p : Nat) (f : Fetching) : Attempt :=
  let c := getCtx s p
  match f with
  | .no => .idleOut
  | .fault e ga => .trap e ga
  | .far _ held => .block [] held
  | .idle => if windowBlocks c (getCore s (coreOf p)) (p % 2) then .block [] false else .step
  | .got f => tryGroup s p f (groupOps s p f.grp.next (slotOrder f.grp.ops))

/-- A kill that another context's trap brought leaves nothing of the attempt. -/
def stillFor (s : State) (p : Nat) (a : Attempt) : Attempt := if competes (getCtx s p) then a else .idleOut

/-- The context has something to issue in the cycle. -/
def hasIssue : Attempt → Bool
  | .ready .. => true
  | .step => true
  | _ => false

/-- The operations of an attempt. -/
def opsOf : Attempt → List OpSem
  | .ready _ ops => ops
  | _ => []

/-- Two groups do not merge: a common slot, or `.c` reads of a common granule (R37). -/
def overlap (a b : Attempt) : Bool :=
  (opsOf a).any (fun x => (opsOf b).any (fun y => x.slot == y.slot))
    || (opsOf a).any (fun x => (opsOf b).any (fun y => x.on && y.on && x.cread.any (y.cread.contains ·)))

/-- Which of two overlapping groups issues: whether it is that of context 0 (R37). -/
def firstWins (a b : Ctx) : Bool :=
  if 15 ≤ a.denials then true
  else if 15 ≤ b.denials then false
  else if a.latency != b.latency then a.latency
  else true

/-- Which contexts of the core issue (R37, R422). (DEDUCED, log 54.) -/
def choose (s : State) (p : Nat) (a b : Attempt) : Bool × Bool :=
  let c := getCtx s p
  let d := getCtx s (p + 1)
  let x := hasIssue a && !(c.yield != 0 && hasIssue b)
  let y := hasIssue b && !(d.yield != 0 && hasIssue a)
  if x && y && overlap a b then (if firstWins c d then (true, false) else (false, true)) else (x, y)

/-- Sub-steps of one issue cycle at a split level (R308). -/
def subSteps (level : Nat) (slots : List Nat) : Nat :=
  let n := if level = 0 then 1 else if level = 1 then 2 else if level = 2 then 4 else 16
  Nat.max 1 ((List.range n).countP (fun i => slots.any (fun k => k / (16 / n) == i)))

/-- The operations of the cycle take effect in slot order (R35, R36, R52). -/
def runMerged (xs : List (Nat × OpSem)) (s : State) : State :=
  xs.foldl (fun t x => if x.2.on then x.2.effect (addRes x.1 x.2 t) else t) s

/-- A group that issues has passed the wait of a `bar` (R325). -/
def passes (p : Nat) (a : Attempt) (s : State) : State :=
  match a with
  | .ready .. => passBar p s
  | _ => s

/-- The operations of both contexts in slot order. -/
def mergedOps (p : Nat) (a b : List OpSem) : List (Nat × OpSem) :=
  let both := a.map (fun o => (p, o)) ++ b.map (fun o => (p + 1, o))
  (List.range 16).flatMap (fun k => both.filter (fun x => x.2.slot == k))

/-- An attempt as it issues; nothing where it does not. -/
def issued (b : Bool) (a : Attempt) : Attempt := if b then a else .idleOut

/-- What the junction counts of a context that did not issue; `ready`: its group could have (R37, R422).
(DEDUCED, log 51.)  An idle step of the other context ends a yield as a group does. (DESIGN CHOICE, log 117.) -/
def settleTurn (p : Nat) (ready took other : Bool) (s : State) : State :=
  let c := getCtx s p
  if took then s
  else if ready && c.yield == 0 then setCtx p { c with denials := Nat.min 15 (c.denials + 1) } s
  else if c.yield = 0 then s
  else setCtx p { c with yield := if other then 0 else c.yield - 1 } s

/-- The step of a context that issued ends. -/
def finishOne (p : Nat) (a : Attempt) (s : State) : State :=
  match a with
  | .ready g ops => endGroup p g ops s
  | .step => if (getCtx s p).st == .free then s else finishStep p s
  | _ => s

/-- The cycles of an issue cycle pass (R156, R308, R426). (DESIGN CHOICE, log 15.) -/
def tick (core n : Nat) (s : State) : State :=
  countWaits (2 * core + 1) n (countWaits (2 * core) n (updCore core (fun k => { k with cycle := k.cycle + n }) s))

/-- What may issue of the attempts `a` and `b` of a core's contexts issues (R37, R38). -/
def issueCycle (core : Nat) (a b : Attempt) (s : State) : State :=
  let p := 2 * core
  let w := choose s p a b
  let a1 := issued w.1 a
  let b1 := issued w.2 b
  let s1 := settleTurn (p + 1) (hasIssue b) w.2 w.1 (settleTurn p (hasIssue a) w.1 w.2 s)
  let s2 := commitWrites (runMerged (mergedOps p (opsOf a1) (opsOf b1)) (passes (p + 1) b1 (passes p a1 s1)))
  tick core (subSteps (getCore s core).split ((opsOf a1 ++ opsOf b1).map (·.slot))) (finishOne (p + 1) b1 (finishOne p a1 s2))

/-- The position whose group issues, as far as one of the two is to be named. (DESIGN CHOICE, log 5.) -/
def leader (p : Nat) (f : Fetching) : Nat :=
  match f with
  | .no => p + 1
  | _ => p

/-- The fills on their way to a core are installed (R208). (DESIGN CHOICE, log 75.) -/
def installFills (core : Nat) (s : State) : State :=
  (getCore s core).fills.foldl (fun t f => lcSet core f.line f.copy t) (updCore core (fun k => { k with fills := [] }) s)

/-- GROUP_ISSUE (R37): one issue cycle of a core.  The fills on their way arrive; the groups are fetched; causes are taken and blocks recorded; then what
may issue issues.  The group of a context that yields is tried as any other, and its causes are taken. (DESIGN CHOICE, log 117.) -/
def doGroupIssue (core : Nat) (s : State) : State :=
  if !(coreLive s core && s.bustat == 5) then s
  else
    let p := 2 * core
    let s0 := toGroup (p + 1) (toGroup p (installFills core s))
    let f := fetchFor s0 p
    let g := fetchFor s0 (p + 1)
    let s1 := fillFor (p + 1) g (fillFor p f { s0 with cur := leader p f })
    let a := attempt s1 p f
    let b := attempt s1 (p + 1) g
    let s2 := settleAttempt p a s1
    let b1 := stillFor s2 (p + 1) b
    let s3 := settleAttempt (p + 1) b1 s2
    issueCycle core (stillFor s3 p a) b1 s3

/-- FETCH_FAULT (R48): a fetch for the context's next group faults. -/
def doFetchFault (p : Nat) (s : State) : State :=
  let s0 := toGroup p s
  match attempt s0 p (fetchFor s0 p) with
  | .trap e ga => if p < 512 && e.rank == 1 then trapEntry p e ga 0 none s0 else s
  | _ => s

/-- `exec` of `.groupIssue`. -/
def execGroupIssue (core : Nat) (s : State) : Host.Outcome State Fault Refusal := .next (doGroupIssue core s)
/-- `exec` of `.fetchFault`. -/
def execFetchFault (p : Nat) (s : State) : Host.Outcome State Fault Refusal := .next (doFetchFault p s)

end Sys2Proof.Machine
end

