-- ==== Sys2Proof/Machine/Resolve.lean ====
section
/-! DEFINITION. Causes taken after issue, and what the scheduler resolves: page faults, extent walks, a full side log,
ownership upgrades (R181 to R183, R234, R278, R280, R286, R295, R427). -/

namespace Sys2Proof.Machine

/-! ### Causes of earlier work (R280, R295, R427) -/

/-- A replay fault: its INFO has bit 63 set (Table 18-3). -/
def ofReplay (e : Cause) : Bool := e.info.getLsbD 63

/-- DEFERRED_CAUSE (R427, R280): cause `k` that waits for the context's next group boundary is taken there.  GADDR is the
group that started the work and INFO the next group, which after an idle step is the idle group itself, whose steps left
follow the return (R387, R413); for a replay fault GADDR is the next group and INFO names the
entry. (DEDUCED, log 16.) -/
def doDeferredCause (p k : Nat) (s : State) : State :=
  let c := getCtx s p
  if p < 512 && (c.st == .ready || c.st == .blocked) then
    match c.after[k]? with
    | none => s
    | some e =>
      let next := reached s p c.pc
      let s1 := updCtx p (fun z => { z with after := z.after.eraseIdx k }) s
      if ofReplay e then trapEntry p { e with info := 0 } next e.info none s1
      else trapEntry p { e with info := 0 } e.info next none s1
  else s

/-! ### A cause that the scheduler hands on (R278, R286) -/

/-- The cause that holds a trapped context becomes another, for its handler: the record names it, and SLOT 31 where the
scheduler raises it (R278, Table 18-2).  In a handler
it ends the handler (R286). -/
def turnCause (p : Nat) (e : Cause) (s : State) : State :=
  let c := getCtx s p
  match c.serves with
  | some _ => trapEntry p e (reached s p c.pc) 0 none s
  | none =>
    let w0 := (c.trec.getD 0 0 &&& ~~~0x1FFFFF) ||| BitVec.ofNat 64 (e.code % 2 ^ 16 + e.slot % 32 * 2 ^ 16)
    let ws := w0 :: [c.trec.getD 1 0, e.addr, e.place, e.frame] ++ c.trec.drop 5
    let s1 := setCtx p { c with
      trec := ws
      hold := none
      needHandler := true } s
    handlerless p (writeRecord c.area ws s1)

/-- A held context goes on: its group is tried again (R278). -/
def releaseHold (p : Nat) (s : State) : State :=
  updCtx p (fun c => { c with
    st := if c.st == .trapped then .ready else c.st
    hold := none }) s

/-- An absent extent for the page of an address, as an extent walk installs it (R181). -/
def absentExtent (c : Ctx) (va : Word) : Extent :=
  { vpn := pageOf va, pages := 1, frame := 0, place := 0, perm := 0, absent := true,
    kinds := match rangeAt c.ranges va with
      | some r => r.kinds
      | none => 15 }

/-- The walk of an address for a context, by the tables as they stand. -/
def walkFor (s : State) (p : Nat) (va : Word) : WalkEnd := walkTable s (getCtx s (extOwner s p)).asn va

/-- The pages that a walk for a context, which sets A or, with `write`, D in a leaf where it is clear, waits for (R233). -/
def walkWaits (s : State) (p : Nat) (va : Word) (write : Bool) : List Nat :=
  walkBars s (getCtx s (extOwner s p)).asn va (setsBit (walkFor s p va) write)

/-- What the scheduler finds for a page fault, a fetch on an absent page or an extent walk, held as `e`: whether the work
goes on, and the state with the extent it installs.  `none`: the entry breaks the rules. -/
def mapPage (p : Nat) (e : Cause) (s : State) : Option (Bool × State) :=
  let w := walkFor s p e.addr
  let bars := walkWaits s p e.addr (e.access == 2)
  if !bars.isEmpty then some (false, askRecalls bars s)
  else match w.kind with
  | .leaf => some (true, installLeaf (extOwner s p) e.addr w (walkMark w (e.access != 2) (e.access == 2) s))
  | .absent => if e.code = 0x12 then some (true, installExtent (extOwner s p) (absentExtent (getCtx s (extOwner s p)) e.addr) s) else some (false, s)
  | .broken => none

/-- The translation fault that a cause turns into where the page's entry breaks the rules. -/
def brokenCause (s : State) (p : Nat) (e : Cause) : Cause :=
  let w := walkFor s p e.addr
  { e with code := 0x24, place := w.place, frame := w.frame }

/-- The hold of a context is resolved where it can be. -/
def resolveHold (p : Nat) (e : Cause) (s : State) : State :=
  if e.code = 0x13 then
    (if (getCore s (coreOf p)).slog.length < Config.queueEntries then releaseHold p s else s)
  else if e.code = 0x14 then s
  else match mapPage p e s with
    | some (true, t) => releaseHold p t
    | some (false, t) => t
    | none => turnCause p (brokenCause s p e) s

/-- A held transfer whose cause the scheduler resolves. -/
def schedHeld (h : Option Cause) : Option Cause :=
  match h with
  | some e => if bySched e.code && e.code != 0x14 then some e else none
  | none => none

/-- Transfer or restripe `k` goes on where its page is mapped. -/
def resolveXfer (p : Nat) (s : State) (k : Nat) : State :=
  match (getCtx s p).xfers[k]? with
  | none => s
  | some x => match schedHeld x.held with
    | none => s
    | some e => match mapPage p e s with
      | some (true, t) => setXfer p k { x with held := none } t
      | some (false, t) => t
      | none => holdXfer p k x (brokenCause s p e) s

/-- Walk `k` is made again where its page's entry is present, in its earlier place among the walks. (DESIGN CHOICE, log 103.) -/
def resolveWalk (p : Nat) (s : State) (k : Nat) : State :=
  match (getCtx s p).walks[k]? with
  | none => s
  | some w => match schedHeld w.held with
    | none => s
    | some _ =>
        let bars := walkWaits s p w.va false
        if !bars.isEmpty then askRecalls bars s
        else if (walkFor s p w.va).kind == .absent then s
        else updCtx p (fun c => { c with walks := c.walks.set k { w with held := none } }) s

/-- Side-log entry `i` of context `p` meets a fault: its replay stops and the fault waits (R295). (DEDUCED, log 39.) -/
def sideFault (p i : Nat) (e : SideEntry) (h : Cause) (s : State) : State :=
  let c : Cause := { h with info := BitVec.ofNat 64 (2 ^ 63 + i) }
  updCtx p (fun z => { z with after := z.after ++ [c] })
    (updCore (coreOf p) (fun k => { k with slog := k.slog.set i { e with cause := some c } }) s)

/-- The extents of logged writes whose pages are mapped now; a broken entry is the entry's replay fault (R183, R295). -/
def resolveSide (p : Nat) (s : State) (i : Nat) : State :=
  match (getCore s (coreOf p)).slog[i]? with
  | none => s
  | some e =>
    if e.pos != p || e.cause.isSome then s
    else match translate s p e.va (writeAccess e.kind) with
      | .absent _ =>
        let w := walkFor s p e.va
        let bars := walkWaits s p e.va true
        if !bars.isEmpty then askRecalls bars s
        else match w.kind with
        | .leaf => installLeaf (extOwner s p) e.va w (walkMark w false true s)
        | .absent => s
        | .broken => sideFault p i e { plainCause 0x24 11 with addr := e.va, place := w.place, frame := w.frame, access := 2 } s
      | _ => s

/-- The page of an address that a recall has taken is mapped again for a context, where its entry is present (R235). -/
def mapAgain (p : Nat) (va : Word) (write : Bool) (s : State) : State :=
  let w := walkFor s p va
  let bars := walkWaits s p va write
  match translate s p va (if write then .write else .read) with
  | .ok _ => s
  | _ =>
    if !bars.isEmpty then askRecalls bars s
    else if w.kind != .leaf then s
    else installLeaf (extOwner s p) va w (walkMark w (!write) write s)

/-- The page of a request that a recall has held back is mapped again for it (R235). -/
def resolveLost (p : Nat) (s : State) (k : Nat) : State :=
  match (getCtx s p).reqs[k]? with
  | none => s
  | some r => if r.lost then mapAgain p r.va (writes r) s else s

/-- The same for a matrix operation's tile. -/
def resolveMop (p : Nat) (s : State) (k : Nat) : State :=
  match (getCtx s p).mops[k]? with
  | none => s
  | some m => if m.lost then mapAgain p (tileVa m) false s else s

/-- Every held transfer, walk, logged write, request and matrix operation of a context that can go on does. -/
def resolveWork (p : Nat) (s : State) : State :=
  let s1 := (List.range (getCtx s p).xfers.length).foldl (resolveXfer p) s
  let s2 := (List.range (getCtx s1 p).walks.length).foldl (resolveWalk p) s1
  let s3 := (List.range (getCore s2 (coreOf p)).slog.length).foldl (resolveSide p) s2
  let s4 := (List.range (getCtx s3 p).reqs.length).foldl (resolveLost p) s3
  (List.range (getCtx s4 p).mops.length).foldl (resolveMop p) s4

/-- The scheduler cannot map a page: the first held transfer, else walk, else logged write of the context meets 0x0026
(R278, R427). -/
def refuseWork (p : Nat) (s : State) : State :=
  let c := getCtx s p
  match c.xfers.findIdx? (fun x => (schedHeld x.held).isSome) with
  | some k => match c.xfers[k]? with
    | some x => match schedHeld x.held with
      | some e => holdXfer p k x { e with code := 0x26, slot := 31 } s
      | none => s
    | none => s
  | none => match c.walks.findIdx? (fun w => (schedHeld w.held).isSome) with
    | some k => match c.walks[k]? with
      | some w => match schedHeld w.held with
        | some e => holdWalk p k w { e with code := 0x26, slot := 31 } s
        | none => s
      | none => s
    | none =>
      let l := (getCore s (coreOf p)).slog
      match l.findIdx? (fun e => e.pos == p && e.cause.isNone) with
      | some i => match l[i]? with
        | some e => match translate s p e.va (writeAccess e.kind) with
          | .absent _ => sideFault p i e { plainCause 0x26 31 with addr := e.va, access := 2 } s
          | _ => s
        | none => s
      | none => s

/-- SCHEDULER_RESOLVE (R181 to R183, R278, R427): the scheduler has dealt with the causes it resolves of context `p`,
the one that holds it first; `ok` is false where the host driver could not map the page. (DESIGN CHOICE, log 55.) -/
def doResolve (p : Nat) (ok : Bool) (s : State) : State :=
  match (getCtx s p).hold with
  | some e =>
    if ok then resolveWork p (resolveHold p e s)
    else if e.code = 0x13 || e.code = 0x14 then s
    else turnCause p { e with code := 0x26, slot := 31 } s
  | none => if ok then resolveWork p s else refuseWork p s

/-! ### Ownership upgrades (R234) -/

/-- A placement word with COH 2. -/
def ownedWord (w : Word) : Word := (w &&& ~~~0x3000000) ||| 0x2000000

/-- The part of extent `x` that a leaf's frames cover takes the new placement word. -/
def ownExtent (f span : Nat) (new : Word) (c : Ctx) (x : Extent) : Ctx :=
  let lo := Nat.max x.frame f
  let hi := Nat.min (x.frame + x.pages * 2 ^ 16) (f + span)
  if x.absent || ownedWord x.place != new || hi ≤ lo then c
  else
    let v := x.vpn + (lo - x.frame) / 2 ^ 16
    let n := (hi - lo) / 2 ^ 16
    let kept := carve v n c.extents
    { c with extents := kept.drop (kept.length + 1 - extentRoom c) ++ [{ x with vpn := v, pages := n, frame := lo, place := new }] }

/-- The leaf of an address is rewritten with COH 2, and the extents that map it are updated. -/
def ownLeaf (p : Nat) (va : Word) (s : State) : State :=
  let e := walkFor s p va
  if e.kind != .leaf then s
  else if !needsOwner e.place then installLeaf (extOwner s p) va e (walkMark e false true s)
  else
    let new := ownedWord e.place
    let s1 := putPlace e.addr new (walkMark e false true s)
    { s1 with ctxs := smMap {} (fun _ c => c.extents.foldl (ownExtent (frameAddr e.frame) e.span new) c) s1.ctxs }

/-- A transfer of the context waits for ownership. -/
def wantsOwner (x : Xfer) : Bool := (x.held.map (·.code)) == some 0x14

/-- A write that a recall has held back meets a page mapped again with COH 1 (R234, R235). -/
def lostWants (s : State) (p : Nat) (r : GReq) : Bool :=
  r.lost && writes r && (match translate s p r.va .write with
    | .ok x => needsOwner x.place
    | _ => false)

/-- The address for which the context wants ownership first: of its group, of a transfer, of a logged write, of a write held
back by a recall. -/
def ownAddr (s : State) (p : Nat) : Option Word :=
  let c := getCtx s p
  if (c.hold.map (·.code)) == some 0x14 then c.hold.map (·.addr)
  else match c.xfers.find? wantsOwner with
    | some x => x.held.map (·.addr)
    | none => match (sideOf s p).find? (fun e => match translate s p e.va (writeAccess e.kind) with
        | .ok x => needsOwner x.place
        | _ => false) with
      | some e => some e.va
      | none => (c.reqs.find? (lostWants s p)).map (·.va)

/-- The home refuses ownership to write `k` that a recall has held back: the write-protection fault waits for the context's next
group boundary, as a replay fault does, the group there being the one that it names (R234, R295).  A context that has ended
meets none: its write is dropped, and one that drains counts as a context that ended through the fault (R260). (DESIGN CHOICE,
log 108.) -/
def refuseLost (p k : Nat) (r : GReq) (s : State) : State :=
  let c := getCtx s p
  let e := { plainCause 0x22 11 with addr := r.va, place := r.place, access := 2, info := reached s p c.pc }
  match c.st with
  | .free => dropReq p k s
  | .draining => faultLaunch c.lseq 0x22 c.pc (dropReq p k s)
  | _ => if c.after.any (fun x => x.code == 0x22 && x.addr == r.va) then s else updCtx p (fun z => { z with after := z.after ++ [e] }) s

/-- The home refuses: the write-protection fault, for what the context wants ownership for first (R234). -/
def refuseOwner (p : Nat) (s : State) : State :=
  let c := getCtx s p
  match c.hold.filter (fun e => e.code == 0x14) with
  | some e => turnCause p { e with code := 0x22 } s
  | none => match c.xfers.findIdx? wantsOwner with
    | some k => match c.xfers[k]? with
      | some x => match x.held with
        | some e => holdXfer p k x { e with code := 0x22 } s
        | none => s
      | none => s
    | none =>
      let l := (getCore s (coreOf p)).slog
      match l.findIdx? (fun e => e.pos == p && e.cause.isNone && (match translate s p e.va (writeAccess e.kind) with
          | .ok x => needsOwner x.place
          | _ => false)) with
      | some i => match l[i]? with
        | some e => match translate s p e.va (writeAccess e.kind) with
          | .ok x => sideFault p i e { plainCause 0x22 11 with addr := e.va, place := x.place, access := 2 } s
          | _ => s
        | none => s
      | none => match c.reqs.findIdx? (lostWants s p) with
        | some k => match c.reqs[k]? with
          | some r => refuseLost p k r s
          | none => s
        | none => s

/-- OWNERSHIP_UPGRADE (R234): the home grants ownership, the leaf is rewritten, once its page may be written (R233), and what
waited goes on; or it refuses.  With no port up the home is not reached (R311). -/
def doOwnershipUpgrade (p : Nat) (ok : Bool) (s : State) : State :=
  match ownAddr s p with
  | none => s
  | some a =>
    let bars := walkBars s (getCtx s (extOwner s p)).asn a true
    if portsDown s then s
    else if ok && !bars.isEmpty then askRecalls bars s
    else if ok then
      let s1 := ownLeaf p a s
      let s2 := updCtx p (fun c => { c with
        xfers := c.xfers.map (fun x => if wantsOwner x && (x.held.map (·.addr)) == some a then { x with held := none } else x) }) s1
      if ((getCtx s2 p).hold.map (·.code)) == some 0x14 then releaseHold p s2 else s2
    else refuseOwner p s

/-- `exec` of `.deferredCause`. -/
def execDeferredCause (p k : Nat) (s : State) : Host.Outcome State Fault Refusal := .next (doDeferredCause p k s)
/-- `exec` of `.schedulerResolve`. -/
def execSchedulerResolve (p : Nat) (ok : Bool) (s : State) : Host.Outcome State Fault Refusal := .next (doResolve p ok s)
/-- `exec` of `.ownershipUpgrade`. -/
def execOwnershipUpgrade (p : Nat) (ok : Bool) (s : State) : Host.Outcome State Fault Refusal := .next (doOwnershipUpgrade p ok s)

end Sys2Proof.Machine
end

