-- ==== Sys2Proof/Machine/Rollback.lean ====
section
/-! DEFINITION. Uncorrectable errors, rollback, and units that fail in service (R290 to R296, R311, R314). -/

namespace Sys2Proof.Machine

/-- An EVENT bit is set (Table 19-4). -/
def raiseEvent (i : Nat) (s : State) : State := { s with event := s.event ||| BitVec.ofNat 7 (2 ^ i) }

/-- A launch may be rolled back: it is restartable, and it has been relaunched less than twice (R294, R296). -/
def mayReplay (l : Launch) : Bool := l.restartable && l.replays < 2

/-- A launch is to be rolled back, or ends with cause 0x0041 (R291, R294, R296). (DEDUCED, log 64.) -/
def strike (s : State) (l : Launch) : State :=
  if l.ending then s
  else if mayReplay l then updLaunch l.seq (fun x => { x with raised := true }) s
  else endLaunch l.seq 0x41 0 s

/-- UNCORRECTABLE_ERROR_EVENT (R291): a context of the launch has read poisoned data. -/
def doErrorEvent (seq : Nat) (s : State) : State :=
  match findLaunch s seq with
  | none => s
  | some l =>
    if !l.poison || l.raised then s
    else strike (raiseEvent 1 (updLaunch seq (fun x => { x with poison := false }) s)) l

/-! ### Rollback (R291) -/

/-- What a launch's contexts left running: their keys. -/
def leftOf (s : State) (seq : Nat) : List Nat := s.ctxs.filterMap (fun e => if e.2.lseq == seq then some e.1 else none)

/-- A restripe cancelled between a page's mark and its commit clears RS again (R190). -/
def clearStripe (s : State) (x : Xfer) : State :=
  let w : Word := BitVec.ofNat 64 (rdNat s.mem (memKey 0 (x.leaf + 8)) 8)
  if !x.restripe || !x.marked || x.dropped || !w.getLsbD 11 then s else putPlace x.leaf (w &&& ~~~0x800) s

/-- Steps 1 and 3: every context of the launch stops, its side-log entries are discarded, the rest of its transfers is
cancelled. -/
def stopLaunch (seq : Nat) (s : State) : State :=
  let s1 := (ctxsOf s seq).foldl (fun t p => kill p t) s
  (leftOf s1 seq).foldl (fun t p =>
    updCtx p (fun c => { c with xfers := [] }) ((getCtx t p).xfers.foldl clearStripe t)) s1

/-- A context that nothing is left of is forgotten. -/
def dropEmpty (seq : Nat) (s : State) : State :=
  { s with ctxs := s.ctxs.filter (fun e => !(e.2.lseq == seq && 512 ≤ e.1 && noLeft e.2)) }

/-- The homes and keys of the line of an entry of die `d`'s write log: that die's, or those of every copy of a page that has
one per die (R230). -/
def undoPlaces (s : State) (d : Nat) (e : WLog) : List (Nat × Nat) :=
  let q := 64 * e.line % 2 ^ 52
  if plRepl e.place = 2 then (copiesAt e.place).map (fun k => (homeDie s e.place k q, placeKey e.place k q))
  else [(d, 64 * e.line)]

/-- A line is written with an entry's prior contents and mark (R206, R151). -/
def undoAt (e : WLog) (s : State) (h : Nat × Nat) : State :=
  let s1 := if timed e.place then takeLine e.place h.1 h.2 s else s
  let s2 := writeStamped none e.place h.1 h.2 64 e.data.toNat e.bad ((l2Get s1 h.1 (h.2 / 64)).rts + 1) s1
  if timed e.place then dropWritten e.place h.1 (h.2 / 64) s2 else s2

/-- One entry of a write log is applied: the prior contents and mark come back (R291). -/
def undoEntry (d : Nat) (e : WLog) (s : State) : State := (undoPlaces s d e).foldl (undoAt e) s

/-- Step 4 on one die: the launch's entries in reverse order. -/
def undoDie (seq : Nat) (s : State) (d : Nat) : State :=
  let es := (getDie s d).wlog.filter (fun e => e.seq == seq)
  let s1 := es.reverse.foldl (fun t e => undoEntry d e t) s
  updDie d (fun k => { k with wlog := k.wlog.filter (fun e => e.seq != seq) }) s1

/-- The lines that a launch's entries restore: placement word, home and key. -/
def undoLines (s : State) (seq : Nat) : List (Word × Nat × Nat) :=
  (List.range 4).flatMap (fun d => ((getDie s d).wlog.filter (fun e => e.seq == seq)).flatMap
    (fun e => (undoPlaces s d e).map (fun h => (e.place, h))))

/-- The pages among them that are granted away, whose recalls the writes wait for (R233). -/
def undoBars (s : State) (seq : Nat) : List Nat :=
  ((undoLines s seq).filter (fun l => grantHolds s l.1 l.2.2 true)).map (fun l => l.2.2 % 2 ^ 52 / 2 ^ 16)

/-- The stamp that a line has in an L2, or that one which has left it has at most (R202). -/
def stampAt (s : State) (d line : Nat) : Stamp := if (l2Get s d line).here then (l2Get s d line).wts else (getDie s d).mts

/-- The largest stamp that an undone line has, so that the relaunched contexts read no older copy. (DEDUCED, log 56.) -/
def undoFloor (s : State) (seq : Nat) (t : State) (p : Stamp) : Stamp :=
  (List.range 4).foldl (fun m d => ((getDie s d).wlog.filter (fun e => e.seq == seq)).foldl
    (fun n e => (undoPlaces t d e).foldl (fun v h => serMax v (stampAt t h.1 (h.2 / 64))) n) m) p

/-- Step 5: the launch is bound again from its record, with STATUS.REPLAY = 1. (DEDUCED, log 45.) -/
def relaunch (l : Launch) (floor : Stamp) (s : State) : State :=
  let l1 : Launch := { l with
    st := .relaunched
    cause := 0
    bound := 0
    waves := []
    fgroup := 0
    ending := false
    replays := l.replays + 1
    poison := false
    raised := false
    ptsFloor := floor }
  journalLaunch l1 (updLaunch l.seq (fun _ => l1) s)

/-- ROLLBACK (R291): the launch stops; once its writes are performed, and the lines' pages and stacks can be had (R233, R297,
R311), they are undone and it is bound again.  One that has
become non-restartable meanwhile ends with cause 0x0041 (R294). -/
def doRollback (seq : Nat) (s : State) : State :=
  match findLaunch s seq with
  | none => s
  | some l =>
    if !l.raised || l.ending then s
    else if !l.restartable then endLaunch seq 0x41 0 s
    else
      let s1 := dropEmpty seq (stopLaunch seq s)
      if !(leftOf s1 seq).isEmpty then s1
      else if !(undoBars s1 seq).isEmpty then askRecalls (undoBars s1 seq) s1
      else if (undoLines s1 seq).any (fun l => readWaits s1 l.1 l.2.1 l.2.1 l.2.2) then s1
      else
        let s2 := (List.range 4).foldl (undoDie seq) s1
        relaunch l (undoFloor s1 seq s2 l.ptsFloor) s2

/-! ### Units that fail, and the patrol scrub (R290, R311, R314) -/

/-- The launches that have a context bound to a core or saved off it. -/
def launchesOn (s : State) (core : Nat) : List Launch :=
  s.launches.filter (fun l => (ctxsOf s l.seq).any (fun p => coreOf p == core))

/-- The contexts bound to a core or saved off it. -/
def contextsOn (s : State) (core : Nat) : List Nat :=
  ([2 * core, 2 * core + 1].filter (fun p => (getCtx s p).st != .free))
    ++ (s.saved.filter (fun v => v.core == core)).map (·.key)

/-- CORE_FAILURE (R314): the core is withdrawn, its launches are rolled back or end, its contexts are killed.
(DEDUCED, log 57.) -/
def doCoreFailure (core : Nat) (s : State) : State :=
  if !coreLive s core then s
  else
    let s1 := (launchesOn s core).foldl strike (raiseEvent 4 { s with
      failCores := core :: s.failCores
      ballast := s.ballast.filter (· != core) })
    let s2 := (contextsOn s1 core).foldl (fun t p => kill p t) s1
    updCore core (fun k => { k with owners := [] }) s2

/-- The lattice cells on failed channels are not rebuilt (R314). -/
def dropLost (s : State) : State :=
  s.rebuild.foldl (fun t e => match e.2 with
    | some (_, w, _) => if cellLost s w e.1 then dropMark e.1 t else t
    | none => t) s

/-- CHANNEL_FAILURE (R314): every line that the channel lists place on the channel reads poisoned from now on. -/
def doChannelFailure (stack chan : Nat) (s : State) : State :=
  if 16 ≤ stack || 32 ≤ chan || !chanLive s stack chan || s.failChans.contains (32 * stack + chan) then s
  else dropLost (raiseEvent 4 { s with failChans := (32 * stack + chan) :: s.failChans })

/-- LANE_FAILURE (R311): the port retrains narrower. -/
def doLaneFailure (port lane : Nat) (s : State) : State :=
  let n := 8 * port + lane
  if 16 ≤ port || 8 ≤ lane || s.deadLanes.contains n || s.failLanes.contains n then s
  else raiseEvent 3 { s with failLanes := n :: s.failLanes }

/-- FLIT_RETRY (R311): a damaged flit is sent again; only latency changes. -/
def doFlitRetry (_port : Nat) (s : State) : State := s

/-- The register files in the order of their numbers in an error's key (log 86). -/
def errorFiles : List File := [.va, .vb, .vc, .x, .y, .c, .f, .z, .ka, .kb, .kc, .a, .w]

/-- The mark on the storage of a key: a scratchpad granule or a line (R290). -/
def spoilKey (key : Nat) (s : State) : State :=
  if 2 ^ 63 ≤ key then { s with granBad := smSet false s.granBad (granKey key) true }
  else { s with lineBad := smSet false s.lineBad (key / 64) true }

/-- The mark on register `n` of file `f` of a context or, past the files, on row `n / 8` of its core's queue `n % 8`
(R290). -/
def spoilUnit (p f n : Nat) (s : State) : State :=
  match errorFiles[f]? with
  | some fl => updCtx p (fun c => { c with regBad := ⟨fl, n⟩ :: c.regBad.filter (· != ⟨fl, n⟩) }) s
  | none => updCore (coreOf p) (fun k => { k with
      queues := smSet [] k.queues (n % 8) ((smGet [] k.queues (n % 8)).modify (n / 8) (fun r => { r with bad := true })) }) s

/-- PATROL_SCRUB (R290): an error that cannot be corrected.  The scrub reads the storage that `key` lies in, a scratchpad
granule or a line, marks it and reports the error.  Keys from 2^64 on stand for the errors that no scrub finds: those of
storage that something else reads first, and from 2^65 on those of registers and queue rows. (DESIGN CHOICE, log 86.) -/
def doPatrolScrub (key : Nat) (bad : Bool) (s : State) : State :=
  if !bad then s
  else if key < 2 ^ 64 then raiseEvent 0 (spoilKey key s)
  else if key < 2 ^ 65 then spoilKey (key - 2 ^ 64) s
  else
    let u := key - 2 ^ 65
    spoilUnit (u % 512) (u / 512 % 16) (u / 2 ^ 13 % 512) s

/-- `exec` of `.uncorrectableErrorEvent`. -/
def execUncorrectableErrorEvent (seq : Nat) (s : State) : Host.Outcome State Fault Refusal := .next (doErrorEvent seq s)
/-- `exec` of `.rollback`. -/
def execRollback (seq : Nat) (s : State) : Host.Outcome State Fault Refusal := .next (doRollback seq s)
/-- `exec` of `.coreFailure`. -/
def execCoreFailure (core : Nat) (s : State) : Host.Outcome State Fault Refusal := .next (doCoreFailure core s)
/-- `exec` of `.channelFailure`. -/
def execChannelFailure (stack chan : Nat) (s : State) : Host.Outcome State Fault Refusal := .next (doChannelFailure stack chan s)
/-- `exec` of `.laneFailure`. -/
def execLaneFailure (port lane : Nat) (s : State) : Host.Outcome State Fault Refusal := .next (doLaneFailure port lane s)
/-- `exec` of `.flitRetry`. -/
def execFlitRetry (port : Nat) (s : State) : Host.Outcome State Fault Refusal := .next (doFlitRetry port s)
/-- `exec` of `.patrolScrub`. -/
def execPatrolScrub (key : Nat) (bad : Bool) (s : State) : Host.Outcome State Fault Refusal := .next (doPatrolScrub key bad s)

end Sys2Proof.Machine
end

