-- ==== Sys2Proof/Machine/HostPort.lean ====
section
/-! DEFINITION. What reaches the package from outside: the host's registers and aperture, and the other devices of the
pod (R214 to R216, R233, R235, R299 to R305, R312). -/

namespace Sys2Proof.Machine

/-! ### The registers of the host window (R245, R299 to R302) -/

/-- BUSTAT (Table 19-3). -/
def bustatWord (s : State) : Word := BitVec.ofNat 64 (s.bustat.toNat + 256 * s.bufail.toNat)

/-- LAST (Table 16-3). -/
def lastWord (s : State) : Word := BitVec.ofNat 64 (s.lastSeq % 2 ^ 63 + 2 ^ 63 * s.lastRef.toNat)

/-- The 8-byte register that the host reads at an offset of its window, below the capability list: zero elsewhere, and of
all but BUID and BUSTAT while the package is not open (R299, R303). (DEDUCED, log 62.) -/
def hostRegister (s : State) (off : Nat) : Word :=
  if off = 0 then Config.buid
  else if off = 8 then bustatWord s
  else if s.bustat != 5 then 0
  else match off with
    | 0x1040 => lastWord s
    | 0x1048 => BitVec.ofNat 64 s.nextSeq
    | 0x2000 => s.event.setWidth 64
    | 0x2008 => s.savebase
    | 0x2010 => s.savecnt
    | 0x2018 => s.wlogsz
    | 0x2020 => s.hcfg.setWidth 64
    | _ => 0

/-- The retired units as the descriptor reports them: the live-core mask of cluster `c` (Table 19-8). -/
def coresNibble (s : State) (c : Nat) : Nat :=
  (List.range 4).foldl (fun m q => m + (if s.deadCores.contains (4 * c + q) then 0 else 2 ^ q)) 0

/-- The live channels of a stack. -/
def chansWord (s : State) (k : Nat) : Nat :=
  (List.range 32).foldl (fun m c => m + (if s.deadChans.contains (32 * k + c) then 0 else 2 ^ c)) 0

/-- The live lanes of a port, as at bring-up (R311). -/
def lanesNibble (s : State) (p : Nat) : Nat := (List.range 8).countP (fun l => !s.deadLanes.contains (8 * p + l))

/-- The body of the degraded-configuration descriptor, bytes 16 to 119 (R305). -/
def degradedBody (s : State) : List Byte :=
  (List.range 32).map (fun i => BitVec.ofNat 8 (coresNibble s (2 * i) + 16 * coresNibble s (2 * i + 1)))
    ++ (List.range 16).flatMap (fun k => bytesLE 4 (chansWord s k))
    ++ (List.range 8).map (fun i => BitVec.ofNat 8 (lanesNibble s (2 * i) + 16 * lanesNibble s (2 * i + 1)))

/-- The body of the device record (Table 19-7): BUID, live cores, live channels, live ports. -/
def deviceBody (s : State) : List Byte :=
  bytesLE 8 Config.buid.toNat ++ bytesLE 4 ((List.range 256).countP (fun k => !s.deadCores.contains k))
    ++ bytesLE 4 ((List.range 512).countP (fun k => !s.deadChans.contains k))
    ++ bytesLE 4 ((List.range 16).countP (fun p => lanesNibble s p != 0))

/-- The body of the operating-point record (Table 19-7): the frequencies, W(a, b), and the longest transition. -/
def pointsBody : List Byte :=
  Config.points.flatMap (bytesLE 2) ++ (List.range 64).map (fun i => BitVec.ofNat 8 (Config.settle (i / 8) (i % 8)))
    ++ (List.range 4).map (fun i => Config.partByte (256 + i))

/-- The body of the thermal record (Table 19-7): the five temperatures, and the cap points. -/
def thermalBody : List Byte := (List.range 5).map (fun i => Config.partByte (280 + i)) ++ Config.capPoints.map (BitVec.ofNat 8)

/-- A record of the capability list: its header (Table 19-6) and its body, with zeros up to the next multiple of 8. -/
def capRecord (id next : Nat) (body : List Byte) : List Byte :=
  bytesLE 2 id ++ bytesLE 2 1 ++ bytesLE 4 (16 + body.length) ++ bytesLE 8 next ++ body
    ++ List.replicate ((8 - body.length % 8) % 8) 0

/-- The capability list (R304): the four records in the order of their numbers, one after the other. (DESIGN CHOICE,
log 67.) -/
def capList (s : State) : List Byte :=
  capRecord 1 40 (deviceBody s) ++ capRecord 2 160 (degradedBody s) ++ capRecord 3 264 pointsBody ++ capRecord 4 0 thermalBody

/-- The byte that the host reads at an offset of its window, below the aperture: of a register, of the capability list from
state 4 on, or zero; without power nothing answers (R19, R299, R302, R303). -/
def hostByte (s : State) (off : Nat) : Byte :=
  if !s.power then 0
  else if off < 0x10000 then (bytesLE 8 (hostRegister s (off / 8 * 8)).toNat).getD (off % 8) 0
  else if off < 0x20000 ∧ (s.bustat = 4 ∨ s.bustat = 5) then (capList s).getD (off - 0x10000) 0
  else 0

/-- A read of any size returns the addressed bytes (R302). -/
def hostBytes (s : State) (off n : Nat) : List Byte := (List.range n).map (fun i => hostByte s (off + i))

/-! ### Register writes (R302, R312) -/

/-- EVENT_CLEAR (R302): ones clear EVENT's bits. -/
def doEventClear (v : Word) (s : State) : State :=
  if s.bustat != 5 then s else { s with event := s.event &&& ~~~v.setWidth 7 }

/-- A retirement entry names a unit of the part (R312). -/
def entryOk (v : Word) : Bool :=
  let b := fun (i : Nat) => bitsOf v.toNat (8 * i) 8
  bitsOf v.toNat 24 40 == 0 && (match b 0 with
    | 1 => b 1 < 4 && b 2 < 64
    | 2 => b 1 < 16 && b 2 < 32
    | 3 => b 1 < 16 && b 2 < 8
    | _ => false)

/-- The entry can be appended. -/
def entryFits (s : State) (v : Word) : Bool :=
  entryOk v && !s.retTable.contains v && s.retTable.length < Config.retirements

/-- RETADD (R312): one entry is appended, or the write is ignored and EVENT bit 6 set. -/
def doRetadd (v : Word) (s : State) : State :=
  if s.bustat != 5 then s
  else if entryFits s v then { s with retTable := s.retTable ++ [v] }
  else raiseEvent 6 s

/-- A write to a register that a launch in flight protects (R302). -/
def whileQuiet (s t : State) : State := if s.launches.isEmpty then t else s

/-- CONFIG_REGISTER_WRITE (R302): only an 8-byte write at an 8-byte-aligned offset of Table 19-4 acts. -/
def doConfigWrite (off size : Nat) (v : Word) (s : State) : State :=
  if s.bustat != 5 || size != 8 then s
  else match off with
    | 0x000 => doEventClear v s
    | 0x008 => whileQuiet s { s with savebase := v &&& ~~~0xFFFFF }
    | 0x010 => whileQuiet s (if v.toNat ≤ 4096 then { s with savecnt := v } else s)
    | 0x018 => whileQuiet s (if 1 ≤ v.toNat ∧ v.toNat ≤ 16 then { s with wlogsz := v } else s)
    | 0x020 => { s with hcfg := v.setWidth 3 }
    | 0x028 => doRetadd v s
    | _ => s

/-! ### The aperture (R214 to R216, R300) -/

/-- HCFG.LDIE. -/
def hostDie (s : State) : Nat := s.hcfg.toNat % 4

/-- The key and home of a host access: the replica or copy of the die in LDIE (R300). -/
def hostPlace (s : State) (w : Word) (pa : Nat) : Nat × Nat := placeOf s w (hostDie s) pa

/-- The line pieces of a host access: physical address and length. -/
def hostPieces (pa n : Nat) : List (Nat × Nat) := (runPieces (BitVec.ofNat 64 pa) n).map (fun q => (q.1.toNat, q.2))

/-- A host access holds: its page is granted away (R233), its stack is in thermal hold (R297). -/
def hostHolds (s : State) (w : Word) (write : Bool) (ps : List (Nat × Nat)) : Bool :=
  ps.any (fun q =>
    let z := hostPlace s w q.1
    grantHolds s w z.1 write || (!(l2Get s z.2 (z.1 / 64)).here && lineHeld s w (hostDie s) (z.1 % 2 ^ 52)))

/-- The pages of a host access that other devices hold are recalled. -/
def hostRecalls (s : State) (w : Word) (write : Bool) (ps : List (Nat × Nat)) : State :=
  ps.foldl (fun t q => if grantHolds t w (hostPlace t w q.1).1 write then askRecall (q.1 / 2 ^ 16) t else t) s

/-- The lattice cells that a host read meets, at the replica of the die in LDIE. -/
def hostCells (s : State) (w : Word) (ps : List (Nat × Nat)) : List Nat :=
  if plLtype w = 0 then [] else ps.flatMap (fun q => cellsIn w (hostPlace s w q.1).1 q.2)

/-- The bytes of a host access that lie in the aperture, which ends at 2^52 (R299). -/
def hostInside (pa n : Nat) : Nat := Nat.min n (2 ^ 52 - pa)

/-- HOST_APERTURE_READ (R300): `n` bytes from a physical address, in the placement word of its page; zeros below
state 5 and past the aperture (R299, R303).  A read of a lattice cell that is marked, or is marked now as its storage reads
poisoned, holds until the rebuild ends (R224).  Poisoned bytes are returned as they stand, without an event. (DESIGN CHOICE,
log 116.) -/
def doHostRead (pa n : Nat) (w : Word) (s : State) : State :=
  if s.bustat != 5 then { s with hostRead := List.replicate n 0 }
  else
    let m := hostInside pa n
    let ps := hostPieces pa m
    if hostHolds s w false ps then hostRecalls s w false ps
    else if (hostCells s w ps).any (cellHolds s w) then spoilRead w (hostCells s w ps) s
    else { s with hostRead := ps.flatMap (fun q => rdBytes s.mem (hostPlace s w q.1).1 q.2) ++ List.replicate (n - m) 0 }

/-- The whole cells within a piece are joined (R215). -/
def hostJoin (w : Word) (key : Nat) (bs : List Byte) (s : State) : State :=
  let z := cellSize (plLtype w)
  let skip := (z - key % z) % z
  let n := (bs.length - skip) / z * z
  if bs.length < skip + z then s else cellsJoin w (key + skip) n (natLE ((bs.drop skip).take n)) s

/-- A raw write of a piece (R216): a cell on a failed channel takes nothing (R314), a line written whole loses its mark. -/
def hostRaw (w : Word) (key : Nat) (bs : List Byte) (s : State) : State :=
  if cellLost s w (cellOf w key) then s
  else
    let s1 := rawWrite w key bs s
    if bs.length = 64 then { s1 with lineBad := smErase s1.lineBad (key / 64) } else s1

/-- One piece of a host write (R206, R215, R216). (DEDUCED, log 58.) -/
def hostPiece (w : Word) (pa : Nat) (bs : List Byte) (s : State) : State :=
  let z := hostPlace s w pa
  if plLtype w != 0 then (if s.hcfg.getLsbD 2 then hostRaw w z.1 bs s else hostJoin w z.1 bs s)
  else
    let s1 := takeLine w z.2 z.1 s
    dropWritten w z.2 (z.1 / 64) <| writeStamped none w z.2 z.1 bs.length (natLE bs) false ((l2Get s1 z.2 (z.1 / 64)).rts + 1) s1

/-- The pieces of a host write in order. -/
def hostWrites (w : Word) : List (Nat × Nat) → List Byte → State → State
  | [], _, s => s
  | (a, n) :: rest, bs, s => hostWrites w rest (bs.drop n) (hostPiece w a (bs.take n) s)

/-- HOST_APERTURE_WRITE (R300): bytes written from a physical address on, in the placement word of its page.  Nothing
enters the write log (R292). (DESIGN CHOICE, log 24.) -/
def doHostWrite (pa : Nat) (w : Word) (data : List Byte) (s : State) : State :=
  if s.bustat != 5 || 2 ≤ plTier w then s
  else
    let ps := hostPieces pa (hostInside pa data.length)
    if hostHolds s w true ps then hostRecalls s w true ps else hostWrites w ps data s

/-! ### Other devices (R233, R235) -/

/-- The grant of one of this package's pages. -/
def grantOf (s : State) (page : Nat) : Grant := smGet .none s.grants page

/-- Another device holds the page. -/
def heldElsewhere (g : Grant) (dev : Nat) : Bool :=
  match g with
  | .none => false
  | .shared ds => ds.any (· != dev)
  | .owned d => d != dev

/-- A page is owned by a device other than `dev`. -/
def ownedElsewhere (g : Grant) (dev : Nat) : Bool :=
  match g with
  | .owned d => d != dev
  | _ => false

/-- A read grant of a page for a device. -/
def shareWith (g : Grant) (dev : Nat) : Grant :=
  match g with
  | .none => .shared [dev]
  | .shared ds => .shared (if ds.contains dev then ds else ds ++ [dev])
  | .owned d => .owned d

/-- An uncached access of another device, performed at the line's home L2 (R206, R232): kind 2 loads as many bytes as
`data` has, 3 stores them, 4 + n is operation n of `gam`, whose two operands they are.  It lies in one line, and waits
for a stack in thermal hold (R297); an atomic waits for a restripe (R190).  A page with a copy per die is written by `rstr`
and the host alone (R230).  The placement word comes with it. (DESIGN CHOICE, log 59.) -/
def peerAccess (pa kind : Nat) (w : Word) (data : List Byte) (s : State) : State :=
  let z := placeOf s w 0 pa
  let line := z.1 / 64
  let n := if 4 ≤ kind then 8 else data.length
  if 2 ≤ plTier w || plLtype w != 0 || (plRepl w == 2 && kind != 2) || n = 0 || 64 < pa % 64 + n || (4 ≤ kind && pa % 8 != 0) then s
  else if stackWaits s w 0 z.2 z.1 || (4 ≤ kind && restripingFrame s (pa / 2 ^ 16)) then s
  else
    let s1 := takeLine w z.2 z.1 s
    let put := fun (v : Nat) (bad : Bool) => writeStamped none w z.2 z.1 n v bad ((l2Get s1 z.2 line).rts + 1) s1
    if kind = 2 then dropUnkept w z.2 line s1
    else dropWritten w z.2 line (
      if kind = 3 then put (natLE data) false
      else match gamNew (kind - 4) (BitVec.ofNat 64 (rdNat s.mem z.1 8)) (BitVec.ofNat 64 (natLE (data.take 8)))
          (BitVec.ofNat 64 (natLE ((data.drop 8).take 8))) with
        | some v => put v.toNat (keyBad s w z.1)
        | none => s1)

/-- PEER_DEVICE_REQUEST (R233): kind 0 asks for a read grant, kind 1 for ownership, another is an uncached access (the store
of an owner is its write-back, R235).  It holds until the recalls that it needs complete, and a grant of a page under restripe
until the commit, for which a recall of the page would wait (R235). (DESIGN CHOICE, log 59.) -/
def doPeerRequest (dev page kind : Nat) (w : Word) (off : Nat) (data : List Byte) (s : State) : State :=
  let g := grantOf s page
  if s.bustat != 5 || portsDown s || 1024 ≤ dev || 2 ^ 36 ≤ page then s
  else match kind with
    | 0 => if restripingFrame s page then s
        else if ownedElsewhere g dev then askRecall page s
        else { s with grants := smSet .none s.grants page (shareWith g dev) }
    | 1 => if restripingFrame s page then s
        else if heldElsewhere g dev then askRecall page s
        else { s with grants := smSet .none s.grants page (.owned dev) }
    | _ => if ownedElsewhere g dev || (kind != 2 && heldElsewhere g dev) then askRecall page s
        else peerAccess (page * 2 ^ 16 + off % 2 ^ 16) kind w data s

/-- The part of extent `x` that maps a page of peer device `dev` becomes absent (R235). -/
def recallExtent (dev pa : Nat) (c : Ctx) (x : Extent) : Ctx :=
  if x.absent || plTier x.place != 2 || plDev x.place != dev || pa < x.frame || x.frame + x.pages * 2 ^ 16 ≤ pa then c
  else
    let v := x.vpn + (pa - x.frame) / 2 ^ 16
    let kept := carve v 1 c.extents
    { c with extents := kept.drop (kept.length + 1 - extentRoom c)
        ++ [{ x with vpn := v, pages := 1, frame := 0, place := 0, perm := 0, absent := true }] }

/-- The serial maximum of stamps, as far as there are any. -/
def topStamp (ts : List Stamp) : Option Stamp :=
  match ts with
  | [] => none
  | t :: rest => some (rest.foldl serMax t)

/-- The largest rts among the lines of a page in the L2s, and among the copies of its lines in line caches, whose line an L2
need not keep: none of them may be hit any more (R235). (DEDUCED, log 109.) -/
def pageRts (s : State) (page : Nat) : Option Stamp :=
  topStamp (s.dies.flatMap (fun d => (d.2.l2.filter (fun e => e.1 / 1024 == page)).map (fun e => e.2.rts))
    ++ s.cores.flatMap (fun k => (k.2.lcache.filter (fun e => e.1 / 1024 == page)).map (fun e => e.2.rts)))

/-- The lines of a page leave the L2s; MTS takes their rts (R202), and a fill in flight is not installed (R208). -/
def dropPage (page : Nat) (s : State) : State :=
  { s with
    cores := smMap {} (fun _ k => { k with fills := k.fills.filter (fun f => f.line / 1024 != page) }) s.cores
    dies := smMap {} (fun _ d => { d with
      mts := (d.l2.filter (fun e => e.1 / 1024 == page)).foldl (fun m e => serMax m e.2.rts) d.mts
      l2 := d.l2.filter (fun e => e.1 / 1024 != page) }) s.dies }

/-- Every live core's pts rises to at least `t`. -/
def raisePts (t : Stamp) (s : State) : State := (liveCores s).foldl (fun z k => jumpPts k t z) s

/-- A matrix operation that still reads its tile's page. -/
def readsTile (m : MOp) : Bool :=
  match m.kind with
  | .cim => !m.started
  | .wpre | .wpin => true
  | _ => false

/-- The accesses in flight to a recalled page wait for its return, and the matrix operations that still read it; a prefetch
is dropped. (DEDUCED, log 80.) -/
def recallReqs (page : Nat) (c : Ctx) : Ctx :=
  { c with
    reqs := (c.reqs.filter (fun r => !(r.kind == .pf && r.key / 2 ^ 16 == page))).map (fun r =>
      if r.key / 2 ^ 16 == page && !r.done then { r with lost := true } else r)
    mops := c.mops.map (fun m => if m.key / 2 ^ 16 == page && readsTile m then { m with lost := true } else m) }

/-- The copies of a recalled page's tiles go Stale (R152), those being filled too, whose translation is gone.
(DEDUCED, log 80.) -/
def recallTiles (page : Nat) (s : State) : State :=
  { s with cores := smMap {} (fun _ k => { k with
      arrays := k.arrays.map (fun a => (a.1,
        if a.2.key / 2 ^ 16 == page && a.2.st != .invalid then { a.2 with st := .stale, source := none } else a.2)) }) s.cores }

/-- The recall of a page that this package holds (R235): extents absent, tiles stale, pts raised, lines dropped. -/
def recallHeld (page : Nat) (s : State) : State :=
  let dev := page / 2 ^ 36 - 16
  let pa := page % 2 ^ 36 * 2 ^ 16
  let s1 := { s with ctxs := smMap {} (fun _ c => recallReqs page (c.extents.foldl (recallExtent dev pa) c)) s.ctxs }
  let s2 := recallTiles page s1
  dropPage page (match pageRts s2 page with
    | some t => raisePts (t + 1) s2
    | none => s2)

/-- RECALL (R233, R235): `page` is a page of storage keys.  One of a peer's memory, which this package holds, is given
back; one of this package's memory has been given back by its holders, and the device's own writes and the commands that
waited for it are made.  With no port up neither the recall nor its answer comes through (R311). -/
def doRecall (page : Nat) (s : State) : State :=
  if portsDown s then s
  else if 2 ^ 36 * 16 ≤ page then recallHeld page s
  else if restripingFrame s page then s
  else
    let s1 := flushWaiting page { s with grants := smErase s.grants page, recalls := s.recalls.filter (· != page) }
    takeCommands s1.cmds s1

/-- `exec` of `.eventClear`. -/
def execEventClear (v : BitVec 64) (s : State) : Host.Outcome State Fault Refusal := .next (doEventClear v s)
/-- `exec` of `.retadd`. -/
def execRetadd (v : BitVec 64) (s : State) : Host.Outcome State Fault Refusal := .next (doRetadd v s)
/-- `exec` of `.configRegisterWrite`. -/
def execConfigRegisterWrite (off size : Nat) (v : BitVec 64) (s : State) : Host.Outcome State Fault Refusal := .next (doConfigWrite off size v s)
/-- `exec` of `.hostApertureRead`. -/
def execHostApertureRead (pa n : Nat) (place : BitVec 64) (s : State) : Host.Outcome State Fault Refusal := .next (doHostRead pa n place s)
/-- `exec` of `.hostApertureWrite`. -/
def execHostApertureWrite (pa : Nat) (place : BitVec 64) (data : List (BitVec 8)) (s : State) : Host.Outcome State Fault Refusal := .next (doHostWrite pa place data s)
/-- `exec` of `.peerDeviceRequest`. -/
def execPeerDeviceRequest (dev page kind : Nat) (place : BitVec 64) (off : Nat) (data : List (BitVec 8)) (s : State) : Host.Outcome State Fault Refusal :=
  .next (doPeerRequest dev page kind place off data s)
/-- `exec` of `.recall`. -/
def execRecall (page : Nat) (s : State) : Host.Outcome State Fault Refusal := .next (doRecall page s)

end Sys2Proof.Machine
end

