-- ==== Sys2Proof/Machine/Power.lean ====
section
/-! DEFINITION. Power, bring-up, thermal and power control (R19, R297, R298, R303, R306 to R310, R312, R313). -/

namespace Sys2Proof.Machine

/-! ### Thermal control and operating points -/

/-- THERMAL_HOLD_ENTRY (R297). -/
def doHoldEntry (stack : Nat) (s : State) : State :=
  if 16 ≤ stack || s.holds.contains stack then s else { s with holds := stack :: s.holds }

/-- THERMAL_HOLD_EXIT (R297): waiting requests go on. -/
def doHoldExit (stack : Nat) (s : State) : State := { s with holds := s.holds.filter (· != stack) }

/-- THERMAL_HOLD_OVER_1MS (R298). -/
def doHoldLong (stack : Nat) (s : State) : State := if s.holds.contains stack then raiseEvent 2 s else s

/-- The cap points of no threshold and T1 to T3 (R309). -/
def capPoint (level : Nat) : Nat := (0 :: Config.capPoints).getD level 7

/-- THRESHOLD_CROSSING (R309): a core's domain is at a threshold, or at none; entering T1 sets EVENT bit 5. -/
def doThreshold (core level : Nat) (s : State) : State :=
  if 256 ≤ core || 4 ≤ level then s
  else
    let was := (getCore s core).thermal
    let s1 := if was = 0 ∧ level ≠ 0 then raiseEvent 5 s else s
    repoint 2 core (updCore core (fun k => { k with
      thermal := level
      cap := capPoint level }) s1)

/-- THERMAL_TRIP (R309). -/
def doTrip (die : Nat) (s : State) : State := if die < 4 then { s with trip := true } else s

/-- OP_TRANSITION_END (R307): the core runs at the point in force; windows that have run out close. -/
def doOpEnd (core : Nat) (s : State) : State :=
  if !(getCore s core).moving then s
  else closeWindow (2 * core + 1) (closeWindow (2 * core) (updCore core (fun k => { k with moves := [] }) s))

/-- SPLIT_LEVEL_CHANGE (R308). -/
def doSplit (core level : Nat) (s : State) : State :=
  if 256 ≤ core || 4 ≤ level then s else updCore core (fun k => { k with split := level }) s

/-- RAMP_BALLAST (R310): ballast starts on the idle cores of the die, or, where it runs, ends.  No architectural state is
touched. (DESIGN CHOICE, log 63.) -/
def doBallast (die : Nat) (s : State) : State :=
  if 4 ≤ die then s
  else if s.ballast.any (fun k => k / 64 == die) then { s with ballast := s.ballast.filter (fun k => k / 64 != die) }
  else { s with ballast := s.ballast ++ ((List.range 64).map (· + 64 * die)).filter (fun k => coreLive s k && coreFree s k) }

/-! ### Power and bring-up -/

/-- The bytes that are not in the package: those of the host and of other devices. -/
def outside (k : Nat) : Bool := 5 * 2 ^ 52 ≤ k && k < 2 ^ 63

/-- The package as power good finds it, or without power: only the retirement tables outlast a removal of power (R19,
R312). (DEDUCED, log 60.) -/
def blankPackage (on : Bool) (s : State) : State :=
  { State.reset with
    mem := s.mem.filter (fun e => outside e.1)
    retTable := s.retTable
    power := on
    bustat := if on then 1 else 0
    agenda := s.agenda
    cur := s.cur
    rot := s.rot
    fresh := s.fresh
    order := s.order }

/-- POWER_ON (R303). -/
def doPowerOn (s : State) : State := if s.power then s else blankPackage true s

/-- POWER_REMOVAL (R19). -/
def doPowerRemoval (s : State) : State := if s.power then blankPackage false s else s

/-- The numbers of the units of a kind that the tables retire (R312). -/
def retired (t : List Word) (kind size : Nat) : List Nat :=
  (t.filter (fun v => bitsOf v.toNat 0 8 == kind)).map (fun v => bitsOf v.toNat 8 8 * size + bitsOf v.toNat 16 8)

/-- The units that the tables retire are dead (R313). -/
def applyTables (s : State) : State :=
  { s with
    deadCores := retired s.retTable 1 64
    deadChans := retired s.retTable 2 32
    deadLanes := retired s.retTable 3 8 }

/-- The live cores take their logical numbers in ascending order of die, cluster and q (R12). -/
def numberCores (s : State) : State := { s with logical := liveCores s }

/-- Some channel is live. -/
def someChannel (s : State) : Bool := (List.range 512).any (fun n => !s.deadChans.contains n)

/-- Bring-up has failed (R303). -/
def bringFail (reason : BitVec 8) (s : State) : State := { s with bustat := 7, bufail := reason }

/-- BRINGUP_RETIREMENT (R303, R313): state 2. -/
def doRetirement (readable : Bool) (s : State) : State :=
  if s.bustat != 1 then s
  else if !readable then bringFail 1 s
  else
    let s1 := applyTables s
    if (liveCores s1).isEmpty then bringFail 2 s1
    else if !someChannel s1 then bringFail 3 s1
    else numberCores { s1 with bustat := 2 }

/-- A unit found dead in training is appended to the tables. -/
def appendDead (s : State) (v : Word) : State :=
  if entryFits s v then { s with retTable := s.retTable ++ [v] } else s

/-- Every timestamp is zero (R202). -/
def zeroStamps (s : State) : State :=
  { s with
    cores := smMap {} (fun _ k => { k with
      pts := 0
      lcache := []
      fills := [] }) s.cores
    dies := smMap {} (fun _ d => { d with
      mts := 0
      l2 := [] }) s.dies }

/-- BRINGUP_TRAINING (R303): state 3; units found dead are retired, and the logical numbers stay dense (R12). (DEDUCED,
log 61.) -/
def doTraining (dead : List Word) (s : State) : State :=
  if s.bustat != 2 then s
  else
    let s1 := zeroStamps (applyTables (dead.foldl appendDead s))
    if (liveCores s1).isEmpty then bringFail 2 s1
    else if someChannel s1 then numberCores { s1 with bustat := 3 }
    else bringFail 4 s1

/-- BRINGUP_CAPABILITY (R303, R167): state 4; the scratchpads are zero and full. -/
def doCapability (s : State) : State :=
  if s.bustat != 3 then s
  else { s with
    bustat := 4
    mem := s.mem.filter (fun e => e.1 < 2 ^ 63)
    empties := []
    granBad := [] }

/-- BRINGUP_OPEN (R303): state 5. -/
def doOpen (s : State) : State := if s.bustat != 4 then s else { s with bustat := 5 }

/-- BRINGUP_FAILED (R303): state 7, from a state below 5, with a reason of Table 19-3. (DEDUCED, log 61.) -/
def doBringFailed (reason : BitVec 8) (s : State) : State :=
  if 1 ≤ s.bustat.toNat ∧ s.bustat.toNat ≤ 4 ∧ 1 ≤ reason.toNat ∧ reason.toNat ≤ 4 then bringFail reason s else s

/-- `exec` of `.thermalHoldEntry`. -/
def execThermalHoldEntry (stack : Nat) (s : State) : Host.Outcome State Fault Refusal := .next (doHoldEntry stack s)
/-- `exec` of `.thermalHoldExit`. -/
def execThermalHoldExit (stack : Nat) (s : State) : Host.Outcome State Fault Refusal := .next (doHoldExit stack s)
/-- `exec` of `.thermalHoldOver1ms`. -/
def execThermalHoldOver1ms (stack : Nat) (s : State) : Host.Outcome State Fault Refusal := .next (doHoldLong stack s)
/-- `exec` of `.thresholdCrossing`. -/
def execThresholdCrossing (core level : Nat) (s : State) : Host.Outcome State Fault Refusal := .next (doThreshold core level s)
/-- `exec` of `.thermalTrip`. -/
def execThermalTrip (die : Nat) (s : State) : Host.Outcome State Fault Refusal := .next (doTrip die s)
/-- `exec` of `.opTransitionEnd`. -/
def execOpTransitionEnd (core : Nat) (s : State) : Host.Outcome State Fault Refusal := .next (doOpEnd core s)
/-- `exec` of `.splitLevelChange`. -/
def execSplitLevelChange (core level : Nat) (s : State) : Host.Outcome State Fault Refusal := .next (doSplit core level s)
/-- `exec` of `.rampBallast`. -/
def execRampBallast (die : Nat) (s : State) : Host.Outcome State Fault Refusal := .next (doBallast die s)
/-- `exec` of `.powerOn`. -/
def execPowerOn (s : State) : Host.Outcome State Fault Refusal := .next (doPowerOn s)
/-- `exec` of `.powerRemoval`. -/
def execPowerRemoval (s : State) : Host.Outcome State Fault Refusal := .next (doPowerRemoval s)
/-- `exec` of `.bringupRetirement`. -/
def execBringupRetirement (readable : Bool) (s : State) : Host.Outcome State Fault Refusal := .next (doRetirement readable s)
/-- `exec` of `.bringupTraining`. -/
def execBringupTraining (dead : List (BitVec 64)) (s : State) : Host.Outcome State Fault Refusal := .next (doTraining dead s)
/-- `exec` of `.bringupCapability`. -/
def execBringupCapability (s : State) : Host.Outcome State Fault Refusal := .next (doCapability s)
/-- `exec` of `.bringupOpen`. -/
def execBringupOpen (s : State) : Host.Outcome State Fault Refusal := .next (doOpen s)
/-- `exec` of `.bringupFailed`. -/
def execBringupFailed (reason : BitVec 8) (s : State) : Host.Outcome State Fault Refusal := .next (doBringFailed reason s)

end Sys2Proof.Machine
end

