-- ==== Sys2Proof/Machine/Agenda.lean ====
section
/-! DEFINITION. Which event comes next where none is named (log 3), the placing of a word for the next step (log 6), and
what a step needs of power (R19). -/

namespace Sys2Proof.Machine

/-- The numbers below `n`, largest first. -/
def downFrom (n : Nat) : List Nat := (List.range n).reverse

/-- The events that may be due for the context, or the work left of one, at key `p`. -/
def ctxEvents (s : State) (p : Nat) : List Instr :=
  let c := getCtx s p
  [Instr.restoreComplete p, Instr.walkComplete p 0, Instr.xinvComplete p, Instr.schedulerResolve p true, Instr.deferredCause p 0, Instr.handlerBind p]
    ++ (downFrom c.reqs.length).flatMap (fun i => [Instr.globalLoadPerform p i, Instr.globalStorePerform p i, Instr.storeAck p i])
    ++ (downFrom c.pend.length).map (fun i => Instr.interlockDataArrival p i)
    ++ (downFrom c.xfers.length).flatMap (fun i => [Instr.xferRunLand p i, Instr.restripePageCommit p i, Instr.xferComplete p i])
    ++ (downFrom c.mops.length).flatMap (fun i => [Instr.matrixOpStart p i, Instr.matrixOpComplete p i, Instr.drainRowPush p i, Instr.queueOverflow p i])
    ++ (downFrom c.links.length).map (fun i => Instr.recvRowLand p i)
    ++ [Instr.drainComplete p, Instr.preemptSave p, Instr.saveComplete p]

/-- The events that may be due on a core. -/
def coreEvents (s : State) (k : Nat) : List Instr :=
  (s.ctxs.filter (fun e => coreOf e.1 == k)).flatMap (fun e => ctxEvents s e.1)
    ++ (getCore s k).arrays.flatMap (fun a =>
        [Instr.tileFillComplete k a.1, Instr.replicaComplete k a.1, Instr.replicaStart k a.1])
    ++ [Instr.sideLogReplay k, Instr.opTransitionEnd k]
    ++ (s.saved.filter (fun v => v.core == k)).map (fun v => Instr.resume v.key (v.key % 512))

/-- The events that may be due for a launch, its clusters to be bound on the core's cluster. -/
def launchEvents (k : Nat) (l : Launch) : List Instr :=
  [Instr.uncorrectableErrorEvent l.seq, Instr.rollback l.seq, Instr.predecessorFaulted l.seq, Instr.dispatch l.seq, Instr.bindCluster l.seq (k / 4),
    Instr.launchComplete l.seq, Instr.launchFaulted l.seq]

/-- The events that may be due in the memory and the lattices. -/
def memoryEvents (s : State) : List Instr :=
  (downFrom s.bursts.length).flatMap (fun i => match s.bursts[i]? with
      | some b => [Instr.hbmCalendarSlot b.stack b.chan (b.core % 64), Instr.hbmDataReturn i]
      | none => [])
    ++ (downFrom s.exch.length).map (fun i => Instr.exchangeApply i)
    ++ s.rebuild.map (fun e => Instr.latticeRebuildEnd (keyDie e.1) (e.1 % 2 ^ 52))
    ++ (if s.dirty.isEmpty && s.rebuild.isEmpty && !s.lineBad.any (fun e => (latticeAt s (64 * e.1)).isSome) then []
      else [Instr.exchangePhase])

/-- The events by which the package keeps its timestamps: a tick and the raise of lagging cores, and within every 2^20 ticks
the sweeps and the drops of expired copies (R204, R207). -/
def stampEvents (s : State) : List Instr :=
  [Instr.ptsTick, Instr.ptsWindowRaise] ++ (if s.ticks % 2 ^ 19 = 0 then
    [0, 1, 2, 3].map (fun d => Instr.timestampSweep d) ++ (liveCores s).map (fun k => Instr.lineCacheExpiryDrop k) else [])

/-- The events put on an empty agenda beside the issue cycle of core `k`. (DESIGN CHOICE, log 3.) -/
def upkeep (s : State) (k : Nat) : List Instr :=
  coreEvents s k ++ s.launches.flatMap (launchEvents k) ++ memoryEvents s ++ (if k = 255 then stampEvents s else [])

/-- The event of an empty agenda: the next step of bring-up (R303), or the issue cycle of the core whose turn it is. -/
def autoEvent (s : State) : Instr :=
  match s.bustat.toNat with
  | 1 => .bringupRetirement true
  | 2 => .bringupTraining []
  | 3 => .bringupCapability
  | 4 => .bringupOpen
  | _ => .groupIssue (s.rot % 256)

/-- The next event. (DESIGN CHOICE, log 3.) -/
def nextEvent (s : State) : Instr :=
  match s.agenda with
  | i :: _ => i
  | [] => autoEvent s

/-- The state in which the next event happens: it has left the agenda; an empty one is filled with what may be due. -/
def advance (s : State) : State :=
  match s.agenda with
  | _ :: rest => { s with agenda := rest }
  | [] => if s.bustat = 5 then { s with
      agenda := upkeep s (s.rot % 256)
      rot := (s.rot + 1) % 256 } else s

/-- The event gives the package power. -/
def givesPower : Instr → Bool
  | .powerOn => true
  | _ => false

/-- Without power nothing runs but power-on (R19). -/
def stopped (s : State) : Bool := !s.power && !givesPower (nextEvent s)

/-! ### Placing a word -/

/-- The address at which a placed group stands. -/
def placedAt : Nat := 0x10000

/-- The extent through which it is fetched: one page, readable, writable and executable, TIER 0 of die 0's stacks. -/
def placedExtent : Extent where
  vpn := 1
  pages := 1
  frame := placedAt
  place := 0x04003C0000000000
  perm := 0x1F
  kinds := 15
  absent := false

/-- The words of the group that holds a table word: a header with its slot and S, and the word with its extension word;
an idle header stands by itself (R45, R49). -/
def placedWords (w : Nat) : List Nat :=
  match readTableWord w with
  | some (some k, i) =>
    if (encode i).length = 2 then [2 ^ k + 2 ^ 16, w % 2 ^ 32, w / 2 ^ 32 % 2 ^ 32] else [2 ^ k + 2 ^ 16, w % 2 ^ 32]
  | _ => [w % 2 ^ 32]

/-- The context that fetches it: the one bound to position 0, Ready, at the group. -/
def placedCtx (c : Ctx) : Ctx :=
  { c with
    st := .ready
    pc := BitVec.ofNat 64 placedAt
    loops := []
    lbuf := []
    lmarks := []
    exiting := false
    idle := 0
    waitIdle := false
    after := []
    bodyWalk := none
    barWait := none
    serves := none
    extents := [placedExtent] }

/-- The group is stored and position 0 of an open package fetches it in the next issue cycle of core 0. -/
def placeWord (w : Nat) (s : State) : State :=
  setMem (wrBytes s.mem (memKey 0 placedAt) ((placedWords w).flatMap (bytesLE 4)))
    (setCtx 1 {} (setCtx 0 (placedCtx (getCtx s 0)) (updCore 0 (fun k => { k with icache := [] }) { s with
      power := true
      bustat := 5
      deadCores := s.deadCores.filter (· != 0)
      failCores := s.failCores.filter (· != 0)
      agenda := [.groupIssue 0] })))

end Sys2Proof.Machine
end

