-- ==== Sys2Proof/Machine/Dispatch.lean ====
section
/-! DEFINITION. The meaning of every instruction: one arm for each constructor of `Instr`. -/

namespace Sys2Proof.Machine

/-- What an instruction or event does. -/
def exec (i : Instr) (s : State) : Host.Outcome State Fault Refusal :=
  match i with
  | .add sl g d a b => Sys2Proof.Machine.execAdd sl g d a b s
  | .addImm sl g d a i0 => Sys2Proof.Machine.execAddImm sl g d a i0 s
  | .sub sl g d a b => Sys2Proof.Machine.execSub sl g d a b s
  | .mul sl g d a b => Sys2Proof.Machine.execMul sl g d a b s
  | .mulh sl g d a b u => Sys2Proof.Machine.execMulh sl g d a b u s
  | .div sl g d a b u => Sys2Proof.Machine.execDiv sl g d a b u s
  | .rem sl g d a b u => Sys2Proof.Machine.execRem sl g d a b u s
  | .and sl g d a b => Sys2Proof.Machine.execAnd sl g d a b s
  | .andImm sl g d a i0 => Sys2Proof.Machine.execAndImm sl g d a i0 s
  | .or sl g d a b => Sys2Proof.Machine.execOr sl g d a b s
  | .orImm sl g d a i0 => Sys2Proof.Machine.execOrImm sl g d a i0 s
  | .xor sl g d a b => Sys2Proof.Machine.execXor sl g d a b s
  | .xorImm sl g d a i0 => Sys2Proof.Machine.execXorImm sl g d a i0 s
  | .shl sl g d a b => Sys2Proof.Machine.execShl sl g d a b s
  | .shlImm sl g d a n => Sys2Proof.Machine.execShlImm sl g d a n s
  | .shr sl g d a b => Sys2Proof.Machine.execShr sl g d a b s
  | .shrImm sl g d a n => Sys2Proof.Machine.execShrImm sl g d a n s
  | .sra sl g d a b => Sys2Proof.Machine.execSra sl g d a b s
  | .sraImm sl g d a n => Sys2Proof.Machine.execSraImm sl g d a n s
  | .min sl g d a b u => Sys2Proof.Machine.execMin sl g d a b u s
  | .max sl g d a b u => Sys2Proof.Machine.execMax sl g d a b u s
  | .cmp sl g d a b c => Sys2Proof.Machine.execCmp sl g d a b c s
  | .cmpImm sl g d a i0 => Sys2Proof.Machine.execCmpImm sl g d a i0 s
  | .sel sl g d a b c => Sys2Proof.Machine.execSel sl g d a b c s
  | .li sl g d e => Sys2Proof.Machine.execLi sl g d e s
  | .lih sl g d e => Sys2Proof.Machine.execLih sl g d e s
  | .bfx sl g d a w o => Sys2Proof.Machine.execBfx sl g d a w o s
  | .bfi sl g d a w o => Sys2Proof.Machine.execBfi sl g d a w o s
  | .clz sl g d a => Sys2Proof.Machine.execClz sl g d a s
  | .popc sl g d a => Sys2Proof.Machine.execPopc sl g d a s
  | .cpy sl g d a f => Sys2Proof.Machine.execCpy sl g d a f s
  | .cpyCommon sl g d a p f => Sys2Proof.Machine.execCpyCommon sl g d a p f s
  | .vadd sl g d a b k t => Sys2Proof.Machine.execVadd sl g d a b k t s
  | .vsub sl g d a b k t => Sys2Proof.Machine.execVsub sl g d a b k t s
  | .vmul sl g d a b k t => Sys2Proof.Machine.execVmul sl g d a b k t s
  | .vmad sl g d a b k t => Sys2Proof.Machine.execVmad sl g d a b k t s
  | .vmin sl g d a b k t => Sys2Proof.Machine.execVmin sl g d a b k t s
  | .vmax sl g d a b k t => Sys2Proof.Machine.execVmax sl g d a b k t s
  | .vabs sl g d a k t => Sys2Proof.Machine.execVabs sl g d a k t s
  | .vand sl g d a b k t => Sys2Proof.Machine.execVand sl g d a b k t s
  | .vor sl g d a b k t => Sys2Proof.Machine.execVor sl g d a b k t s
  | .vxor sl g d a b k t => Sys2Proof.Machine.execVxor sl g d a b k t s
  | .vshl sl g d a b k t => Sys2Proof.Machine.execVshl sl g d a b k t s
  | .vshr sl g d a b k t => Sys2Proof.Machine.execVshr sl g d a b k t s
  | .vcmp sl g d a b c k t => Sys2Proof.Machine.execVcmp sl g d a b c k t s
  | .vsel sl g d a b k t => Sys2Proof.Machine.execVsel sl g d a b k t s
  | .vred sl g d a c k t => Sys2Proof.Machine.execVred sl g d a c k t s
  | .vscan sl g d a c k t => Sys2Proof.Machine.execVscan sl g d a c k t s
  | .vhist sl g d a k t => Sys2Proof.Machine.execVhist sl g d a k t s
  | .vtopk sl g d a c k t => Sys2Proof.Machine.execVtopk sl g d a c k t s
  | .vcvt sl g d a s0 k t => Sys2Proof.Machine.execVcvt sl g d a s0 k t s
  | .vbcast sl g d r p k t => Sys2Proof.Machine.execVbcast sl g d r p k t s
  | .vmov sl g d a f k t => Sys2Proof.Machine.execVmov sl g d a f k t s
  | .vkop sl g d a b c => Sys2Proof.Machine.execVkop sl g d a b c s
  | .vcnt sl g d k t => Sys2Proof.Machine.execVcnt sl g d k t s
  | .vpop sl g d q k t => Sys2Proof.Machine.execVpop sl g d q k t s
  | .frcp g d a t => Sys2Proof.Machine.execFrcp g d a t s
  | .frsq g d a t => Sys2Proof.Machine.execFrsq g d a t s
  | .fexp2 g d a t => Sys2Proof.Machine.execFexp2 g d a t s
  | .flog2 g d a t => Sys2Proof.Machine.execFlog2 g d a t s
  | .ftanh g d a t => Sys2Proof.Machine.execFtanh g d a t s
  | .fsig g d a t => Sys2Proof.Machine.execFsig g d a t s
  | .fmov g d a f => Sys2Proof.Machine.execFmov g d a f s
  | .pack g d a r p t => Sys2Proof.Machine.execPack g d a r p t s
  | .packAuto g d a t => Sys2Proof.Machine.execPackAuto g d a t s
  | .unpk g d a t => Sys2Proof.Machine.execUnpk g d a t s
  | .rmrg g d a b r p => Sys2Proof.Machine.execRmrg g d a b r p s
  | .shuf g d a b t => Sys2Proof.Machine.execShuf g d a b t s
  | .trns g d a b t => Sys2Proof.Machine.execTrns g d a b t s
  | .ilv g d a b t => Sys2Proof.Machine.execIlv g d a b t s
  | .dil g d a b t => Sys2Proof.Machine.execDil g d a b t s
  | .pscl g d a r p t => Sys2Proof.Machine.execPscl g d a r p t s
  | .pmov g d a f => Sys2Proof.Machine.execPmov g d a f s
  | .aset g d r p => Sys2Proof.Machine.execAset g d r p s
  | .ainc g d m => Sys2Proof.Machine.execAinc g d m s
  | .amod g d r p e => Sys2Proof.Machine.execAmod g d r p e s
  | .amov g d a s0 w => Sys2Proof.Machine.execAmov g d a s0 w s
  | .cim g r p s0 q b m l o t => Sys2Proof.Machine.execCim g r p s0 q b m l o t s
  | .smx g r p s0 q b m l o t => Sys2Proof.Machine.execSmx g r p s0 q b m l o t s
  | .acz g r p b => Sys2Proof.Machine.execAcz g r p b s
  | .drn g r p b n => Sys2Proof.Machine.execDrn g r p b n s
  | .wpre g s0 q n => Sys2Proof.Machine.execWpre g s0 q n s
  | .wpin g s0 q => Sys2Proof.Machine.execWpin g s0 q s
  | .wunp g s0 q => Sys2Proof.Machine.execWunp g s0 q s
  | .winv g s0 q => Sys2Proof.Machine.execWinv g s0 q s
  | .wprb g d s0 q => Sys2Proof.Machine.execWprb g d s0 q s
  | .ld sl g r f a m w c => Sys2Proof.Machine.execLd sl g r f a m w c s
  | .st sl g r f a m => Sys2Proof.Machine.execSt sl g r f a m s
  | .lds sl g r f a m w c => Sys2Proof.Machine.execLds sl g r f a m w c s
  | .sts sl g r f a m p => Sys2Proof.Machine.execSts sl g r f a m p s
  | .stq sl g q a m => Sys2Proof.Machine.execStq sl g q a m s
  | .fset sl g a m w => Sys2Proof.Machine.execFset sl g a m w s
  | .fclr sl g a m w => Sys2Proof.Machine.execFclr sl g a m w s
  | .fwait sl g a m w => Sys2Proof.Machine.execFwait sl g a m w s
  | .park sl g r f p e => Sys2Proof.Machine.execPark sl g r f p e s
  | .unpark sl g r f e => Sys2Proof.Machine.execUnpark sl g r f e s
  | .gld g r f a m c o z => Sys2Proof.Machine.execGld g r f a m c o z s
  | .gst g r f a m c o z => Sys2Proof.Machine.execGst g r f a m c o z s
  | .gam g r f a m c o n => Sys2Proof.Machine.execGam g r f a m c o n s
  | .ljn g r f a m => Sys2Proof.Machine.execLjn g r f a m s
  | .lwt g r f a m o => Sys2Proof.Machine.execLwt g r f a m o s
  | .gpf g a m t => Sys2Proof.Machine.execGpf g a m t s
  | .gcb g a m t => Sys2Proof.Machine.execGcb g a m t s
  | .xlt g d a w => Sys2Proof.Machine.execXlt g d a w s
  | .xlp g d a w => Sys2Proof.Machine.execXlp g d a w s
  | .xinv g a n => Sys2Proof.Machine.execXinv g a n s
  | .xfer g r p v t => Sys2Proof.Machine.execXfer g r p v t s
  | .xwt g t => Sys2Proof.Machine.execXwt g t s
  | .rstr g r p s0 q n => Sys2Proof.Machine.execRstr g r p s0 q n s
  | .send g r p s0 q => Sys2Proof.Machine.execSend g r p s0 q s
  | .sendQueue g r p s0 q n => Sys2Proof.Machine.execSendQueue g r p s0 q n s
  | .recv g r p s0 q => Sys2Proof.Machine.execRecv g r p s0 q s
  | .dlc g r p => Sys2Proof.Machine.execDlc g r p s
  | .dlcApportioned g r p => Sys2Proof.Machine.execDlcApportioned g r p s
  | .fmtImm g i0 => Sys2Proof.Machine.execFmtImm g i0 s
  | .fmtReg g p r => Sys2Proof.Machine.execFmtReg g p r s
  | .sclt g q h p l => Sys2Proof.Machine.execSclt g q h p l s
  | .bar g b => Sys2Proof.Machine.execBar g b s
  | .barArrive g b => Sys2Proof.Machine.execBarArrive g b s
  | .barWait g b => Sys2Proof.Machine.execBarWait g b s
  | .barc g p r b => Sys2Proof.Machine.execBarc g p r b s
  | .cqp g p r => Sys2Proof.Machine.execCqp g p r s
  | .rel g m => Sys2Proof.Machine.execRel g m s
  | .csrr g d n => Sys2Proof.Machine.execCsrr g d n s
  | .csrw g p s0 n => Sys2Proof.Machine.execCsrw g p s0 n s
  | .br g c p o => Sys2Proof.Machine.execBr g c p o s
  | .call g c p o => Sys2Proof.Machine.execCall g c p o s
  | .ret g c p => Sys2Proof.Machine.execRet g c p s
  | .loop g l n => Sys2Proof.Machine.execLoop g l n s
  | .loopReg g l p r => Sys2Proof.Machine.execLoopReg g l p r s
  | .loopQ g l => Sys2Proof.Machine.execLoopQ g l s
  | .lsp g s0 l n => Sys2Proof.Machine.execLsp g s0 l n s
  | .lspReg g s0 l p r => Sys2Proof.Machine.execLspReg g s0 l p r s
  | .lspQ g s0 l => Sys2Proof.Machine.execLspQ g s0 l s
  | .brk g c => Sys2Proof.Machine.execBrk g c s
  | .fence g k s0 => Sys2Proof.Machine.execFence g k s0 s
  | .fenceX g s0 p => Sys2Proof.Machine.execFenceX g s0 p s
  | .ifence g => Sys2Proof.Machine.execIfence g s
  | .wait g n => Sys2Proof.Machine.execWait g n s
  | .mpc g o => Sys2Proof.Machine.execMpc g o s
  | .yld g => Sys2Proof.Machine.execYld g s
  | .trap g c => Sys2Proof.Machine.execTrap g c s
  | .tret g => Sys2Proof.Machine.execTret g s
  | .done g => Sys2Proof.Machine.execDone g s
  | .skip i0 v o => Sys2Proof.Machine.execSkip i0 v o s
  | .groupIssue core => Sys2Proof.Machine.execGroupIssue core s
  | .interlockDataArrival p k => Sys2Proof.Machine.execInterlockDataArrival p k s
  | .fetchFault p => Sys2Proof.Machine.execFetchFault p s
  | .deferredCause p k => Sys2Proof.Machine.execDeferredCause p k s
  | .schedulerResolve p ok => Sys2Proof.Machine.execSchedulerResolve p ok s
  | .cmdLaunch cmd => Sys2Proof.Machine.execCmdLaunch cmd s
  | .cmdReserveSets cmd => Sys2Proof.Machine.execCmdReserveSets cmd s
  | .cmdJournal cmd => Sys2Proof.Machine.execCmdJournal cmd s
  | .cmdLinkChannel cmd => Sys2Proof.Machine.execCmdLinkChannel cmd s
  | .eventClear v => Sys2Proof.Machine.execEventClear v s
  | .retadd v => Sys2Proof.Machine.execRetadd v s
  | .configRegisterWrite off size v => Sys2Proof.Machine.execConfigRegisterWrite off size v s
  | .hostApertureRead pa n place => Sys2Proof.Machine.execHostApertureRead pa n place s
  | .hostApertureWrite pa place data => Sys2Proof.Machine.execHostApertureWrite pa place data s
  | .dispatch seq => Sys2Proof.Machine.execDispatch seq s
  | .predecessorFaulted seq => Sys2Proof.Machine.execPredecessorFaulted seq s
  | .bindCluster seq cl => Sys2Proof.Machine.execBindCluster seq cl s
  | .restoreComplete p => Sys2Proof.Machine.execRestoreComplete p s
  | .preemptionRequest p => Sys2Proof.Machine.execPreemptionRequest p s
  | .preemptSave p => Sys2Proof.Machine.execPreemptSave p s
  | .saveComplete p => Sys2Proof.Machine.execSaveComplete p s
  | .resume k p => Sys2Proof.Machine.execResume k p s
  | .preemptionOverdue p => Sys2Proof.Machine.execPreemptionOverdue p s
  | .handlerBind p => Sys2Proof.Machine.execHandlerBind p s
  | .drainComplete p => Sys2Proof.Machine.execDrainComplete p s
  | .launchComplete seq => Sys2Proof.Machine.execLaunchComplete seq s
  | .launchFaulted seq => Sys2Proof.Machine.execLaunchFaulted seq s
  | .matrixOpStart p k => Sys2Proof.Machine.execMatrixOpStart p k s
  | .matrixOpComplete p k => Sys2Proof.Machine.execMatrixOpComplete p k s
  | .tileFillComplete core arr => Sys2Proof.Machine.execTileFillComplete core arr s
  | .replicaStart core arr => Sys2Proof.Machine.execReplicaStart core arr s
  | .replicaComplete core arr => Sys2Proof.Machine.execReplicaComplete core arr s
  | .drainRowPush p k => Sys2Proof.Machine.execDrainRowPush p k s
  | .queueOverflow p k => Sys2Proof.Machine.execQueueOverflow p k s
  | .globalLoadPerform p k => Sys2Proof.Machine.execGlobalLoadPerform p k s
  | .globalStorePerform p k => Sys2Proof.Machine.execGlobalStorePerform p k s
  | .storeAck p k => Sys2Proof.Machine.execStoreAck p k s
  | .l2Eviction die line => Sys2Proof.Machine.execL2Eviction die line s
  | .hbmCalendarSlot stack chan slot => Sys2Proof.Machine.execHbmCalendarSlot stack chan slot s
  | .hbmDataReturn k => Sys2Proof.Machine.execHbmDataReturn k s
  | .ptsTick => Sys2Proof.Machine.execPtsTick s
  | .ptsWindowRaise => Sys2Proof.Machine.execPtsWindowRaise s
  | .timestampSweep die => Sys2Proof.Machine.execTimestampSweep die s
  | .lineCacheExpiryDrop core => Sys2Proof.Machine.execLineCacheExpiryDrop core s
  | .xferRunLand p k => Sys2Proof.Machine.execXferRunLand p k s
  | .xferComplete p k => Sys2Proof.Machine.execXferComplete p k s
  | .restripePageCommit p k => Sys2Proof.Machine.execRestripePageCommit p k s
  | .walkComplete p k => Sys2Proof.Machine.execWalkComplete p k s
  | .sideLogReplay core => Sys2Proof.Machine.execSideLogReplay core s
  | .xinvComplete p => Sys2Proof.Machine.execXinvComplete p s
  | .exchangePhase => Sys2Proof.Machine.execExchangePhase s
  | .exchangeApply k => Sys2Proof.Machine.execExchangeApply k s
  | .latticeRebuildEnd die cell => Sys2Proof.Machine.execLatticeRebuildEnd die cell s
  | .linkRowReceive ch row bad => Sys2Proof.Machine.execLinkRowReceive ch row bad s
  | .recvRowLand p k => Sys2Proof.Machine.execRecvRowLand p k s
  | .ownershipUpgrade p ok => Sys2Proof.Machine.execOwnershipUpgrade p ok s
  | .recall page => Sys2Proof.Machine.execRecall page s
  | .uncorrectableErrorEvent seq => Sys2Proof.Machine.execUncorrectableErrorEvent seq s
  | .rollback seq => Sys2Proof.Machine.execRollback seq s
  | .patrolScrub key bad => Sys2Proof.Machine.execPatrolScrub key bad s
  | .coreFailure core => Sys2Proof.Machine.execCoreFailure core s
  | .channelFailure stack chan => Sys2Proof.Machine.execChannelFailure stack chan s
  | .laneFailure port lane => Sys2Proof.Machine.execLaneFailure port lane s
  | .flitRetry port => Sys2Proof.Machine.execFlitRetry port s
  | .thermalHoldEntry stack => Sys2Proof.Machine.execThermalHoldEntry stack s
  | .thermalHoldExit stack => Sys2Proof.Machine.execThermalHoldExit stack s
  | .thermalHoldOver1ms stack => Sys2Proof.Machine.execThermalHoldOver1ms stack s
  | .thresholdCrossing core level => Sys2Proof.Machine.execThresholdCrossing core level s
  | .thermalTrip die => Sys2Proof.Machine.execThermalTrip die s
  | .opTransitionEnd core => Sys2Proof.Machine.execOpTransitionEnd core s
  | .splitLevelChange core level => Sys2Proof.Machine.execSplitLevelChange core level s
  | .rampBallast die => Sys2Proof.Machine.execRampBallast die s
  | .powerOn => Sys2Proof.Machine.execPowerOn s
  | .powerRemoval => Sys2Proof.Machine.execPowerRemoval s
  | .bringupRetirement readable => Sys2Proof.Machine.execBringupRetirement readable s
  | .bringupTraining dead => Sys2Proof.Machine.execBringupTraining dead s
  | .bringupCapability => Sys2Proof.Machine.execBringupCapability s
  | .bringupOpen => Sys2Proof.Machine.execBringupOpen s
  | .bringupFailed reason => Sys2Proof.Machine.execBringupFailed reason s
  | .peerDeviceRequest dev page kind place off data => Sys2Proof.Machine.execPeerDeviceRequest dev page kind place off data s
  | .remoteQueueRoom ch n => Sys2Proof.Machine.execRemoteQueueRoom ch n s

end Sys2Proof.Machine
end

