-- ==== Sys2Proof/Machine/Step.lean ====
section
/-! DEFINITION. One step: the next event happens. -/

namespace Sys2Proof.Machine

/-- One step of the package: the first event of the agenda, or the one that an empty agenda stands for (log 3); without
power, only power-on (R19). -/
def step (s : State) : Host.Outcome State Fault Refusal :=
  if stopped s then .fault .unpowered else exec (nextEvent s) (advance s)

/-- The instruction of a table word stored where the next step fetches it (log 6). -/
def State.withFetchWord (s : State) (nbits w : Nat) : State := placeWord (w % 2 ^ nbits) s

end Sys2Proof.Machine
end

