-- ==== Sys2Proof/Laws/PerInstr.lean ====
section
/-! SUPPORT. The family `RoundTrip`: every well-formed instruction decodes from its own words, one lemma for each
constructor. -/

namespace Sys2Proof.Laws

/-- Decoding the words of a well-formed instruction gives it back: its slot word, read in its slot with any word after
it; its slot word with its own extension word, for `li` and `lih`; its idle header.  An event has no words. -/
def RoundTrip.Statement (i : Instr) : Prop :=
  i.wf = true →
    match i.slot, encode i with
    | some k, [w] => hasExt k w.toNat = false ∧ ∀ e, decodeSlot k w.toNat e = .ok i
    | some k, [w, e] => hasExt k w.toNat = true ∧ decodeSlot k w.toNat e.toNat = .ok i
    | none, [w] => decodeSkip w.toNat = .ok i
    | none, [] => True
    | _, _ => False

/-- The number whose digits, lowest first, are given with their widths in bits. -/
def digits : List (Nat × Nat) → Nat
  | [] => 0
  | d :: l => d.1 % 2 ^ d.2 + 2 ^ d.2 * digits l

/-- The bit at which digit `k` starts. -/
def start : List (Nat × Nat) → Nat → Nat
  | _, 0 => 0
  | [], _ => 0
  | d :: l, k + 1 => d.2 + start l k

/-- The bits of all digits together. -/
def total : List (Nat × Nat) → Nat
  | [] => 0
  | d :: l => d.2 + total l

/-- The digits above the lowest. -/
theorem digits_div (d : Nat × Nat) (l : List (Nat × Nat)) : digits (d :: l) / 2 ^ d.2 = digits l := by
  rw [digits, Nat.add_mul_div_left _ _ (Nat.two_pow_pos _), Nat.div_eq_of_lt (Nat.mod_lt _ (Nat.two_pow_pos _)), Nat.zero_add]

theorem digits_lt (l : List (Nat × Nat)) : digits l < 2 ^ total l := by
  induction l with
  | nil => simp [digits, total]
  | cons d l ih =>
    have h := Nat.mod_lt d.1 (Nat.two_pow_pos d.2)
    rw [digits, total, Nat.pow_add]
    calc d.1 % 2 ^ d.2 + 2 ^ d.2 * digits l < 2 ^ d.2 + 2 ^ d.2 * digits l := by omega
      _ = 2 ^ d.2 * (digits l + 1) := by rw [Nat.mul_add, Nat.mul_one, Nat.add_comm]
      _ ≤ 2 ^ d.2 * 2 ^ total l := Nat.mul_le_mul_left _ ih

/-- A digit of the number. -/
theorem digits_digit {l : List (Nat × Nat)} {k v n : Nat} (h : l[k]? = some (v, n)) :
    digits l / 2 ^ start l k % 2 ^ n = v % 2 ^ n := by
  induction l generalizing k with
  | nil => simp at h
  | cons d l ih =>
    cases k with
    | zero =>
      simp only [List.getElem?_cons_zero, Option.some.injEq] at h
      subst h
      simp [start, digits]
    | succ k =>
      rw [start, Nat.pow_add, ← Nat.div_div_eq_div_mul, digits_div]
      exact ih (by simpa using h)

/-- The highest digit. -/
theorem digits_top {l : List (Nat × Nat)} {k v n : Nat} (h : l[k]? = some (v, n)) (hk : l.length = k + 1) :
    digits l / 2 ^ start l k = v % 2 ^ n := by
  induction l generalizing k with
  | nil => simp at h
  | cons d l ih =>
    cases k with
    | zero =>
      simp only [List.getElem?_cons_zero, Option.some.injEq] at h
      have : l = [] := List.length_eq_zero_iff.mp (by simpa using hk)
      subst h this
      simp [start, digits]
    | succ k =>
      rw [start, Nat.pow_add, ← Nat.div_div_eq_div_mul, digits_div]
      exact ih (by simpa using h) (by simpa using hk)

/-- A field of the word is the digit that starts at its low bit. -/
theorem fld_digit {n : Nat} (b : BitVec n) (l : List (Nat × Nat)) (k lo : Nat) (hs : start l k = lo)
    (h : l[k]? = some (b.toNat, n)) : fld (digits l) lo n = b := by
  apply BitVec.eq_of_toNat_eq
  simp [fld, ← hs, digits_digit h]

/-- Fixed bits that are a digit of the word. -/
theorem fx_digit (l : List (Nat × Nat)) (k lo n v : Nat) (hs : start l k = lo) (h : l[k]? = some (v, n))
    (hv : v % 2 ^ n = v) : fx (digits l) lo n v = true := by
  simp [fx, ← hs, digits_digit h, hv]

theorem fx_not (w lo n v : Nat) (h : w / 2 ^ lo % 2 ^ n ≠ v) : fx w lo n v = false := by simp [fx, h]

theorem checked_ok {i : Instr} (h : i.wf = true) : checked i = .ok i := by simp [checked, h]

/-- A constructor of one word whose digits are `l`. -/
theorem rt_word {i : Instr} {k m : Nat} {fs : List (Nat × Nat)} (l : List (Nat × Nat)) (hs : i.slot = some k)
    (he : encode i = [wd m fs]) (hw : fs.foldl (fun acc f => acc + f.1 * 2 ^ f.2) m = digits l) (ht : total l = 32)
    (hx : hasExt k (digits l) = false) (hd : ∀ e, decodeSlot k (digits l) e = checked i) : RoundTrip.Statement i := by
  intro h
  have hw' : (wd m fs).toNat = digits l := by
    have := digits_lt l
    simp only [wd, BitVec.toNat_ofNat, hw]
    exact Nat.mod_eq_of_lt (by rwa [ht] at this)
  rw [hs, he]
  simp only [hw']
  exact ⟨hx, fun e => (hd e).trans (checked_ok h)⟩

/-- The sum of a word without fields. -/
theorem sum_nil (m : Nat) : List.foldl (fun (acc : Nat) (f : Nat × Nat) => acc + f.1 * 2 ^ f.2) m [] = m := by rw [List.foldl_nil]

/-- The sum of a word with one field more. -/
theorem sum_cons (m v lo : Nat) (l : List (Nat × Nat)) :
    List.foldl (fun (acc : Nat) (f : Nat × Nat) => acc + f.1 * 2 ^ f.2) m ((v, lo) :: l) =
      List.foldl (fun (acc : Nat) (f : Nat × Nat) => acc + f.1 * 2 ^ f.2) (m + v * 2 ^ lo) l := by rw [List.foldl_cons]

/-- No digits. -/
theorem digits_nil : digits [] = 0 := by rw [digits]

/-- One digit more. -/
theorem digits_cons (v n : Nat) (l : List (Nat × Nat)) : digits ((v, n) :: l) = v % 2 ^ n + 2 ^ n * digits l := by rw [digits]

/-- A constructor of one word and an extension word. -/
theorem rt_ext {i : Instr} {k m : Nat} {e : BitVec 32} {fs : List (Nat × Nat)} (l : List (Nat × Nat)) (hs : i.slot = some k)
    (he : encode i = [wd m fs, e]) (hw : fs.foldl (fun acc f => acc + f.1 * 2 ^ f.2) m = digits l) (ht : total l = 32)
    (hx : hasExt k (digits l) = true) (hd : decodeSlot k (digits l) e.toNat = checked i) : RoundTrip.Statement i := by
  intro h
  have hw' : (wd m fs).toNat = digits l := by
    have := digits_lt l
    simp only [wd, BitVec.toNat_ofNat, hw]
    exact Nat.mod_eq_of_lt (by rwa [ht] at this)
  rw [hs, he]
  simp only [hw']
  exact ⟨hx, hd.trans (checked_ok h)⟩

/-- The slots of a class decode by the class's table. -/
theorem decodeSlot_s (sl : SSlot) (w e : Nat) : decodeSlot sl.num w e = decodeS sl w e := by cases sl <;> rfl

/-- The same for the vector slots. -/
theorem decodeSlot_v (sl : VSlot) (w e : Nat) : decodeSlot sl.num w e = decodeV sl w := by cases sl <;> rfl

/-- The same for the scratchpad slots. -/
theorem decodeSlot_l (sl : LSlot) (w e : Nat) : decodeSlot sl.num w e = decodeL sl w := by cases sl <;> rfl

/-- Slot 5. -/
theorem decodeSlot_fx (w e : Nat) : decodeSlot 5 w e = decodeFx w := rfl

/-- Slot 6. -/
theorem decodeSlot_px (w e : Nat) : decodeSlot 6 w e = decodePx w := rfl

/-- Slot 7. -/
theorem decodeSlot_ax (w e : Nat) : decodeSlot 7 w e = decodeAx w := rfl

/-- Slot 8. -/
theorem decodeSlot_mx (w e : Nat) : decodeSlot 8 w e = decodeMx w := rfl

/-- Slot 11. -/
theorem decodeSlot_gm (w e : Nat) : decodeSlot 11 w e = decodeGm w := rfl

/-- Slot 12. -/
theorem decodeSlot_xl (w e : Nat) : decodeSlot 12 w e = decodeXl w := rfl

/-- Slot 13. -/
theorem decodeSlot_ex (w e : Nat) : decodeSlot 13 w e = decodeEx w := rfl

/-- Slot 14. -/
theorem decodeSlot_cx (w e : Nat) : decodeSlot 14 w e = decodeCx w := rfl

/-- Slot 15. -/
theorem decodeSlot_br (w e : Nat) : decodeSlot 15 w e = decodeBr w := rfl

/-- `.add` and its word. -/
theorem RoundTrip.add (sl : SSlot) (g : BitVec 3) (d : BitVec 5) (a : BitVec 5) (b : BitVec 5) : RoundTrip.Statement (.add sl g d a b) := by
  have hg := g.isLt; have hd := d.isLt; have ha := a.isLt; have hb := b.isLt
  let ds : List (Nat × Nat) := [(0, 8), (b.toNat, 5), (a.toNat, 5), (d.toNat, 5), (g.toNat, 3), (0, 6)]
  have hop : digits ds / 2 ^ 26 = 0 := digits_top (l := ds) (k := 5) rfl rfl
  have dec : ∀ x : Nat, decodeS sl (digits ds) x = checked (.add sl g d a b) := by
    intro x
    rw [decodeS, hop]
    simp only [fx_digit ds 0 0 8 0 rfl rfl rfl, fld_digit b ds 1 8 rfl rfl, fld_digit a ds 2 13 rfl rfl,
      fld_digit d ds 3 18 rfl rfl, fld_digit g ds 4 23 rfl rfl, if_true]
  refine rt_word ds rfl rfl (by simp only [sum_nil, sum_cons, ds, digits_nil, digits_cons]; omega) rfl (by rw [hasExt, hop]; cases sl <;> rfl)
    (fun x => (decodeSlot_s sl _ x).trans (dec x))

/-- `.addImm` and its word. -/
theorem RoundTrip.addImm (sl : SSlot) (g : BitVec 3) (d : BitVec 5) (a : BitVec 5) (i : BitVec 13) : RoundTrip.Statement (.addImm sl g d a i) := by
  have hg := g.isLt; have hd := d.isLt; have ha := a.isLt; have hi := i.isLt
  let ds : List (Nat × Nat) := [(i.toNat, 13), (a.toNat, 5), (d.toNat, 5), (g.toNat, 3), (1, 6)]
  have hop : digits ds / 2 ^ 26 = 1 := digits_top (l := ds) (k := 4) rfl rfl
  have dec : ∀ x : Nat, decodeS sl (digits ds) x = checked (.addImm sl g d a i) := by
    intro x
    rw [decodeS, hop]
    simp only [fld_digit i ds 0 0 rfl rfl, fld_digit a ds 1 13 rfl rfl, fld_digit d ds 2 18 rfl rfl,
      fld_digit g ds 3 23 rfl rfl]
  refine rt_word ds rfl rfl (by simp only [sum_nil, sum_cons, ds, digits_nil, digits_cons]; omega) rfl (by rw [hasExt, hop]; cases sl <;> rfl)
    (fun x => (decodeSlot_s sl _ x).trans (dec x))

/-- `.sub` and its word. -/
theorem RoundTrip.sub (sl : SSlot) (g : BitVec 3) (d : BitVec 5) (a : BitVec 5) (b : BitVec 5) : RoundTrip.Statement (.sub sl g d a b) := by
  have hg := g.isLt; have hd := d.isLt; have ha := a.isLt; have hb := b.isLt
  let ds : List (Nat × Nat) := [(0, 8), (b.toNat, 5), (a.toNat, 5), (d.toNat, 5), (g.toNat, 3), (2, 6)]
  have hop : digits ds / 2 ^ 26 = 2 := digits_top (l := ds) (k := 5) rfl rfl
  have dec : ∀ x : Nat, decodeS sl (digits ds) x = checked (.sub sl g d a b) := by
    intro x
    rw [decodeS, hop]
    simp only [fx_digit ds 0 0 8 0 rfl rfl rfl, fld_digit b ds 1 8 rfl rfl, fld_digit a ds 2 13 rfl rfl,
      fld_digit d ds 3 18 rfl rfl, fld_digit g ds 4 23 rfl rfl, if_true]
  refine rt_word ds rfl rfl (by simp only [sum_nil, sum_cons, ds, digits_nil, digits_cons]; omega) rfl (by rw [hasExt, hop]; cases sl <;> rfl)
    (fun x => (decodeSlot_s sl _ x).trans (dec x))

/-- `.mul` and its word. -/
theorem RoundTrip.mul (sl : SSlot) (g : BitVec 3) (d : BitVec 5) (a : BitVec 5) (b : BitVec 5) : RoundTrip.Statement (.mul sl g d a b) := by
  have hg := g.isLt; have hd := d.isLt; have ha := a.isLt; have hb := b.isLt
  let ds : List (Nat × Nat) := [(0, 8), (b.toNat, 5), (a.toNat, 5), (d.toNat, 5), (g.toNat, 3), (3, 6)]
  have hop : digits ds / 2 ^ 26 = 3 := digits_top (l := ds) (k := 5) rfl rfl
  have dec : ∀ x : Nat, decodeS sl (digits ds) x = checked (.mul sl g d a b) := by
    intro x
    rw [decodeS, hop]
    simp only [fx_digit ds 0 0 8 0 rfl rfl rfl, fld_digit b ds 1 8 rfl rfl, fld_digit a ds 2 13 rfl rfl,
      fld_digit d ds 3 18 rfl rfl, fld_digit g ds 4 23 rfl rfl, if_true]
  refine rt_word ds rfl rfl (by simp only [sum_nil, sum_cons, ds, digits_nil, digits_cons]; omega) rfl (by rw [hasExt, hop]; cases sl <;> rfl)
    (fun x => (decodeSlot_s sl _ x).trans (dec x))

/-- `.mulh` and its word. -/
theorem RoundTrip.mulh (sl : SSlot) (g : BitVec 3) (d : BitVec 5) (a : BitVec 5) (b : BitVec 5) (u : BitVec 1) : RoundTrip.Statement (.mulh sl g d a b u) := by
  have hg := g.isLt; have hd := d.isLt; have ha := a.isLt; have hb := b.isLt
  have hu := u.isLt
  let ds : List (Nat × Nat) := [(u.toNat, 1), (0, 7), (b.toNat, 5), (a.toNat, 5), (d.toNat, 5), (g.toNat, 3), (4, 6)]
  have hop : digits ds / 2 ^ 26 = 4 := digits_top (l := ds) (k := 6) rfl rfl
  have dec : ∀ x : Nat, decodeS sl (digits ds) x = checked (.mulh sl g d a b u) := by
    intro x
    rw [decodeS, hop]
    simp only [fx_digit ds 1 1 7 0 rfl rfl rfl, fld_digit u ds 0 0 rfl rfl, fld_digit b ds 2 8 rfl rfl,
      fld_digit a ds 3 13 rfl rfl, fld_digit d ds 4 18 rfl rfl, fld_digit g ds 5 23 rfl rfl, if_true]
  refine rt_word ds rfl rfl (by simp only [sum_nil, sum_cons, ds, digits_nil, digits_cons]; omega) rfl (by rw [hasExt, hop]; cases sl <;> rfl)
    (fun x => (decodeSlot_s sl _ x).trans (dec x))

/-- `.div` and its word. -/
theorem RoundTrip.div (sl : SSlot) (g : BitVec 3) (d : BitVec 5) (a : BitVec 5) (b : BitVec 5) (u : BitVec 1) : RoundTrip.Statement (.div sl g d a b u) := by
  have hg := g.isLt; have hd := d.isLt; have ha := a.isLt; have hb := b.isLt
  have hu := u.isLt
  let ds : List (Nat × Nat) := [(u.toNat, 1), (0, 7), (b.toNat, 5), (a.toNat, 5), (d.toNat, 5), (g.toNat, 3), (5, 6)]
  have hop : digits ds / 2 ^ 26 = 5 := digits_top (l := ds) (k := 6) rfl rfl
  have dec : ∀ x : Nat, decodeS sl (digits ds) x = checked (.div sl g d a b u) := by
    intro x
    rw [decodeS, hop]
    simp only [fx_digit ds 1 1 7 0 rfl rfl rfl, fld_digit u ds 0 0 rfl rfl, fld_digit b ds 2 8 rfl rfl,
      fld_digit a ds 3 13 rfl rfl, fld_digit d ds 4 18 rfl rfl, fld_digit g ds 5 23 rfl rfl, if_true]
  refine rt_word ds rfl rfl (by simp only [sum_nil, sum_cons, ds, digits_nil, digits_cons]; omega) rfl (by rw [hasExt, hop]; cases sl <;> rfl)
    (fun x => (decodeSlot_s sl _ x).trans (dec x))

/-- `.rem` and its word. -/
theorem RoundTrip.rem (sl : SSlot) (g : BitVec 3) (d : BitVec 5) (a : BitVec 5) (b : BitVec 5) (u : BitVec 1) : RoundTrip.Statement (.rem sl g d a b u) := by
  have hg := g.isLt; have hd := d.isLt; have ha := a.isLt; have hb := b.isLt
  have hu := u.isLt
  let ds : List (Nat × Nat) := [(u.toNat, 1), (0, 7), (b.toNat, 5), (a.toNat, 5), (d.toNat, 5), (g.toNat, 3), (6, 6)]
  have hop : digits ds / 2 ^ 26 = 6 := digits_top (l := ds) (k := 6) rfl rfl
  have dec : ∀ x : Nat, decodeS sl (digits ds) x = checked (.rem sl g d a b u) := by
    intro x
    rw [decodeS, hop]
    simp only [fx_digit ds 1 1 7 0 rfl rfl rfl, fld_digit u ds 0 0 rfl rfl, fld_digit b ds 2 8 rfl rfl,
      fld_digit a ds 3 13 rfl rfl, fld_digit d ds 4 18 rfl rfl, fld_digit g ds 5 23 rfl rfl, if_true]
  refine rt_word ds rfl rfl (by simp only [sum_nil, sum_cons, ds, digits_nil, digits_cons]; omega) rfl (by rw [hasExt, hop]; cases sl <;> rfl)
    (fun x => (decodeSlot_s sl _ x).trans (dec x))

/-- `.and` and its word. -/
theorem RoundTrip.and (sl : SSlot) (g : BitVec 3) (d : BitVec 5) (a : BitVec 5) (b : BitVec 5) : RoundTrip.Statement (.and sl g d a b) := by
  have hg := g.isLt; have hd := d.isLt; have ha := a.isLt; have hb := b.isLt
  let ds : List (Nat × Nat) := [(0, 8), (b.toNat, 5), (a.toNat, 5), (d.toNat, 5), (g.toNat, 3), (7, 6)]
  have hop : digits ds / 2 ^ 26 = 7 := digits_top (l := ds) (k := 5) rfl rfl
  have dec : ∀ x : Nat, decodeS sl (digits ds) x = checked (.and sl g d a b) := by
    intro x
    rw [decodeS, hop]
    simp only [fx_digit ds 0 0 8 0 rfl rfl rfl, fld_digit b ds 1 8 rfl rfl, fld_digit a ds 2 13 rfl rfl,
      fld_digit d ds 3 18 rfl rfl, fld_digit g ds 4 23 rfl rfl, if_true]
  refine rt_word ds rfl rfl (by simp only [sum_nil, sum_cons, ds, digits_nil, digits_cons]; omega) rfl (by rw [hasExt, hop]; cases sl <;> rfl)
    (fun x => (decodeSlot_s sl _ x).trans (dec x))

/-- `.andImm` and its word. -/
theorem RoundTrip.andImm (sl : SSlot) (g : BitVec 3) (d : BitVec 5) (a : BitVec 5) (i : BitVec 13) : RoundTrip.Statement (.andImm sl g d a i) := by
  have hg := g.isLt; have hd := d.isLt; have ha := a.isLt; have hi := i.isLt
  let ds : List (Nat × Nat) := [(i.toNat, 13), (a.toNat, 5), (d.toNat, 5), (g.toNat, 3), (8, 6)]
  have hop : digits ds / 2 ^ 26 = 8 := digits_top (l := ds) (k := 4) rfl rfl
  have dec : ∀ x : Nat, decodeS sl (digits ds) x = checked (.andImm sl g d a i) := by
    intro x
    rw [decodeS, hop]
    simp only [fld_digit i ds 0 0 rfl rfl, fld_digit a ds 1 13 rfl rfl, fld_digit d ds 2 18 rfl rfl,
      fld_digit g ds 3 23 rfl rfl]
  refine rt_word ds rfl rfl (by simp only [sum_nil, sum_cons, ds, digits_nil, digits_cons]; omega) rfl (by rw [hasExt, hop]; cases sl <;> rfl)
    (fun x => (decodeSlot_s sl _ x).trans (dec x))

/-- `.or` and its word. -/
theorem RoundTrip.or (sl : SSlot) (g : BitVec 3) (d : BitVec 5) (a : BitVec 5) (b : BitVec 5) : RoundTrip.Statement (.or sl g d a b) := by
  have hg := g.isLt; have hd := d.isLt; have ha := a.isLt; have hb := b.isLt
  let ds : List (Nat × Nat) := [(0, 8), (b.toNat, 5), (a.toNat, 5), (d.toNat, 5), (g.toNat, 3), (9, 6)]
  have hop : digits ds / 2 ^ 26 = 9 := digits_top (l := ds) (k := 5) rfl rfl
  have dec : ∀ x : Nat, decodeS sl (digits ds) x = checked (.or sl g d a b) := by
    intro x
    rw [decodeS, hop]
    simp only [fx_digit ds 0 0 8 0 rfl rfl rfl, fld_digit b ds 1 8 rfl rfl, fld_digit a ds 2 13 rfl rfl,
      fld_digit d ds 3 18 rfl rfl, fld_digit g ds 4 23 rfl rfl, if_true]
  refine rt_word ds rfl rfl (by simp only [sum_nil, sum_cons, ds, digits_nil, digits_cons]; omega) rfl (by rw [hasExt, hop]; cases sl <;> rfl)
    (fun x => (decodeSlot_s sl _ x).trans (dec x))

/-- `.orImm` and its word. -/
theorem RoundTrip.orImm (sl : SSlot) (g : BitVec 3) (d : BitVec 5) (a : BitVec 5) (i : BitVec 13) : RoundTrip.Statement (.orImm sl g d a i) := by
  have hg := g.isLt; have hd := d.isLt; have ha := a.isLt; have hi := i.isLt
  let ds : List (Nat × Nat) := [(i.toNat, 13), (a.toNat, 5), (d.toNat, 5), (g.toNat, 3), (10, 6)]
  have hop : digits ds / 2 ^ 26 = 10 := digits_top (l := ds) (k := 4) rfl rfl
  have dec : ∀ x : Nat, decodeS sl (digits ds) x = checked (.orImm sl g d a i) := by
    intro x
    rw [decodeS, hop]
    simp only [fld_digit i ds 0 0 rfl rfl, fld_digit a ds 1 13 rfl rfl, fld_digit d ds 2 18 rfl rfl,
      fld_digit g ds 3 23 rfl rfl]
  refine rt_word ds rfl rfl (by simp only [sum_nil, sum_cons, ds, digits_nil, digits_cons]; omega) rfl (by rw [hasExt, hop]; cases sl <;> rfl)
    (fun x => (decodeSlot_s sl _ x).trans (dec x))

/-- `.xor` and its word. -/
theorem RoundTrip.xor (sl : SSlot) (g : BitVec 3) (d : BitVec 5) (a : BitVec 5) (b : BitVec 5) : RoundTrip.Statement (.xor sl g d a b) := by
  have hg := g.isLt; have hd := d.isLt; have ha := a.isLt; have hb := b.isLt
  let ds : List (Nat × Nat) := [(0, 8), (b.toNat, 5), (a.toNat, 5), (d.toNat, 5), (g.toNat, 3), (11, 6)]
  have hop : digits ds / 2 ^ 26 = 11 := digits_top (l := ds) (k := 5) rfl rfl
  have dec : ∀ x : Nat, decodeS sl (digits ds) x = checked (.xor sl g d a b) := by
    intro x
    rw [decodeS, hop]
    simp only [fx_digit ds 0 0 8 0 rfl rfl rfl, fld_digit b ds 1 8 rfl rfl, fld_digit a ds 2 13 rfl rfl,
      fld_digit d ds 3 18 rfl rfl, fld_digit g ds 4 23 rfl rfl, if_true]
  refine rt_word ds rfl rfl (by simp only [sum_nil, sum_cons, ds, digits_nil, digits_cons]; omega) rfl (by rw [hasExt, hop]; cases sl <;> rfl)
    (fun x => (decodeSlot_s sl _ x).trans (dec x))

/-- `.xorImm` and its word. -/
theorem RoundTrip.xorImm (sl : SSlot) (g : BitVec 3) (d : BitVec 5) (a : BitVec 5) (i : BitVec 13) : RoundTrip.Statement (.xorImm sl g d a i) := by
  have hg := g.isLt; have hd := d.isLt; have ha := a.isLt; have hi := i.isLt
  let ds : List (Nat × Nat) := [(i.toNat, 13), (a.toNat, 5), (d.toNat, 5), (g.toNat, 3), (12, 6)]
  have hop : digits ds / 2 ^ 26 = 12 := digits_top (l := ds) (k := 4) rfl rfl
  have dec : ∀ x : Nat, decodeS sl (digits ds) x = checked (.xorImm sl g d a i) := by
    intro x
    rw [decodeS, hop]
    simp only [fld_digit i ds 0 0 rfl rfl, fld_digit a ds 1 13 rfl rfl, fld_digit d ds 2 18 rfl rfl,
      fld_digit g ds 3 23 rfl rfl]
  refine rt_word ds rfl rfl (by simp only [sum_nil, sum_cons, ds, digits_nil, digits_cons]; omega) rfl (by rw [hasExt, hop]; cases sl <;> rfl)
    (fun x => (decodeSlot_s sl _ x).trans (dec x))

/-- `.shl` and its word. -/
theorem RoundTrip.shl (sl : SSlot) (g : BitVec 3) (d : BitVec 5) (a : BitVec 5) (b : BitVec 5) : RoundTrip.Statement (.shl sl g d a b) := by
  have hg := g.isLt; have hd := d.isLt; have ha := a.isLt; have hb := b.isLt
  let ds : List (Nat × Nat) := [(0, 8), (b.toNat, 5), (a.toNat, 5), (d.toNat, 5), (g.toNat, 3), (13, 6)]
  have hop : digits ds / 2 ^ 26 = 13 := digits_top (l := ds) (k := 5) rfl rfl
  have dec : ∀ x : Nat, decodeS sl (digits ds) x = checked (.shl sl g d a b) := by
    intro x
    rw [decodeS, hop]
    simp only [fx_digit ds 0 0 8 0 rfl rfl rfl, fld_digit b ds 1 8 rfl rfl, fld_digit a ds 2 13 rfl rfl,
      fld_digit d ds 3 18 rfl rfl, fld_digit g ds 4 23 rfl rfl, if_true]
  refine rt_word ds rfl rfl (by simp only [sum_nil, sum_cons, ds, digits_nil, digits_cons]; omega) rfl (by rw [hasExt, hop]; cases sl <;> rfl)
    (fun x => (decodeSlot_s sl _ x).trans (dec x))

/-- `.shlImm` and its word. -/
theorem RoundTrip.shlImm (sl : SSlot) (g : BitVec 3) (d : BitVec 5) (a : BitVec 5) (n : BitVec 6) : RoundTrip.Statement (.shlImm sl g d a n) := by
  have hg := g.isLt; have hd := d.isLt; have ha := a.isLt; have hn := n.isLt
  let ds : List (Nat × Nat) := [(n.toNat, 6), (2, 7), (a.toNat, 5), (d.toNat, 5), (g.toNat, 3), (13, 6)]
  have hop : digits ds / 2 ^ 26 = 13 := digits_top (l := ds) (k := 5) rfl rfl
  have dec : ∀ x : Nat, decodeS sl (digits ds) x = checked (.shlImm sl g d a n) := by
    intro x
    rw [decodeS, hop]
    simp only [fx_not (digits ds) 0 8 0 (by simp only [ds, digits_nil, digits_cons]; omega), fx_digit ds 1 6 7 2 rfl rfl rfl,
      fld_digit n ds 0 0 rfl rfl, fld_digit a ds 2 13 rfl rfl, fld_digit d ds 3 18 rfl rfl,
      fld_digit g ds 4 23 rfl rfl, Bool.false_eq_true, if_false, if_true]
  refine rt_word ds rfl rfl (by simp only [sum_nil, sum_cons, ds, digits_nil, digits_cons]; omega) rfl (by rw [hasExt, hop]; cases sl <;> rfl)
    (fun x => (decodeSlot_s sl _ x).trans (dec x))

/-- `.shr` and its word. -/
theorem RoundTrip.shr (sl : SSlot) (g : BitVec 3) (d : BitVec 5) (a : BitVec 5) (b : BitVec 5) : RoundTrip.Statement (.shr sl g d a b) := by
  have hg := g.isLt; have hd := d.isLt; have ha := a.isLt; have hb := b.isLt
  let ds : List (Nat × Nat) := [(0, 8), (b.toNat, 5), (a.toNat, 5), (d.toNat, 5), (g.toNat, 3), (14, 6)]
  have hop : digits ds / 2 ^ 26 = 14 := digits_top (l := ds) (k := 5) rfl rfl
  have dec : ∀ x : Nat, decodeS sl (digits ds) x = checked (.shr sl g d a b) := by
    intro x
    rw [decodeS, hop]
    simp only [fx_digit ds 0 0 8 0 rfl rfl rfl, fld_digit b ds 1 8 rfl rfl, fld_digit a ds 2 13 rfl rfl,
      fld_digit d ds 3 18 rfl rfl, fld_digit g ds 4 23 rfl rfl, if_true]
  refine rt_word ds rfl rfl (by simp only [sum_nil, sum_cons, ds, digits_nil, digits_cons]; omega) rfl (by rw [hasExt, hop]; cases sl <;> rfl)
    (fun x => (decodeSlot_s sl _ x).trans (dec x))

/-- `.shrImm` and its word. -/
theorem RoundTrip.shrImm (sl : SSlot) (g : BitVec 3) (d : BitVec 5) (a : BitVec 5) (n : BitVec 6) : RoundTrip.Statement (.shrImm sl g d a n) := by
  have hg := g.isLt; have hd := d.isLt; have ha := a.isLt; have hn := n.isLt
  let ds : List (Nat × Nat) := [(n.toNat, 6), (2, 7), (a.toNat, 5), (d.toNat, 5), (g.toNat, 3), (14, 6)]
  have hop : digits ds / 2 ^ 26 = 14 := digits_top (l := ds) (k := 5) rfl rfl
  have dec : ∀ x : Nat, decodeS sl (digits ds) x = checked (.shrImm sl g d a n) := by
    intro x
    rw [decodeS, hop]
    simp only [fx_not (digits ds) 0 8 0 (by simp only [ds, digits_nil, digits_cons]; omega), fx_digit ds 1 6 7 2 rfl rfl rfl,
      fld_digit n ds 0 0 rfl rfl, fld_digit a ds 2 13 rfl rfl, fld_digit d ds 3 18 rfl rfl,
      fld_digit g ds 4 23 rfl rfl, Bool.false_eq_true, if_false, if_true]
  refine rt_word ds rfl rfl (by simp only [sum_nil, sum_cons, ds, digits_nil, digits_cons]; omega) rfl (by rw [hasExt, hop]; cases sl <;> rfl)
    (fun x => (decodeSlot_s sl _ x).trans (dec x))

/-- `.sra` and its word. -/
theorem RoundTrip.sra (sl : SSlot) (g : BitVec 3) (d : BitVec 5) (a : BitVec 5) (b : BitVec 5) : RoundTrip.Statement (.sra sl g d a b) := by
  have hg := g.isLt; have hd := d.isLt; have ha := a.isLt; have hb := b.isLt
  let ds : List (Nat × Nat) := [(0, 8), (b.toNat, 5), (a.toNat, 5), (d.toNat, 5), (g.toNat, 3), (15, 6)]
  have hop : digits ds / 2 ^ 26 = 15 := digits_top (l := ds) (k := 5) rfl rfl
  have dec : ∀ x : Nat, decodeS sl (digits ds) x = checked (.sra sl g d a b) := by
    intro x
    rw [decodeS, hop]
    simp only [fx_digit ds 0 0 8 0 rfl rfl rfl, fld_digit b ds 1 8 rfl rfl, fld_digit a ds 2 13 rfl rfl,
      fld_digit d ds 3 18 rfl rfl, fld_digit g ds 4 23 rfl rfl, if_true]
  refine rt_word ds rfl rfl (by simp only [sum_nil, sum_cons, ds, digits_nil, digits_cons]; omega) rfl (by rw [hasExt, hop]; cases sl <;> rfl)
    (fun x => (decodeSlot_s sl _ x).trans (dec x))

/-- `.sraImm` and its word. -/
theorem RoundTrip.sraImm (sl : SSlot) (g : BitVec 3) (d : BitVec 5) (a : BitVec 5) (n : BitVec 6) : RoundTrip.Statement (.sraImm sl g d a n) := by
  have hg := g.isLt; have hd := d.isLt; have ha := a.isLt; have hn := n.isLt
  let ds : List (Nat × Nat) := [(n.toNat, 6), (2, 7), (a.toNat, 5), (d.toNat, 5), (g.toNat, 3), (15, 6)]
  have hop : digits ds / 2 ^ 26 = 15 := digits_top (l := ds) (k := 5) rfl rfl
  have dec : ∀ x : Nat, decodeS sl (digits ds) x = checked (.sraImm sl g d a n) := by
    intro x
    rw [decodeS, hop]
    simp only [fx_not (digits ds) 0 8 0 (by simp only [ds, digits_nil, digits_cons]; omega), fx_digit ds 1 6 7 2 rfl rfl rfl,
      fld_digit n ds 0 0 rfl rfl, fld_digit a ds 2 13 rfl rfl, fld_digit d ds 3 18 rfl rfl,
      fld_digit g ds 4 23 rfl rfl, Bool.false_eq_true, if_false, if_true]
  refine rt_word ds rfl rfl (by simp only [sum_nil, sum_cons, ds, digits_nil, digits_cons]; omega) rfl (by rw [hasExt, hop]; cases sl <;> rfl)
    (fun x => (decodeSlot_s sl _ x).trans (dec x))

/-- `.min` and its word. -/
theorem RoundTrip.min (sl : SSlot) (g : BitVec 3) (d : BitVec 5) (a : BitVec 5) (b : BitVec 5) (u : BitVec 1) : RoundTrip.Statement (.min sl g d a b u) := by
  have hg := g.isLt; have hd := d.isLt; have ha := a.isLt; have hb := b.isLt
  have hu := u.isLt
  let ds : List (Nat × Nat) := [(u.toNat, 1), (0, 7), (b.toNat, 5), (a.toNat, 5), (d.toNat, 5), (g.toNat, 3), (16, 6)]
  have hop : digits ds / 2 ^ 26 = 16 := digits_top (l := ds) (k := 6) rfl rfl
  have dec : ∀ x : Nat, decodeS sl (digits ds) x = checked (.min sl g d a b u) := by
    intro x
    rw [decodeS, hop]
    simp only [fx_digit ds 1 1 7 0 rfl rfl rfl, fld_digit u ds 0 0 rfl rfl, fld_digit b ds 2 8 rfl rfl,
      fld_digit a ds 3 13 rfl rfl, fld_digit d ds 4 18 rfl rfl, fld_digit g ds 5 23 rfl rfl, if_true]
  refine rt_word ds rfl rfl (by simp only [sum_nil, sum_cons, ds, digits_nil, digits_cons]; omega) rfl (by rw [hasExt, hop]; cases sl <;> rfl)
    (fun x => (decodeSlot_s sl _ x).trans (dec x))

/-- `.max` and its word. -/
theorem RoundTrip.max (sl : SSlot) (g : BitVec 3) (d : BitVec 5) (a : BitVec 5) (b : BitVec 5) (u : BitVec 1) : RoundTrip.Statement (.max sl g d a b u) := by
  have hg := g.isLt; have hd := d.isLt; have ha := a.isLt; have hb := b.isLt
  have hu := u.isLt
  let ds : List (Nat × Nat) := [(u.toNat, 1), (0, 7), (b.toNat, 5), (a.toNat, 5), (d.toNat, 5), (g.toNat, 3), (17, 6)]
  have hop : digits ds / 2 ^ 26 = 17 := digits_top (l := ds) (k := 6) rfl rfl
  have dec : ∀ x : Nat, decodeS sl (digits ds) x = checked (.max sl g d a b u) := by
    intro x
    rw [decodeS, hop]
    simp only [fx_digit ds 1 1 7 0 rfl rfl rfl, fld_digit u ds 0 0 rfl rfl, fld_digit b ds 2 8 rfl rfl,
      fld_digit a ds 3 13 rfl rfl, fld_digit d ds 4 18 rfl rfl, fld_digit g ds 5 23 rfl rfl, if_true]
  refine rt_word ds rfl rfl (by simp only [sum_nil, sum_cons, ds, digits_nil, digits_cons]; omega) rfl (by rw [hasExt, hop]; cases sl <;> rfl)
    (fun x => (decodeSlot_s sl _ x).trans (dec x))

/-- `.cmp` and its word. -/
theorem RoundTrip.cmp (sl : SSlot) (g : BitVec 3) (d : BitVec 5) (a : BitVec 5) (b : BitVec 5) (c : BitVec 3) : RoundTrip.Statement (.cmp sl g d a b c) := by
  have hg := g.isLt; have hd := d.isLt; have ha := a.isLt; have hb := b.isLt
  have hc := c.isLt
  let ds : List (Nat × Nat) := [(c.toNat, 3), (0, 5), (b.toNat, 5), (a.toNat, 5), (d.toNat, 5), (g.toNat, 3), (18, 6)]
  have hop : digits ds / 2 ^ 26 = 18 := digits_top (l := ds) (k := 6) rfl rfl
  have dec : ∀ x : Nat, decodeS sl (digits ds) x = checked (.cmp sl g d a b c) := by
    intro x
    rw [decodeS, hop]
    simp only [fx_digit ds 1 3 5 0 rfl rfl rfl, fld_digit c ds 0 0 rfl rfl, fld_digit b ds 2 8 rfl rfl,
      fld_digit a ds 3 13 rfl rfl, fld_digit d ds 4 18 rfl rfl, fld_digit g ds 5 23 rfl rfl, if_true]
  refine rt_word ds rfl rfl (by simp only [sum_nil, sum_cons, ds, digits_nil, digits_cons]; omega) rfl (by rw [hasExt, hop]; cases sl <;> rfl)
    (fun x => (decodeSlot_s sl _ x).trans (dec x))

/-- `.cmpImm` and its word. -/
theorem RoundTrip.cmpImm (sl : SSlot) (g : BitVec 3) (d : BitVec 5) (a : BitVec 5) (i : BitVec 13) : RoundTrip.Statement (.cmpImm sl g d a i) := by
  have hg := g.isLt; have hd := d.isLt; have ha := a.isLt; have hi := i.isLt
  let ds : List (Nat × Nat) := [(i.toNat, 13), (a.toNat, 5), (d.toNat, 5), (g.toNat, 3), (19, 6)]
  have hop : digits ds / 2 ^ 26 = 19 := digits_top (l := ds) (k := 4) rfl rfl
  have dec : ∀ x : Nat, decodeS sl (digits ds) x = checked (.cmpImm sl g d a i) := by
    intro x
    rw [decodeS, hop]
    simp only [fld_digit i ds 0 0 rfl rfl, fld_digit a ds 1 13 rfl rfl, fld_digit d ds 2 18 rfl rfl,
      fld_digit g ds 3 23 rfl rfl]
  refine rt_word ds rfl rfl (by simp only [sum_nil, sum_cons, ds, digits_nil, digits_cons]; omega) rfl (by rw [hasExt, hop]; cases sl <;> rfl)
    (fun x => (decodeSlot_s sl _ x).trans (dec x))

/-- `.sel` and its word. -/
theorem RoundTrip.sel (sl : SSlot) (g : BitVec 3) (d : BitVec 5) (a : BitVec 5) (b : BitVec 5) (c : BitVec 5) : RoundTrip.Statement (.sel sl g d a b c) := by
  have hg := g.isLt; have hd := d.isLt; have ha := a.isLt; have hb := b.isLt
  have hc := c.isLt
  let ds : List (Nat × Nat) := [(c.toNat, 5), (0, 3), (b.toNat, 5), (a.toNat, 5), (d.toNat, 5), (g.toNat, 3), (20, 6)]
  have hop : digits ds / 2 ^ 26 = 20 := digits_top (l := ds) (k := 6) rfl rfl
  have dec : ∀ x : Nat, decodeS sl (digits ds) x = checked (.sel sl g d a b c) := by
    intro x
    rw [decodeS, hop]
    simp only [fx_digit ds 1 5 3 0 rfl rfl rfl, fld_digit c ds 0 0 rfl rfl, fld_digit b ds 2 8 rfl rfl,
      fld_digit a ds 3 13 rfl rfl, fld_digit d ds 4 18 rfl rfl, fld_digit g ds 5 23 rfl rfl, if_true]
  refine rt_word ds rfl rfl (by simp only [sum_nil, sum_cons, ds, digits_nil, digits_cons]; omega) rfl (by rw [hasExt, hop]; cases sl <;> rfl)
    (fun x => (decodeSlot_s sl _ x).trans (dec x))

/-- `.li` and its words. -/
theorem RoundTrip.li (sl : SSlot) (g : BitVec 3) (d : BitVec 5) (e : BitVec 32) : RoundTrip.Statement (.li sl g d e) := by
  have hg := g.isLt; have hd := d.isLt
  let ds : List (Nat × Nat) := [(0, 18), (d.toNat, 5), (g.toNat, 3), (21, 6)]
  have hop : digits ds / 2 ^ 26 = 21 := digits_top (l := ds) (k := 3) rfl rfl
  have dec : decodeS sl (digits ds) e.toNat = checked (.li sl g d e) := by
    rw [decodeS, hop]
    simp only [fx_digit ds 0 0 18 0 rfl rfl rfl, fld_digit d ds 1 18 rfl rfl, fld_digit g ds 2 23 rfl rfl,
      BitVec.ofNat_toNat, BitVec.setWidth_eq, if_true]
  refine rt_ext ds rfl rfl (by simp only [sum_nil, sum_cons, ds, digits_nil, digits_cons]; omega) rfl (by rw [hasExt, hop]; cases sl <;> rfl) ((decodeSlot_s sl _ _).trans dec)

/-- `.lih` and its words. -/
theorem RoundTrip.lih (sl : SSlot) (g : BitVec 3) (d : BitVec 5) (e : BitVec 32) : RoundTrip.Statement (.lih sl g d e) := by
  have hg := g.isLt; have hd := d.isLt
  let ds : List (Nat × Nat) := [(0, 18), (d.toNat, 5), (g.toNat, 3), (22, 6)]
  have hop : digits ds / 2 ^ 26 = 22 := digits_top (l := ds) (k := 3) rfl rfl
  have dec : decodeS sl (digits ds) e.toNat = checked (.lih sl g d e) := by
    rw [decodeS, hop]
    simp only [fx_digit ds 0 0 18 0 rfl rfl rfl, fld_digit d ds 1 18 rfl rfl, fld_digit g ds 2 23 rfl rfl,
      BitVec.ofNat_toNat, BitVec.setWidth_eq, if_true]
  refine rt_ext ds rfl rfl (by simp only [sum_nil, sum_cons, ds, digits_nil, digits_cons]; omega) rfl (by rw [hasExt, hop]; cases sl <;> rfl) ((decodeSlot_s sl _ _).trans dec)

/-- `.bfx` and its word. -/
theorem RoundTrip.bfx (sl : SSlot) (g : BitVec 3) (d : BitVec 5) (a : BitVec 5) (w : BitVec 7) (o : BitVec 6) : RoundTrip.Statement (.bfx sl g d a w o) := by
  have hg := g.isLt; have hd := d.isLt; have ha := a.isLt; have hw := w.isLt
  have ho := o.isLt
  let ds : List (Nat × Nat) := [(o.toNat, 6), (w.toNat, 7), (a.toNat, 5), (d.toNat, 5), (g.toNat, 3), (23, 6)]
  have hop : digits ds / 2 ^ 26 = 23 := digits_top (l := ds) (k := 5) rfl rfl
  have dec : ∀ x : Nat, decodeS sl (digits ds) x = checked (.bfx sl g d a w o) := by
    intro x
    rw [decodeS, hop]
    simp only [fld_digit o ds 0 0 rfl rfl, fld_digit w ds 1 6 rfl rfl, fld_digit a ds 2 13 rfl rfl,
      fld_digit d ds 3 18 rfl rfl, fld_digit g ds 4 23 rfl rfl]
  refine rt_word ds rfl rfl (by simp only [sum_nil, sum_cons, ds, digits_nil, digits_cons]; omega) rfl (by rw [hasExt, hop]; cases sl <;> rfl)
    (fun x => (decodeSlot_s sl _ x).trans (dec x))

/-- `.bfi` and its word. -/
theorem RoundTrip.bfi (sl : SSlot) (g : BitVec 3) (d : BitVec 5) (a : BitVec 5) (w : BitVec 7) (o : BitVec 6) : RoundTrip.Statement (.bfi sl g d a w o) := by
  have hg := g.isLt; have hd := d.isLt; have ha := a.isLt; have hw := w.isLt
  have ho := o.isLt
  let ds : List (Nat × Nat) := [(o.toNat, 6), (w.toNat, 7), (a.toNat, 5), (d.toNat, 5), (g.toNat, 3), (24, 6)]
  have hop : digits ds / 2 ^ 26 = 24 := digits_top (l := ds) (k := 5) rfl rfl
  have dec : ∀ x : Nat, decodeS sl (digits ds) x = checked (.bfi sl g d a w o) := by
    intro x
    rw [decodeS, hop]
    simp only [fld_digit o ds 0 0 rfl rfl, fld_digit w ds 1 6 rfl rfl, fld_digit a ds 2 13 rfl rfl,
      fld_digit d ds 3 18 rfl rfl, fld_digit g ds 4 23 rfl rfl]
  refine rt_word ds rfl rfl (by simp only [sum_nil, sum_cons, ds, digits_nil, digits_cons]; omega) rfl (by rw [hasExt, hop]; cases sl <;> rfl)
    (fun x => (decodeSlot_s sl _ x).trans (dec x))

/-- `.clz` and its word. -/
theorem RoundTrip.clz (sl : SSlot) (g : BitVec 3) (d : BitVec 5) (a : BitVec 5) : RoundTrip.Statement (.clz sl g d a) := by
  have hg := g.isLt; have hd := d.isLt; have ha := a.isLt
  let ds : List (Nat × Nat) := [(0, 13), (a.toNat, 5), (d.toNat, 5), (g.toNat, 3), (25, 6)]
  have hop : digits ds / 2 ^ 26 = 25 := digits_top (l := ds) (k := 4) rfl rfl
  have dec : ∀ x : Nat, decodeS sl (digits ds) x = checked (.clz sl g d a) := by
    intro x
    rw [decodeS, hop]
    simp only [fx_digit ds 0 0 13 0 rfl rfl rfl, fld_digit a ds 1 13 rfl rfl, fld_digit d ds 2 18 rfl rfl,
      fld_digit g ds 3 23 rfl rfl, if_true]
  refine rt_word ds rfl rfl (by simp only [sum_nil, sum_cons, ds, digits_nil, digits_cons]; omega) rfl (by rw [hasExt, hop]; cases sl <;> rfl)
    (fun x => (decodeSlot_s sl _ x).trans (dec x))

/-- `.popc` and its word. -/
theorem RoundTrip.popc (sl : SSlot) (g : BitVec 3) (d : BitVec 5) (a : BitVec 5) : RoundTrip.Statement (.popc sl g d a) := by
  have hg := g.isLt; have hd := d.isLt; have ha := a.isLt
  let ds : List (Nat × Nat) := [(0, 13), (a.toNat, 5), (d.toNat, 5), (g.toNat, 3), (26, 6)]
  have hop : digits ds / 2 ^ 26 = 26 := digits_top (l := ds) (k := 4) rfl rfl
  have dec : ∀ x : Nat, decodeS sl (digits ds) x = checked (.popc sl g d a) := by
    intro x
    rw [decodeS, hop]
    simp only [fx_digit ds 0 0 13 0 rfl rfl rfl, fld_digit a ds 1 13 rfl rfl, fld_digit d ds 2 18 rfl rfl,
      fld_digit g ds 3 23 rfl rfl, if_true]
  refine rt_word ds rfl rfl (by simp only [sum_nil, sum_cons, ds, digits_nil, digits_cons]; omega) rfl (by rw [hasExt, hop]; cases sl <;> rfl)
    (fun x => (decodeSlot_s sl _ x).trans (dec x))

/-- `.cpy` and its word. -/
theorem RoundTrip.cpy (sl : SSlot) (g : BitVec 3) (d : BitVec 5) (a : BitVec 5) (f : BitVec 3) : RoundTrip.Statement (.cpy sl g d a f) := by
  have hg := g.isLt; have hd := d.isLt; have ha := a.isLt; have hf := f.isLt
  let ds : List (Nat × Nat) := [(f.toNat, 3), (0, 10), (a.toNat, 5), (d.toNat, 5), (g.toNat, 3), (27, 6)]
  have hop : digits ds / 2 ^ 26 = 27 := digits_top (l := ds) (k := 5) rfl rfl
  have dec : ∀ x : Nat, decodeS sl (digits ds) x = checked (.cpy sl g d a f) := by
    intro x
    rw [decodeS, hop]
    simp only [fx_digit ds 1 3 10 0 rfl rfl rfl, fld_digit f ds 0 0 rfl rfl, fld_digit a ds 2 13 rfl rfl,
      fld_digit d ds 3 18 rfl rfl, fld_digit g ds 4 23 rfl rfl, if_true]
  refine rt_word ds rfl rfl (by simp only [sum_nil, sum_cons, ds, digits_nil, digits_cons]; omega) rfl (by rw [hasExt, hop]; cases sl <;> rfl)
    (fun x => (decodeSlot_s sl _ x).trans (dec x))

/-- `.cpyCommon` and its word. -/
theorem RoundTrip.cpyCommon (sl : SSlot) (g : BitVec 3) (d : BitVec 5) (a : BitVec 5) (p : BitVec 2) (f : BitVec 3) : RoundTrip.Statement (.cpyCommon sl g d a p f) := by
  have hg := g.isLt; have hd := d.isLt; have ha := a.isLt; have hp := p.isLt
  have hf := f.isLt
  let ds : List (Nat × Nat) := [(f.toNat, 3), (1, 1), (p.toNat, 2), (0, 7), (a.toNat, 5), (d.toNat, 5), (g.toNat, 3), (27, 6)]
  have hop : digits ds / 2 ^ 26 = 27 := digits_top (l := ds) (k := 7) rfl rfl
  have dec : ∀ x : Nat, decodeS sl (digits ds) x = checked (.cpyCommon sl g d a p f) := by
    intro x
    rw [decodeS, hop]
    simp only [fx_not (digits ds) 3 10 0 (by simp only [ds, digits_nil, digits_cons]; omega), fx_digit ds 1 3 1 1 rfl rfl rfl,
      fx_digit ds 3 6 7 0 rfl rfl rfl, fld_digit f ds 0 0 rfl rfl, fld_digit p ds 2 4 rfl rfl,
      fld_digit a ds 4 13 rfl rfl, fld_digit d ds 5 18 rfl rfl, fld_digit g ds 6 23 rfl rfl, Bool.false_eq_true,
      if_false, Bool.and_self, if_true]
  refine rt_word ds rfl rfl (by simp only [sum_nil, sum_cons, ds, digits_nil, digits_cons]; omega) rfl (by rw [hasExt, hop]; cases sl <;> rfl)
    (fun x => (decodeSlot_s sl _ x).trans (dec x))

/-- `.vadd` and its word. -/
theorem RoundTrip.vadd (sl : VSlot) (g : BitVec 3) (d : BitVec 4) (a : BitVec 4) (b : BitVec 4) (k : BitVec 3) (t : BitVec 4) : RoundTrip.Statement (.vadd sl g d a b k t) := by
  have hg := g.isLt; have hd := d.isLt; have ha := a.isLt; have hb := b.isLt
  have hk := k.isLt; have ht := t.isLt
  let ds : List (Nat × Nat) := [(t.toNat, 4), (k.toNat, 3), (0, 4), (b.toNat, 4), (a.toNat, 4), (d.toNat, 4), (g.toNat, 3), (0, 6)]
  have hop : digits ds / 2 ^ 26 = 0 := digits_top (l := ds) (k := 7) rfl rfl
  have dec : decodeV sl (digits ds) = checked (.vadd sl g d a b k t) := by
    rw [decodeV, hop]
    simp only [fx_digit ds 2 7 4 0 rfl rfl rfl, fld_digit t ds 0 0 rfl rfl, fld_digit k ds 1 4 rfl rfl,
      fld_digit b ds 3 11 rfl rfl, fld_digit a ds 4 15 rfl rfl, fld_digit d ds 5 19 rfl rfl,
      fld_digit g ds 6 23 rfl rfl, if_true]
  refine rt_word ds rfl rfl (by simp only [sum_nil, sum_cons, ds, digits_nil, digits_cons]; omega) rfl (by rw [hasExt, hop]; cases sl <;> rfl)
    (fun x => (decodeSlot_v sl _ x).trans dec)

/-- `.vsub` and its word. -/
theorem RoundTrip.vsub (sl : VSlot) (g : BitVec 3) (d : BitVec 4) (a : BitVec 4) (b : BitVec 4) (k : BitVec 3) (t : BitVec 4) : RoundTrip.Statement (.vsub sl g d a b k t) := by
  have hg := g.isLt; have hd := d.isLt; have ha := a.isLt; have hb := b.isLt
  have hk := k.isLt; have ht := t.isLt
  let ds : List (Nat × Nat) := [(t.toNat, 4), (k.toNat, 3), (0, 4), (b.toNat, 4), (a.toNat, 4), (d.toNat, 4), (g.toNat, 3), (1, 6)]
  have hop : digits ds / 2 ^ 26 = 1 := digits_top (l := ds) (k := 7) rfl rfl
  have dec : decodeV sl (digits ds) = checked (.vsub sl g d a b k t) := by
    rw [decodeV, hop]
    simp only [fx_digit ds 2 7 4 0 rfl rfl rfl, fld_digit t ds 0 0 rfl rfl, fld_digit k ds 1 4 rfl rfl,
      fld_digit b ds 3 11 rfl rfl, fld_digit a ds 4 15 rfl rfl, fld_digit d ds 5 19 rfl rfl,
      fld_digit g ds 6 23 rfl rfl, if_true]
  refine rt_word ds rfl rfl (by simp only [sum_nil, sum_cons, ds, digits_nil, digits_cons]; omega) rfl (by rw [hasExt, hop]; cases sl <;> rfl)
    (fun x => (decodeSlot_v sl _ x).trans dec)

/-- `.vmul` and its word. -/
theorem RoundTrip.vmul (sl : VSlot) (g : BitVec 3) (d : BitVec 4) (a : BitVec 4) (b : BitVec 4) (k : BitVec 3) (t : BitVec 4) : RoundTrip.Statement (.vmul sl g d a b k t) := by
  have hg := g.isLt; have hd := d.isLt; have ha := a.isLt; have hb := b.isLt
  have hk := k.isLt; have ht := t.isLt
  let ds : List (Nat × Nat) := [(t.toNat, 4), (k.toNat, 3), (0, 4), (b.toNat, 4), (a.toNat, 4), (d.toNat, 4), (g.toNat, 3), (2, 6)]
  have hop : digits ds / 2 ^ 26 = 2 := digits_top (l := ds) (k := 7) rfl rfl
  have dec : decodeV sl (digits ds) = checked (.vmul sl g d a b k t) := by
    rw [decodeV, hop]
    simp only [fx_digit ds 2 7 4 0 rfl rfl rfl, fld_digit t ds 0 0 rfl rfl, fld_digit k ds 1 4 rfl rfl,
      fld_digit b ds 3 11 rfl rfl, fld_digit a ds 4 15 rfl rfl, fld_digit d ds 5 19 rfl rfl,
      fld_digit g ds 6 23 rfl rfl, if_true]
  refine rt_word ds rfl rfl (by simp only [sum_nil, sum_cons, ds, digits_nil, digits_cons]; omega) rfl (by rw [hasExt, hop]; cases sl <;> rfl)
    (fun x => (decodeSlot_v sl _ x).trans dec)

/-- `.vmad` and its word. -/
theorem RoundTrip.vmad (sl : VSlot) (g : BitVec 3) (d : BitVec 4) (a : BitVec 4) (b : BitVec 4) (k : BitVec 3) (t : BitVec 4) : RoundTrip.Statement (.vmad sl g d a b k t) := by
  have hg := g.isLt; have hd := d.isLt; have ha := a.isLt; have hb := b.isLt
  have hk := k.isLt; have ht := t.isLt
  let ds : List (Nat × Nat) := [(t.toNat, 4), (k.toNat, 3), (0, 4), (b.toNat, 4), (a.toNat, 4), (d.toNat, 4), (g.toNat, 3), (3, 6)]
  have hop : digits ds / 2 ^ 26 = 3 := digits_top (l := ds) (k := 7) rfl rfl
  have dec : decodeV sl (digits ds) = checked (.vmad sl g d a b k t) := by
    rw [decodeV, hop]
    simp only [fx_digit ds 2 7 4 0 rfl rfl rfl, fld_digit t ds 0 0 rfl rfl, fld_digit k ds 1 4 rfl rfl,
      fld_digit b ds 3 11 rfl rfl, fld_digit a ds 4 15 rfl rfl, fld_digit d ds 5 19 rfl rfl,
      fld_digit g ds 6 23 rfl rfl, if_true]
  refine rt_word ds rfl rfl (by simp only [sum_nil, sum_cons, ds, digits_nil, digits_cons]; omega) rfl (by rw [hasExt, hop]; cases sl <;> rfl)
    (fun x => (decodeSlot_v sl _ x).trans dec)

/-- `.vmin` and its word. -/
theorem RoundTrip.vmin (sl : VSlot) (g : BitVec 3) (d : BitVec 4) (a : BitVec 4) (b : BitVec 4) (k : BitVec 3) (t : BitVec 4) : RoundTrip.Statement (.vmin sl g d a b k t) := by
  have hg := g.isLt; have hd := d.isLt; have ha := a.isLt; have hb := b.isLt
  have hk := k.isLt; have ht := t.isLt
  let ds : List (Nat × Nat) := [(t.toNat, 4), (k.toNat, 3), (0, 4), (b.toNat, 4), (a.toNat, 4), (d.toNat, 4), (g.toNat, 3), (4, 6)]
  have hop : digits ds / 2 ^ 26 = 4 := digits_top (l := ds) (k := 7) rfl rfl
  have dec : decodeV sl (digits ds) = checked (.vmin sl g d a b k t) := by
    rw [decodeV, hop]
    simp only [fx_digit ds 2 7 4 0 rfl rfl rfl, fld_digit t ds 0 0 rfl rfl, fld_digit k ds 1 4 rfl rfl,
      fld_digit b ds 3 11 rfl rfl, fld_digit a ds 4 15 rfl rfl, fld_digit d ds 5 19 rfl rfl,
      fld_digit g ds 6 23 rfl rfl, if_true]
  refine rt_word ds rfl rfl (by simp only [sum_nil, sum_cons, ds, digits_nil, digits_cons]; omega) rfl (by rw [hasExt, hop]; cases sl <;> rfl)
    (fun x => (decodeSlot_v sl _ x).trans dec)

/-- `.vmax` and its word. -/
theorem RoundTrip.vmax (sl : VSlot) (g : BitVec 3) (d : BitVec 4) (a : BitVec 4) (b : BitVec 4) (k : BitVec 3) (t : BitVec 4) : RoundTrip.Statement (.vmax sl g d a b k t) := by
  have hg := g.isLt; have hd := d.isLt; have ha := a.isLt; have hb := b.isLt
  have hk := k.isLt; have ht := t.isLt
  let ds : List (Nat × Nat) := [(t.toNat, 4), (k.toNat, 3), (0, 4), (b.toNat, 4), (a.toNat, 4), (d.toNat, 4), (g.toNat, 3), (5, 6)]
  have hop : digits ds / 2 ^ 26 = 5 := digits_top (l := ds) (k := 7) rfl rfl
  have dec : decodeV sl (digits ds) = checked (.vmax sl g d a b k t) := by
    rw [decodeV, hop]
    simp only [fx_digit ds 2 7 4 0 rfl rfl rfl, fld_digit t ds 0 0 rfl rfl, fld_digit k ds 1 4 rfl rfl,
      fld_digit b ds 3 11 rfl rfl, fld_digit a ds 4 15 rfl rfl, fld_digit d ds 5 19 rfl rfl,
      fld_digit g ds 6 23 rfl rfl, if_true]
  refine rt_word ds rfl rfl (by simp only [sum_nil, sum_cons, ds, digits_nil, digits_cons]; omega) rfl (by rw [hasExt, hop]; cases sl <;> rfl)
    (fun x => (decodeSlot_v sl _ x).trans dec)

/-- `.vabs` and its word. -/
theorem RoundTrip.vabs (sl : VSlot) (g : BitVec 3) (d : BitVec 4) (a : BitVec 4) (k : BitVec 3) (t : BitVec 4) : RoundTrip.Statement (.vabs sl g d a k t) := by
  have hg := g.isLt; have hd := d.isLt; have ha := a.isLt; have hk := k.isLt
  have ht := t.isLt
  let ds : List (Nat × Nat) := [(t.toNat, 4), (k.toNat, 3), (0, 8), (a.toNat, 4), (d.toNat, 4), (g.toNat, 3), (6, 6)]
  have hop : digits ds / 2 ^ 26 = 6 := digits_top (l := ds) (k := 6) rfl rfl
  have dec : decodeV sl (digits ds) = checked (.vabs sl g d a k t) := by
    rw [decodeV, hop]
    simp only [fx_digit ds 2 7 8 0 rfl rfl rfl, fld_digit t ds 0 0 rfl rfl, fld_digit k ds 1 4 rfl rfl,
      fld_digit a ds 3 15 rfl rfl, fld_digit d ds 4 19 rfl rfl, fld_digit g ds 5 23 rfl rfl, if_true]
  refine rt_word ds rfl rfl (by simp only [sum_nil, sum_cons, ds, digits_nil, digits_cons]; omega) rfl (by rw [hasExt, hop]; cases sl <;> rfl)
    (fun x => (decodeSlot_v sl _ x).trans dec)

/-- `.vand` and its word. -/
theorem RoundTrip.vand (sl : VSlot) (g : BitVec 3) (d : BitVec 4) (a : BitVec 4) (b : BitVec 4) (k : BitVec 3) (t : BitVec 4) : RoundTrip.Statement (.vand sl g d a b k t) := by
  have hg := g.isLt; have hd := d.isLt; have ha := a.isLt; have hb := b.isLt
  have hk := k.isLt; have ht := t.isLt
  let ds : List (Nat × Nat) := [(t.toNat, 4), (k.toNat, 3), (0, 4), (b.toNat, 4), (a.toNat, 4), (d.toNat, 4), (g.toNat, 3), (7, 6)]
  have hop : digits ds / 2 ^ 26 = 7 := digits_top (l := ds) (k := 7) rfl rfl
  have dec : decodeV sl (digits ds) = checked (.vand sl g d a b k t) := by
    rw [decodeV, hop]
    simp only [fx_digit ds 2 7 4 0 rfl rfl rfl, fld_digit t ds 0 0 rfl rfl, fld_digit k ds 1 4 rfl rfl,
      fld_digit b ds 3 11 rfl rfl, fld_digit a ds 4 15 rfl rfl, fld_digit d ds 5 19 rfl rfl,
      fld_digit g ds 6 23 rfl rfl, if_true]
  refine rt_word ds rfl rfl (by simp only [sum_nil, sum_cons, ds, digits_nil, digits_cons]; omega) rfl (by rw [hasExt, hop]; cases sl <;> rfl)
    (fun x => (decodeSlot_v sl _ x).trans dec)

/-- `.vor` and its word. -/
theorem RoundTrip.vor (sl : VSlot) (g : BitVec 3) (d : BitVec 4) (a : BitVec 4) (b : BitVec 4) (k : BitVec 3) (t : BitVec 4) : RoundTrip.Statement (.vor sl g d a b k t) := by
  have hg := g.isLt; have hd := d.isLt; have ha := a.isLt; have hb := b.isLt
  have hk := k.isLt; have ht := t.isLt
  let ds : List (Nat × Nat) := [(t.toNat, 4), (k.toNat, 3), (0, 4), (b.toNat, 4), (a.toNat, 4), (d.toNat, 4), (g.toNat, 3), (8, 6)]
  have hop : digits ds / 2 ^ 26 = 8 := digits_top (l := ds) (k := 7) rfl rfl
  have dec : decodeV sl (digits ds) = checked (.vor sl g d a b k t) := by
    rw [decodeV, hop]
    simp only [fx_digit ds 2 7 4 0 rfl rfl rfl, fld_digit t ds 0 0 rfl rfl, fld_digit k ds 1 4 rfl rfl,
      fld_digit b ds 3 11 rfl rfl, fld_digit a ds 4 15 rfl rfl, fld_digit d ds 5 19 rfl rfl,
      fld_digit g ds 6 23 rfl rfl, if_true]
  refine rt_word ds rfl rfl (by simp only [sum_nil, sum_cons, ds, digits_nil, digits_cons]; omega) rfl (by rw [hasExt, hop]; cases sl <;> rfl)
    (fun x => (decodeSlot_v sl _ x).trans dec)

/-- `.vxor` and its word. -/
theorem RoundTrip.vxor (sl : VSlot) (g : BitVec 3) (d : BitVec 4) (a : BitVec 4) (b : BitVec 4) (k : BitVec 3) (t : BitVec 4) : RoundTrip.Statement (.vxor sl g d a b k t) := by
  have hg := g.isLt; have hd := d.isLt; have ha := a.isLt; have hb := b.isLt
  have hk := k.isLt; have ht := t.isLt
  let ds : List (Nat × Nat) := [(t.toNat, 4), (k.toNat, 3), (0, 4), (b.toNat, 4), (a.toNat, 4), (d.toNat, 4), (g.toNat, 3), (9, 6)]
  have hop : digits ds / 2 ^ 26 = 9 := digits_top (l := ds) (k := 7) rfl rfl
  have dec : decodeV sl (digits ds) = checked (.vxor sl g d a b k t) := by
    rw [decodeV, hop]
    simp only [fx_digit ds 2 7 4 0 rfl rfl rfl, fld_digit t ds 0 0 rfl rfl, fld_digit k ds 1 4 rfl rfl,
      fld_digit b ds 3 11 rfl rfl, fld_digit a ds 4 15 rfl rfl, fld_digit d ds 5 19 rfl rfl,
      fld_digit g ds 6 23 rfl rfl, if_true]
  refine rt_word ds rfl rfl (by simp only [sum_nil, sum_cons, ds, digits_nil, digits_cons]; omega) rfl (by rw [hasExt, hop]; cases sl <;> rfl)
    (fun x => (decodeSlot_v sl _ x).trans dec)

/-- `.vshl` and its word. -/
theorem RoundTrip.vshl (sl : VSlot) (g : BitVec 3) (d : BitVec 4) (a : BitVec 4) (b : BitVec 4) (k : BitVec 3) (t : BitVec 4) : RoundTrip.Statement (.vshl sl g d a b k t) := by
  have hg := g.isLt; have hd := d.isLt; have ha := a.isLt; have hb := b.isLt
  have hk := k.isLt; have ht := t.isLt
  let ds : List (Nat × Nat) := [(t.toNat, 4), (k.toNat, 3), (0, 4), (b.toNat, 4), (a.toNat, 4), (d.toNat, 4), (g.toNat, 3), (10, 6)]
  have hop : digits ds / 2 ^ 26 = 10 := digits_top (l := ds) (k := 7) rfl rfl
  have dec : decodeV sl (digits ds) = checked (.vshl sl g d a b k t) := by
    rw [decodeV, hop]
    simp only [fx_digit ds 2 7 4 0 rfl rfl rfl, fld_digit t ds 0 0 rfl rfl, fld_digit k ds 1 4 rfl rfl,
      fld_digit b ds 3 11 rfl rfl, fld_digit a ds 4 15 rfl rfl, fld_digit d ds 5 19 rfl rfl,
      fld_digit g ds 6 23 rfl rfl, if_true]
  refine rt_word ds rfl rfl (by simp only [sum_nil, sum_cons, ds, digits_nil, digits_cons]; omega) rfl (by rw [hasExt, hop]; cases sl <;> rfl)
    (fun x => (decodeSlot_v sl _ x).trans dec)

/-- `.vshr` and its word. -/
theorem RoundTrip.vshr (sl : VSlot) (g : BitVec 3) (d : BitVec 4) (a : BitVec 4) (b : BitVec 4) (k : BitVec 3) (t : BitVec 4) : RoundTrip.Statement (.vshr sl g d a b k t) := by
  have hg := g.isLt; have hd := d.isLt; have ha := a.isLt; have hb := b.isLt
  have hk := k.isLt; have ht := t.isLt
  let ds : List (Nat × Nat) := [(t.toNat, 4), (k.toNat, 3), (0, 4), (b.toNat, 4), (a.toNat, 4), (d.toNat, 4), (g.toNat, 3), (11, 6)]
  have hop : digits ds / 2 ^ 26 = 11 := digits_top (l := ds) (k := 7) rfl rfl
  have dec : decodeV sl (digits ds) = checked (.vshr sl g d a b k t) := by
    rw [decodeV, hop]
    simp only [fx_digit ds 2 7 4 0 rfl rfl rfl, fld_digit t ds 0 0 rfl rfl, fld_digit k ds 1 4 rfl rfl,
      fld_digit b ds 3 11 rfl rfl, fld_digit a ds 4 15 rfl rfl, fld_digit d ds 5 19 rfl rfl,
      fld_digit g ds 6 23 rfl rfl, if_true]
  refine rt_word ds rfl rfl (by simp only [sum_nil, sum_cons, ds, digits_nil, digits_cons]; omega) rfl (by rw [hasExt, hop]; cases sl <;> rfl)
    (fun x => (decodeSlot_v sl _ x).trans dec)

/-- `.vcmp` and its word. -/
theorem RoundTrip.vcmp (sl : VSlot) (g : BitVec 3) (d : BitVec 3) (a : BitVec 4) (b : BitVec 4) (c : BitVec 4) (k : BitVec 3) (t : BitVec 4) : RoundTrip.Statement (.vcmp sl g d a b c k t) := by
  have hg := g.isLt; have hd := d.isLt; have ha := a.isLt; have hb := b.isLt
  have hc := c.isLt; have hk := k.isLt; have ht := t.isLt
  let ds : List (Nat × Nat) := [(t.toNat, 4), (k.toNat, 3), (c.toNat, 4), (b.toNat, 4), (a.toNat, 4), (d.toNat, 3), (0, 1), (g.toNat, 3), (12, 6)]
  have hop : digits ds / 2 ^ 26 = 12 := digits_top (l := ds) (k := 8) rfl rfl
  have dec : decodeV sl (digits ds) = checked (.vcmp sl g d a b c k t) := by
    rw [decodeV, hop]
    simp only [fx_digit ds 6 22 1 0 rfl rfl rfl, fld_digit t ds 0 0 rfl rfl, fld_digit k ds 1 4 rfl rfl,
      fld_digit c ds 2 7 rfl rfl, fld_digit b ds 3 11 rfl rfl, fld_digit a ds 4 15 rfl rfl,
      fld_digit d ds 5 19 rfl rfl, fld_digit g ds 7 23 rfl rfl, if_true]
  refine rt_word ds rfl rfl (by simp only [sum_nil, sum_cons, ds, digits_nil, digits_cons]; omega) rfl (by rw [hasExt, hop]; cases sl <;> rfl)
    (fun x => (decodeSlot_v sl _ x).trans dec)

/-- `.vsel` and its word. -/
theorem RoundTrip.vsel (sl : VSlot) (g : BitVec 3) (d : BitVec 4) (a : BitVec 4) (b : BitVec 4) (k : BitVec 3) (t : BitVec 4) : RoundTrip.Statement (.vsel sl g d a b k t) := by
  have hg := g.isLt; have hd := d.isLt; have ha := a.isLt; have hb := b.isLt
  have hk := k.isLt; have ht := t.isLt
  let ds : List (Nat × Nat) := [(t.toNat, 4), (k.toNat, 3), (0, 4), (b.toNat, 4), (a.toNat, 4), (d.toNat, 4), (g.toNat, 3), (13, 6)]
  have hop : digits ds / 2 ^ 26 = 13 := digits_top (l := ds) (k := 7) rfl rfl
  have dec : decodeV sl (digits ds) = checked (.vsel sl g d a b k t) := by
    rw [decodeV, hop]
    simp only [fx_digit ds 2 7 4 0 rfl rfl rfl, fld_digit t ds 0 0 rfl rfl, fld_digit k ds 1 4 rfl rfl,
      fld_digit b ds 3 11 rfl rfl, fld_digit a ds 4 15 rfl rfl, fld_digit d ds 5 19 rfl rfl,
      fld_digit g ds 6 23 rfl rfl, if_true]
  refine rt_word ds rfl rfl (by simp only [sum_nil, sum_cons, ds, digits_nil, digits_cons]; omega) rfl (by rw [hasExt, hop]; cases sl <;> rfl)
    (fun x => (decodeSlot_v sl _ x).trans dec)

/-- `.vred` and its word. -/
theorem RoundTrip.vred (sl : VSlot) (g : BitVec 3) (d : BitVec 4) (a : BitVec 4) (c : BitVec 4) (k : BitVec 3) (t : BitVec 4) : RoundTrip.Statement (.vred sl g d a c k t) := by
  have hg := g.isLt; have hd := d.isLt; have ha := a.isLt; have hc := c.isLt
  have hk := k.isLt; have ht := t.isLt
  let ds : List (Nat × Nat) := [(t.toNat, 4), (k.toNat, 3), (c.toNat, 4), (0, 4), (a.toNat, 4), (d.toNat, 4), (g.toNat, 3), (14, 6)]
  have hop : digits ds / 2 ^ 26 = 14 := digits_top (l := ds) (k := 7) rfl rfl
  have dec : decodeV sl (digits ds) = checked (.vred sl g d a c k t) := by
    rw [decodeV, hop]
    simp only [fx_digit ds 3 11 4 0 rfl rfl rfl, fld_digit t ds 0 0 rfl rfl, fld_digit k ds 1 4 rfl rfl,
      fld_digit c ds 2 7 rfl rfl, fld_digit a ds 4 15 rfl rfl, fld_digit d ds 5 19 rfl rfl,
      fld_digit g ds 6 23 rfl rfl, if_true]
  refine rt_word ds rfl rfl (by simp only [sum_nil, sum_cons, ds, digits_nil, digits_cons]; omega) rfl (by rw [hasExt, hop]; cases sl <;> rfl)
    (fun x => (decodeSlot_v sl _ x).trans dec)

/-- `.vscan` and its word. -/
theorem RoundTrip.vscan (sl : VSlot) (g : BitVec 3) (d : BitVec 4) (a : BitVec 4) (c : BitVec 4) (k : BitVec 3) (t : BitVec 4) : RoundTrip.Statement (.vscan sl g d a c k t) := by
  have hg := g.isLt; have hd := d.isLt; have ha := a.isLt; have hc := c.isLt
  have hk := k.isLt; have ht := t.isLt
  let ds : List (Nat × Nat) := [(t.toNat, 4), (k.toNat, 3), (c.toNat, 4), (0, 4), (a.toNat, 4), (d.toNat, 4), (g.toNat, 3), (15, 6)]
  have hop : digits ds / 2 ^ 26 = 15 := digits_top (l := ds) (k := 7) rfl rfl
  have dec : decodeV sl (digits ds) = checked (.vscan sl g d a c k t) := by
    rw [decodeV, hop]
    simp only [fx_digit ds 3 11 4 0 rfl rfl rfl, fld_digit t ds 0 0 rfl rfl, fld_digit k ds 1 4 rfl rfl,
      fld_digit c ds 2 7 rfl rfl, fld_digit a ds 4 15 rfl rfl, fld_digit d ds 5 19 rfl rfl,
      fld_digit g ds 6 23 rfl rfl, if_true]
  refine rt_word ds rfl rfl (by simp only [sum_nil, sum_cons, ds, digits_nil, digits_cons]; omega) rfl (by rw [hasExt, hop]; cases sl <;> rfl)
    (fun x => (decodeSlot_v sl _ x).trans dec)

/-- `.vhist` and its word. -/
theorem RoundTrip.vhist (sl : VSlot) (g : BitVec 3) (d : BitVec 4) (a : BitVec 4) (k : BitVec 3) (t : BitVec 4) : RoundTrip.Statement (.vhist sl g d a k t) := by
  have hg := g.isLt; have hd := d.isLt; have ha := a.isLt; have hk := k.isLt
  have ht := t.isLt
  let ds : List (Nat × Nat) := [(t.toNat, 4), (k.toNat, 3), (0, 8), (a.toNat, 4), (d.toNat, 4), (g.toNat, 3), (16, 6)]
  have hop : digits ds / 2 ^ 26 = 16 := digits_top (l := ds) (k := 6) rfl rfl
  have dec : decodeV sl (digits ds) = checked (.vhist sl g d a k t) := by
    rw [decodeV, hop]
    simp only [fx_digit ds 2 7 8 0 rfl rfl rfl, fld_digit t ds 0 0 rfl rfl, fld_digit k ds 1 4 rfl rfl,
      fld_digit a ds 3 15 rfl rfl, fld_digit d ds 4 19 rfl rfl, fld_digit g ds 5 23 rfl rfl, if_true]
  refine rt_word ds rfl rfl (by simp only [sum_nil, sum_cons, ds, digits_nil, digits_cons]; omega) rfl (by rw [hasExt, hop]; cases sl <;> rfl)
    (fun x => (decodeSlot_v sl _ x).trans dec)

/-- `.vtopk` and its word. -/
theorem RoundTrip.vtopk (sl : VSlot) (g : BitVec 3) (d : BitVec 4) (a : BitVec 4) (c : BitVec 4) (k : BitVec 3) (t : BitVec 4) : RoundTrip.Statement (.vtopk sl g d a c k t) := by
  have hg := g.isLt; have hd := d.isLt; have ha := a.isLt; have hc := c.isLt
  have hk := k.isLt; have ht := t.isLt
  let ds : List (Nat × Nat) := [(t.toNat, 4), (k.toNat, 3), (c.toNat, 4), (0, 4), (a.toNat, 4), (d.toNat, 4), (g.toNat, 3), (17, 6)]
  have hop : digits ds / 2 ^ 26 = 17 := digits_top (l := ds) (k := 7) rfl rfl
  have dec : decodeV sl (digits ds) = checked (.vtopk sl g d a c k t) := by
    rw [decodeV, hop]
    simp only [fx_digit ds 3 11 4 0 rfl rfl rfl, fld_digit t ds 0 0 rfl rfl, fld_digit k ds 1 4 rfl rfl,
      fld_digit c ds 2 7 rfl rfl, fld_digit a ds 4 15 rfl rfl, fld_digit d ds 5 19 rfl rfl,
      fld_digit g ds 6 23 rfl rfl, if_true]
  refine rt_word ds rfl rfl (by simp only [sum_nil, sum_cons, ds, digits_nil, digits_cons]; omega) rfl (by rw [hasExt, hop]; cases sl <;> rfl)
    (fun x => (decodeSlot_v sl _ x).trans dec)

/-- `.vcvt` and its word. -/
theorem RoundTrip.vcvt (sl : VSlot) (g : BitVec 3) (d : BitVec 4) (a : BitVec 4) (s : BitVec 4) (k : BitVec 3) (t : BitVec 4) : RoundTrip.Statement (.vcvt sl g d a s k t) := by
  have hg := g.isLt; have hd := d.isLt; have ha := a.isLt; have hs := s.isLt
  have hk := k.isLt; have ht := t.isLt
  let ds : List (Nat × Nat) := [(t.toNat, 4), (k.toNat, 3), (s.toNat, 4), (0, 4), (a.toNat, 4), (d.toNat, 4), (g.toNat, 3), (18, 6)]
  have hop : digits ds / 2 ^ 26 = 18 := digits_top (l := ds) (k := 7) rfl rfl
  have dec : decodeV sl (digits ds) = checked (.vcvt sl g d a s k t) := by
    rw [decodeV, hop]
    simp only [fx_digit ds 3 11 4 0 rfl rfl rfl, fld_digit t ds 0 0 rfl rfl, fld_digit k ds 1 4 rfl rfl,
      fld_digit s ds 2 7 rfl rfl, fld_digit a ds 4 15 rfl rfl, fld_digit d ds 5 19 rfl rfl,
      fld_digit g ds 6 23 rfl rfl, if_true]
  refine rt_word ds rfl rfl (by simp only [sum_nil, sum_cons, ds, digits_nil, digits_cons]; omega) rfl (by rw [hasExt, hop]; cases sl <;> rfl)
    (fun x => (decodeSlot_v sl _ x).trans dec)

/-- `.vbcast` and its word. -/
theorem RoundTrip.vbcast (sl : VSlot) (g : BitVec 3) (d : BitVec 4) (r : BitVec 5) (p : BitVec 2) (k : BitVec 3) (t : BitVec 4) : RoundTrip.Statement (.vbcast sl g d r p k t) := by
  have hg := g.isLt; have hd := d.isLt; have hr := r.isLt; have hp := p.isLt
  have hk := k.isLt; have ht := t.isLt
  let ds : List (Nat × Nat) := [(t.toNat, 4), (k.toNat, 3), (0, 5), (p.toNat, 2), (r.toNat, 5), (d.toNat, 4), (g.toNat, 3), (19, 6)]
  have hop : digits ds / 2 ^ 26 = 19 := digits_top (l := ds) (k := 7) rfl rfl
  have dec : decodeV sl (digits ds) = checked (.vbcast sl g d r p k t) := by
    rw [decodeV, hop]
    simp only [fx_digit ds 2 7 5 0 rfl rfl rfl, fld_digit t ds 0 0 rfl rfl, fld_digit k ds 1 4 rfl rfl,
      fld_digit p ds 3 12 rfl rfl, fld_digit r ds 4 14 rfl rfl, fld_digit d ds 5 19 rfl rfl,
      fld_digit g ds 6 23 rfl rfl, if_true]
  refine rt_word ds rfl rfl (by simp only [sum_nil, sum_cons, ds, digits_nil, digits_cons]; omega) rfl (by rw [hasExt, hop]; cases sl <;> rfl)
    (fun x => (decodeSlot_v sl _ x).trans dec)

/-- `.vmov` and its word. -/
theorem RoundTrip.vmov (sl : VSlot) (g : BitVec 3) (d : BitVec 4) (a : BitVec 4) (f : BitVec 4) (k : BitVec 3) (t : BitVec 4) : RoundTrip.Statement (.vmov sl g d a f k t) := by
  have hg := g.isLt; have hd := d.isLt; have ha := a.isLt; have hf := f.isLt
  have hk := k.isLt; have ht := t.isLt
  let ds : List (Nat × Nat) := [(t.toNat, 4), (k.toNat, 3), (f.toNat, 4), (0, 4), (a.toNat, 4), (d.toNat, 4), (g.toNat, 3), (20, 6)]
  have hop : digits ds / 2 ^ 26 = 20 := digits_top (l := ds) (k := 7) rfl rfl
  have dec : decodeV sl (digits ds) = checked (.vmov sl g d a f k t) := by
    rw [decodeV, hop]
    simp only [fx_digit ds 3 11 4 0 rfl rfl rfl, fld_digit t ds 0 0 rfl rfl, fld_digit k ds 1 4 rfl rfl,
      fld_digit f ds 2 7 rfl rfl, fld_digit a ds 4 15 rfl rfl, fld_digit d ds 5 19 rfl rfl,
      fld_digit g ds 6 23 rfl rfl, if_true]
  refine rt_word ds rfl rfl (by simp only [sum_nil, sum_cons, ds, digits_nil, digits_cons]; omega) rfl (by rw [hasExt, hop]; cases sl <;> rfl)
    (fun x => (decodeSlot_v sl _ x).trans dec)

/-- `.vkop` and its word. -/
theorem RoundTrip.vkop (sl : VSlot) (g : BitVec 3) (d : BitVec 3) (a : BitVec 3) (b : BitVec 3) (c : BitVec 4) : RoundTrip.Statement (.vkop sl g d a b c) := by
  have hg := g.isLt; have hd := d.isLt; have ha := a.isLt; have hb := b.isLt
  have hc := c.isLt
  let ds : List (Nat × Nat) := [(0, 7), (c.toNat, 4), (b.toNat, 3), (0, 1), (a.toNat, 3), (0, 1), (d.toNat, 3), (0, 1), (g.toNat, 3), (21, 6)]
  have hop : digits ds / 2 ^ 26 = 21 := digits_top (l := ds) (k := 9) rfl rfl
  have dec : decodeV sl (digits ds) = checked (.vkop sl g d a b c) := by
    rw [decodeV, hop]
    simp only [fx_digit ds 0 0 7 0 rfl rfl rfl, fx_digit ds 3 14 1 0 rfl rfl rfl, fx_digit ds 5 18 1 0 rfl rfl rfl,
      fx_digit ds 7 22 1 0 rfl rfl rfl, fld_digit c ds 1 7 rfl rfl, fld_digit b ds 2 11 rfl rfl,
      fld_digit a ds 4 15 rfl rfl, fld_digit d ds 6 19 rfl rfl, fld_digit g ds 8 23 rfl rfl, Bool.and_self, if_true]
  refine rt_word ds rfl rfl (by simp only [sum_nil, sum_cons, ds, digits_nil, digits_cons]; omega) rfl (by rw [hasExt, hop]; cases sl <;> rfl)
    (fun x => (decodeSlot_v sl _ x).trans dec)

/-- `.vcnt` and its word. -/
theorem RoundTrip.vcnt (sl : VSlot) (g : BitVec 3) (d : BitVec 4) (k : BitVec 3) (t : BitVec 4) : RoundTrip.Statement (.vcnt sl g d k t) := by
  have hg := g.isLt; have hd := d.isLt; have hk := k.isLt; have ht := t.isLt
  let ds : List (Nat × Nat) := [(t.toNat, 4), (k.toNat, 3), (0, 12), (d.toNat, 4), (g.toNat, 3), (22, 6)]
  have hop : digits ds / 2 ^ 26 = 22 := digits_top (l := ds) (k := 5) rfl rfl
  have dec : decodeV sl (digits ds) = checked (.vcnt sl g d k t) := by
    rw [decodeV, hop]
    simp only [fx_digit ds 2 7 12 0 rfl rfl rfl, fld_digit t ds 0 0 rfl rfl, fld_digit k ds 1 4 rfl rfl,
      fld_digit d ds 3 19 rfl rfl, fld_digit g ds 4 23 rfl rfl, if_true]
  refine rt_word ds rfl rfl (by simp only [sum_nil, sum_cons, ds, digits_nil, digits_cons]; omega) rfl (by rw [hasExt, hop]; cases sl <;> rfl)
    (fun x => (decodeSlot_v sl _ x).trans dec)

/-- `.vpop` and its word. -/
theorem RoundTrip.vpop (sl : VSlot) (g : BitVec 3) (d : BitVec 4) (q : BitVec 3) (k : BitVec 3) (t : BitVec 4) : RoundTrip.Statement (.vpop sl g d q k t) := by
  have hg := g.isLt; have hd := d.isLt; have hq := q.isLt; have hk := k.isLt
  have ht := t.isLt
  let ds : List (Nat × Nat) := [(t.toNat, 4), (k.toNat, 3), (0, 8), (q.toNat, 3), (0, 1), (d.toNat, 4), (g.toNat, 3), (23, 6)]
  have hop : digits ds / 2 ^ 26 = 23 := digits_top (l := ds) (k := 7) rfl rfl
  have dec : decodeV sl (digits ds) = checked (.vpop sl g d q k t) := by
    rw [decodeV, hop]
    simp only [fx_digit ds 2 7 8 0 rfl rfl rfl, fx_digit ds 4 18 1 0 rfl rfl rfl, fld_digit t ds 0 0 rfl rfl,
      fld_digit k ds 1 4 rfl rfl, fld_digit q ds 3 15 rfl rfl, fld_digit d ds 5 19 rfl rfl,
      fld_digit g ds 6 23 rfl rfl, Bool.and_self, if_true]
  refine rt_word ds rfl rfl (by simp only [sum_nil, sum_cons, ds, digits_nil, digits_cons]; omega) rfl (by rw [hasExt, hop]; cases sl <;> rfl)
    (fun x => (decodeSlot_v sl _ x).trans dec)

/-- `.frcp` and its word. -/
theorem RoundTrip.frcp (g : BitVec 3) (d : BitVec 3) (a : BitVec 3) (t : BitVec 4) : RoundTrip.Statement (.frcp g d a t) := by
  have hg := g.isLt; have hd := d.isLt; have ha := a.isLt; have ht := t.isLt
  let ds : List (Nat × Nat) := [(0, 10), (t.toNat, 4), (0, 3), (a.toNat, 3), (d.toNat, 3), (g.toNat, 3), (0, 6)]
  have hop : digits ds / 2 ^ 26 = 0 := digits_top (l := ds) (k := 6) rfl rfl
  have dec : decodeFx (digits ds) = checked (.frcp g d a t) := by
    rw [decodeFx, hop]
    simp only [fx_digit ds 0 0 10 0 rfl rfl rfl, fx_digit ds 2 14 3 0 rfl rfl rfl, fld_digit t ds 1 10 rfl rfl,
      fld_digit a ds 3 17 rfl rfl, fld_digit d ds 4 20 rfl rfl, fld_digit g ds 5 23 rfl rfl, Bool.and_self, if_true]
  exact rt_word ds rfl rfl (by simp only [sum_nil, sum_cons, ds, digits_nil, digits_cons]; omega) rfl (by rw [hasExt, hop]; rfl)
    (fun x => (decodeSlot_fx _ x).trans dec)

/-- `.frsq` and its word. -/
theorem RoundTrip.frsq (g : BitVec 3) (d : BitVec 3) (a : BitVec 3) (t : BitVec 4) : RoundTrip.Statement (.frsq g d a t) := by
  have hg := g.isLt; have hd := d.isLt; have ha := a.isLt; have ht := t.isLt
  let ds : List (Nat × Nat) := [(0, 10), (t.toNat, 4), (0, 3), (a.toNat, 3), (d.toNat, 3), (g.toNat, 3), (1, 6)]
  have hop : digits ds / 2 ^ 26 = 1 := digits_top (l := ds) (k := 6) rfl rfl
  have dec : decodeFx (digits ds) = checked (.frsq g d a t) := by
    rw [decodeFx, hop]
    simp only [fx_digit ds 0 0 10 0 rfl rfl rfl, fx_digit ds 2 14 3 0 rfl rfl rfl, fld_digit t ds 1 10 rfl rfl,
      fld_digit a ds 3 17 rfl rfl, fld_digit d ds 4 20 rfl rfl, fld_digit g ds 5 23 rfl rfl, Bool.and_self, if_true]
  exact rt_word ds rfl rfl (by simp only [sum_nil, sum_cons, ds, digits_nil, digits_cons]; omega) rfl (by rw [hasExt, hop]; rfl)
    (fun x => (decodeSlot_fx _ x).trans dec)

/-- `.fexp2` and its word. -/
theorem RoundTrip.fexp2 (g : BitVec 3) (d : BitVec 3) (a : BitVec 3) (t : BitVec 4) : RoundTrip.Statement (.fexp2 g d a t) := by
  have hg := g.isLt; have hd := d.isLt; have ha := a.isLt; have ht := t.isLt
  let ds : List (Nat × Nat) := [(0, 10), (t.toNat, 4), (0, 3), (a.toNat, 3), (d.toNat, 3), (g.toNat, 3), (2, 6)]
  have hop : digits ds / 2 ^ 26 = 2 := digits_top (l := ds) (k := 6) rfl rfl
  have dec : decodeFx (digits ds) = checked (.fexp2 g d a t) := by
    rw [decodeFx, hop]
    simp only [fx_digit ds 0 0 10 0 rfl rfl rfl, fx_digit ds 2 14 3 0 rfl rfl rfl, fld_digit t ds 1 10 rfl rfl,
      fld_digit a ds 3 17 rfl rfl, fld_digit d ds 4 20 rfl rfl, fld_digit g ds 5 23 rfl rfl, Bool.and_self, if_true]
  exact rt_word ds rfl rfl (by simp only [sum_nil, sum_cons, ds, digits_nil, digits_cons]; omega) rfl (by rw [hasExt, hop]; rfl)
    (fun x => (decodeSlot_fx _ x).trans dec)

/-- `.flog2` and its word. -/
theorem RoundTrip.flog2 (g : BitVec 3) (d : BitVec 3) (a : BitVec 3) (t : BitVec 4) : RoundTrip.Statement (.flog2 g d a t) := by
  have hg := g.isLt; have hd := d.isLt; have ha := a.isLt; have ht := t.isLt
  let ds : List (Nat × Nat) := [(0, 10), (t.toNat, 4), (0, 3), (a.toNat, 3), (d.toNat, 3), (g.toNat, 3), (3, 6)]
  have hop : digits ds / 2 ^ 26 = 3 := digits_top (l := ds) (k := 6) rfl rfl
  have dec : decodeFx (digits ds) = checked (.flog2 g d a t) := by
    rw [decodeFx, hop]
    simp only [fx_digit ds 0 0 10 0 rfl rfl rfl, fx_digit ds 2 14 3 0 rfl rfl rfl, fld_digit t ds 1 10 rfl rfl,
      fld_digit a ds 3 17 rfl rfl, fld_digit d ds 4 20 rfl rfl, fld_digit g ds 5 23 rfl rfl, Bool.and_self, if_true]
  exact rt_word ds rfl rfl (by simp only [sum_nil, sum_cons, ds, digits_nil, digits_cons]; omega) rfl (by rw [hasExt, hop]; rfl)
    (fun x => (decodeSlot_fx _ x).trans dec)

/-- `.ftanh` and its word. -/
theorem RoundTrip.ftanh (g : BitVec 3) (d : BitVec 3) (a : BitVec 3) (t : BitVec 4) : RoundTrip.Statement (.ftanh g d a t) := by
  have hg := g.isLt; have hd := d.isLt; have ha := a.isLt; have ht := t.isLt
  let ds : List (Nat × Nat) := [(0, 10), (t.toNat, 4), (0, 3), (a.toNat, 3), (d.toNat, 3), (g.toNat, 3), (4, 6)]
  have hop : digits ds / 2 ^ 26 = 4 := digits_top (l := ds) (k := 6) rfl rfl
  have dec : decodeFx (digits ds) = checked (.ftanh g d a t) := by
    rw [decodeFx, hop]
    simp only [fx_digit ds 0 0 10 0 rfl rfl rfl, fx_digit ds 2 14 3 0 rfl rfl rfl, fld_digit t ds 1 10 rfl rfl,
      fld_digit a ds 3 17 rfl rfl, fld_digit d ds 4 20 rfl rfl, fld_digit g ds 5 23 rfl rfl, Bool.and_self, if_true]
  exact rt_word ds rfl rfl (by simp only [sum_nil, sum_cons, ds, digits_nil, digits_cons]; omega) rfl (by rw [hasExt, hop]; rfl)
    (fun x => (decodeSlot_fx _ x).trans dec)

/-- `.fsig` and its word. -/
theorem RoundTrip.fsig (g : BitVec 3) (d : BitVec 3) (a : BitVec 3) (t : BitVec 4) : RoundTrip.Statement (.fsig g d a t) := by
  have hg := g.isLt; have hd := d.isLt; have ha := a.isLt; have ht := t.isLt
  let ds : List (Nat × Nat) := [(0, 10), (t.toNat, 4), (0, 3), (a.toNat, 3), (d.toNat, 3), (g.toNat, 3), (5, 6)]
  have hop : digits ds / 2 ^ 26 = 5 := digits_top (l := ds) (k := 6) rfl rfl
  have dec : decodeFx (digits ds) = checked (.fsig g d a t) := by
    rw [decodeFx, hop]
    simp only [fx_digit ds 0 0 10 0 rfl rfl rfl, fx_digit ds 2 14 3 0 rfl rfl rfl, fld_digit t ds 1 10 rfl rfl,
      fld_digit a ds 3 17 rfl rfl, fld_digit d ds 4 20 rfl rfl, fld_digit g ds 5 23 rfl rfl, Bool.and_self, if_true]
  exact rt_word ds rfl rfl (by simp only [sum_nil, sum_cons, ds, digits_nil, digits_cons]; omega) rfl (by rw [hasExt, hop]; rfl)
    (fun x => (decodeSlot_fx _ x).trans dec)

/-- `.fmov` and its word. -/
theorem RoundTrip.fmov (g : BitVec 3) (d : BitVec 3) (a : BitVec 3) (f : BitVec 3) : RoundTrip.Statement (.fmov g d a f) := by
  have hg := g.isLt; have hd := d.isLt; have ha := a.isLt; have hf := f.isLt
  let ds : List (Nat × Nat) := [(f.toNat, 3), (0, 14), (a.toNat, 3), (d.toNat, 3), (g.toNat, 3), (6, 6)]
  have hop : digits ds / 2 ^ 26 = 6 := digits_top (l := ds) (k := 5) rfl rfl
  have dec : decodeFx (digits ds) = checked (.fmov g d a f) := by
    rw [decodeFx, hop]
    simp only [fx_digit ds 1 3 14 0 rfl rfl rfl, fld_digit f ds 0 0 rfl rfl, fld_digit a ds 2 17 rfl rfl,
      fld_digit d ds 3 20 rfl rfl, fld_digit g ds 4 23 rfl rfl, if_true]
  exact rt_word ds rfl rfl (by simp only [sum_nil, sum_cons, ds, digits_nil, digits_cons]; omega) rfl (by rw [hasExt, hop]; rfl)
    (fun x => (decodeSlot_fx _ x).trans dec)

/-- `.pack` and its word. -/
theorem RoundTrip.pack (g : BitVec 3) (d : BitVec 3) (a : BitVec 3) (r : BitVec 5) (p : BitVec 2) (t : BitVec 4) : RoundTrip.Statement (.pack g d a r p t) := by
  have hg := g.isLt; have hd := d.isLt; have ha := a.isLt; have hr := r.isLt
  have hp := p.isLt; have ht := t.isLt
  let ds : List (Nat × Nat) := [(0, 3), (t.toNat, 4), (p.toNat, 2), (r.toNat, 5), (0, 3), (a.toNat, 3), (d.toNat, 3), (g.toNat, 3), (0, 6)]
  have hop : digits ds / 2 ^ 26 = 0 := digits_top (l := ds) (k := 8) rfl rfl
  have dec : decodePx (digits ds) = checked (.pack g d a r p t) := by
    rw [decodePx, hop]
    simp only [fx_digit ds 0 0 3 0 rfl rfl rfl, fx_digit ds 4 14 3 0 rfl rfl rfl, fld_digit t ds 1 3 rfl rfl,
      fld_digit p ds 2 7 rfl rfl, fld_digit r ds 3 9 rfl rfl, fld_digit a ds 5 17 rfl rfl, fld_digit d ds 6 20 rfl rfl,
      fld_digit g ds 7 23 rfl rfl, Bool.and_self, if_true]
  exact rt_word ds rfl rfl (by simp only [sum_nil, sum_cons, ds, digits_nil, digits_cons]; omega) rfl (by rw [hasExt, hop]; rfl)
    (fun x => (decodeSlot_px _ x).trans dec)

/-- `.packAuto` and its word. -/
theorem RoundTrip.packAuto (g : BitVec 3) (d : BitVec 3) (a : BitVec 3) (t : BitVec 4) : RoundTrip.Statement (.packAuto g d a t) := by
  have hg := g.isLt; have hd := d.isLt; have ha := a.isLt; have ht := t.isLt
  let ds : List (Nat × Nat) := [(1, 3), (t.toNat, 4), (0, 10), (a.toNat, 3), (d.toNat, 3), (g.toNat, 3), (0, 6)]
  have hop : digits ds / 2 ^ 26 = 0 := digits_top (l := ds) (k := 6) rfl rfl
  have dec : decodePx (digits ds) = checked (.packAuto g d a t) := by
    rw [decodePx, hop]
    simp only [fx_not (digits ds) 0 3 0 (by simp only [ds, digits_nil, digits_cons]; omega), fx_digit ds 0 0 3 1 rfl rfl rfl,
      fx_digit ds 2 7 10 0 rfl rfl rfl, fld_digit t ds 1 3 rfl rfl, fld_digit a ds 3 17 rfl rfl,
      fld_digit d ds 4 20 rfl rfl, fld_digit g ds 5 23 rfl rfl, Bool.false_eq_true, if_false, Bool.and_self, if_true,
      Bool.false_and]
  exact rt_word ds rfl rfl (by simp only [sum_nil, sum_cons, ds, digits_nil, digits_cons]; omega) rfl (by rw [hasExt, hop]; rfl)
    (fun x => (decodeSlot_px _ x).trans dec)

/-- `.unpk` and its word. -/
theorem RoundTrip.unpk (g : BitVec 3) (d : BitVec 3) (a : BitVec 3) (t : BitVec 4) : RoundTrip.Statement (.unpk g d a t) := by
  have hg := g.isLt; have hd := d.isLt; have ha := a.isLt; have ht := t.isLt
  let ds : List (Nat × Nat) := [(0, 3), (t.toNat, 4), (0, 10), (a.toNat, 3), (d.toNat, 3), (g.toNat, 3), (1, 6)]
  have hop : digits ds / 2 ^ 26 = 1 := digits_top (l := ds) (k := 6) rfl rfl
  have dec : decodePx (digits ds) = checked (.unpk g d a t) := by
    rw [decodePx, hop]
    simp only [fx_digit ds 0 0 3 0 rfl rfl rfl, fx_digit ds 2 7 10 0 rfl rfl rfl, fld_digit t ds 1 3 rfl rfl,
      fld_digit a ds 3 17 rfl rfl, fld_digit d ds 4 20 rfl rfl, fld_digit g ds 5 23 rfl rfl, Bool.and_self, if_true]
  exact rt_word ds rfl rfl (by simp only [sum_nil, sum_cons, ds, digits_nil, digits_cons]; omega) rfl (by rw [hasExt, hop]; rfl)
    (fun x => (decodeSlot_px _ x).trans dec)

/-- `.rmrg` and its word. -/
theorem RoundTrip.rmrg (g : BitVec 3) (d : BitVec 3) (a : BitVec 3) (b : BitVec 3) (r : BitVec 5) (p : BitVec 2) : RoundTrip.Statement (.rmrg g d a b r p) := by
  have hg := g.isLt; have hd := d.isLt; have ha := a.isLt; have hb := b.isLt
  have hr := r.isLt; have hp := p.isLt
  let ds : List (Nat × Nat) := [(0, 7), (p.toNat, 2), (r.toNat, 5), (b.toNat, 3), (a.toNat, 3), (d.toNat, 3), (g.toNat, 3), (2, 6)]
  have hop : digits ds / 2 ^ 26 = 2 := digits_top (l := ds) (k := 7) rfl rfl
  have dec : decodePx (digits ds) = checked (.rmrg g d a b r p) := by
    rw [decodePx, hop]
    simp only [fx_digit ds 0 0 7 0 rfl rfl rfl, fld_digit p ds 1 7 rfl rfl, fld_digit r ds 2 9 rfl rfl,
      fld_digit b ds 3 14 rfl rfl, fld_digit a ds 4 17 rfl rfl, fld_digit d ds 5 20 rfl rfl,
      fld_digit g ds 6 23 rfl rfl, if_true]
  exact rt_word ds rfl rfl (by simp only [sum_nil, sum_cons, ds, digits_nil, digits_cons]; omega) rfl (by rw [hasExt, hop]; rfl)
    (fun x => (decodeSlot_px _ x).trans dec)

/-- `.shuf` and its word. -/
theorem RoundTrip.shuf (g : BitVec 3) (d : BitVec 3) (a : BitVec 3) (b : BitVec 3) (t : BitVec 4) : RoundTrip.Statement (.shuf g d a b t) := by
  have hg := g.isLt; have hd := d.isLt; have ha := a.isLt; have hb := b.isLt
  have ht := t.isLt
  let ds : List (Nat × Nat) := [(0, 3), (t.toNat, 4), (0, 7), (b.toNat, 3), (a.toNat, 3), (d.toNat, 3), (g.toNat, 3), (3, 6)]
  have hop : digits ds / 2 ^ 26 = 3 := digits_top (l := ds) (k := 7) rfl rfl
  have dec : decodePx (digits ds) = checked (.shuf g d a b t) := by
    rw [decodePx, hop]
    simp only [fx_digit ds 0 0 3 0 rfl rfl rfl, fx_digit ds 2 7 7 0 rfl rfl rfl, fld_digit t ds 1 3 rfl rfl,
      fld_digit b ds 3 14 rfl rfl, fld_digit a ds 4 17 rfl rfl, fld_digit d ds 5 20 rfl rfl,
      fld_digit g ds 6 23 rfl rfl, Bool.and_self, if_true]
  exact rt_word ds rfl rfl (by simp only [sum_nil, sum_cons, ds, digits_nil, digits_cons]; omega) rfl (by rw [hasExt, hop]; rfl)
    (fun x => (decodeSlot_px _ x).trans dec)

/-- `.trns` and its word. -/
theorem RoundTrip.trns (g : BitVec 3) (d : BitVec 3) (a : BitVec 3) (b : BitVec 3) (t : BitVec 4) : RoundTrip.Statement (.trns g d a b t) := by
  have hg := g.isLt; have hd := d.isLt; have ha := a.isLt; have hb := b.isLt
  have ht := t.isLt
  let ds : List (Nat × Nat) := [(0, 3), (t.toNat, 4), (0, 7), (b.toNat, 3), (a.toNat, 3), (d.toNat, 3), (g.toNat, 3), (4, 6)]
  have hop : digits ds / 2 ^ 26 = 4 := digits_top (l := ds) (k := 7) rfl rfl
  have dec : decodePx (digits ds) = checked (.trns g d a b t) := by
    rw [decodePx, hop]
    simp only [fx_digit ds 0 0 3 0 rfl rfl rfl, fx_digit ds 2 7 7 0 rfl rfl rfl, fld_digit t ds 1 3 rfl rfl,
      fld_digit b ds 3 14 rfl rfl, fld_digit a ds 4 17 rfl rfl, fld_digit d ds 5 20 rfl rfl,
      fld_digit g ds 6 23 rfl rfl, Bool.and_self, if_true]
  exact rt_word ds rfl rfl (by simp only [sum_nil, sum_cons, ds, digits_nil, digits_cons]; omega) rfl (by rw [hasExt, hop]; rfl)
    (fun x => (decodeSlot_px _ x).trans dec)

/-- `.ilv` and its word. -/
theorem RoundTrip.ilv (g : BitVec 3) (d : BitVec 3) (a : BitVec 3) (b : BitVec 3) (t : BitVec 4) : RoundTrip.Statement (.ilv g d a b t) := by
  have hg := g.isLt; have hd := d.isLt; have ha := a.isLt; have hb := b.isLt
  have ht := t.isLt
  let ds : List (Nat × Nat) := [(0, 3), (t.toNat, 4), (0, 7), (b.toNat, 3), (a.toNat, 3), (d.toNat, 3), (g.toNat, 3), (5, 6)]
  have hop : digits ds / 2 ^ 26 = 5 := digits_top (l := ds) (k := 7) rfl rfl
  have dec : decodePx (digits ds) = checked (.ilv g d a b t) := by
    rw [decodePx, hop]
    simp only [fx_digit ds 0 0 3 0 rfl rfl rfl, fx_digit ds 2 7 7 0 rfl rfl rfl, fld_digit t ds 1 3 rfl rfl,
      fld_digit b ds 3 14 rfl rfl, fld_digit a ds 4 17 rfl rfl, fld_digit d ds 5 20 rfl rfl,
      fld_digit g ds 6 23 rfl rfl, Bool.and_self, if_true]
  exact rt_word ds rfl rfl (by simp only [sum_nil, sum_cons, ds, digits_nil, digits_cons]; omega) rfl (by rw [hasExt, hop]; rfl)
    (fun x => (decodeSlot_px _ x).trans dec)

/-- `.dil` and its word. -/
theorem RoundTrip.dil (g : BitVec 3) (d : BitVec 3) (a : BitVec 3) (b : BitVec 3) (t : BitVec 4) : RoundTrip.Statement (.dil g d a b t) := by
  have hg := g.isLt; have hd := d.isLt; have ha := a.isLt; have hb := b.isLt
  have ht := t.isLt
  let ds : List (Nat × Nat) := [(0, 3), (t.toNat, 4), (0, 7), (b.toNat, 3), (a.toNat, 3), (d.toNat, 3), (g.toNat, 3), (6, 6)]
  have hop : digits ds / 2 ^ 26 = 6 := digits_top (l := ds) (k := 7) rfl rfl
  have dec : decodePx (digits ds) = checked (.dil g d a b t) := by
    rw [decodePx, hop]
    simp only [fx_digit ds 0 0 3 0 rfl rfl rfl, fx_digit ds 2 7 7 0 rfl rfl rfl, fld_digit t ds 1 3 rfl rfl,
      fld_digit b ds 3 14 rfl rfl, fld_digit a ds 4 17 rfl rfl, fld_digit d ds 5 20 rfl rfl,
      fld_digit g ds 6 23 rfl rfl, Bool.and_self, if_true]
  exact rt_word ds rfl rfl (by simp only [sum_nil, sum_cons, ds, digits_nil, digits_cons]; omega) rfl (by rw [hasExt, hop]; rfl)
    (fun x => (decodeSlot_px _ x).trans dec)

/-- `.pscl` and its word. -/
theorem RoundTrip.pscl (g : BitVec 3) (d : BitVec 3) (a : BitVec 3) (r : BitVec 5) (p : BitVec 2) (t : BitVec 4) : RoundTrip.Statement (.pscl g d a r p t) := by
  have hg := g.isLt; have hd := d.isLt; have ha := a.isLt; have hr := r.isLt
  have hp := p.isLt; have ht := t.isLt
  let ds : List (Nat × Nat) := [(0, 3), (t.toNat, 4), (p.toNat, 2), (r.toNat, 5), (0, 3), (a.toNat, 3), (d.toNat, 3), (g.toNat, 3), (7, 6)]
  have hop : digits ds / 2 ^ 26 = 7 := digits_top (l := ds) (k := 8) rfl rfl
  have dec : decodePx (digits ds) = checked (.pscl g d a r p t) := by
    rw [decodePx, hop]
    simp only [fx_digit ds 0 0 3 0 rfl rfl rfl, fx_digit ds 4 14 3 0 rfl rfl rfl, fld_digit t ds 1 3 rfl rfl,
      fld_digit p ds 2 7 rfl rfl, fld_digit r ds 3 9 rfl rfl, fld_digit a ds 5 17 rfl rfl, fld_digit d ds 6 20 rfl rfl,
      fld_digit g ds 7 23 rfl rfl, Bool.and_self, if_true]
  exact rt_word ds rfl rfl (by simp only [sum_nil, sum_cons, ds, digits_nil, digits_cons]; omega) rfl (by rw [hasExt, hop]; rfl)
    (fun x => (decodeSlot_px _ x).trans dec)

/-- `.pmov` and its word. -/
theorem RoundTrip.pmov (g : BitVec 3) (d : BitVec 3) (a : BitVec 3) (f : BitVec 3) : RoundTrip.Statement (.pmov g d a f) := by
  have hg := g.isLt; have hd := d.isLt; have ha := a.isLt; have hf := f.isLt
  let ds : List (Nat × Nat) := [(f.toNat, 3), (0, 14), (a.toNat, 3), (d.toNat, 3), (g.toNat, 3), (8, 6)]
  have hop : digits ds / 2 ^ 26 = 8 := digits_top (l := ds) (k := 5) rfl rfl
  have dec : decodePx (digits ds) = checked (.pmov g d a f) := by
    rw [decodePx, hop]
    simp only [fx_digit ds 1 3 14 0 rfl rfl rfl, fld_digit f ds 0 0 rfl rfl, fld_digit a ds 2 17 rfl rfl,
      fld_digit d ds 3 20 rfl rfl, fld_digit g ds 4 23 rfl rfl, if_true]
  exact rt_word ds rfl rfl (by simp only [sum_nil, sum_cons, ds, digits_nil, digits_cons]; omega) rfl (by rw [hasExt, hop]; rfl)
    (fun x => (decodeSlot_px _ x).trans dec)

/-- `.aset` and its word. -/
theorem RoundTrip.aset (g : BitVec 3) (d : BitVec 4) (r : BitVec 5) (p : BitVec 2) : RoundTrip.Statement (.aset g d r p) := by
  have hg := g.isLt; have hd := d.isLt; have hr := r.isLt; have hp := p.isLt
  let ds : List (Nat × Nat) := [(0, 4), (p.toNat, 2), (r.toNat, 5), (0, 8), (d.toNat, 4), (g.toNat, 3), (0, 6)]
  have hop : digits ds / 2 ^ 26 = 0 := digits_top (l := ds) (k := 6) rfl rfl
  have dec : decodeAx (digits ds) = checked (.aset g d r p) := by
    rw [decodeAx, hop]
    simp only [fx_digit ds 0 0 4 0 rfl rfl rfl, fx_digit ds 3 11 8 0 rfl rfl rfl, fld_digit p ds 1 4 rfl rfl,
      fld_digit r ds 2 6 rfl rfl, fld_digit d ds 4 19 rfl rfl, fld_digit g ds 5 23 rfl rfl, Bool.and_self, if_true]
  exact rt_word ds rfl rfl (by simp only [sum_nil, sum_cons, ds, digits_nil, digits_cons]; omega) rfl (by rw [hasExt, hop]; rfl)
    (fun x => (decodeSlot_ax _ x).trans dec)

/-- `.ainc` and its word. -/
theorem RoundTrip.ainc (g : BitVec 3) (d : BitVec 4) (m : BitVec 4) : RoundTrip.Statement (.ainc g d m) := by
  have hg := g.isLt; have hd := d.isLt; have hm := m.isLt
  let ds : List (Nat × Nat) := [(0, 11), (m.toNat, 4), (0, 4), (d.toNat, 4), (g.toNat, 3), (1, 6)]
  have hop : digits ds / 2 ^ 26 = 1 := digits_top (l := ds) (k := 5) rfl rfl
  have dec : decodeAx (digits ds) = checked (.ainc g d m) := by
    rw [decodeAx, hop]
    simp only [fx_digit ds 0 0 11 0 rfl rfl rfl, fx_digit ds 2 15 4 0 rfl rfl rfl, fld_digit m ds 1 11 rfl rfl,
      fld_digit d ds 3 19 rfl rfl, fld_digit g ds 4 23 rfl rfl, Bool.and_self, if_true]
  exact rt_word ds rfl rfl (by simp only [sum_nil, sum_cons, ds, digits_nil, digits_cons]; omega) rfl (by rw [hasExt, hop]; rfl)
    (fun x => (decodeSlot_ax _ x).trans dec)

/-- `.amod` and its word. -/
theorem RoundTrip.amod (g : BitVec 3) (d : BitVec 4) (r : BitVec 5) (p : BitVec 2) (e : BitVec 4) : RoundTrip.Statement (.amod g d r p e) := by
  have hg := g.isLt; have hd := d.isLt; have hr := r.isLt; have hp := p.isLt
  have he := e.isLt
  let ds : List (Nat × Nat) := [(e.toNat, 4), (p.toNat, 2), (r.toNat, 5), (0, 8), (d.toNat, 4), (g.toNat, 3), (2, 6)]
  have hop : digits ds / 2 ^ 26 = 2 := digits_top (l := ds) (k := 6) rfl rfl
  have dec : decodeAx (digits ds) = checked (.amod g d r p e) := by
    rw [decodeAx, hop]
    simp only [fx_digit ds 3 11 8 0 rfl rfl rfl, fld_digit e ds 0 0 rfl rfl, fld_digit p ds 1 4 rfl rfl,
      fld_digit r ds 2 6 rfl rfl, fld_digit d ds 4 19 rfl rfl, fld_digit g ds 5 23 rfl rfl, if_true]
  exact rt_word ds rfl rfl (by simp only [sum_nil, sum_cons, ds, digits_nil, digits_cons]; omega) rfl (by rw [hasExt, hop]; rfl)
    (fun x => (decodeSlot_ax _ x).trans dec)

/-- `.amov` and its word. -/
theorem RoundTrip.amov (g : BitVec 3) (d : BitVec 4) (a : BitVec 4) (s : BitVec 1) (w : BitVec 1) : RoundTrip.Statement (.amov g d a s w) := by
  have hg := g.isLt; have hd := d.isLt; have ha := a.isLt; have hs := s.isLt
  have hw := w.isLt
  let ds : List (Nat × Nat) := [(w.toNat, 1), (s.toNat, 1), (0, 13), (a.toNat, 4), (d.toNat, 4), (g.toNat, 3), (3, 6)]
  have hop : digits ds / 2 ^ 26 = 3 := digits_top (l := ds) (k := 6) rfl rfl
  have dec : decodeAx (digits ds) = checked (.amov g d a s w) := by
    rw [decodeAx, hop]
    simp only [fx_digit ds 2 2 13 0 rfl rfl rfl, fld_digit w ds 0 0 rfl rfl, fld_digit s ds 1 1 rfl rfl,
      fld_digit a ds 3 15 rfl rfl, fld_digit d ds 4 19 rfl rfl, fld_digit g ds 5 23 rfl rfl, if_true]
  exact rt_word ds rfl rfl (by simp only [sum_nil, sum_cons, ds, digits_nil, digits_cons]; omega) rfl (by rw [hasExt, hop]; rfl)
    (fun x => (decodeSlot_ax _ x).trans dec)

/-- `.cim` and its word. -/
theorem RoundTrip.cim (g : BitVec 3) (r : BitVec 5) (p : BitVec 2) (s : BitVec 5) (q : BitVec 2) (b : BitVec 2) (m : BitVec 1) (l : BitVec 1) (o : BitVec 1) (t : BitVec 1) : RoundTrip.Statement (.cim g r p s q b m l o t) := by
  have hg := g.isLt; have hr := r.isLt; have hp := p.isLt; have hs := s.isLt
  have hq := q.isLt; have hb := b.isLt; have hm := m.isLt; have hl := l.isLt
  have ho := o.isLt; have ht := t.isLt
  let ds : List (Nat × Nat) := [(t.toNat, 1), (o.toNat, 1), (l.toNat, 1), (m.toNat, 1), (0, 3), (b.toNat, 2), (q.toNat, 2), (s.toNat, 5), (p.toNat, 2), (r.toNat, 5), (g.toNat, 3), (0, 6)]
  have hop : digits ds / 2 ^ 26 = 0 := digits_top (l := ds) (k := 11) rfl rfl
  have dec : decodeMx (digits ds) = checked (.cim g r p s q b m l o t) := by
    rw [decodeMx, hop]
    simp only [fx_digit ds 4 4 3 0 rfl rfl rfl, fld_digit t ds 0 0 rfl rfl, fld_digit o ds 1 1 rfl rfl,
      fld_digit l ds 2 2 rfl rfl, fld_digit m ds 3 3 rfl rfl, fld_digit b ds 5 7 rfl rfl, fld_digit q ds 6 9 rfl rfl,
      fld_digit s ds 7 11 rfl rfl, fld_digit p ds 8 16 rfl rfl, fld_digit r ds 9 18 rfl rfl,
      fld_digit g ds 10 23 rfl rfl, if_true]
  exact rt_word ds rfl rfl (by simp only [sum_nil, sum_cons, ds, digits_nil, digits_cons]; omega) rfl (by rw [hasExt, hop]; rfl)
    (fun x => (decodeSlot_mx _ x).trans dec)

/-- `.smx` and its word. -/
theorem RoundTrip.smx (g : BitVec 3) (r : BitVec 5) (p : BitVec 2) (s : BitVec 5) (q : BitVec 2) (b : BitVec 2) (m : BitVec 1) (l : BitVec 1) (o : BitVec 1) (t : BitVec 1) : RoundTrip.Statement (.smx g r p s q b m l o t) := by
  have hg := g.isLt; have hr := r.isLt; have hp := p.isLt; have hs := s.isLt
  have hq := q.isLt; have hb := b.isLt; have hm := m.isLt; have hl := l.isLt
  have ho := o.isLt; have ht := t.isLt
  let ds : List (Nat × Nat) := [(t.toNat, 1), (o.toNat, 1), (l.toNat, 1), (m.toNat, 1), (0, 3), (b.toNat, 2), (q.toNat, 2), (s.toNat, 5), (p.toNat, 2), (r.toNat, 5), (g.toNat, 3), (1, 6)]
  have hop : digits ds / 2 ^ 26 = 1 := digits_top (l := ds) (k := 11) rfl rfl
  have dec : decodeMx (digits ds) = checked (.smx g r p s q b m l o t) := by
    rw [decodeMx, hop]
    simp only [fx_digit ds 4 4 3 0 rfl rfl rfl, fld_digit t ds 0 0 rfl rfl, fld_digit o ds 1 1 rfl rfl,
      fld_digit l ds 2 2 rfl rfl, fld_digit m ds 3 3 rfl rfl, fld_digit b ds 5 7 rfl rfl, fld_digit q ds 6 9 rfl rfl,
      fld_digit s ds 7 11 rfl rfl, fld_digit p ds 8 16 rfl rfl, fld_digit r ds 9 18 rfl rfl,
      fld_digit g ds 10 23 rfl rfl, if_true]
  exact rt_word ds rfl rfl (by simp only [sum_nil, sum_cons, ds, digits_nil, digits_cons]; omega) rfl (by rw [hasExt, hop]; rfl)
    (fun x => (decodeSlot_mx _ x).trans dec)

/-- `.acz` and its word. -/
theorem RoundTrip.acz (g : BitVec 3) (r : BitVec 5) (p : BitVec 2) (b : BitVec 2) : RoundTrip.Statement (.acz g r p b) := by
  have hg := g.isLt; have hr := r.isLt; have hp := p.isLt; have hb := b.isLt
  let ds : List (Nat × Nat) := [(0, 7), (b.toNat, 2), (0, 7), (p.toNat, 2), (r.toNat, 5), (g.toNat, 3), (2, 6)]
  have hop : digits ds / 2 ^ 26 = 2 := digits_top (l := ds) (k := 6) rfl rfl
  have dec : decodeMx (digits ds) = checked (.acz g r p b) := by
    rw [decodeMx, hop]
    simp only [fx_digit ds 0 0 7 0 rfl rfl rfl, fx_digit ds 2 9 7 0 rfl rfl rfl, fld_digit b ds 1 7 rfl rfl,
      fld_digit p ds 3 16 rfl rfl, fld_digit r ds 4 18 rfl rfl, fld_digit g ds 5 23 rfl rfl, Bool.and_self, if_true]
  exact rt_word ds rfl rfl (by simp only [sum_nil, sum_cons, ds, digits_nil, digits_cons]; omega) rfl (by rw [hasExt, hop]; rfl)
    (fun x => (decodeSlot_mx _ x).trans dec)

/-- `.drn` and its word. -/
theorem RoundTrip.drn (g : BitVec 3) (r : BitVec 5) (p : BitVec 2) (b : BitVec 2) (n : BitVec 3) : RoundTrip.Statement (.drn g r p b n) := by
  have hg := g.isLt; have hr := r.isLt; have hp := p.isLt; have hb := b.isLt
  have hn := n.isLt
  let ds : List (Nat × Nat) := [(0, 4), (n.toNat, 3), (b.toNat, 2), (0, 7), (p.toNat, 2), (r.toNat, 5), (g.toNat, 3), (3, 6)]
  have hop : digits ds / 2 ^ 26 = 3 := digits_top (l := ds) (k := 7) rfl rfl
  have dec : decodeMx (digits ds) = checked (.drn g r p b n) := by
    rw [decodeMx, hop]
    simp only [fx_digit ds 0 0 4 0 rfl rfl rfl, fx_digit ds 3 9 7 0 rfl rfl rfl, fld_digit n ds 1 4 rfl rfl,
      fld_digit b ds 2 7 rfl rfl, fld_digit p ds 4 16 rfl rfl, fld_digit r ds 5 18 rfl rfl,
      fld_digit g ds 6 23 rfl rfl, Bool.and_self, if_true]
  exact rt_word ds rfl rfl (by simp only [sum_nil, sum_cons, ds, digits_nil, digits_cons]; omega) rfl (by rw [hasExt, hop]; rfl)
    (fun x => (decodeSlot_mx _ x).trans dec)

/-- `.wpre` and its word. -/
theorem RoundTrip.wpre (g : BitVec 3) (s : BitVec 5) (q : BitVec 2) (n : BitVec 2) : RoundTrip.Statement (.wpre g s q n) := by
  have hg := g.isLt; have hs := s.isLt; have hq := q.isLt; have hn := n.isLt
  let ds : List (Nat × Nat) := [(n.toNat, 2), (0, 7), (q.toNat, 2), (s.toNat, 5), (0, 7), (g.toNat, 3), (4, 6)]
  have hop : digits ds / 2 ^ 26 = 4 := digits_top (l := ds) (k := 6) rfl rfl
  have dec : decodeMx (digits ds) = checked (.wpre g s q n) := by
    rw [decodeMx, hop]
    simp only [fx_digit ds 1 2 7 0 rfl rfl rfl, fx_digit ds 4 16 7 0 rfl rfl rfl, fld_digit n ds 0 0 rfl rfl,
      fld_digit q ds 2 9 rfl rfl, fld_digit s ds 3 11 rfl rfl, fld_digit g ds 5 23 rfl rfl, Bool.and_self, if_true]
  exact rt_word ds rfl rfl (by simp only [sum_nil, sum_cons, ds, digits_nil, digits_cons]; omega) rfl (by rw [hasExt, hop]; rfl)
    (fun x => (decodeSlot_mx _ x).trans dec)

/-- `.wpin` and its word. -/
theorem RoundTrip.wpin (g : BitVec 3) (s : BitVec 5) (q : BitVec 2) : RoundTrip.Statement (.wpin g s q) := by
  have hg := g.isLt; have hs := s.isLt; have hq := q.isLt
  let ds : List (Nat × Nat) := [(0, 9), (q.toNat, 2), (s.toNat, 5), (0, 7), (g.toNat, 3), (5, 6)]
  have hop : digits ds / 2 ^ 26 = 5 := digits_top (l := ds) (k := 5) rfl rfl
  have dec : decodeMx (digits ds) = checked (.wpin g s q) := by
    rw [decodeMx, hop]
    simp only [fx_digit ds 0 0 9 0 rfl rfl rfl, fx_digit ds 3 16 7 0 rfl rfl rfl, fld_digit q ds 1 9 rfl rfl,
      fld_digit s ds 2 11 rfl rfl, fld_digit g ds 4 23 rfl rfl, Bool.and_self, if_true]
  exact rt_word ds rfl rfl (by simp only [sum_nil, sum_cons, ds, digits_nil, digits_cons]; omega) rfl (by rw [hasExt, hop]; rfl)
    (fun x => (decodeSlot_mx _ x).trans dec)

/-- `.wunp` and its word. -/
theorem RoundTrip.wunp (g : BitVec 3) (s : BitVec 5) (q : BitVec 2) : RoundTrip.Statement (.wunp g s q) := by
  have hg := g.isLt; have hs := s.isLt; have hq := q.isLt
  let ds : List (Nat × Nat) := [(0, 9), (q.toNat, 2), (s.toNat, 5), (0, 7), (g.toNat, 3), (6, 6)]
  have hop : digits ds / 2 ^ 26 = 6 := digits_top (l := ds) (k := 5) rfl rfl
  have dec : decodeMx (digits ds) = checked (.wunp g s q) := by
    rw [decodeMx, hop]
    simp only [fx_digit ds 0 0 9 0 rfl rfl rfl, fx_digit ds 3 16 7 0 rfl rfl rfl, fld_digit q ds 1 9 rfl rfl,
      fld_digit s ds 2 11 rfl rfl, fld_digit g ds 4 23 rfl rfl, Bool.and_self, if_true]
  exact rt_word ds rfl rfl (by simp only [sum_nil, sum_cons, ds, digits_nil, digits_cons]; omega) rfl (by rw [hasExt, hop]; rfl)
    (fun x => (decodeSlot_mx _ x).trans dec)

/-- `.winv` and its word. -/
theorem RoundTrip.winv (g : BitVec 3) (s : BitVec 5) (q : BitVec 2) : RoundTrip.Statement (.winv g s q) := by
  have hg := g.isLt; have hs := s.isLt; have hq := q.isLt
  let ds : List (Nat × Nat) := [(0, 9), (q.toNat, 2), (s.toNat, 5), (0, 7), (g.toNat, 3), (7, 6)]
  have hop : digits ds / 2 ^ 26 = 7 := digits_top (l := ds) (k := 5) rfl rfl
  have dec : decodeMx (digits ds) = checked (.winv g s q) := by
    rw [decodeMx, hop]
    simp only [fx_digit ds 0 0 9 0 rfl rfl rfl, fx_digit ds 3 16 7 0 rfl rfl rfl, fld_digit q ds 1 9 rfl rfl,
      fld_digit s ds 2 11 rfl rfl, fld_digit g ds 4 23 rfl rfl, Bool.and_self, if_true]
  exact rt_word ds rfl rfl (by simp only [sum_nil, sum_cons, ds, digits_nil, digits_cons]; omega) rfl (by rw [hasExt, hop]; rfl)
    (fun x => (decodeSlot_mx _ x).trans dec)

/-- `.wprb` and its word. -/
theorem RoundTrip.wprb (g : BitVec 3) (d : BitVec 5) (s : BitVec 5) (q : BitVec 2) : RoundTrip.Statement (.wprb g d s q) := by
  have hg := g.isLt; have hd := d.isLt; have hs := s.isLt; have hq := q.isLt
  let ds : List (Nat × Nat) := [(0, 9), (q.toNat, 2), (s.toNat, 5), (0, 2), (d.toNat, 5), (g.toNat, 3), (8, 6)]
  have hop : digits ds / 2 ^ 26 = 8 := digits_top (l := ds) (k := 6) rfl rfl
  have dec : decodeMx (digits ds) = checked (.wprb g d s q) := by
    rw [decodeMx, hop]
    simp only [fx_digit ds 0 0 9 0 rfl rfl rfl, fx_digit ds 3 16 2 0 rfl rfl rfl, fld_digit q ds 1 9 rfl rfl,
      fld_digit s ds 2 11 rfl rfl, fld_digit d ds 4 18 rfl rfl, fld_digit g ds 5 23 rfl rfl, Bool.and_self, if_true]
  exact rt_word ds rfl rfl (by simp only [sum_nil, sum_cons, ds, digits_nil, digits_cons]; omega) rfl (by rw [hasExt, hop]; rfl)
    (fun x => (decodeSlot_mx _ x).trans dec)

/-- `.ld` and its word. -/
theorem RoundTrip.ld (sl : LSlot) (g : BitVec 3) (r : BitVec 4) (f : BitVec 3) (a : BitVec 4) (m : BitVec 4) (w : BitVec 1) (c : BitVec 1) : RoundTrip.Statement (.ld sl g r f a m w c) := by
  have hg := g.isLt; have hr := r.isLt; have hf := f.isLt; have ha := a.isLt
  have hm := m.isLt; have hw := w.isLt; have hc := c.isLt
  let ds : List (Nat × Nat) := [(c.toNat, 1), (w.toNat, 1), (0, 6), (m.toNat, 4), (a.toNat, 4), (f.toNat, 3), (r.toNat, 4), (g.toNat, 3), (0, 6)]
  have hop : digits ds / 2 ^ 26 = 0 := digits_top (l := ds) (k := 8) rfl rfl
  have dec : decodeL sl (digits ds) = checked (.ld sl g r f a m w c) := by
    rw [decodeL, hop]
    simp only [fx_digit ds 2 2 6 0 rfl rfl rfl, fld_digit c ds 0 0 rfl rfl, fld_digit w ds 1 1 rfl rfl,
      fld_digit m ds 3 8 rfl rfl, fld_digit a ds 4 12 rfl rfl, fld_digit f ds 5 16 rfl rfl,
      fld_digit r ds 6 19 rfl rfl, fld_digit g ds 7 23 rfl rfl, if_true]
  refine rt_word ds rfl rfl (by simp only [sum_nil, sum_cons, ds, digits_nil, digits_cons]; omega) rfl (by rw [hasExt, hop]; cases sl <;> rfl)
    (fun x => (decodeSlot_l sl _ x).trans dec)

/-- `.st` and its word. -/
theorem RoundTrip.st (sl : LSlot) (g : BitVec 3) (r : BitVec 4) (f : BitVec 3) (a : BitVec 4) (m : BitVec 4) : RoundTrip.Statement (.st sl g r f a m) := by
  have hg := g.isLt; have hr := r.isLt; have hf := f.isLt; have ha := a.isLt
  have hm := m.isLt
  let ds : List (Nat × Nat) := [(0, 8), (m.toNat, 4), (a.toNat, 4), (f.toNat, 3), (r.toNat, 4), (g.toNat, 3), (1, 6)]
  have hop : digits ds / 2 ^ 26 = 1 := digits_top (l := ds) (k := 6) rfl rfl
  have dec : decodeL sl (digits ds) = checked (.st sl g r f a m) := by
    rw [decodeL, hop]
    simp only [fx_digit ds 0 0 8 0 rfl rfl rfl, fld_digit m ds 1 8 rfl rfl, fld_digit a ds 2 12 rfl rfl,
      fld_digit f ds 3 16 rfl rfl, fld_digit r ds 4 19 rfl rfl, fld_digit g ds 5 23 rfl rfl, if_true]
  refine rt_word ds rfl rfl (by simp only [sum_nil, sum_cons, ds, digits_nil, digits_cons]; omega) rfl (by rw [hasExt, hop]; cases sl <;> rfl)
    (fun x => (decodeSlot_l sl _ x).trans dec)

/-- `.lds` and its word. -/
theorem RoundTrip.lds (sl : LSlot) (g : BitVec 3) (r : BitVec 4) (f : BitVec 3) (a : BitVec 4) (m : BitVec 4) (w : BitVec 1) (c : BitVec 1) : RoundTrip.Statement (.lds sl g r f a m w c) := by
  have hg := g.isLt; have hr := r.isLt; have hf := f.isLt; have ha := a.isLt
  have hm := m.isLt; have hw := w.isLt; have hc := c.isLt
  let ds : List (Nat × Nat) := [(c.toNat, 1), (w.toNat, 1), (0, 6), (m.toNat, 4), (a.toNat, 4), (f.toNat, 3), (r.toNat, 4), (g.toNat, 3), (2, 6)]
  have hop : digits ds / 2 ^ 26 = 2 := digits_top (l := ds) (k := 8) rfl rfl
  have dec : decodeL sl (digits ds) = checked (.lds sl g r f a m w c) := by
    rw [decodeL, hop]
    simp only [fx_digit ds 2 2 6 0 rfl rfl rfl, fld_digit c ds 0 0 rfl rfl, fld_digit w ds 1 1 rfl rfl,
      fld_digit m ds 3 8 rfl rfl, fld_digit a ds 4 12 rfl rfl, fld_digit f ds 5 16 rfl rfl,
      fld_digit r ds 6 19 rfl rfl, fld_digit g ds 7 23 rfl rfl, if_true]
  refine rt_word ds rfl rfl (by simp only [sum_nil, sum_cons, ds, digits_nil, digits_cons]; omega) rfl (by rw [hasExt, hop]; cases sl <;> rfl)
    (fun x => (decodeSlot_l sl _ x).trans dec)

/-- `.sts` and its word. -/
theorem RoundTrip.sts (sl : LSlot) (g : BitVec 3) (r : BitVec 4) (f : BitVec 3) (a : BitVec 4) (m : BitVec 4) (p : BitVec 2) : RoundTrip.Statement (.sts sl g r f a m p) := by
  have hg := g.isLt; have hr := r.isLt; have hf := f.isLt; have ha := a.isLt
  have hm := m.isLt; have hp := p.isLt
  let ds : List (Nat × Nat) := [(p.toNat, 2), (0, 6), (m.toNat, 4), (a.toNat, 4), (f.toNat, 3), (r.toNat, 4), (g.toNat, 3), (3, 6)]
  have hop : digits ds / 2 ^ 26 = 3 := digits_top (l := ds) (k := 7) rfl rfl
  have dec : decodeL sl (digits ds) = checked (.sts sl g r f a m p) := by
    rw [decodeL, hop]
    simp only [fx_digit ds 1 2 6 0 rfl rfl rfl, fld_digit p ds 0 0 rfl rfl, fld_digit m ds 2 8 rfl rfl,
      fld_digit a ds 3 12 rfl rfl, fld_digit f ds 4 16 rfl rfl, fld_digit r ds 5 19 rfl rfl,
      fld_digit g ds 6 23 rfl rfl, if_true]
  refine rt_word ds rfl rfl (by simp only [sum_nil, sum_cons, ds, digits_nil, digits_cons]; omega) rfl (by rw [hasExt, hop]; cases sl <;> rfl)
    (fun x => (decodeSlot_l sl _ x).trans dec)

/-- `.stq` and its word. -/
theorem RoundTrip.stq (sl : LSlot) (g : BitVec 3) (q : BitVec 4) (a : BitVec 4) (m : BitVec 4) : RoundTrip.Statement (.stq sl g q a m) := by
  have hg := g.isLt; have hq := q.isLt; have ha := a.isLt; have hm := m.isLt
  let ds : List (Nat × Nat) := [(0, 8), (m.toNat, 4), (a.toNat, 4), (0, 3), (q.toNat, 4), (g.toNat, 3), (4, 6)]
  have hop : digits ds / 2 ^ 26 = 4 := digits_top (l := ds) (k := 6) rfl rfl
  have dec : decodeL sl (digits ds) = checked (.stq sl g q a m) := by
    rw [decodeL, hop]
    simp only [fx_digit ds 0 0 8 0 rfl rfl rfl, fx_digit ds 3 16 3 0 rfl rfl rfl, fld_digit m ds 1 8 rfl rfl,
      fld_digit a ds 2 12 rfl rfl, fld_digit q ds 4 19 rfl rfl, fld_digit g ds 5 23 rfl rfl, Bool.and_self, if_true]
  refine rt_word ds rfl rfl (by simp only [sum_nil, sum_cons, ds, digits_nil, digits_cons]; omega) rfl (by rw [hasExt, hop]; cases sl <;> rfl)
    (fun x => (decodeSlot_l sl _ x).trans dec)

/-- `.fset` and its word. -/
theorem RoundTrip.fset (sl : LSlot) (g : BitVec 3) (a : BitVec 4) (m : BitVec 4) (w : BitVec 1) : RoundTrip.Statement (.fset sl g a m w) := by
  have hg := g.isLt; have ha := a.isLt; have hm := m.isLt; have hw := w.isLt
  let ds : List (Nat × Nat) := [(w.toNat, 1), (0, 7), (m.toNat, 4), (a.toNat, 4), (0, 7), (g.toNat, 3), (5, 6)]
  have hop : digits ds / 2 ^ 26 = 5 := digits_top (l := ds) (k := 6) rfl rfl
  have dec : decodeL sl (digits ds) = checked (.fset sl g a m w) := by
    rw [decodeL, hop]
    simp only [fx_digit ds 1 1 7 0 rfl rfl rfl, fx_digit ds 4 16 7 0 rfl rfl rfl, fld_digit w ds 0 0 rfl rfl,
      fld_digit m ds 2 8 rfl rfl, fld_digit a ds 3 12 rfl rfl, fld_digit g ds 5 23 rfl rfl, Bool.and_self, if_true]
  refine rt_word ds rfl rfl (by simp only [sum_nil, sum_cons, ds, digits_nil, digits_cons]; omega) rfl (by rw [hasExt, hop]; cases sl <;> rfl)
    (fun x => (decodeSlot_l sl _ x).trans dec)

/-- `.fclr` and its word. -/
theorem RoundTrip.fclr (sl : LSlot) (g : BitVec 3) (a : BitVec 4) (m : BitVec 4) (w : BitVec 1) : RoundTrip.Statement (.fclr sl g a m w) := by
  have hg := g.isLt; have ha := a.isLt; have hm := m.isLt; have hw := w.isLt
  let ds : List (Nat × Nat) := [(w.toNat, 1), (0, 7), (m.toNat, 4), (a.toNat, 4), (0, 7), (g.toNat, 3), (6, 6)]
  have hop : digits ds / 2 ^ 26 = 6 := digits_top (l := ds) (k := 6) rfl rfl
  have dec : decodeL sl (digits ds) = checked (.fclr sl g a m w) := by
    rw [decodeL, hop]
    simp only [fx_digit ds 1 1 7 0 rfl rfl rfl, fx_digit ds 4 16 7 0 rfl rfl rfl, fld_digit w ds 0 0 rfl rfl,
      fld_digit m ds 2 8 rfl rfl, fld_digit a ds 3 12 rfl rfl, fld_digit g ds 5 23 rfl rfl, Bool.and_self, if_true]
  refine rt_word ds rfl rfl (by simp only [sum_nil, sum_cons, ds, digits_nil, digits_cons]; omega) rfl (by rw [hasExt, hop]; cases sl <;> rfl)
    (fun x => (decodeSlot_l sl _ x).trans dec)

/-- `.fwait` and its word. -/
theorem RoundTrip.fwait (sl : LSlot) (g : BitVec 3) (a : BitVec 4) (m : BitVec 4) (w : BitVec 1) : RoundTrip.Statement (.fwait sl g a m w) := by
  have hg := g.isLt; have ha := a.isLt; have hm := m.isLt; have hw := w.isLt
  let ds : List (Nat × Nat) := [(w.toNat, 1), (0, 7), (m.toNat, 4), (a.toNat, 4), (0, 7), (g.toNat, 3), (7, 6)]
  have hop : digits ds / 2 ^ 26 = 7 := digits_top (l := ds) (k := 6) rfl rfl
  have dec : decodeL sl (digits ds) = checked (.fwait sl g a m w) := by
    rw [decodeL, hop]
    simp only [fx_digit ds 1 1 7 0 rfl rfl rfl, fx_digit ds 4 16 7 0 rfl rfl rfl, fld_digit w ds 0 0 rfl rfl,
      fld_digit m ds 2 8 rfl rfl, fld_digit a ds 3 12 rfl rfl, fld_digit g ds 5 23 rfl rfl, Bool.and_self, if_true]
  refine rt_word ds rfl rfl (by simp only [sum_nil, sum_cons, ds, digits_nil, digits_cons]; omega) rfl (by rw [hasExt, hop]; cases sl <;> rfl)
    (fun x => (decodeSlot_l sl _ x).trans dec)

/-- `.park` and its word. -/
theorem RoundTrip.park (sl : LSlot) (g : BitVec 3) (r : BitVec 4) (f : BitVec 3) (p : BitVec 2) (e : BitVec 6) : RoundTrip.Statement (.park sl g r f p e) := by
  have hg := g.isLt; have hr := r.isLt; have hf := f.isLt; have hp := p.isLt
  have he := e.isLt
  let ds : List (Nat × Nat) := [(e.toNat, 6), (p.toNat, 2), (0, 8), (f.toNat, 3), (r.toNat, 4), (g.toNat, 3), (8, 6)]
  have hop : digits ds / 2 ^ 26 = 8 := digits_top (l := ds) (k := 6) rfl rfl
  have dec : decodeL sl (digits ds) = checked (.park sl g r f p e) := by
    rw [decodeL, hop]
    simp only [fx_digit ds 2 8 8 0 rfl rfl rfl, fld_digit e ds 0 0 rfl rfl, fld_digit p ds 1 6 rfl rfl,
      fld_digit f ds 3 16 rfl rfl, fld_digit r ds 4 19 rfl rfl, fld_digit g ds 5 23 rfl rfl, if_true]
  refine rt_word ds rfl rfl (by simp only [sum_nil, sum_cons, ds, digits_nil, digits_cons]; omega) rfl (by rw [hasExt, hop]; cases sl <;> rfl)
    (fun x => (decodeSlot_l sl _ x).trans dec)

/-- `.unpark` and its word. -/
theorem RoundTrip.unpark (sl : LSlot) (g : BitVec 3) (r : BitVec 4) (f : BitVec 3) (e : BitVec 6) : RoundTrip.Statement (.unpark sl g r f e) := by
  have hg := g.isLt; have hr := r.isLt; have hf := f.isLt; have he := e.isLt
  let ds : List (Nat × Nat) := [(e.toNat, 6), (0, 10), (f.toNat, 3), (r.toNat, 4), (g.toNat, 3), (9, 6)]
  have hop : digits ds / 2 ^ 26 = 9 := digits_top (l := ds) (k := 5) rfl rfl
  have dec : decodeL sl (digits ds) = checked (.unpark sl g r f e) := by
    rw [decodeL, hop]
    simp only [fx_digit ds 1 6 10 0 rfl rfl rfl, fld_digit e ds 0 0 rfl rfl, fld_digit f ds 2 16 rfl rfl,
      fld_digit r ds 3 19 rfl rfl, fld_digit g ds 4 23 rfl rfl, if_true]
  refine rt_word ds rfl rfl (by simp only [sum_nil, sum_cons, ds, digits_nil, digits_cons]; omega) rfl (by rw [hasExt, hop]; cases sl <;> rfl)
    (fun x => (decodeSlot_l sl _ x).trans dec)

/-- `.gld` and its word. -/
theorem RoundTrip.gld (g : BitVec 3) (r : BitVec 4) (f : BitVec 3) (a : BitVec 4) (m : BitVec 4) (c : BitVec 3) (o : BitVec 2) (z : BitVec 2) : RoundTrip.Statement (.gld g r f a m c o z) := by
  have hg := g.isLt; have hr := r.isLt; have hf := f.isLt; have ha := a.isLt
  have hm := m.isLt; have hc := c.isLt; have ho := o.isLt; have hz := z.isLt
  let ds : List (Nat × Nat) := [(z.toNat, 2), (o.toNat, 2), (c.toNat, 3), (0, 1), (m.toNat, 4), (a.toNat, 4), (f.toNat, 3), (r.toNat, 4), (g.toNat, 3), (0, 6)]
  have hop : digits ds / 2 ^ 26 = 0 := digits_top (l := ds) (k := 9) rfl rfl
  have dec : decodeGm (digits ds) = checked (.gld g r f a m c o z) := by
    rw [decodeGm, hop]
    simp only [fx_digit ds 3 7 1 0 rfl rfl rfl, fld_digit z ds 0 0 rfl rfl, fld_digit o ds 1 2 rfl rfl,
      fld_digit c ds 2 4 rfl rfl, fld_digit m ds 4 8 rfl rfl, fld_digit a ds 5 12 rfl rfl, fld_digit f ds 6 16 rfl rfl,
      fld_digit r ds 7 19 rfl rfl, fld_digit g ds 8 23 rfl rfl, if_true]
  exact rt_word ds rfl rfl (by simp only [sum_nil, sum_cons, ds, digits_nil, digits_cons]; omega) rfl (by rw [hasExt, hop]; rfl)
    (fun x => (decodeSlot_gm _ x).trans dec)

/-- `.gst` and its word. -/
theorem RoundTrip.gst (g : BitVec 3) (r : BitVec 4) (f : BitVec 3) (a : BitVec 4) (m : BitVec 4) (c : BitVec 3) (o : BitVec 2) (z : BitVec 2) : RoundTrip.Statement (.gst g r f a m c o z) := by
  have hg := g.isLt; have hr := r.isLt; have hf := f.isLt; have ha := a.isLt
  have hm := m.isLt; have hc := c.isLt; have ho := o.isLt; have hz := z.isLt
  let ds : List (Nat × Nat) := [(z.toNat, 2), (o.toNat, 2), (c.toNat, 3), (0, 1), (m.toNat, 4), (a.toNat, 4), (f.toNat, 3), (r.toNat, 4), (g.toNat, 3), (1, 6)]
  have hop : digits ds / 2 ^ 26 = 1 := digits_top (l := ds) (k := 9) rfl rfl
  have dec : decodeGm (digits ds) = checked (.gst g r f a m c o z) := by
    rw [decodeGm, hop]
    simp only [fx_digit ds 3 7 1 0 rfl rfl rfl, fld_digit z ds 0 0 rfl rfl, fld_digit o ds 1 2 rfl rfl,
      fld_digit c ds 2 4 rfl rfl, fld_digit m ds 4 8 rfl rfl, fld_digit a ds 5 12 rfl rfl, fld_digit f ds 6 16 rfl rfl,
      fld_digit r ds 7 19 rfl rfl, fld_digit g ds 8 23 rfl rfl, if_true]
  exact rt_word ds rfl rfl (by simp only [sum_nil, sum_cons, ds, digits_nil, digits_cons]; omega) rfl (by rw [hasExt, hop]; rfl)
    (fun x => (decodeSlot_gm _ x).trans dec)

/-- `.gam` and its word. -/
theorem RoundTrip.gam (g : BitVec 3) (r : BitVec 4) (f : BitVec 3) (a : BitVec 4) (m : BitVec 4) (c : BitVec 3) (o : BitVec 2) (n : BitVec 3) : RoundTrip.Statement (.gam g r f a m c o n) := by
  have hg := g.isLt; have hr := r.isLt; have hf := f.isLt; have ha := a.isLt
  have hm := m.isLt; have hc := c.isLt; have ho := o.isLt; have hn := n.isLt
  let ds : List (Nat × Nat) := [(n.toNat, 3), (o.toNat, 2), (c.toNat, 3), (m.toNat, 4), (a.toNat, 4), (f.toNat, 3), (r.toNat, 4), (g.toNat, 3), (2, 6)]
  have hop : digits ds / 2 ^ 26 = 2 := digits_top (l := ds) (k := 8) rfl rfl
  have dec : decodeGm (digits ds) = checked (.gam g r f a m c o n) := by
    rw [decodeGm, hop]
    simp only [fld_digit n ds 0 0 rfl rfl, fld_digit o ds 1 3 rfl rfl, fld_digit c ds 2 5 rfl rfl,
      fld_digit m ds 3 8 rfl rfl, fld_digit a ds 4 12 rfl rfl, fld_digit f ds 5 16 rfl rfl,
      fld_digit r ds 6 19 rfl rfl, fld_digit g ds 7 23 rfl rfl]
  exact rt_word ds rfl rfl (by simp only [sum_nil, sum_cons, ds, digits_nil, digits_cons]; omega) rfl (by rw [hasExt, hop]; rfl)
    (fun x => (decodeSlot_gm _ x).trans dec)

/-- `.ljn` and its word. -/
theorem RoundTrip.ljn (g : BitVec 3) (r : BitVec 4) (f : BitVec 3) (a : BitVec 4) (m : BitVec 4) : RoundTrip.Statement (.ljn g r f a m) := by
  have hg := g.isLt; have hr := r.isLt; have hf := f.isLt; have ha := a.isLt
  have hm := m.isLt
  let ds : List (Nat × Nat) := [(0, 8), (m.toNat, 4), (a.toNat, 4), (f.toNat, 3), (r.toNat, 4), (g.toNat, 3), (3, 6)]
  have hop : digits ds / 2 ^ 26 = 3 := digits_top (l := ds) (k := 6) rfl rfl
  have dec : decodeGm (digits ds) = checked (.ljn g r f a m) := by
    rw [decodeGm, hop]
    simp only [fx_digit ds 0 0 8 0 rfl rfl rfl, fld_digit m ds 1 8 rfl rfl, fld_digit a ds 2 12 rfl rfl,
      fld_digit f ds 3 16 rfl rfl, fld_digit r ds 4 19 rfl rfl, fld_digit g ds 5 23 rfl rfl, if_true]
  exact rt_word ds rfl rfl (by simp only [sum_nil, sum_cons, ds, digits_nil, digits_cons]; omega) rfl (by rw [hasExt, hop]; rfl)
    (fun x => (decodeSlot_gm _ x).trans dec)

/-- `.lwt` and its word. -/
theorem RoundTrip.lwt (g : BitVec 3) (r : BitVec 4) (f : BitVec 3) (a : BitVec 4) (m : BitVec 4) (o : BitVec 2) : RoundTrip.Statement (.lwt g r f a m o) := by
  have hg := g.isLt; have hr := r.isLt; have hf := f.isLt; have ha := a.isLt
  have hm := m.isLt; have ho := o.isLt
  let ds : List (Nat × Nat) := [(0, 2), (o.toNat, 2), (0, 4), (m.toNat, 4), (a.toNat, 4), (f.toNat, 3), (r.toNat, 4), (g.toNat, 3), (4, 6)]
  have hop : digits ds / 2 ^ 26 = 4 := digits_top (l := ds) (k := 8) rfl rfl
  have dec : decodeGm (digits ds) = checked (.lwt g r f a m o) := by
    rw [decodeGm, hop]
    simp only [fx_digit ds 0 0 2 0 rfl rfl rfl, fx_digit ds 2 4 4 0 rfl rfl rfl, fld_digit o ds 1 2 rfl rfl,
      fld_digit m ds 3 8 rfl rfl, fld_digit a ds 4 12 rfl rfl, fld_digit f ds 5 16 rfl rfl,
      fld_digit r ds 6 19 rfl rfl, fld_digit g ds 7 23 rfl rfl, Bool.and_self, if_true]
  exact rt_word ds rfl rfl (by simp only [sum_nil, sum_cons, ds, digits_nil, digits_cons]; omega) rfl (by rw [hasExt, hop]; rfl)
    (fun x => (decodeSlot_gm _ x).trans dec)

/-- `.gpf` and its word. -/
theorem RoundTrip.gpf (g : BitVec 3) (a : BitVec 4) (m : BitVec 4) (t : BitVec 2) : RoundTrip.Statement (.gpf g a m t) := by
  have hg := g.isLt; have ha := a.isLt; have hm := m.isLt; have ht := t.isLt
  let ds : List (Nat × Nat) := [(t.toNat, 2), (0, 6), (m.toNat, 4), (a.toNat, 4), (0, 7), (g.toNat, 3), (5, 6)]
  have hop : digits ds / 2 ^ 26 = 5 := digits_top (l := ds) (k := 6) rfl rfl
  have dec : decodeGm (digits ds) = checked (.gpf g a m t) := by
    rw [decodeGm, hop]
    simp only [fx_digit ds 1 2 6 0 rfl rfl rfl, fx_digit ds 4 16 7 0 rfl rfl rfl, fld_digit t ds 0 0 rfl rfl,
      fld_digit m ds 2 8 rfl rfl, fld_digit a ds 3 12 rfl rfl, fld_digit g ds 5 23 rfl rfl, Bool.and_self, if_true]
  exact rt_word ds rfl rfl (by simp only [sum_nil, sum_cons, ds, digits_nil, digits_cons]; omega) rfl (by rw [hasExt, hop]; rfl)
    (fun x => (decodeSlot_gm _ x).trans dec)

/-- `.gcb` and its word. -/
theorem RoundTrip.gcb (g : BitVec 3) (a : BitVec 4) (m : BitVec 4) (t : BitVec 2) : RoundTrip.Statement (.gcb g a m t) := by
  have hg := g.isLt; have ha := a.isLt; have hm := m.isLt; have ht := t.isLt
  let ds : List (Nat × Nat) := [(t.toNat, 2), (0, 6), (m.toNat, 4), (a.toNat, 4), (0, 7), (g.toNat, 3), (6, 6)]
  have hop : digits ds / 2 ^ 26 = 6 := digits_top (l := ds) (k := 6) rfl rfl
  have dec : decodeGm (digits ds) = checked (.gcb g a m t) := by
    rw [decodeGm, hop]
    simp only [fx_digit ds 1 2 6 0 rfl rfl rfl, fx_digit ds 4 16 7 0 rfl rfl rfl, fld_digit t ds 0 0 rfl rfl,
      fld_digit m ds 2 8 rfl rfl, fld_digit a ds 3 12 rfl rfl, fld_digit g ds 5 23 rfl rfl, Bool.and_self, if_true]
  exact rt_word ds rfl rfl (by simp only [sum_nil, sum_cons, ds, digits_nil, digits_cons]; omega) rfl (by rw [hasExt, hop]; rfl)
    (fun x => (decodeSlot_gm _ x).trans dec)

/-- `.xlt` and its word. -/
theorem RoundTrip.xlt (g : BitVec 3) (d : BitVec 5) (a : BitVec 4) (w : BitVec 1) : RoundTrip.Statement (.xlt g d a w) := by
  have hg := g.isLt; have hd := d.isLt; have ha := a.isLt; have hw := w.isLt
  let ds : List (Nat × Nat) := [(w.toNat, 1), (0, 13), (a.toNat, 4), (d.toNat, 5), (g.toNat, 3), (0, 6)]
  have hop : digits ds / 2 ^ 26 = 0 := digits_top (l := ds) (k := 5) rfl rfl
  have dec : decodeXl (digits ds) = checked (.xlt g d a w) := by
    rw [decodeXl, hop]
    simp only [fx_digit ds 1 1 13 0 rfl rfl rfl, fld_digit w ds 0 0 rfl rfl, fld_digit a ds 2 14 rfl rfl,
      fld_digit d ds 3 18 rfl rfl, fld_digit g ds 4 23 rfl rfl, if_true]
  exact rt_word ds rfl rfl (by simp only [sum_nil, sum_cons, ds, digits_nil, digits_cons]; omega) rfl (by rw [hasExt, hop]; rfl)
    (fun x => (decodeSlot_xl _ x).trans dec)

/-- `.xlp` and its word. -/
theorem RoundTrip.xlp (g : BitVec 3) (d : BitVec 5) (a : BitVec 4) (w : BitVec 1) : RoundTrip.Statement (.xlp g d a w) := by
  have hg := g.isLt; have hd := d.isLt; have ha := a.isLt; have hw := w.isLt
  let ds : List (Nat × Nat) := [(w.toNat, 1), (0, 13), (a.toNat, 4), (d.toNat, 5), (g.toNat, 3), (1, 6)]
  have hop : digits ds / 2 ^ 26 = 1 := digits_top (l := ds) (k := 5) rfl rfl
  have dec : decodeXl (digits ds) = checked (.xlp g d a w) := by
    rw [decodeXl, hop]
    simp only [fx_digit ds 1 1 13 0 rfl rfl rfl, fld_digit w ds 0 0 rfl rfl, fld_digit a ds 2 14 rfl rfl,
      fld_digit d ds 3 18 rfl rfl, fld_digit g ds 4 23 rfl rfl, if_true]
  exact rt_word ds rfl rfl (by simp only [sum_nil, sum_cons, ds, digits_nil, digits_cons]; omega) rfl (by rw [hasExt, hop]; rfl)
    (fun x => (decodeSlot_xl _ x).trans dec)

/-- `.xinv` and its word. -/
theorem RoundTrip.xinv (g : BitVec 3) (a : BitVec 4) (n : BitVec 14) : RoundTrip.Statement (.xinv g a n) := by
  have hg := g.isLt; have ha := a.isLt; have hn := n.isLt
  let ds : List (Nat × Nat) := [(n.toNat, 14), (a.toNat, 4), (0, 5), (g.toNat, 3), (2, 6)]
  have hop : digits ds / 2 ^ 26 = 2 := digits_top (l := ds) (k := 4) rfl rfl
  have dec : decodeXl (digits ds) = checked (.xinv g a n) := by
    rw [decodeXl, hop]
    simp only [fx_digit ds 2 18 5 0 rfl rfl rfl, fld_digit n ds 0 0 rfl rfl, fld_digit a ds 1 14 rfl rfl,
      fld_digit g ds 3 23 rfl rfl, if_true]
  exact rt_word ds rfl rfl (by simp only [sum_nil, sum_cons, ds, digits_nil, digits_cons]; omega) rfl (by rw [hasExt, hop]; rfl)
    (fun x => (decodeSlot_xl _ x).trans dec)

/-- `.xfer` and its word. -/
theorem RoundTrip.xfer (g : BitVec 3) (r : BitVec 5) (p : BitVec 2) (v : BitVec 1) (t : BitVec 6) : RoundTrip.Statement (.xfer g r p v t) := by
  have hg := g.isLt; have hr := r.isLt; have hp := p.isLt; have hv := v.isLt
  have ht := t.isLt
  let ds : List (Nat × Nat) := [(t.toNat, 6), (v.toNat, 1), (0, 9), (p.toNat, 2), (r.toNat, 5), (g.toNat, 3), (0, 6)]
  have hop : digits ds / 2 ^ 26 = 0 := digits_top (l := ds) (k := 6) rfl rfl
  have dec : decodeEx (digits ds) = checked (.xfer g r p v t) := by
    rw [decodeEx, hop]
    simp only [fx_digit ds 2 7 9 0 rfl rfl rfl, fld_digit t ds 0 0 rfl rfl, fld_digit v ds 1 6 rfl rfl,
      fld_digit p ds 3 16 rfl rfl, fld_digit r ds 4 18 rfl rfl, fld_digit g ds 5 23 rfl rfl, if_true]
  exact rt_word ds rfl rfl (by simp only [sum_nil, sum_cons, ds, digits_nil, digits_cons]; omega) rfl (by rw [hasExt, hop]; rfl)
    (fun x => (decodeSlot_ex _ x).trans dec)

/-- `.xwt` and its word. -/
theorem RoundTrip.xwt (g : BitVec 3) (t : BitVec 6) : RoundTrip.Statement (.xwt g t) := by
  have hg := g.isLt; have ht := t.isLt
  let ds : List (Nat × Nat) := [(t.toNat, 6), (0, 17), (g.toNat, 3), (1, 6)]
  have hop : digits ds / 2 ^ 26 = 1 := digits_top (l := ds) (k := 3) rfl rfl
  have dec : decodeEx (digits ds) = checked (.xwt g t) := by
    rw [decodeEx, hop]
    simp only [fx_digit ds 1 6 17 0 rfl rfl rfl, fld_digit t ds 0 0 rfl rfl, fld_digit g ds 2 23 rfl rfl, if_true]
  exact rt_word ds rfl rfl (by simp only [sum_nil, sum_cons, ds, digits_nil, digits_cons]; omega) rfl (by rw [hasExt, hop]; rfl)
    (fun x => (decodeSlot_ex _ x).trans dec)

/-- `.rstr` and its word. -/
theorem RoundTrip.rstr (g : BitVec 3) (r : BitVec 5) (p : BitVec 2) (s : BitVec 5) (q : BitVec 2) (n : BitVec 9) : RoundTrip.Statement (.rstr g r p s q n) := by
  have hg := g.isLt; have hr := r.isLt; have hp := p.isLt; have hs := s.isLt
  have hq := q.isLt; have hn := n.isLt
  let ds : List (Nat × Nat) := [(n.toNat, 9), (q.toNat, 2), (s.toNat, 5), (p.toNat, 2), (r.toNat, 5), (g.toNat, 3), (2, 6)]
  have hop : digits ds / 2 ^ 26 = 2 := digits_top (l := ds) (k := 6) rfl rfl
  have dec : decodeEx (digits ds) = checked (.rstr g r p s q n) := by
    rw [decodeEx, hop]
    simp only [fld_digit n ds 0 0 rfl rfl, fld_digit q ds 1 9 rfl rfl, fld_digit s ds 2 11 rfl rfl,
      fld_digit p ds 3 16 rfl rfl, fld_digit r ds 4 18 rfl rfl, fld_digit g ds 5 23 rfl rfl]
  exact rt_word ds rfl rfl (by simp only [sum_nil, sum_cons, ds, digits_nil, digits_cons]; omega) rfl (by rw [hasExt, hop]; rfl)
    (fun x => (decodeSlot_ex _ x).trans dec)

/-- `.send` and its word. -/
theorem RoundTrip.send (g : BitVec 3) (r : BitVec 5) (p : BitVec 2) (s : BitVec 5) (q : BitVec 2) : RoundTrip.Statement (.send g r p s q) := by
  have hg := g.isLt; have hr := r.isLt; have hp := p.isLt; have hs := s.isLt
  have hq := q.isLt
  let ds : List (Nat × Nat) := [(0, 9), (q.toNat, 2), (s.toNat, 5), (p.toNat, 2), (r.toNat, 5), (g.toNat, 3), (3, 6)]
  have hop : digits ds / 2 ^ 26 = 3 := digits_top (l := ds) (k := 6) rfl rfl
  have dec : decodeEx (digits ds) = checked (.send g r p s q) := by
    rw [decodeEx, hop]
    simp only [fx_digit ds 0 0 9 0 rfl rfl rfl, fld_digit q ds 1 9 rfl rfl, fld_digit s ds 2 11 rfl rfl,
      fld_digit p ds 3 16 rfl rfl, fld_digit r ds 4 18 rfl rfl, fld_digit g ds 5 23 rfl rfl, if_true]
  exact rt_word ds rfl rfl (by simp only [sum_nil, sum_cons, ds, digits_nil, digits_cons]; omega) rfl (by rw [hasExt, hop]; rfl)
    (fun x => (decodeSlot_ex _ x).trans dec)

/-- `.sendQueue` and its word. -/
theorem RoundTrip.sendQueue (g : BitVec 3) (r : BitVec 5) (p : BitVec 2) (s : BitVec 5) (q : BitVec 2) (n : BitVec 3) : RoundTrip.Statement (.sendQueue g r p s q n) := by
  have hg := g.isLt; have hr := r.isLt; have hp := p.isLt; have hs := s.isLt
  have hq := q.isLt; have hn := n.isLt
  let ds : List (Nat × Nat) := [(n.toNat, 3), (1, 6), (q.toNat, 2), (s.toNat, 5), (p.toNat, 2), (r.toNat, 5), (g.toNat, 3), (3, 6)]
  have hop : digits ds / 2 ^ 26 = 3 := digits_top (l := ds) (k := 7) rfl rfl
  have dec : decodeEx (digits ds) = checked (.sendQueue g r p s q n) := by
    rw [decodeEx, hop]
    simp only [fx_not (digits ds) 0 9 0 (by simp only [ds, digits_nil, digits_cons]; omega), fx_digit ds 1 3 6 1 rfl rfl rfl,
      fld_digit n ds 0 0 rfl rfl, fld_digit q ds 2 9 rfl rfl, fld_digit s ds 3 11 rfl rfl, fld_digit p ds 4 16 rfl rfl,
      fld_digit r ds 5 18 rfl rfl, fld_digit g ds 6 23 rfl rfl, Bool.false_eq_true, if_false, if_true]
  exact rt_word ds rfl rfl (by simp only [sum_nil, sum_cons, ds, digits_nil, digits_cons]; omega) rfl (by rw [hasExt, hop]; rfl)
    (fun x => (decodeSlot_ex _ x).trans dec)

/-- `.recv` and its word. -/
theorem RoundTrip.recv (g : BitVec 3) (r : BitVec 5) (p : BitVec 2) (s : BitVec 5) (q : BitVec 2) : RoundTrip.Statement (.recv g r p s q) := by
  have hg := g.isLt; have hr := r.isLt; have hp := p.isLt; have hs := s.isLt
  have hq := q.isLt
  let ds : List (Nat × Nat) := [(0, 9), (q.toNat, 2), (s.toNat, 5), (p.toNat, 2), (r.toNat, 5), (g.toNat, 3), (4, 6)]
  have hop : digits ds / 2 ^ 26 = 4 := digits_top (l := ds) (k := 6) rfl rfl
  have dec : decodeEx (digits ds) = checked (.recv g r p s q) := by
    rw [decodeEx, hop]
    simp only [fx_digit ds 0 0 9 0 rfl rfl rfl, fld_digit q ds 1 9 rfl rfl, fld_digit s ds 2 11 rfl rfl,
      fld_digit p ds 3 16 rfl rfl, fld_digit r ds 4 18 rfl rfl, fld_digit g ds 5 23 rfl rfl, if_true]
  exact rt_word ds rfl rfl (by simp only [sum_nil, sum_cons, ds, digits_nil, digits_cons]; omega) rfl (by rw [hasExt, hop]; rfl)
    (fun x => (decodeSlot_ex _ x).trans dec)

/-- `.dlc` and its word. -/
theorem RoundTrip.dlc (g : BitVec 3) (r : BitVec 5) (p : BitVec 2) : RoundTrip.Statement (.dlc g r p) := by
  have hg := g.isLt; have hr := r.isLt; have hp := p.isLt
  let ds : List (Nat × Nat) := [(0, 16), (p.toNat, 2), (r.toNat, 5), (g.toNat, 3), (5, 6)]
  have hop : digits ds / 2 ^ 26 = 5 := digits_top (l := ds) (k := 4) rfl rfl
  have dec : decodeEx (digits ds) = checked (.dlc g r p) := by
    rw [decodeEx, hop]
    simp only [fx_digit ds 0 0 16 0 rfl rfl rfl, fld_digit p ds 1 16 rfl rfl, fld_digit r ds 2 18 rfl rfl,
      fld_digit g ds 3 23 rfl rfl, if_true]
  exact rt_word ds rfl rfl (by simp only [sum_nil, sum_cons, ds, digits_nil, digits_cons]; omega) rfl (by rw [hasExt, hop]; rfl)
    (fun x => (decodeSlot_ex _ x).trans dec)

/-- `.dlcApportioned` and its word. -/
theorem RoundTrip.dlcApportioned (g : BitVec 3) (r : BitVec 5) (p : BitVec 2) : RoundTrip.Statement (.dlcApportioned g r p) := by
  have hg := g.isLt; have hr := r.isLt; have hp := p.isLt
  let ds : List (Nat × Nat) := [(1, 16), (p.toNat, 2), (r.toNat, 5), (g.toNat, 3), (5, 6)]
  have hop : digits ds / 2 ^ 26 = 5 := digits_top (l := ds) (k := 4) rfl rfl
  have dec : decodeEx (digits ds) = checked (.dlcApportioned g r p) := by
    rw [decodeEx, hop]
    simp only [fx_not (digits ds) 0 16 0 (by simp only [ds, digits_nil, digits_cons]; omega), fx_digit ds 0 0 16 1 rfl rfl rfl,
      fld_digit p ds 1 16 rfl rfl, fld_digit r ds 2 18 rfl rfl, fld_digit g ds 3 23 rfl rfl, Bool.false_eq_true,
      if_false, if_true]
  exact rt_word ds rfl rfl (by simp only [sum_nil, sum_cons, ds, digits_nil, digits_cons]; omega) rfl (by rw [hasExt, hop]; rfl)
    (fun x => (decodeSlot_ex _ x).trans dec)

/-- `.fmtImm` and its word. -/
theorem RoundTrip.fmtImm (g : BitVec 3) (i : BitVec 16) : RoundTrip.Statement (.fmtImm g i) := by
  have hg := g.isLt; have hi := i.isLt
  let ds : List (Nat × Nat) := [(i.toNat, 16), (0, 7), (g.toNat, 3), (0, 6)]
  have hop : digits ds / 2 ^ 26 = 0 := digits_top (l := ds) (k := 3) rfl rfl
  have dec : decodeCx (digits ds) = checked (.fmtImm g i) := by
    rw [decodeCx, hop]
    simp only [fx_digit ds 1 16 7 0 rfl rfl rfl, fld_digit i ds 0 0 rfl rfl, fld_digit g ds 2 23 rfl rfl, if_true]
  exact rt_word ds rfl rfl (by simp only [sum_nil, sum_cons, ds, digits_nil, digits_cons]; omega) rfl (by rw [hasExt, hop]; rfl)
    (fun x => (decodeSlot_cx _ x).trans dec)

/-- `.fmtReg` and its word. -/
theorem RoundTrip.fmtReg (g : BitVec 3) (p : BitVec 2) (r : BitVec 5) : RoundTrip.Statement (.fmtReg g p r) := by
  have hg := g.isLt; have hp := p.isLt; have hr := r.isLt
  let ds : List (Nat × Nat) := [(r.toNat, 5), (p.toNat, 2), (32768, 16), (g.toNat, 3), (0, 6)]
  have hop : digits ds / 2 ^ 26 = 0 := digits_top (l := ds) (k := 4) rfl rfl
  have dec : decodeCx (digits ds) = checked (.fmtReg g p r) := by
    rw [decodeCx, hop]
    simp only [fx_not (digits ds) 16 7 0 (by simp only [ds, digits_nil, digits_cons]; omega), fx_digit ds 2 7 16 32768 rfl rfl rfl,
      fld_digit r ds 0 0 rfl rfl, fld_digit p ds 1 5 rfl rfl, fld_digit g ds 3 23 rfl rfl, Bool.false_eq_true,
      if_false, if_true]
  exact rt_word ds rfl rfl (by simp only [sum_nil, sum_cons, ds, digits_nil, digits_cons]; omega) rfl (by rw [hasExt, hop]; rfl)
    (fun x => (decodeSlot_cx _ x).trans dec)

/-- `.sclt` and its word. -/
theorem RoundTrip.sclt (g : BitVec 3) (q : BitVec 2) (h : BitVec 5) (p : BitVec 2) (l : BitVec 5) : RoundTrip.Statement (.sclt g q h p l) := by
  have hg := g.isLt; have hq := q.isLt; have hh := h.isLt; have hp := p.isLt
  have hl := l.isLt
  let ds : List (Nat × Nat) := [(l.toNat, 5), (p.toNat, 2), (h.toNat, 5), (q.toNat, 2), (0, 9), (g.toNat, 3), (1, 6)]
  have hop : digits ds / 2 ^ 26 = 1 := digits_top (l := ds) (k := 6) rfl rfl
  have dec : decodeCx (digits ds) = checked (.sclt g q h p l) := by
    rw [decodeCx, hop]
    simp only [fx_digit ds 4 14 9 0 rfl rfl rfl, fld_digit l ds 0 0 rfl rfl, fld_digit p ds 1 5 rfl rfl,
      fld_digit h ds 2 7 rfl rfl, fld_digit q ds 3 12 rfl rfl, fld_digit g ds 5 23 rfl rfl, if_true]
  exact rt_word ds rfl rfl (by simp only [sum_nil, sum_cons, ds, digits_nil, digits_cons]; omega) rfl (by rw [hasExt, hop]; rfl)
    (fun x => (decodeSlot_cx _ x).trans dec)

/-- `.bar` and its word. -/
theorem RoundTrip.bar (g : BitVec 3) (b : BitVec 11) : RoundTrip.Statement (.bar g b) := by
  have hg := g.isLt; have hb := b.isLt
  let ds : List (Nat × Nat) := [(b.toNat, 11), (0, 12), (g.toNat, 3), (2, 6)]
  have hop : digits ds / 2 ^ 26 = 2 := digits_top (l := ds) (k := 3) rfl rfl
  have dec : decodeCx (digits ds) = checked (.bar g b) := by
    rw [decodeCx, hop]
    simp only [fx_digit ds 1 11 12 0 rfl rfl rfl, fld_digit b ds 0 0 rfl rfl, fld_digit g ds 2 23 rfl rfl, if_true]
  exact rt_word ds rfl rfl (by simp only [sum_nil, sum_cons, ds, digits_nil, digits_cons]; omega) rfl (by rw [hasExt, hop]; rfl)
    (fun x => (decodeSlot_cx _ x).trans dec)

/-- `.barArrive` and its word. -/
theorem RoundTrip.barArrive (g : BitVec 3) (b : BitVec 11) : RoundTrip.Statement (.barArrive g b) := by
  have hg := g.isLt; have hb := b.isLt
  let ds : List (Nat × Nat) := [(b.toNat, 11), (1, 12), (g.toNat, 3), (2, 6)]
  have hop : digits ds / 2 ^ 26 = 2 := digits_top (l := ds) (k := 3) rfl rfl
  have dec : decodeCx (digits ds) = checked (.barArrive g b) := by
    rw [decodeCx, hop]
    simp only [fx_not (digits ds) 11 12 0 (by simp only [ds, digits_nil, digits_cons]; omega), fx_digit ds 1 11 12 1 rfl rfl rfl,
      fld_digit b ds 0 0 rfl rfl, fld_digit g ds 2 23 rfl rfl, Bool.false_eq_true, if_false, if_true]
  exact rt_word ds rfl rfl (by simp only [sum_nil, sum_cons, ds, digits_nil, digits_cons]; omega) rfl (by rw [hasExt, hop]; rfl)
    (fun x => (decodeSlot_cx _ x).trans dec)

/-- `.barWait` and its word. -/
theorem RoundTrip.barWait (g : BitVec 3) (b : BitVec 11) : RoundTrip.Statement (.barWait g b) := by
  have hg := g.isLt; have hb := b.isLt
  let ds : List (Nat × Nat) := [(b.toNat, 11), (2, 12), (g.toNat, 3), (2, 6)]
  have hop : digits ds / 2 ^ 26 = 2 := digits_top (l := ds) (k := 3) rfl rfl
  have dec : decodeCx (digits ds) = checked (.barWait g b) := by
    rw [decodeCx, hop]
    simp only [fx_not (digits ds) 11 12 0 (by simp only [ds, digits_nil, digits_cons]; omega),
      fx_not (digits ds) 11 12 1 (by simp only [ds, digits_nil, digits_cons]; omega), fx_digit ds 1 11 12 2 rfl rfl rfl,
      fld_digit b ds 0 0 rfl rfl, fld_digit g ds 2 23 rfl rfl, Bool.false_eq_true, if_false, if_true]
  exact rt_word ds rfl rfl (by simp only [sum_nil, sum_cons, ds, digits_nil, digits_cons]; omega) rfl (by rw [hasExt, hop]; rfl)
    (fun x => (decodeSlot_cx _ x).trans dec)

/-- `.barc` and its word. -/
theorem RoundTrip.barc (g : BitVec 3) (p : BitVec 2) (r : BitVec 5) (b : BitVec 11) : RoundTrip.Statement (.barc g p r b) := by
  have hg := g.isLt; have hp := p.isLt; have hr := r.isLt; have hb := b.isLt
  let ds : List (Nat × Nat) := [(b.toNat, 11), (r.toNat, 5), (p.toNat, 2), (0, 5), (g.toNat, 3), (3, 6)]
  have hop : digits ds / 2 ^ 26 = 3 := digits_top (l := ds) (k := 5) rfl rfl
  have dec : decodeCx (digits ds) = checked (.barc g p r b) := by
    rw [decodeCx, hop]
    simp only [fx_digit ds 3 18 5 0 rfl rfl rfl, fld_digit b ds 0 0 rfl rfl, fld_digit r ds 1 11 rfl rfl,
      fld_digit p ds 2 16 rfl rfl, fld_digit g ds 4 23 rfl rfl, if_true]
  exact rt_word ds rfl rfl (by simp only [sum_nil, sum_cons, ds, digits_nil, digits_cons]; omega) rfl (by rw [hasExt, hop]; rfl)
    (fun x => (decodeSlot_cx _ x).trans dec)

/-- `.cqp` and its word. -/
theorem RoundTrip.cqp (g : BitVec 3) (p : BitVec 2) (r : BitVec 5) : RoundTrip.Statement (.cqp g p r) := by
  have hg := g.isLt; have hp := p.isLt; have hr := r.isLt
  let ds : List (Nat × Nat) := [(r.toNat, 5), (p.toNat, 2), (0, 16), (g.toNat, 3), (4, 6)]
  have hop : digits ds / 2 ^ 26 = 4 := digits_top (l := ds) (k := 4) rfl rfl
  have dec : decodeCx (digits ds) = checked (.cqp g p r) := by
    rw [decodeCx, hop]
    simp only [fx_digit ds 2 7 16 0 rfl rfl rfl, fld_digit r ds 0 0 rfl rfl, fld_digit p ds 1 5 rfl rfl,
      fld_digit g ds 3 23 rfl rfl, if_true]
  exact rt_word ds rfl rfl (by simp only [sum_nil, sum_cons, ds, digits_nil, digits_cons]; omega) rfl (by rw [hasExt, hop]; rfl)
    (fun x => (decodeSlot_cx _ x).trans dec)

/-- `.rel` and its word. -/
theorem RoundTrip.rel (g : BitVec 3) (m : BitVec 8) : RoundTrip.Statement (.rel g m) := by
  have hg := g.isLt; have hm := m.isLt
  let ds : List (Nat × Nat) := [(m.toNat, 8), (0, 15), (g.toNat, 3), (5, 6)]
  have hop : digits ds / 2 ^ 26 = 5 := digits_top (l := ds) (k := 3) rfl rfl
  have dec : decodeCx (digits ds) = checked (.rel g m) := by
    rw [decodeCx, hop]
    simp only [fx_digit ds 1 8 15 0 rfl rfl rfl, fld_digit m ds 0 0 rfl rfl, fld_digit g ds 2 23 rfl rfl, if_true]
  exact rt_word ds rfl rfl (by simp only [sum_nil, sum_cons, ds, digits_nil, digits_cons]; omega) rfl (by rw [hasExt, hop]; rfl)
    (fun x => (decodeSlot_cx _ x).trans dec)

/-- `.csrr` and its word. -/
theorem RoundTrip.csrr (g : BitVec 3) (d : BitVec 5) (n : BitVec 12) : RoundTrip.Statement (.csrr g d n) := by
  have hg := g.isLt; have hd := d.isLt; have hn := n.isLt
  let ds : List (Nat × Nat) := [(n.toNat, 12), (0, 6), (d.toNat, 5), (g.toNat, 3), (6, 6)]
  have hop : digits ds / 2 ^ 26 = 6 := digits_top (l := ds) (k := 4) rfl rfl
  have dec : decodeCx (digits ds) = checked (.csrr g d n) := by
    rw [decodeCx, hop]
    simp only [fx_digit ds 1 12 6 0 rfl rfl rfl, fld_digit n ds 0 0 rfl rfl, fld_digit d ds 2 18 rfl rfl,
      fld_digit g ds 3 23 rfl rfl, if_true]
  exact rt_word ds rfl rfl (by simp only [sum_nil, sum_cons, ds, digits_nil, digits_cons]; omega) rfl (by rw [hasExt, hop]; rfl)
    (fun x => (decodeSlot_cx _ x).trans dec)

/-- `.csrw` and its word. -/
theorem RoundTrip.csrw (g : BitVec 3) (p : BitVec 2) (s : BitVec 5) (n : BitVec 12) : RoundTrip.Statement (.csrw g p s n) := by
  have hg := g.isLt; have hp := p.isLt; have hs := s.isLt; have hn := n.isLt
  let ds : List (Nat × Nat) := [(n.toNat, 12), (s.toNat, 5), (p.toNat, 2), (0, 4), (g.toNat, 3), (7, 6)]
  have hop : digits ds / 2 ^ 26 = 7 := digits_top (l := ds) (k := 5) rfl rfl
  have dec : decodeCx (digits ds) = checked (.csrw g p s n) := by
    rw [decodeCx, hop]
    simp only [fx_digit ds 3 19 4 0 rfl rfl rfl, fld_digit n ds 0 0 rfl rfl, fld_digit s ds 1 12 rfl rfl,
      fld_digit p ds 2 17 rfl rfl, fld_digit g ds 4 23 rfl rfl, if_true]
  exact rt_word ds rfl rfl (by simp only [sum_nil, sum_cons, ds, digits_nil, digits_cons]; omega) rfl (by rw [hasExt, hop]; rfl)
    (fun x => (decodeSlot_cx _ x).trans dec)

/-- `.br` and its word. -/
theorem RoundTrip.br (g : BitVec 3) (c : BitVec 5) (p : BitVec 2) (o : BitVec 16) : RoundTrip.Statement (.br g c p o) := by
  have hg := g.isLt; have hc := c.isLt; have hp := p.isLt; have ho := o.isLt
  let ds : List (Nat × Nat) := [(o.toNat, 16), (p.toNat, 2), (c.toNat, 5), (g.toNat, 3), (0, 6)]
  have hop : digits ds / 2 ^ 26 = 0 := digits_top (l := ds) (k := 4) rfl rfl
  have dec : decodeBr (digits ds) = checked (.br g c p o) := by
    rw [decodeBr, hop]
    simp only [fld_digit o ds 0 0 rfl rfl, fld_digit p ds 1 16 rfl rfl, fld_digit c ds 2 18 rfl rfl,
      fld_digit g ds 3 23 rfl rfl]
  exact rt_word ds rfl rfl (by simp only [sum_nil, sum_cons, ds, digits_nil, digits_cons]; omega) rfl (by rw [hasExt, hop]; rfl)
    (fun x => (decodeSlot_br _ x).trans dec)

/-- `.call` and its word. -/
theorem RoundTrip.call (g : BitVec 3) (c : BitVec 5) (p : BitVec 2) (o : BitVec 16) : RoundTrip.Statement (.call g c p o) := by
  have hg := g.isLt; have hc := c.isLt; have hp := p.isLt; have ho := o.isLt
  let ds : List (Nat × Nat) := [(o.toNat, 16), (p.toNat, 2), (c.toNat, 5), (g.toNat, 3), (1, 6)]
  have hop : digits ds / 2 ^ 26 = 1 := digits_top (l := ds) (k := 4) rfl rfl
  have dec : decodeBr (digits ds) = checked (.call g c p o) := by
    rw [decodeBr, hop]
    simp only [fld_digit o ds 0 0 rfl rfl, fld_digit p ds 1 16 rfl rfl, fld_digit c ds 2 18 rfl rfl,
      fld_digit g ds 3 23 rfl rfl]
  exact rt_word ds rfl rfl (by simp only [sum_nil, sum_cons, ds, digits_nil, digits_cons]; omega) rfl (by rw [hasExt, hop]; rfl)
    (fun x => (decodeSlot_br _ x).trans dec)

/-- `.ret` and its word. -/
theorem RoundTrip.ret (g : BitVec 3) (c : BitVec 5) (p : BitVec 2) : RoundTrip.Statement (.ret g c p) := by
  have hg := g.isLt; have hc := c.isLt; have hp := p.isLt
  let ds : List (Nat × Nat) := [(0, 16), (p.toNat, 2), (c.toNat, 5), (g.toNat, 3), (2, 6)]
  have hop : digits ds / 2 ^ 26 = 2 := digits_top (l := ds) (k := 4) rfl rfl
  have dec : decodeBr (digits ds) = checked (.ret g c p) := by
    rw [decodeBr, hop]
    simp only [fx_digit ds 0 0 16 0 rfl rfl rfl, fld_digit p ds 1 16 rfl rfl, fld_digit c ds 2 18 rfl rfl,
      fld_digit g ds 3 23 rfl rfl, if_true]
  exact rt_word ds rfl rfl (by simp only [sum_nil, sum_cons, ds, digits_nil, digits_cons]; omega) rfl (by rw [hasExt, hop]; rfl)
    (fun x => (decodeSlot_br _ x).trans dec)

/-- `.loop` and its word. -/
theorem RoundTrip.loop (g : BitVec 3) (l : BitVec 12) (n : BitVec 9) : RoundTrip.Statement (.loop g l n) := by
  have hg := g.isLt; have hl := l.isLt; have hn := n.isLt
  let ds : List (Nat × Nat) := [(n.toNat, 9), (l.toNat, 12), (0, 2), (g.toNat, 3), (3, 6)]
  have hop : digits ds / 2 ^ 26 = 3 := digits_top (l := ds) (k := 4) rfl rfl
  have dec : decodeBr (digits ds) = checked (.loop g l n) := by
    rw [decodeBr, hop]
    simp only [fx_digit ds 2 21 2 0 rfl rfl rfl, fld_digit n ds 0 0 rfl rfl, fld_digit l ds 1 9 rfl rfl,
      fld_digit g ds 3 23 rfl rfl, if_true]
  exact rt_word ds rfl rfl (by simp only [sum_nil, sum_cons, ds, digits_nil, digits_cons]; omega) rfl (by rw [hasExt, hop]; rfl)
    (fun x => (decodeSlot_br _ x).trans dec)

/-- `.loopReg` and its word. -/
theorem RoundTrip.loopReg (g : BitVec 3) (l : BitVec 12) (p : BitVec 2) (r : BitVec 5) : RoundTrip.Statement (.loopReg g l p r) := by
  have hg := g.isLt; have hl := l.isLt; have hp := p.isLt; have hr := r.isLt
  let ds : List (Nat × Nat) := [(r.toNat, 5), (p.toNat, 2), (0, 2), (l.toNat, 12), (1, 2), (g.toNat, 3), (3, 6)]
  have hop : digits ds / 2 ^ 26 = 3 := digits_top (l := ds) (k := 6) rfl rfl
  have dec : decodeBr (digits ds) = checked (.loopReg g l p r) := by
    rw [decodeBr, hop]
    simp only [fx_not (digits ds) 21 2 0 (by simp only [ds, digits_nil, digits_cons]; omega), fx_digit ds 2 7 2 0 rfl rfl rfl,
      fx_digit ds 4 21 2 1 rfl rfl rfl, fld_digit r ds 0 0 rfl rfl, fld_digit p ds 1 5 rfl rfl,
      fld_digit l ds 3 9 rfl rfl, fld_digit g ds 5 23 rfl rfl, Bool.false_eq_true, if_false, Bool.and_self, if_true]
  exact rt_word ds rfl rfl (by simp only [sum_nil, sum_cons, ds, digits_nil, digits_cons]; omega) rfl (by rw [hasExt, hop]; rfl)
    (fun x => (decodeSlot_br _ x).trans dec)

/-- `.loopQ` and its word. -/
theorem RoundTrip.loopQ (g : BitVec 3) (l : BitVec 12) : RoundTrip.Statement (.loopQ g l) := by
  have hg := g.isLt; have hl := l.isLt
  let ds : List (Nat × Nat) := [(0, 9), (l.toNat, 12), (2, 2), (g.toNat, 3), (3, 6)]
  have hop : digits ds / 2 ^ 26 = 3 := digits_top (l := ds) (k := 4) rfl rfl
  have dec : decodeBr (digits ds) = checked (.loopQ g l) := by
    rw [decodeBr, hop]
    simp only [fx_not (digits ds) 21 2 0 (by simp only [ds, digits_nil, digits_cons]; omega),
      fx_not (digits ds) 21 2 1 (by simp only [ds, digits_nil, digits_cons]; omega), fx_digit ds 0 0 9 0 rfl rfl rfl,
      fx_digit ds 2 21 2 2 rfl rfl rfl, fld_digit l ds 1 9 rfl rfl, fld_digit g ds 3 23 rfl rfl, Bool.false_eq_true,
      if_false, Bool.and_self, if_true, Bool.and_false]
  exact rt_word ds rfl rfl (by simp only [sum_nil, sum_cons, ds, digits_nil, digits_cons]; omega) rfl (by rw [hasExt, hop]; rfl)
    (fun x => (decodeSlot_br _ x).trans dec)

/-- `.lsp` and its word. -/
theorem RoundTrip.lsp (g : BitVec 3) (s : BitVec 3) (l : BitVec 9) (n : BitVec 9) : RoundTrip.Statement (.lsp g s l n) := by
  have hg := g.isLt; have hs := s.isLt; have hl := l.isLt; have hn := n.isLt
  let ds : List (Nat × Nat) := [(n.toNat, 9), (l.toNat, 9), (s.toNat, 3), (0, 2), (g.toNat, 3), (4, 6)]
  have hop : digits ds / 2 ^ 26 = 4 := digits_top (l := ds) (k := 5) rfl rfl
  have dec : decodeBr (digits ds) = checked (.lsp g s l n) := by
    rw [decodeBr, hop]
    simp only [fx_digit ds 3 21 2 0 rfl rfl rfl, fld_digit n ds 0 0 rfl rfl, fld_digit l ds 1 9 rfl rfl,
      fld_digit s ds 2 18 rfl rfl, fld_digit g ds 4 23 rfl rfl, if_true]
  exact rt_word ds rfl rfl (by simp only [sum_nil, sum_cons, ds, digits_nil, digits_cons]; omega) rfl (by rw [hasExt, hop]; rfl)
    (fun x => (decodeSlot_br _ x).trans dec)

/-- `.lspReg` and its word. -/
theorem RoundTrip.lspReg (g : BitVec 3) (s : BitVec 3) (l : BitVec 9) (p : BitVec 2) (r : BitVec 5) : RoundTrip.Statement (.lspReg g s l p r) := by
  have hg := g.isLt; have hs := s.isLt; have hl := l.isLt; have hp := p.isLt
  have hr := r.isLt
  let ds : List (Nat × Nat) := [(r.toNat, 5), (p.toNat, 2), (0, 2), (l.toNat, 9), (s.toNat, 3), (1, 2), (g.toNat, 3), (4, 6)]
  have hop : digits ds / 2 ^ 26 = 4 := digits_top (l := ds) (k := 7) rfl rfl
  have dec : decodeBr (digits ds) = checked (.lspReg g s l p r) := by
    rw [decodeBr, hop]
    simp only [fx_not (digits ds) 21 2 0 (by simp only [ds, digits_nil, digits_cons]; omega), fx_digit ds 2 7 2 0 rfl rfl rfl,
      fx_digit ds 5 21 2 1 rfl rfl rfl, fld_digit r ds 0 0 rfl rfl, fld_digit p ds 1 5 rfl rfl,
      fld_digit l ds 3 9 rfl rfl, fld_digit s ds 4 18 rfl rfl, fld_digit g ds 6 23 rfl rfl, Bool.false_eq_true,
      if_false, Bool.and_self, if_true]
  exact rt_word ds rfl rfl (by simp only [sum_nil, sum_cons, ds, digits_nil, digits_cons]; omega) rfl (by rw [hasExt, hop]; rfl)
    (fun x => (decodeSlot_br _ x).trans dec)

/-- `.lspQ` and its word. -/
theorem RoundTrip.lspQ (g : BitVec 3) (s : BitVec 3) (l : BitVec 9) : RoundTrip.Statement (.lspQ g s l) := by
  have hg := g.isLt; have hs := s.isLt; have hl := l.isLt
  let ds : List (Nat × Nat) := [(0, 9), (l.toNat, 9), (s.toNat, 3), (2, 2), (g.toNat, 3), (4, 6)]
  have hop : digits ds / 2 ^ 26 = 4 := digits_top (l := ds) (k := 5) rfl rfl
  have dec : decodeBr (digits ds) = checked (.lspQ g s l) := by
    rw [decodeBr, hop]
    simp only [fx_not (digits ds) 21 2 0 (by simp only [ds, digits_nil, digits_cons]; omega),
      fx_not (digits ds) 21 2 1 (by simp only [ds, digits_nil, digits_cons]; omega), fx_digit ds 0 0 9 0 rfl rfl rfl,
      fx_digit ds 3 21 2 2 rfl rfl rfl, fld_digit l ds 1 9 rfl rfl, fld_digit s ds 2 18 rfl rfl,
      fld_digit g ds 4 23 rfl rfl, Bool.false_eq_true, if_false, Bool.and_self, if_true, Bool.and_false]
  exact rt_word ds rfl rfl (by simp only [sum_nil, sum_cons, ds, digits_nil, digits_cons]; omega) rfl (by rw [hasExt, hop]; rfl)
    (fun x => (decodeSlot_br _ x).trans dec)

/-- `.brk` and its word. -/
theorem RoundTrip.brk (g : BitVec 3) (c : BitVec 16) : RoundTrip.Statement (.brk g c) := by
  have hg := g.isLt; have hc := c.isLt
  let ds : List (Nat × Nat) := [(c.toNat, 16), (0, 7), (g.toNat, 3), (5, 6)]
  have hop : digits ds / 2 ^ 26 = 5 := digits_top (l := ds) (k := 3) rfl rfl
  have dec : decodeBr (digits ds) = checked (.brk g c) := by
    rw [decodeBr, hop]
    simp only [fx_digit ds 1 16 7 0 rfl rfl rfl, fld_digit c ds 0 0 rfl rfl, fld_digit g ds 2 23 rfl rfl, if_true]
  exact rt_word ds rfl rfl (by simp only [sum_nil, sum_cons, ds, digits_nil, digits_cons]; omega) rfl (by rw [hasExt, hop]; rfl)
    (fun x => (decodeSlot_br _ x).trans dec)

/-- `.fence` and its word. -/
theorem RoundTrip.fence (g : BitVec 3) (k : BitVec 2) (s : BitVec 3) : RoundTrip.Statement (.fence g k s) := by
  have hg := g.isLt; have hk := k.isLt; have hs := s.isLt
  let ds : List (Nat × Nat) := [(0, 8), (s.toNat, 3), (k.toNat, 2), (0, 10), (g.toNat, 3), (6, 6)]
  have hop : digits ds / 2 ^ 26 = 6 := digits_top (l := ds) (k := 5) rfl rfl
  have dec : decodeBr (digits ds) = checked (.fence g k s) := by
    rw [decodeBr, hop]
    simp only [fx_digit ds 0 0 8 0 rfl rfl rfl, fx_digit ds 3 13 10 0 rfl rfl rfl, fld_digit s ds 1 8 rfl rfl,
      fld_digit k ds 2 11 rfl rfl, fld_digit g ds 4 23 rfl rfl, Bool.and_self, if_true]
  exact rt_word ds rfl rfl (by simp only [sum_nil, sum_cons, ds, digits_nil, digits_cons]; omega) rfl (by rw [hasExt, hop]; rfl)
    (fun x => (decodeSlot_br _ x).trans dec)

/-- `.fenceX` and its word. -/
theorem RoundTrip.fenceX (g : BitVec 3) (s : BitVec 3) (p : BitVec 5) : RoundTrip.Statement (.fenceX g s p) := by
  have hg := g.isLt; have hs := s.isLt; have hp := p.isLt
  let ds : List (Nat × Nat) := [(p.toNat, 5), (0, 3), (s.toNat, 3), (16, 12), (g.toNat, 3), (6, 6)]
  have hop : digits ds / 2 ^ 26 = 6 := digits_top (l := ds) (k := 5) rfl rfl
  have dec : decodeBr (digits ds) = checked (.fenceX g s p) := by
    rw [decodeBr, hop]
    simp only [fx_not (digits ds) 13 10 0 (by simp only [ds, digits_nil, digits_cons]; omega), fx_digit ds 1 5 3 0 rfl rfl rfl,
      fx_digit ds 3 11 12 16 rfl rfl rfl, fld_digit p ds 0 0 rfl rfl, fld_digit s ds 2 8 rfl rfl,
      fld_digit g ds 4 23 rfl rfl, Bool.false_eq_true, if_false, Bool.and_self, if_true, Bool.and_false]
  exact rt_word ds rfl rfl (by simp only [sum_nil, sum_cons, ds, digits_nil, digits_cons]; omega) rfl (by rw [hasExt, hop]; rfl)
    (fun x => (decodeSlot_br _ x).trans dec)

/-- `.ifence` and its word. -/
theorem RoundTrip.ifence (g : BitVec 3) : RoundTrip.Statement (.ifence g) := by
  have hg := g.isLt
  let ds : List (Nat × Nat) := [(0, 23), (g.toNat, 3), (7, 6)]
  have hop : digits ds / 2 ^ 26 = 7 := digits_top (l := ds) (k := 2) rfl rfl
  have dec : decodeBr (digits ds) = checked (.ifence g) := by
    rw [decodeBr, hop]
    simp only [fx_digit ds 0 0 23 0 rfl rfl rfl, fld_digit g ds 1 23 rfl rfl, if_true]
  exact rt_word ds rfl rfl (by simp only [sum_nil, sum_cons, ds, digits_nil, digits_cons]; omega) rfl (by rw [hasExt, hop]; rfl)
    (fun x => (decodeSlot_br _ x).trans dec)

/-- `.wait` and its word. -/
theorem RoundTrip.wait (g : BitVec 3) (n : BitVec 4) : RoundTrip.Statement (.wait g n) := by
  have hg := g.isLt; have hn := n.isLt
  let ds : List (Nat × Nat) := [(n.toNat, 4), (0, 19), (g.toNat, 3), (8, 6)]
  have hop : digits ds / 2 ^ 26 = 8 := digits_top (l := ds) (k := 3) rfl rfl
  have dec : decodeBr (digits ds) = checked (.wait g n) := by
    rw [decodeBr, hop]
    simp only [fx_digit ds 1 4 19 0 rfl rfl rfl, fld_digit n ds 0 0 rfl rfl, fld_digit g ds 2 23 rfl rfl, if_true]
  exact rt_word ds rfl rfl (by simp only [sum_nil, sum_cons, ds, digits_nil, digits_cons]; omega) rfl (by rw [hasExt, hop]; rfl)
    (fun x => (decodeSlot_br _ x).trans dec)

/-- `.mpc` and its word. -/
theorem RoundTrip.mpc (g : BitVec 3) (o : BitVec 16) : RoundTrip.Statement (.mpc g o) := by
  have hg := g.isLt; have ho := o.isLt
  let ds : List (Nat × Nat) := [(o.toNat, 16), (0, 7), (g.toNat, 3), (9, 6)]
  have hop : digits ds / 2 ^ 26 = 9 := digits_top (l := ds) (k := 3) rfl rfl
  have dec : decodeBr (digits ds) = checked (.mpc g o) := by
    rw [decodeBr, hop]
    simp only [fx_digit ds 1 16 7 0 rfl rfl rfl, fld_digit o ds 0 0 rfl rfl, fld_digit g ds 2 23 rfl rfl, if_true]
  exact rt_word ds rfl rfl (by simp only [sum_nil, sum_cons, ds, digits_nil, digits_cons]; omega) rfl (by rw [hasExt, hop]; rfl)
    (fun x => (decodeSlot_br _ x).trans dec)

/-- `.yld` and its word. -/
theorem RoundTrip.yld (g : BitVec 3) : RoundTrip.Statement (.yld g) := by
  have hg := g.isLt
  let ds : List (Nat × Nat) := [(0, 23), (g.toNat, 3), (10, 6)]
  have hop : digits ds / 2 ^ 26 = 10 := digits_top (l := ds) (k := 2) rfl rfl
  have dec : decodeBr (digits ds) = checked (.yld g) := by
    rw [decodeBr, hop]
    simp only [fx_digit ds 0 0 23 0 rfl rfl rfl, fld_digit g ds 1 23 rfl rfl, if_true]
  exact rt_word ds rfl rfl (by simp only [sum_nil, sum_cons, ds, digits_nil, digits_cons]; omega) rfl (by rw [hasExt, hop]; rfl)
    (fun x => (decodeSlot_br _ x).trans dec)

/-- `.trap` and its word. -/
theorem RoundTrip.trap (g : BitVec 3) (c : BitVec 16) : RoundTrip.Statement (.trap g c) := by
  have hg := g.isLt; have hc := c.isLt
  let ds : List (Nat × Nat) := [(c.toNat, 16), (0, 7), (g.toNat, 3), (11, 6)]
  have hop : digits ds / 2 ^ 26 = 11 := digits_top (l := ds) (k := 3) rfl rfl
  have dec : decodeBr (digits ds) = checked (.trap g c) := by
    rw [decodeBr, hop]
    simp only [fx_digit ds 1 16 7 0 rfl rfl rfl, fld_digit c ds 0 0 rfl rfl, fld_digit g ds 2 23 rfl rfl, if_true]
  exact rt_word ds rfl rfl (by simp only [sum_nil, sum_cons, ds, digits_nil, digits_cons]; omega) rfl (by rw [hasExt, hop]; rfl)
    (fun x => (decodeSlot_br _ x).trans dec)

/-- `.tret` and its word. -/
theorem RoundTrip.tret (g : BitVec 3) : RoundTrip.Statement (.tret g) := by
  have hg := g.isLt
  let ds : List (Nat × Nat) := [(0, 23), (g.toNat, 3), (12, 6)]
  have hop : digits ds / 2 ^ 26 = 12 := digits_top (l := ds) (k := 2) rfl rfl
  have dec : decodeBr (digits ds) = checked (.tret g) := by
    rw [decodeBr, hop]
    simp only [fx_digit ds 0 0 23 0 rfl rfl rfl, fld_digit g ds 1 23 rfl rfl, if_true]
  exact rt_word ds rfl rfl (by simp only [sum_nil, sum_cons, ds, digits_nil, digits_cons]; omega) rfl (by rw [hasExt, hop]; rfl)
    (fun x => (decodeSlot_br _ x).trans dec)

/-- `.done` and its word. -/
theorem RoundTrip.done (g : BitVec 3) : RoundTrip.Statement (.done g) := by
  have hg := g.isLt
  let ds : List (Nat × Nat) := [(0, 23), (g.toNat, 3), (13, 6)]
  have hop : digits ds / 2 ^ 26 = 13 := digits_top (l := ds) (k := 2) rfl rfl
  have dec : decodeBr (digits ds) = checked (.done g) := by
    rw [decodeBr, hop]
    simp only [fx_digit ds 0 0 23 0 rfl rfl rfl, fld_digit g ds 1 23 rfl rfl, if_true]
  exact rt_word ds rfl rfl (by simp only [sum_nil, sum_cons, ds, digits_nil, digits_cons]; omega) rfl (by rw [hasExt, hop]; rfl)
    (fun x => (decodeSlot_br _ x).trans dec)

/-- The idle header. -/
theorem RoundTrip.skip (i : BitVec 8) (v : BitVec 1) (o : BitVec 3) : RoundTrip.Statement (.skip i v o) := by
  intro h
  have hi := i.isLt
  have hv := v.isLt
  have ho := o.isLt
  let ds : List (Nat × Nat) := [(65536, 18), (o.toNat, 3), (v.toNat, 1), (0, 2), (i.toNat, 8)]
  have hw : (wd 65536 [(i.toNat, 24), (v.toNat, 21), (o.toNat, 18)]).toNat = digits ds := by
    simp only [wd, BitVec.toNat_ofNat, sum_nil, sum_cons, ds, digits_nil, digits_cons]
    omega
  show decodeSkip (wd 65536 [(i.toNat, 24), (v.toNat, 21), (o.toNat, 18)]).toNat = .ok (.skip i v o)
  rw [hw, decodeSkip]
  simp only [fx_digit ds 0 0 18 65536 rfl rfl rfl, fx_digit ds 3 22 2 0 rfl rfl rfl, fld_digit i ds 4 24 rfl rfl,
    fld_digit v ds 2 21 rfl rfl, fld_digit o ds 1 18 rfl rfl, Bool.and_self, if_true]
  exact checked_ok h

/-- `.groupIssue` has no words. -/
theorem RoundTrip.groupIssue (core : Nat) : RoundTrip.Statement (.groupIssue core) := fun _ => trivial

/-- `.interlockDataArrival` has no words. -/
theorem RoundTrip.interlockDataArrival (p : Nat) (k : Nat) : RoundTrip.Statement (.interlockDataArrival p k) := fun _ => trivial

/-- `.fetchFault` has no words. -/
theorem RoundTrip.fetchFault (p : Nat) : RoundTrip.Statement (.fetchFault p) := fun _ => trivial

/-- `.deferredCause` has no words. -/
theorem RoundTrip.deferredCause (p : Nat) (k : Nat) : RoundTrip.Statement (.deferredCause p k) := fun _ => trivial

/-- `.schedulerResolve` has no words. -/
theorem RoundTrip.schedulerResolve (p : Nat) (ok : Bool) : RoundTrip.Statement (.schedulerResolve p ok) := fun _ => trivial

/-- `.cmdLaunch` has no words. -/
theorem RoundTrip.cmdLaunch (cmd : BitVec 512) : RoundTrip.Statement (.cmdLaunch cmd) := fun _ => trivial

/-- `.cmdReserveSets` has no words. -/
theorem RoundTrip.cmdReserveSets (cmd : BitVec 512) : RoundTrip.Statement (.cmdReserveSets cmd) := fun _ => trivial

/-- `.cmdJournal` has no words. -/
theorem RoundTrip.cmdJournal (cmd : BitVec 512) : RoundTrip.Statement (.cmdJournal cmd) := fun _ => trivial

/-- `.cmdLinkChannel` has no words. -/
theorem RoundTrip.cmdLinkChannel (cmd : BitVec 512) : RoundTrip.Statement (.cmdLinkChannel cmd) := fun _ => trivial

/-- `.eventClear` has no words. -/
theorem RoundTrip.eventClear (v : BitVec 64) : RoundTrip.Statement (.eventClear v) := fun _ => trivial

/-- `.retadd` has no words. -/
theorem RoundTrip.retadd (v : BitVec 64) : RoundTrip.Statement (.retadd v) := fun _ => trivial

/-- `.configRegisterWrite` has no words. -/
theorem RoundTrip.configRegisterWrite (off : Nat) (size : Nat) (v : BitVec 64) : RoundTrip.Statement (.configRegisterWrite off size v) := fun _ => trivial

/-- `.hostApertureRead` has no words. -/
theorem RoundTrip.hostApertureRead (pa : Nat) (n : Nat) (place : BitVec 64) : RoundTrip.Statement (.hostApertureRead pa n place) := fun _ => trivial

/-- `.dispatch` has no words. -/
theorem RoundTrip.dispatch (seq : Nat) : RoundTrip.Statement (.dispatch seq) := fun _ => trivial

/-- `.predecessorFaulted` has no words. -/
theorem RoundTrip.predecessorFaulted (seq : Nat) : RoundTrip.Statement (.predecessorFaulted seq) := fun _ => trivial

/-- `.bindCluster` has no words. -/
theorem RoundTrip.bindCluster (seq : Nat) (cl : Nat) : RoundTrip.Statement (.bindCluster seq cl) := fun _ => trivial

/-- `.restoreComplete` has no words. -/
theorem RoundTrip.restoreComplete (p : Nat) : RoundTrip.Statement (.restoreComplete p) := fun _ => trivial

/-- `.preemptionRequest` has no words. -/
theorem RoundTrip.preemptionRequest (p : Nat) : RoundTrip.Statement (.preemptionRequest p) := fun _ => trivial

/-- `.preemptSave` has no words. -/
theorem RoundTrip.preemptSave (p : Nat) : RoundTrip.Statement (.preemptSave p) := fun _ => trivial

/-- `.saveComplete` has no words. -/
theorem RoundTrip.saveComplete (p : Nat) : RoundTrip.Statement (.saveComplete p) := fun _ => trivial

/-- `.resume` has no words. -/
theorem RoundTrip.resume (k : Nat) (p : Nat) : RoundTrip.Statement (.resume k p) := fun _ => trivial

/-- `.preemptionOverdue` has no words. -/
theorem RoundTrip.preemptionOverdue (p : Nat) : RoundTrip.Statement (.preemptionOverdue p) := fun _ => trivial

/-- `.handlerBind` has no words. -/
theorem RoundTrip.handlerBind (p : Nat) : RoundTrip.Statement (.handlerBind p) := fun _ => trivial

/-- `.drainComplete` has no words. -/
theorem RoundTrip.drainComplete (p : Nat) : RoundTrip.Statement (.drainComplete p) := fun _ => trivial

/-- `.launchComplete` has no words. -/
theorem RoundTrip.launchComplete (seq : Nat) : RoundTrip.Statement (.launchComplete seq) := fun _ => trivial

/-- `.launchFaulted` has no words. -/
theorem RoundTrip.launchFaulted (seq : Nat) : RoundTrip.Statement (.launchFaulted seq) := fun _ => trivial

/-- `.matrixOpStart` has no words. -/
theorem RoundTrip.matrixOpStart (p : Nat) (k : Nat) : RoundTrip.Statement (.matrixOpStart p k) := fun _ => trivial

/-- `.matrixOpComplete` has no words. -/
theorem RoundTrip.matrixOpComplete (p : Nat) (k : Nat) : RoundTrip.Statement (.matrixOpComplete p k) := fun _ => trivial

/-- `.tileFillComplete` has no words. -/
theorem RoundTrip.tileFillComplete (core : Nat) (arr : Nat) : RoundTrip.Statement (.tileFillComplete core arr) := fun _ => trivial

/-- `.replicaStart` has no words. -/
theorem RoundTrip.replicaStart (core : Nat) (arr : Nat) : RoundTrip.Statement (.replicaStart core arr) := fun _ => trivial

/-- `.replicaComplete` has no words. -/
theorem RoundTrip.replicaComplete (core : Nat) (arr : Nat) : RoundTrip.Statement (.replicaComplete core arr) := fun _ => trivial

/-- `.drainRowPush` has no words. -/
theorem RoundTrip.drainRowPush (p : Nat) (k : Nat) : RoundTrip.Statement (.drainRowPush p k) := fun _ => trivial

/-- `.queueOverflow` has no words. -/
theorem RoundTrip.queueOverflow (p : Nat) (k : Nat) : RoundTrip.Statement (.queueOverflow p k) := fun _ => trivial

/-- `.globalLoadPerform` has no words. -/
theorem RoundTrip.globalLoadPerform (p : Nat) (k : Nat) : RoundTrip.Statement (.globalLoadPerform p k) := fun _ => trivial

/-- `.globalStorePerform` has no words. -/
theorem RoundTrip.globalStorePerform (p : Nat) (k : Nat) : RoundTrip.Statement (.globalStorePerform p k) := fun _ => trivial

/-- `.storeAck` has no words. -/
theorem RoundTrip.storeAck (p : Nat) (k : Nat) : RoundTrip.Statement (.storeAck p k) := fun _ => trivial

/-- `.l2Eviction` has no words. -/
theorem RoundTrip.l2Eviction (die : Nat) (line : Nat) : RoundTrip.Statement (.l2Eviction die line) := fun _ => trivial

/-- `.hbmCalendarSlot` has no words. -/
theorem RoundTrip.hbmCalendarSlot (stack : Nat) (chan : Nat) (slot : Nat) : RoundTrip.Statement (.hbmCalendarSlot stack chan slot) := fun _ => trivial

/-- `.hbmDataReturn` has no words. -/
theorem RoundTrip.hbmDataReturn (k : Nat) : RoundTrip.Statement (.hbmDataReturn k) := fun _ => trivial

/-- `.ptsTick` has no words. -/
theorem RoundTrip.ptsTick : RoundTrip.Statement (.ptsTick) := fun _ => trivial

/-- `.ptsWindowRaise` has no words. -/
theorem RoundTrip.ptsWindowRaise : RoundTrip.Statement (.ptsWindowRaise) := fun _ => trivial

/-- `.timestampSweep` has no words. -/
theorem RoundTrip.timestampSweep (die : Nat) : RoundTrip.Statement (.timestampSweep die) := fun _ => trivial

/-- `.lineCacheExpiryDrop` has no words. -/
theorem RoundTrip.lineCacheExpiryDrop (core : Nat) : RoundTrip.Statement (.lineCacheExpiryDrop core) := fun _ => trivial

/-- `.xferRunLand` has no words. -/
theorem RoundTrip.xferRunLand (p : Nat) (k : Nat) : RoundTrip.Statement (.xferRunLand p k) := fun _ => trivial

/-- `.xferComplete` has no words. -/
theorem RoundTrip.xferComplete (p : Nat) (k : Nat) : RoundTrip.Statement (.xferComplete p k) := fun _ => trivial

/-- `.restripePageCommit` has no words. -/
theorem RoundTrip.restripePageCommit (p : Nat) (k : Nat) : RoundTrip.Statement (.restripePageCommit p k) := fun _ => trivial

/-- `.walkComplete` has no words. -/
theorem RoundTrip.walkComplete (p : Nat) (k : Nat) : RoundTrip.Statement (.walkComplete p k) := fun _ => trivial

/-- `.sideLogReplay` has no words. -/
theorem RoundTrip.sideLogReplay (core : Nat) : RoundTrip.Statement (.sideLogReplay core) := fun _ => trivial

/-- `.xinvComplete` has no words. -/
theorem RoundTrip.xinvComplete (p : Nat) : RoundTrip.Statement (.xinvComplete p) := fun _ => trivial

/-- `.exchangePhase` has no words. -/
theorem RoundTrip.exchangePhase : RoundTrip.Statement (.exchangePhase) := fun _ => trivial

/-- `.exchangeApply` has no words. -/
theorem RoundTrip.exchangeApply (k : Nat) : RoundTrip.Statement (.exchangeApply k) := fun _ => trivial

/-- `.latticeRebuildEnd` has no words. -/
theorem RoundTrip.latticeRebuildEnd (die : Nat) (cell : Nat) : RoundTrip.Statement (.latticeRebuildEnd die cell) := fun _ => trivial

/-- `.linkRowReceive` has no words. -/
theorem RoundTrip.linkRowReceive (ch : Nat) (row : BitVec 2048) (bad : Bool) : RoundTrip.Statement (.linkRowReceive ch row bad) := fun _ => trivial

/-- `.recvRowLand` has no words. -/
theorem RoundTrip.recvRowLand (p : Nat) (k : Nat) : RoundTrip.Statement (.recvRowLand p k) := fun _ => trivial

/-- `.ownershipUpgrade` has no words. -/
theorem RoundTrip.ownershipUpgrade (p : Nat) (ok : Bool) : RoundTrip.Statement (.ownershipUpgrade p ok) := fun _ => trivial

/-- `.recall` has no words. -/
theorem RoundTrip.recall (page : Nat) : RoundTrip.Statement (.recall page) := fun _ => trivial

/-- `.uncorrectableErrorEvent` has no words. -/
theorem RoundTrip.uncorrectableErrorEvent (seq : Nat) : RoundTrip.Statement (.uncorrectableErrorEvent seq) := fun _ => trivial

/-- `.rollback` has no words. -/
theorem RoundTrip.rollback (seq : Nat) : RoundTrip.Statement (.rollback seq) := fun _ => trivial

/-- `.patrolScrub` has no words. -/
theorem RoundTrip.patrolScrub (key : Nat) (bad : Bool) : RoundTrip.Statement (.patrolScrub key bad) := fun _ => trivial

/-- `.coreFailure` has no words. -/
theorem RoundTrip.coreFailure (core : Nat) : RoundTrip.Statement (.coreFailure core) := fun _ => trivial

/-- `.channelFailure` has no words. -/
theorem RoundTrip.channelFailure (stack : Nat) (chan : Nat) : RoundTrip.Statement (.channelFailure stack chan) := fun _ => trivial

/-- `.laneFailure` has no words. -/
theorem RoundTrip.laneFailure (port : Nat) (lane : Nat) : RoundTrip.Statement (.laneFailure port lane) := fun _ => trivial

/-- `.flitRetry` has no words. -/
theorem RoundTrip.flitRetry (port : Nat) : RoundTrip.Statement (.flitRetry port) := fun _ => trivial

/-- `.thermalHoldEntry` has no words. -/
theorem RoundTrip.thermalHoldEntry (stack : Nat) : RoundTrip.Statement (.thermalHoldEntry stack) := fun _ => trivial

/-- `.thermalHoldExit` has no words. -/
theorem RoundTrip.thermalHoldExit (stack : Nat) : RoundTrip.Statement (.thermalHoldExit stack) := fun _ => trivial

/-- `.thermalHoldOver1ms` has no words. -/
theorem RoundTrip.thermalHoldOver1ms (stack : Nat) : RoundTrip.Statement (.thermalHoldOver1ms stack) := fun _ => trivial

/-- `.thresholdCrossing` has no words. -/
theorem RoundTrip.thresholdCrossing (core : Nat) (level : Nat) : RoundTrip.Statement (.thresholdCrossing core level) := fun _ => trivial

/-- `.thermalTrip` has no words. -/
theorem RoundTrip.thermalTrip (die : Nat) : RoundTrip.Statement (.thermalTrip die) := fun _ => trivial

/-- `.opTransitionEnd` has no words. -/
theorem RoundTrip.opTransitionEnd (core : Nat) : RoundTrip.Statement (.opTransitionEnd core) := fun _ => trivial

/-- `.splitLevelChange` has no words. -/
theorem RoundTrip.splitLevelChange (core : Nat) (level : Nat) : RoundTrip.Statement (.splitLevelChange core level) := fun _ => trivial

/-- `.rampBallast` has no words. -/
theorem RoundTrip.rampBallast (die : Nat) : RoundTrip.Statement (.rampBallast die) := fun _ => trivial

/-- `.powerOn` has no words. -/
theorem RoundTrip.powerOn : RoundTrip.Statement (.powerOn) := fun _ => trivial

/-- `.powerRemoval` has no words. -/
theorem RoundTrip.powerRemoval : RoundTrip.Statement (.powerRemoval) := fun _ => trivial

/-- `.bringupRetirement` has no words. -/
theorem RoundTrip.bringupRetirement (readable : Bool) : RoundTrip.Statement (.bringupRetirement readable) := fun _ => trivial

/-- `.bringupCapability` has no words. -/
theorem RoundTrip.bringupCapability : RoundTrip.Statement (.bringupCapability) := fun _ => trivial

/-- `.bringupOpen` has no words. -/
theorem RoundTrip.bringupOpen : RoundTrip.Statement (.bringupOpen) := fun _ => trivial

/-- `.bringupFailed` has no words. -/
theorem RoundTrip.bringupFailed (reason : BitVec 8) : RoundTrip.Statement (.bringupFailed reason) := fun _ => trivial

/-- `.peerDeviceRequest` has no words. -/
theorem RoundTrip.peerDeviceRequest (dev : Nat) (page : Nat) (kind : Nat) (place : BitVec 64) (off : Nat) (data : List (BitVec 8)) : RoundTrip.Statement (.peerDeviceRequest dev page kind place off data) := fun _ => trivial

/-- `.remoteQueueRoom` has no words. -/
theorem RoundTrip.remoteQueueRoom (ch : Nat) (n : Nat) : RoundTrip.Statement (.remoteQueueRoom ch n) := fun _ => trivial

/-- `.hostApertureWrite` has no words. -/
theorem RoundTrip.hostApertureWrite (pa : Nat) (place : BitVec 64) (data : List (BitVec 8)) : RoundTrip.Statement (.hostApertureWrite pa place data) := fun _ => trivial

/-- `.bringupTraining` has no words. -/
theorem RoundTrip.bringupTraining (dead : List (BitVec 64)) : RoundTrip.Statement (.bringupTraining dead) := fun _ => trivial

end Sys2Proof.Laws
end

