-- ==== Sys2Proof/Safety.lean ====
section
/-! DEFINITION. What counts as a safe run, and the terms that the statements use: when a position may issue, what a step
delivers, and what it leaves alone. -/

namespace Sys2Proof.Machine

/-- The outcome is a next state that satisfies `P`. -/
def NextWith (o : Host.Outcome State Fault Refusal) (P : State → Prop) : Prop := ∃ t, o = .next t ∧ P t

/-- Every byte of memory reads as before. -/
def SameBytes (s t : State) : Prop := ∀ k, rdByte t.mem k = rdByte s.mem k

/-- Every byte of memory outside the keys that satisfy `P` reads as before. -/
def SameBytesBut (P : Nat → Prop) (s t : State) : Prop := ∀ k, ¬P k → rdByte t.mem k = rdByte s.mem k

/-- Byte `k` belongs to the journal entry of the launch `seq`, in the ring in force (R249). -/
def inEntry (s : State) (seq k : Nat) : Prop :=
  ∃ r off n, ringOf s = some r ∧ off + n ≤ 64 ∧
    memKey 0 (r.base + 64 * (seq % r.size) + off) ≤ k ∧ k < memKey 0 (r.base + 64 * (seq % r.size) + off) + n

/-- No other device holds a page of the `n` bytes from physical address `a`: what this device itself writes there is written at
once (R233). -/
def AtHome (s : State) (a n : Nat) : Prop := ∀ k, k < n → pageGranted s ((a + k) / 2 ^ 16) true = false

/-- The memory is in canonical form. -/
def MemOk (s : State) : Prop := Memory.wf s.mem = true

/-! ### A position that may issue -/

/-- The context at the issuing position. -/
def me (s : State) : Ctx := getCtx s s.cur

/-- The issuing position may issue a group of one operation that reads or writes the registers `rs` and needs `n` entries
of the landing buffer: it has its turn (Ready or Blocked, no cause of earlier work waiting, R25, R427); the wait of a
`bar` does not fall on it (R325); no transition that its settling window covers holds it (R307); none of the registers is pending (R33);
the landing buffer has room (R30).  `endw` is the model's own: no write is left over from an earlier step. -/
structure CanIssue (s : State) (rs : List Reg) (n : Nat) : Prop where
  turn : competes (me s) = true
  bar : barBlocks s s.cur = false
  steady : windowBlocks (me s) (getCore s (coreOf s.cur)) (s.cur % 2) = false
  free : ∀ r ∈ rs, isPending (me s) r = false
  room : (me s).landing.length + n ≤ Config.landingEntries
  clean : s.endw = []

/-- The same for a matrix operation: no settling window, no transition (R307), and no load that is made again after a save
(R289). -/
structure CanIssueMx (s : State) (rs : List Reg) (n : Nat) : Prop where
  base : CanIssue s rs n
  window : (me s).window = 0
  still : (getCore s (coreOf s.cur)).moving = false
  firm : remaking s s.cur = false

/-! ### Numbers as the spec states them -/

/-- The floating formats of Table 6-2: type code, exponent bits, fraction bits, bias. -/
def floatFormats : List (Nat × Nat × Nat × Nat) := [(8, 4, 3, 7), (9, 5, 2, 15), (10, 8, 7, 127), (11, 5, 10, 15), (12, 8, 23, 127)]

/-- The magnitude of the pattern `v` without its sign, in a format of `m` fraction bits and bias `b` (R101): 2^(1−b) × F / 2^m
where E = 0, and 2^(E−b) × (1 + F / 2^m) above, E going on without a bound. -/
def magnitude (m b v : Nat) : ℚ :=
  let e : Nat := v / 2 ^ m
  let f : ℚ := (v % 2 ^ m : Nat) / 2 ^ m
  if e = 0 then 2 ^ (1 - (b : ℤ)) * f else 2 ^ ((e : ℤ) - b) * (1 + f)

/-- The value of a finite number. -/
def numVal : Num → ℚ
  | .fin neg m e => (if neg then -(m : ℚ) else m) * 2 ^ e
  | _ => 0

/-- A value between the neighbours `lo` and `hi` rounds up to `hi`: to nearest, a tie going to the even one, which is `hi` where
`lo` is odd; toward zero never; by a draw as R108 says. -/
def RoundsUp (md : Mode) (odd : Bool) (lo hi x : ℚ) : Prop :=
  match md.rnd with
  | 0 => hi - x < x - lo ∨ (hi - x = x - lo ∧ odd = true)
  | 2 => x ≠ lo ∧ 2 ^ 16 ≤ ⌊(x - lo) / (hi - lo) * 2 ^ 16⌋ + md.draw
  | _ => False

/-- The magnitude `x` rounds to the `w`-th of the magnitudes `mag`, which rise. -/
def RoundsTo (md : Mode) (mag : Nat → ℚ) (x : ℚ) (w : Nat) : Prop :=
  ∃ a, mag a ≤ x ∧ x < mag (a + 1) ∧
    let up := RoundsUp md (a % 2 == 1) (mag a) (mag (a + 1)) x
    (up ∧ w = a + 1 ∨ ¬up ∧ w = a)

/-- `z` is `x` times 2^k: its sign, NaN and infinities stay (R120, R121). -/
def IsScaled (k : Int) (x z : Num) : Prop :=
  match x with
  | .fin a m e => ∃ n g, z = .fin a n g ∧ numVal z = numVal (.fin a m e) * 2 ^ k
  | _ => z = x

/-- `z` is the exact sum of `x` and `y`, with IEEE 754's signs of zeros and rules for NaN and infinities (R113). -/
def IsSum (x y z : Num) : Prop :=
  match x, y with
  | .nan, _ => z = .nan
  | _, .nan => z = .nan
  | .inf a, .inf b => z = if a = b then .inf a else .nan
  | .inf a, .fin .. => z = .inf a
  | .fin .., .inf b => z = .inf b
  | .fin a m e, .fin b n f => ∃ c k g, z = .fin c k g ∧ numVal z = numVal (.fin a m e) + numVal (.fin b n f) ∧ (k = 0 → c = (a && b))

/-- `z` is the exact product of `x` and `y`: its sign is theirs combined, and an infinity times a zero is NaN (R113, R122). -/
def IsProduct (x y z : Num) : Prop :=
  match x, y with
  | .nan, _ => z = .nan
  | _, .nan => z = .nan
  | .inf a, .inf b => z = .inf (a != b)
  | .inf a, .fin b n _ => z = if n = 0 then .nan else .inf (a != b)
  | .fin a m _, .inf b => z = if m = 0 then .nan else .inf (a != b)
  | .fin a m e, .fin b n f => ∃ k g, z = .fin (a != b) k g ∧ numVal z = numVal (.fin a m e) * numVal (.fin b n f)

/-- `z` is the exact sum of the products of the factors of each term, none of which is infinite (R122). -/
def IsDot (terms : List (List Num)) (z : Num) : Prop :=
  if ∃ t ∈ terms, Num.nan ∈ t then z = .nan
  else ∃ c k g, z = .fin c k g ∧ numVal z = (terms.map (fun t => (t.map numVal).prod)).sum

/-- One number is below another, −0 below +0 (R113). -/
def Below (x y : Num) : Prop :=
  match x, y with
  | .nan, _ => False
  | _, .nan => False
  | .inf a, .inf b => a = true ∧ b = false
  | .inf a, .fin .. => a = true
  | .fin .., .inf b => b = false
  | .fin a m e, .fin b n f =>
    numVal (.fin a m e) < numVal (.fin b n f) ∨ (m = 0 ∧ n = 0 ∧ a = true ∧ b = false)

/-- A number is a zero of either sign. -/
def IsZero (x : Num) : Prop := ∃ a e, x = .fin a 0 e

/-- The bits of the canonical NaN and of +∞ of a floating type of arithmetic (Table 6-2). -/
def nanBits (t : Nat) : Nat := if t = 10 then 0x7FC0 else if t = 11 then 0x7E00 else 0x7FC00000
def infBits (t : Nat) : Nat := if t = 10 then 0x7F80 else if t = 11 then 0x7C00 else 0x7F800000

/-- The relations of `vcmp` on two elements, as R401 and R113 state them: integers by value; floating numbers as IEEE does, −0
equal to +0, and with a NaN only `ne` and `uo` true. -/
def Relates (r t a b : Nat) : Prop :=
  let x := decFloat t a
  let y := decFloat t b
  let unordered := t > 7 ∧ (x = .nan ∨ y = .nan)
  let lt := if t ≤ 7 then intVal t a < intVal t b else Below x y ∧ ¬(IsZero x ∧ IsZero y)
  let gt := if t ≤ 7 then intVal t b < intVal t a else Below y x ∧ ¬(IsZero x ∧ IsZero y)
  match r with
  | 0 => ¬unordered ∧ ¬lt ∧ ¬gt
  | 1 => unordered ∨ lt ∨ gt
  | 2 => ¬unordered ∧ lt
  | 3 => ¬unordered ∧ ¬gt
  | 4 => ¬unordered ∧ gt
  | 5 => ¬unordered ∧ ¬lt
  | _ => unordered

/-- An element of index and bits `p` ranks before another, `q` (R412): by the greater value, a NaN below every number, −0 below +0;
of equal values by the lower index. -/
def Outranks (t : Nat) (p q : Nat × Nat) : Prop :=
  let above := fun (a b : Nat) => if t ≤ 7 then intVal t b < intVal t a else
    (decFloat t a ≠ .nan ∧ decFloat t b = .nan) ∨ Below (decFloat t b) (decFloat t a)
  above p.2 q.2 ∨ (¬above q.2 p.2 ∧ p.1 < q.1)

/-- What two elements, active or not, combine to (R409). -/
def combined (f : Nat → Nat → Nat) (x y : Option Nat) : Option Nat :=
  match x, y with
  | some a, some b => some (f a b)
  | some a, none => some a
  | none, o => o

/-! ### The operands of an operation -/

/-- The guard field of an operation's word, bits 25:23 (R52). -/
def guardField (i : Instr) : BitVec 3 := ((encode i).headD 0).extractLsb' 23 3

/-- No two registers of the operation share a common port (R56). -/
def PortsOk (i : Instr) (s : State) : Prop := ∀ pre o, semOf i s.cur pre s = some o → portErr [o] = none

/-- The registers of an operation: those it reads, those it writes by exposed latency, and those it writes by interlock
(R32, R33). -/
structure Operands where
  reads : List Reg := []
  writes : List Reg := []
  locked : List Reg := []

/-- The common registers read through ports. -/
def commons (l : List (BitVec 5)) : List Reg := l.map (fun r => commonReg r.toNat)

/-- The condition register of a branch (R75). -/
def condReads (r : BitVec 5) (q : BitVec 2) : List Reg := if r = 0 ∧ q = 0 then [] else commons [r]

/-- The address register that a post-update writes (R318). -/
def postWrites (a m : BitVec 4) : List Reg := if m = 0 then [] else [aReg a.toNat]

/-- The register that a file code and a number name (Table 3-3). -/
def fileReg (c : Ctx) (f n : Nat) : Reg := physReg c (fileOfCode f) n

/-- The register of an address slot that has a number and a file bit, with w0, whose write is discarded, left out (R63, R322). -/
def axWrites (d : BitVec 4) (w : BitVec 1) : List Reg := if w = 1 ∧ d = 0 then [] else [axReg d w]

/-- The rows of va that an `smx` reads: those of its A operand, and those of its B operand, in two parts where `.t` reads second
parts (R134, Table 8-4). -/
def smxReads (c : Ctx) (d e : Word) (t : BitVec 1) (b : BitVec 2) : List Reg :=
  let n := if t = 1 then smxK c.fmt else cbCols b.toNat
  let two := t = 1 ∧ b = 2 ∧ (fmtW c.fmt = 10 ∨ fmtW c.fmt = 11)
  vaReads c d 0 (descRows d) ++ vaReads c e 0 n ++ (if two then vaReads c e (descTpitch e) n else [])

/-- The operands of every slot operation, as its page of the reference gives them. -/
def operands (c : Ctx) (i : Instr) : Operands :=
  match i with
  | .add sl _ d a b | .sub sl _ d a b | .mul sl _ d a b | .and sl _ d a b | .or sl _ d a b | .xor sl _ d a b | .shl sl _ d a b
  | .shr sl _ d a b | .sra sl _ d a b | .mulh sl _ d a b _ | .div sl _ d a b _ | .rem sl _ d a b _ | .min sl _ d a b _
  | .max sl _ d a b _ | .cmp sl _ d a b _ => { reads := [sReg c sl a, sReg c sl b], writes := [sReg c sl d] }
  | .addImm sl _ d a _ | .andImm sl _ d a _ | .orImm sl _ d a _ | .xorImm sl _ d a _ | .shlImm sl _ d a _ | .shrImm sl _ d a _
  | .sraImm sl _ d a _ | .cmpImm sl _ d a _ | .bfx sl _ d a _ _ | .clz sl _ d a | .popc sl _ d a =>
    { reads := [sReg c sl a], writes := [sReg c sl d] }
  | .sel sl _ d a b k => { reads := [sReg c sl a, sReg c sl b, sReg c sl k], writes := [sReg c sl d] }
  | .li sl _ d _ => { writes := [sReg c sl d] }
  | .lih sl _ d _ => { reads := [sReg c sl d], writes := [sReg c sl d] }
  | .bfi sl _ d a _ _ => { reads := [sReg c sl a, sReg c sl d], writes := [sReg c sl d] }
  | .cpy sl _ d a f => { reads := [sReg c sl a], writes := [fileReg c f.toNat d.toNat] }
  | .cpyCommon _ _ d a _ f => { reads := commons [a], writes := [fileReg c f.toNat d.toNat] }
  | .vadd sl _ d a b k _ | .vsub sl _ d a b k _ | .vmul sl _ d a b k _ | .vmin sl _ d a b k _ | .vmax sl _ d a b k _
  | .vand sl _ d a b k _ | .vor sl _ d a b k _ | .vxor sl _ d a b k _ | .vshl sl _ d a b k _ | .vshr sl _ d a b k _
  | .vsel sl _ d a b k _ => { reads := [vReg c sl a, vReg c sl b] ++ kReads sl k, writes := [vReg c sl d] }
  | .vmad sl _ d a b k _ => { reads := [vReg c sl d, vReg c sl a, vReg c sl b] ++ kReads sl k, writes := [vReg c sl d] }
  | .vcmp sl _ d a b _ k _ => { reads := [vReg c sl a, vReg c sl b] ++ kReads sl k, writes := [kReg sl d] }
  | .vabs sl _ d a k _ | .vhist sl _ d a k _ => { reads := vReg c sl a :: kReads sl k, writes := [vReg c sl d] }
  | .vred sl _ d a _ k _ | .vscan sl _ d a _ k _ | .vtopk sl _ d a _ k _ | .vcvt sl _ d a _ k _ =>
    { reads := vReg c sl a :: kReads sl k, writes := [vReg c sl d] }
  | .vbcast sl _ d r _ k _ => { reads := commons [r] ++ kReads sl k, writes := [vReg c sl d] }
  | .vmov sl _ d a f k _ =>
    { reads := vReg c sl a :: (if f = 3 ∨ f = 4 ∨ f = 5 then [] else kReads sl k), writes := [fileReg c f.toNat d.toNat] }
  | .vkop sl _ d a b r => { reads := kReads sl a ++ (if r.toNat ≤ 3 then kReads sl b else []), writes := [kReg sl d] }
  | .vcnt sl _ d k _ => { reads := kReads sl k, writes := [vReg c sl d] }
  | .vpop sl _ d _ k _ => { reads := kReads sl k, locked := [vReg c sl d] }
  | .frcp _ d a _ | .frsq _ d a _ | .fexp2 _ d a _ | .flog2 _ d a _ | .ftanh _ d a _ | .fsig _ d a _ =>
    { reads := [fReg a], writes := [fReg d] }
  | .fmov _ d a f => { reads := [fReg a], writes := [fileReg c f.toNat d.toNat] }
  | .packAuto _ d a _ | .unpk _ d a _ => { reads := [zReg a], writes := [zReg d] }
  | .pack _ d a r _ _ | .pscl _ d a r _ _ => { reads := zReg a :: commons [r], writes := [zReg d] }
  | .shuf _ d a b _ | .trns _ d a b _ | .ilv _ d a b _ | .dil _ d a b _ => { reads := [zReg a, zReg b], writes := [zReg d] }
  | .rmrg _ d a b r _ => { reads := [zReg a, zReg b] ++ commons [r], writes := [zReg d] }
  | .pmov _ d a f => { reads := [zReg a], writes := [fileReg c f.toNat d.toNat] }
  | .aset _ d r _ => { reads := commons [r], writes := [aReg d.toNat] }
  | .ainc _ d m => { reads := [aReg d.toNat, wReg m.toNat], writes := [aReg d.toNat] }
  | .amod _ d r _ _ => { reads := commons [r], writes := axWrites d 1 }
  | .amov _ d a sf w => { reads := [axReg a sf], writes := axWrites d w }
  | .cim _ r _ u _ _ _ _ _ _ => let d := regWord c (commonReg r.toNat); { reads := commons [r, u] ++ vaReads c d 0 (descRows d) }
  | .smx _ r _ u _ b _ _ _ t => { reads := commons [r, u] ++ smxReads c (regWord c (commonReg r.toNat)) (regWord c (commonReg u.toNat)) t b }
  | .acz _ r _ _ | .drn _ r _ _ _ | .wpre _ r _ _ | .wpin _ r _ | .wunp _ r _ | .winv _ r _ => { reads := commons [r] }
  | .wprb _ d r _ => { reads := commons [r], writes := commons [d] }
  | .ld _ _ r f a m _ _ | .lds _ _ r f a m _ _ =>
    { reads := memReads a.toNat m.toNat, writes := fileReg c f.toNat r.toNat :: postWrites a m }
  | .st _ _ r f a m | .sts _ _ r f a m _ => { reads := fileReg c f.toNat r.toNat :: memReads a.toNat m.toNat, writes := postWrites a m }
  | .stq _ _ _ a m | .fset _ _ a m _ | .fclr _ _ a m _ | .fwait _ _ a m _ | .gpf _ a m _ =>
    { reads := memReads a.toNat m.toNat, writes := postWrites a m }
  | .park _ _ r f _ _ => { reads := [fileReg c f.toNat r.toNat] }
  | .unpark _ _ r f _ => { writes := [fileReg c f.toNat r.toNat] }
  | .gld _ r f a m _ _ _ =>
    { reads := memReads a.toNat m.toNat, writes := postWrites a m, locked := [fileReg c f.toNat r.toNat] }
  | .gst _ r f a m _ _ _ | .ljn _ r f a m => { reads := fileReg c f.toNat r.toNat :: memReads a.toNat m.toNat, writes := postWrites a m }
  | .gam _ r f a m _ _ n =>
    let q := fileReg c f.toNat r.toNat
    { reads := q :: (if n = 6 then [fileReg c f.toNat (r.toNat + 1)] else []) ++ memReads a.toNat m.toNat
      writes := postWrites a m, locked := [q] }
  | .lwt _ r f a m _ =>
    let q := fileReg c f.toNat r.toNat
    { reads := q :: memReads a.toNat m.toNat, writes := postWrites a m, locked := [q] }
  | .gcb _ a m t => if t = 1 then {} else { reads := memReads a.toNat m.toNat, writes := postWrites a m }
  | .xlt _ d a _ | .xlp _ d a _ => { reads := [aReg a.toNat], locked := [commonReg d.toNat, commonReg ((d.toNat + 1) % 32)] }
  | .xinv _ a _ => { reads := [aReg a.toNat] }
  | .xfer _ r _ _ _ | .fmtReg _ _ r | .barc _ _ r _ | .cqp _ _ r | .csrw _ _ r _ | .dlc _ r _ | .dlcApportioned _ r _ =>
    { reads := commons [r] }
  | .rstr _ r _ w _ _ | .send _ r _ w _ | .sendQueue _ r _ w _ _ | .recv _ r _ w _ | .sclt _ _ r _ w => { reads := commons [r, w] }
  | .csrr _ d _ => { writes := commons [d] }
  | .br _ r q _ => { reads := condReads r q }
  | .call _ r q _ => { reads := condReads r q, writes := if condOn c r q then commons [31] else [] }
  | .ret _ r q => { reads := commonReg 31 :: condReads r q }
  | .loopReg _ _ _ r | .lspReg _ _ _ _ r => { reads := commons [r] }
  | _ => {}

/-- The metadata word of the operation, where it has one, can be fetched (R142): a cause of its fetch comes before any check of the
operation (R279). -/
def WordFetched (i : Instr) (s : State) : Prop :=
  match i with
  | .cim _ _ _ _ _ _ m _ _ _ | .smx _ _ _ _ _ _ m _ _ _ => (metaOf s s.cur m).cause = none
  | _ => True

/-- R33 blocks the operation: a register it reads or writes is pending, or one that it writes by interlock has a result in the
landing buffer. -/
def Pends (c : Ctx) (i : Instr) : Prop :=
  (∃ r ∈ (operands c i).reads ++ (operands c i).writes ++ (operands c i).locked, isPending c r = true) ∨
  ∃ r ∈ (operands c i).locked, isLanding c r = true

/-! ### What a step delivers -/

/-- An earlier result for the destination lands at the end of the coming step. -/
def Due (s : State) (d : Dest) : Prop := ∃ o ∈ (me s).landing, o.rem ≤ 1 ∧ o.dest = d

/-- The register's value is fixed: predicate 0 and modifier 0 (R63, R73). -/
def fixedReg (r : Reg) : Bool := r.num == 0 && (r.file == .ka || r.file == .kb || r.file == .kc || r.file == .w)

/-- A register of a file holds as many bits of a value as the file is wide (Table 4-1). -/
def fits (fl : File) (v : Vec) : Vec := (v.setWidth (fileWidth fl)).setWidth 2048

/-- The step from `u` to `t` carries the result `o` of an operation of slot `slot` (R28): of latency 1 it stands in its
register after the step, unless an earlier result for the register lands with it (R36); a fixed register stays as it
is; of a longer latency it waits in the landing buffer for one step less. -/
def Lands (u t : State) (slot : Nat) (o : Res) : Prop :=
  if o.lat ≤ 1 then ∀ r, o.dest = .reg r → ¬Due u (.reg r) →
    regGet (getCtx t u.cur) r =
      if fixedReg r then regGet (me u) r else fits r.file ((regGet (me u) r &&& ~~~o.mask) ||| (o.value &&& o.mask))
  else (⟨o.dest, o.value, o.mask, o.lat - 1, slot, (me u).stepc, o.bad⟩ : Landing) ∈ (getCtx t u.cur).landing

/-- The registers that results are for. -/
def regsOf (os : List Res) : List Reg := os.filterMap (fun o => match o.dest with
  | .reg q => some q
  | _ => none)

/-! ### What a step leaves alone -/

/-- The step of a position changes no other position, no other core, and nothing of the package beside them. -/
structure SameElse (s t : State) : Prop where
  rest : { t with ctxs := s.ctxs, cores := s.cores } = s
  bytes : SameBytes s t
  ctxs : ∀ q, q ≠ s.cur → getCtx t q = getCtx s q
  cores : ∀ k, k ≠ coreOf s.cur → getCore t k = getCore s k
  /-- Only a `csrw` to CTL that lands now reaches the core itself. -/
  core : ¬Due s (.csr 2) → getCore t (coreOf s.cur) = getCore s (coreOf s.cur)

/-- Every register but those of `ds`, and but those for which an earlier result lands now, is as it was. -/
def SameRegs (s t : State) (ds : List Reg) : Prop :=
  ∀ r, r ∉ ds → ¬Due s (.reg r) → regGet (getCtx t s.cur) r = regGet (me s) r

/-- FMT, the scale table, SEED and WFB are as they were, but where an earlier write lands now. -/
structure SameControl (s t : State) : Prop where
  fmt : ¬Due s .fmt → (getCtx t s.cur).fmt = (me s).fmt
  scl : ¬Due s .scl → (getCtx t s.cur).scl = (me s).scl
  seed : ¬Due s (.csr 5) → (getCtx t s.cur).seed = (me s).seed
  wfb : ¬Due s (.csr 1) → (getCtx t s.cur).wfb = (me s).wfb

/-- MPC is as it was, and outside every loop so are AGE and GPRED, but where an earlier write lands now. -/
structure SameCourse (s t : State) : Prop where
  mpc : (getCtx t s.cur).mpc = (me s).mpc
  loops : (me s).loops = [] → (getCtx t s.cur).loops = []
  age : ¬Due s (.csr 3) → (me s).loops = [] → (getCtx t s.cur).age = (me s).age
  gpred : ¬Due s (.csr 4) → (me s).loops = [] → (getCtx t s.cur).gpred = (me s).gpred

/-- A context with what every step of it moves set aside: its registers and control registers, the landing buffer, the
sequencer's fields, the counts of the step, and whether its next group waits at a held stack. -/
def aside (c : Ctx) : Ctx :=
  { c with
    st := .free, files := {}, regBad := [], pc := 0, mpc := 0, loops := [], lbuf := [], lmarks := [], exiting := false, age := 0, gpred := 0, fmt := 0, scl := 0
    seed := 0, wcol := false, wfb := false, stepc := 0, landing := [], idle := 0, idleAddr := 0, idleNext := 0, waitIdle := false
    denials := 0, yield := 0, barWait := none, window := 0, windowOpen := false, atPoint := false, bodyWalk := none
    stalled := false }

/-- The rest of the context is as it was: extents, ranges, accesses, transfers, walks, matrix operations, link rows, pending
registers, the spill map, WFBCNT, the trap record, privilege. -/
def SameWork (s t : State) : Prop := aside (getCtx t s.cur) = aside (me s)

/-- What an operation of the sequencer leaves unchanged: everything but where the context goes on, its loops, and the
registers `ds`; STEPC has risen by one. -/
structure BranchFrame (s t : State) (ds : List Reg) : Prop where
  elsewhere : SameElse s t
  regs : SameRegs s t ds
  control : SameControl s t
  work : SameWork s t
  /-- The step is counted (R27, R78), and the count of denials begins anew (R37). -/
  step : (getCtx t s.cur).stepc = (me s).stepc + 1
  turn : (getCtx t s.cur).denials = 0

/-- What an operation of registers alone leaves unchanged: everything but its destinations `ds` and the pc. -/
structure RegFrame (s t : State) (ds : List Reg) : Prop extends BranchFrame s t ds where
  course : SameCourse s t

/-- The issuing context with its generator advanced by `n` draws (R109, R110). -/
def drawn (n : Nat) (s : State) : State := updCtx s.cur (fun c => { c with seed := advanceSeed n c.seed }) s

/-- `exec i` answers a next state from `s`: the operation's own effect at issue makes it `u` (which is `s` where the
operation has none but its results); then STEPC rises by one, the results `os` of slot `slot` land in their time, and
nothing else changes. -/
def Completes (i : Instr) (s u : State) (slot : Nat) (os : List Res) : Prop :=
  NextWith (exec i s) (fun t => RegFrame u t (regsOf os) ∧ ∀ o ∈ os, Lands u t slot o)

/-! ### A group at its turn -/

/-- The position stands at the group `f`, which its fetch has brought, and nothing comes before it: no idle step is under way,
no body is being walked or left, no line-end mark stands there, no context of its cluster is still loading (R27, R46, R94,
R257, R425).  The operations stand in their own slots. -/
structure AtGroup (s : State) (p : Nat) (f : Fetched) : Prop where
  turn : competes (getCtx s p) = true
  walk : (getCtx s p).bodyWalk = none
  exiting : (getCtx s p).exiting = false
  idle : (getCtx s p).idle = 0
  wait : (getCtx s p).waitIdle = false
  gate : gateShut s p = false
  here : reached s p (getCtx s p).pc = (getCtx s p).pc
  fetched : fetchGroup s p (getCtx s p).pc = .ok f
  slots : ∀ x ∈ f.grp.ops, x.2.slot = some x.1 ∧ x.1 < 16
  single : (f.grp.ops.map (·.1)).Nodup

/-- The group `f` of a position, its operations being `ops`, has no cause and does not block: it may issue (R279). -/
structure MayIssue (s : State) (p : Nat) (f : Fetched) (ops : List OpSem) : Prop where
  sound : firstCause (groupCauses (getCtx s p) f ops) = none
  bar : barBlocks s p = false
  free : groupBlocks (getCtx s p) (getCore s (coreOf p)) (p % 2) ops = false

/-- The body of a loop entry ends before address `b`: its words, as they stand, can be read as far as there (R91, R425), and no
group of it lies past a later one. -/
def BodyEnds (s : State) (p : Nat) (e : LoopEntry) (b : Word) : Prop :=
  walkFrom s p e.left e.scan = .ok b ∧
  ∀ m n x y, m ≤ n → n ≤ e.left → walkFrom s p m e.scan = .ok x → walkFrom s p n e.scan = .ok y → x.toNat ≤ y.toNat

/-- The stage predicates of an `lsp` of N items, as R95 sets them for iteration `j`: gk reads true as k − 1 ≤ j ≤ N + k − 2 says,
for k from 1 to min(S, 7), and the others as they were. -/
def StagesSet (stages n j : Nat) (old new : BitVec 8) : Prop :=
  ∀ k, k < 8 → new.getLsbD k = if 1 ≤ k ∧ k ≤ stages then decide (k ≤ j + 1 ∧ j + 2 ≤ n + k) else old.getLsbD k

/-- A context newly bound at a position: c0 to c3 are the parameters, every other register and control register holds its reset
value, the spill map is zero, and nothing is in flight (R72, R78, R371). -/
structure FreshRegs (s : State) (p : Nat) (params : List Nat) : Prop where
  params : ∀ i < 4, regWord (getCtx s p) (commonReg i) = BitVec.ofNat 64 (params.getD i 0)
  zero : ∀ r, fixedReg r = false → (r.file = .c → 4 ≤ r.num) → regGet (getCtx s p) r = 0
  control : ∀ e ∈ ([(0, 0), (3, 0), (4, 1), (5, 1), (8, 0), (10, 0), (0x18, 0), (0x19, 0), (0x1A, 0), (0x1B, 0), (0x1C, 0), (0x1D, 0),
    (0x20, 0x7F7F7F7F7F7F7F7F), (0x21, 0x7F7F7F7F7F7F7F7F)] : List (Nat × Word)), csrValue s p e.1 = e.2
  sticky : (getCtx s p).wcol = false ∧ (getCtx s p).wfb = false
  spill : ∀ e, smGet 0 (getCtx s p).park e = 0
  empty : (getCtx s p).loops = [] ∧ (getCtx s p).landing = [] ∧ (getCtx s p).pend = [] ∧ (getCtx s p).reqs = []

/-! ### The invariant -/

/-- What every step keeps: the memory is in canonical form, and no write of a group is left over between steps. -/
structure Sound (s : State) : Prop where
  mem : MemOk s
  clean : s.endw = []

end Sys2Proof.Machine
end

