-- ==== Sys2Proof/Certificates/Slice0/Obligations.lean ====
section
/-! DEFINITION. The statements for the provers, from the numbered rules of the spec. -/

open Sys2Proof Sys2Proof.Machine

/-! ### Scalar, vector and fixed slots -/

/-- R321, R323, R334, R339, R365, R367, R368, R377, R382, R385, R392, R420: what the register forms of the scalar slots
write, of both slots, at their latencies of Table 4-5; each completes wherever its position may issue and its guard holds,
and changes nothing but D. -/
def Obligations.ScalarRegisterResults : Prop :=
  ∀ (s : State) (sl : SSlot) (g : BitVec 3) (d a b k : BitVec 5),
    let c := me s
    let A := regWord c (sReg c sl a)
    let B := regWord c (sReg c sl b)
    let K := regWord c (sReg c sl k)
    CanIssue s [sReg c sl a, sReg c sl b, sReg c sl k, sReg c sl d] 1 → guardOn c g = true →
    (∀ e ∈ ([
        (.add sl g d a b, A + B, 1),
        (.sub sl g d a b, A - B, 1),
        (.mul sl g d a b, BitVec.ofNat 64 (A.toNat * B.toNat), 3),
        (.mulh sl g d a b 0, BitVec.ofInt 64 (A.toInt * B.toInt / 2 ^ 64), 3),
        (.mulh sl g d a b 1, BitVec.ofNat 64 (A.toNat * B.toNat / 2 ^ 64), 3),
        (.div sl g d a b 0, if B = 0 then BitVec.allOnes 64 else BitVec.ofInt 64 (Int.tdiv A.toInt B.toInt), 12),
        (.div sl g d a b 1, if B = 0 then BitVec.allOnes 64 else BitVec.ofNat 64 (A.toNat / B.toNat), 12),
        (.rem sl g d a b 0, if B = 0 then A else BitVec.ofInt 64 (Int.tmod A.toInt B.toInt), 12),
        (.rem sl g d a b 1, if B = 0 then A else BitVec.ofNat 64 (A.toNat % B.toNat), 12),
        (.and sl g d a b, A &&& B, 1),
        (.or sl g d a b, A ||| B, 1),
        (.xor sl g d a b, A ^^^ B, 1),
        (.shl sl g d a b, A <<< (B.toNat % 64), 1),
        (.shr sl g d a b, A >>> (B.toNat % 64), 1),
        (.sra sl g d a b, A.sshiftRight (B.toNat % 64), 1),
        (.min sl g d a b 0, if A.toInt ≤ B.toInt then A else B, 1),
        (.min sl g d a b 1, if A.toNat ≤ B.toNat then A else B, 1),
        (.max sl g d a b 0, if A.toInt ≤ B.toInt then B else A, 1),
        (.max sl g d a b 1, if A.toNat ≤ B.toNat then B else A, 1),
        (.cmp sl g d a b 0, if A = B then 1 else 0, 1),
        (.cmp sl g d a b 1, if A ≠ B then 1 else 0, 1),
        (.cmp sl g d a b 2, if A.toInt < B.toInt then 1 else 0, 1),
        (.cmp sl g d a b 3, if B.toInt ≤ A.toInt then 1 else 0, 1),
        (.cmp sl g d a b 4, if A.toNat < B.toNat then 1 else 0, 1),
        (.cmp sl g d a b 5, if B.toNat ≤ A.toNat then 1 else 0, 1),
        (.cmp sl g d a b 6, if A.toInt < B.toInt then -1 else if A = B then 0 else 1, 1),
        (.cmp sl g d a b 7, if A.toNat < B.toNat then -1 else if A = B then 0 else 1, 1)] : List (Instr × Word × Nat)),
      Completes e.1 s s sl.num [wordRes (sReg c sl d) e.2.1 e.2.2 (regBad c (sReg c sl a) || regBad c (sReg c sl b))]) ∧
    Completes (.sel sl g d a b k) s s sl.num [wordRes (sReg c sl d) (if K = 0 then B else A) 1
      (regBad c (sReg c sl a) || (regBad c (sReg c sl b) || regBad c (sReg c sl k)))]

/-- R321, R323, R328, R333, R334, R360, R368, R373, R385, R420, R335: the immediate and one-source forms, `bfx` and `bfi` at every width of
the set, 0 to 64, field bits beyond bit 63 reading as zero; copies between the scalar files and the common one, at latency 2. -/
def Obligations.ScalarImmediateResults : Prop :=
  (∀ (s : State) (sl : SSlot) (g : BitVec 3) (d a : BitVec 5) (i : BitVec 13) (n o : BitVec 6) (e : BitVec 32) (w : BitVec 7),
    let c := me s
    let A := regWord c (sReg c sl a)
    let D := regWord c (sReg c sl d)
    let badA := regBad c (sReg c sl a)
    let badD := regBad c (sReg c sl d)
    CanIssue s [sReg c sl a, sReg c sl d] 1 → guardOn c g = true →
    (∀ x ∈ ([
        (.addImm sl g d a i, A + i.signExtend 64, badA),
        (.andImm sl g d a i, A &&& i.signExtend 64, badA),
        (.orImm sl g d a i, A ||| i.signExtend 64, badA),
        (.xorImm sl g d a i, A ^^^ i.signExtend 64, badA),
        (.shlImm sl g d a n, A <<< n.toNat, badA),
        (.shrImm sl g d a n, A >>> n.toNat, badA),
        (.sraImm sl g d a n, A.sshiftRight n.toNat, badA),
        (.cmpImm sl g d a i, if A.toInt < (i.signExtend 64).toInt then -1 else if A = i.signExtend 64 then 0 else 1, badA),
        (.li sl g d e, e.signExtend 64, false),
        (.lih sl g d e, (e ++ D.setWidth 32 : BitVec 64), badD),
        (.clz sl g d a, if A = 0 then 64 else BitVec.ofNat 64 (63 - Nat.log2 A.toNat), badA),
        (.popc sl g d a, BitVec.ofNat 64 ((List.range 64).countP A.getLsbD), badA)] : List (Instr × Word × Bool)),
      Completes x.1 s s sl.num [wordRes (sReg c sl d) x.2.1 1 x.2.2]) ∧
    (w.toNat ≤ 64 →
      (∃ v, Completes (.bfx sl g d a w o) s s sl.num [wordRes (sReg c sl d) v 1 badA] ∧
        ∀ i, v.getLsbD i = (decide (i < w.toNat) && A.getLsbD (i + o.toNat))) ∧
      (∃ v, Completes (.bfi sl g d a w o) s s sl.num [wordRes (sReg c sl d) v 1 (badA || badD)] ∧
        ∀ i, i < 64 → v.getLsbD i =
          if o.toNat ≤ i ∧ i < o.toNat + w.toNat then A.getLsbD (i - o.toNat) else D.getLsbD i))) ∧
  ∀ (s : State) (sl : SSlot) (g : BitVec 3) (d a : BitVec 5) (q : BitVec 2) (f : BitVec 3),
    let c := me s
    let own := sReg c sl a
    let src := commonReg a.toNat
    let dst := physReg c (fileOfCode f.toNat) d.toNat
    guardOn c g = true →
    (f = 3 ∨ f = 4 ∨ f = 5 → CanIssue s [own, dst] 1 →
      Completes (.cpy sl g d a f) s s sl.num [wordRes dst (regWord c own) 2 (regBad c own)]) ∧
    (f = 3 ∨ f = 4 → CanIssue s [src, dst] 1 →
      Completes (.cpyCommon sl g d a q f) s s sl.num [wordRes dst (regWord c src) 2 (regBad c src)])

/-- R397 to R399, R410, R411: element-wise vector operations: the elements that K's predicate makes active take the
result of their lanes, the others stay; latency 2, `vmul` and `vmad` 4.  A float operation that rounds needs a rounding
mode other than the reserved one (log 10). -/
def Obligations.VectorElementResults : Prop :=
  ∀ (s : State) (sl : VSlot) (g k : BitVec 3) (d a b : BitVec 4) (t : BitVec 4),
    let c := me s
    let w := typeWidth t.toNat
    let n := typeCount t.toNat
    let A := regGet c (vReg c sl a)
    let B := regGet c (vReg c sl b)
    let D := regGet c (vReg c sl d)
    let K := regGet c (kReg sl k)
    let lane := fun (f : Nat → Nat → Nat → Nat) => vecOf w ((List.range n).map (fun i => f (elem D w i) (elem A w i) (elem B w i)))
    let arith := fun (op : Arith) => lane (arithElem op t.toNat (fmtRnd c.fmt) (fmtSat c.fmt))
    let badAB := anyBad c ([vReg c sl a, vReg c sl b] ++ kReads sl k)
    let out := fun (v : Vec) (lat : Nat) (bad : Bool) => [(⟨.reg (vReg c sl d), v, activeMask K t.toNat n, lat, bad⟩ : Res)]
    CanIssue s ([vReg c sl a, vReg c sl b, vReg c sl d] ++ kReads sl k) 1 → guardOn c g = true →
    (isArith t = true → (isFloat t.toNat = true → fmtRnd c.fmt ≠ 3) →
      ∀ e ∈ ([
          (.vadd sl g d a b k t, out (arith .add) 2 badAB),
          (.vsub sl g d a b k t, out (arith .sub) 2 badAB),
          (.vmul sl g d a b k t, out (arith .mul) 4 badAB),
          (.vmad sl g d a b k t, out (arith .mad) 4 (regBad c (vReg c sl d) || badAB)),
          (.vmin sl g d a b k t, out (arith .min) 2 badAB),
          (.vmax sl g d a b k t, out (arith .max) 2 badAB),
          (.vabs sl g d a k t, out (arith .abs) 2 (anyBad c ([vReg c sl a] ++ kReads sl k)))] : List (Instr × List Res)),
        Completes e.1 s s sl.num e.2) ∧
    (t ≠ 15 →
      ∀ e ∈ ([
          (.vand sl g d a b k t, out (A &&& B) 2 badAB),
          (.vor sl g d a b k t, out (A ||| B) 2 badAB),
          (.vxor sl g d a b k t, out (A ^^^ B) 2 badAB)] : List (Instr × List Res)),
        Completes e.1 s s sl.num e.2) ∧
    (isInt t = true →
      Completes (.vshl sl g d a b k t) s s sl.num
        (out (lane (fun _ x y => if w ≤ y then 0 else x * 2 ^ y % 2 ^ w)) 2 badAB) ∧
      Completes (.vshr sl g d a b k t) s s sl.num
        (out (lane (fun _ x y => if isSigned t.toNat then ofSigned w (intVal t.toNat x / 2 ^ (if w ≤ y then w else y))
          else if w ≤ y then 0 else x / 2 ^ y)) 2 badAB))

/-- R100 to R102, R107, R111 to R113, R398: what one element of arithmetic is.  Of the integer types it is the exact result, wrapped
into the type's bits or, with FMT.SAT or for q15, clamped to its range, q15 products being rounded to nearest even at 2^-15.  Of
bf16, f16 and f32 it is the exact sum, difference, product or fused sum, rounded once by FMT.RND, stochastic acting as nearest
even; a minimum or maximum is one of the operands, the one that is no NaN where the other is, −0 below +0; every NaN is the
canonical one. -/
def Obligations.ElementArithmetic : Prop :=
  (∀ (t rnd : Nat) (sat : Bool) (d a b : Nat), t ≤ 7 →
    let w := typeWidth t
    let x := intVal t a
    let y := intVal t b
    let prod := if t = 7 then rneQ15 (x * y) else x * y
    let store := fun (z : Int) => if sat ∨ t = 7 then ofSigned w (max (intLo t) (min (intHi t) z)) else ofSigned w z
    arithElem .add t rnd sat d a b = store (x + y) ∧
    arithElem .sub t rnd sat d a b = store (x - y) ∧
    arithElem .mul t rnd sat d a b = store prod ∧
    arithElem .mad t rnd sat d a b = store (intVal t d + prod) ∧
    arithElem .min t rnd sat d a b = ofSigned w (min x y) ∧
    arithElem .max t rnd sat d a b = ofSigned w (max x y) ∧
    arithElem .abs t rnd sat d a b = store |x|) ∧
  (∀ z : Int, 2 * |rneQ15 z * 2 ^ 15 - z| ≤ 2 ^ 15 ∧ (2 * |rneQ15 z * 2 ^ 15 - z| = 2 ^ 15 → rneQ15 z % 2 = 0)) ∧
  intLo 7 = -32768 ∧ intHi 7 = 32767 ∧
  (∀ t a : Nat, t ≤ 7 → a < 2 ^ typeWidth t →
    intVal t a = if t ∉ [1, 3, 5] ∧ 2 ^ (typeWidth t - 1) ≤ a then (a : Int) - 2 ^ typeWidth t else a) ∧
  ∀ f ∈ floatFormats, 10 ≤ f.1 → ∀ (rnd : Nat) (sat : Bool) (d a b : Nat),
    let t := f.1
    let sign := 2 ^ (f.2.1 + f.2.2.1)
    let nan := (2 ^ f.2.1 - 1) * 2 ^ f.2.2.1 + 2 ^ (f.2.2.1 - 1)
    let md : Mode := ⟨if rnd = 1 then 1 else 0, 0⟩
    let x := decFloat t a
    let y := decFloat t b
    (∃ z, IsSum x y z ∧ arithElem .add t rnd sat d a b = encFloat t md z) ∧
    (∃ z, IsSum x (decFloat t (b ^^^ sign)) z ∧ arithElem .sub t rnd sat d a b = encFloat t md z) ∧
    (∃ z, IsProduct x y z ∧ arithElem .mul t rnd sat d a b = encFloat t md z) ∧
    (∃ q z, IsProduct x y q ∧ IsSum (decFloat t d) q z ∧ arithElem .mad t rnd sat d a b = encFloat t md z) ∧
    (∀ e ∈ ([(.min, Below x y, a), (.min, Below y x, b), (.max, Below x y, b), (.max, Below y x, a), (.min, a = b ∧ x ≠ .nan, a),
        (.max, a = b ∧ x ≠ .nan, a), (.min, x = .nan ∧ y ≠ .nan, b), (.max, x = .nan ∧ y ≠ .nan, b), (.min, x ≠ .nan ∧ y = .nan, a),
        (.max, x ≠ .nan ∧ y = .nan, a), (.min, x = .nan ∧ y = .nan, nan), (.max, x = .nan ∧ y = .nan, nan)] :
        List (Arith × Prop × Nat)), e.2.1 → arithElem e.1 t rnd sat d a b = e.2.2) ∧
    arithElem .abs t rnd sat d a b = if x = .nan then nan else a % sign

/-- R101 to R103, R107, R108, R115, R116: the value of every pattern of a floating format, of q15 and of e8m0; how a value becomes
a floating pattern: the neighbour that the mode says, on magnitudes, an overflow to ±∞, to the largest finite toward zero, and in
e4m3 to ±448 in every mode; and what each row of Table 6-6 gives.  Conversion to e8m0 ignores the sign and the rounding:
clamp(floor(log2 |x|) + 127, 0, 254), zero giving 0 and infinities and NaN 0xFF. -/
def Obligations.ConversionResults : Prop :=
  (∀ (t v : Nat) (sat : Bool) (md : Mode), t ≤ 12 →
    convertBits t 14 sat md v = match decNum t v with
      | .fin _ m e => if m = 0 then 0 else (max 0 (min 254 ((Nat.log2 m : Int) + e + 127))).toNat
      | _ => 0xFF) ∧
  (∀ f ∈ floatFormats,
    let t := f.1
    let ex := f.2.1
    let fr := f.2.2.1
    let b := f.2.2.2
    let sign := fun (neg : Bool) => if neg then 2 ^ (ex + fr) else 0
    let inf := (2 ^ ex - 1) * 2 ^ fr
    let most := if t = 8 then 0x7E else inf - 1
    let nan := if t = 8 then 0x7F else inf + 2 ^ (fr - 1)
    (∀ v, v < 2 ^ (1 + ex + fr) →
      let mag := v % 2 ^ (ex + fr)
      let neg := decide (2 ^ (ex + fr) ≤ v)
      (t = 8 → mag = 0x7F → decFloat t v = .nan) ∧
      (t ≠ 8 → mag = inf → decFloat t v = .inf neg) ∧
      (t ≠ 8 → inf < mag → decFloat t v = .nan) ∧
      (mag ≤ most → ∃ m e, decFloat t v = .fin neg m e ∧ numVal (.fin false m e) = magnitude fr b mag)) ∧
    ∀ (md : Mode) (neg : Bool) (m : Nat) (e : Int),
      encFloat t md .nan = nan ∧
      encFloat t md (.inf neg) = sign neg + (if t = 8 then most else inf) ∧
      (m = 0 → encFloat t md (.fin neg m e) = sign neg) ∧
      (m ≠ 0 → ∃ w, RoundsTo md (magnitude fr b) (numVal (.fin false m e)) w ∧
        encFloat t md (.fin neg m e) = sign neg + (if w ≤ most then w else if t = 8 ∨ md.rnd = 1 then most else inf))) ∧
  (∀ (t s v : Nat) (sat : Bool) (md : Mode),
    let w := typeWidth t
    let rounded := fun (neg : Bool) (x : ℚ) (r : Nat) => ∃ n, RoundsTo md (fun k => (k : ℚ)) x n ∧
      r = ofSigned w (max (intLo t) (min (intHi t) (if neg then -(n : Int) else n)))
    let exact := fun (z : Int) (e : Int) => Num.fin (decide (z < 0)) z.natAbs e
    convertBits t t sat md v = v ∧
    (s ≠ t → isFloat t = true →
      (isFloat s = true → convertBits s t sat md v = encFloat t md (decFloat s v)) ∧
      (s ≤ 6 → convertBits s t sat md v = encFloat t md (exact (intVal s v) 0)) ∧
      (s = 7 → convertBits s t sat md v = encFloat t md (exact (intVal 7 v) (-15))) ∧
      (s = 14 → convertBits s t sat md v = encFloat t md (if v % 256 = 255 then .nan else .fin false 1 ((v % 256 : Nat) - 127)))) ∧
    (t ≤ 7 →
      (s ≤ 7 → s ≠ t → convertBits s t sat md v =
        ofSigned w (if sat then max (intLo t) (min (intHi t) (intVal s v)) else intVal s v)) ∧
      (isFloat s = true → match decFloat s v with
        | .nan => convertBits s t sat md v = 0
        | .inf neg => convertBits s t sat md v = ofSigned w (if neg then intLo t else intHi t)
        | .fin neg m e => rounded neg (numVal (.fin false m e) * (if t = 7 then 2 ^ 15 else 1)) (convertBits s t sat md v)) ∧
      (s = 14 → if v % 256 = 255 then convertBits s t sat md v = 0
        else rounded false (2 ^ ((v % 256 : Nat) - 127 : Int) * (if t = 7 then 2 ^ 15 else 1)) (convertBits s t sat md v)))) ∧
  ∀ (v : Vec) (n i : Nat), i < n → n ≤ 512 → (i4Elems false v n)[i]? = some (.int (toSigned 4 (elem v 4 i)))

/-- R400 to R402, R405, R406, R410: comparisons into predicates, selection, counts of active elements, broadcasts, moves and
predicate logic. -/
def Obligations.VectorMoveResults : Prop :=
  decodeSlot 2 0x3435E043 0 = .ok (.vsel .va 0 6 11 12 4 3) ∧
  ∀ (s : State) (sl : VSlot) (g k : BitVec 3) (d a b : BitVec 4) (dk ak bk : BitVec 3) (r : BitVec 4) (cs : BitVec 5)
    (q : BitVec 2) (f t : BitVec 4),
    let c := me s
    let w := typeWidth t.toNat
    let n := typeCount t.toNat
    let A := regGet c (vReg c sl a)
    let B := regGet c (vReg c sl b)
    let K := regGet c (kReg sl k)
    let M := activeMask K t.toNat n
    let dst := vReg c sl d
    let badAB := anyBad c ([vReg c sl a, vReg c sl b] ++ kReads sl k)
    let badA := anyBad c ([vReg c sl a] ++ kReads sl k)
    CanIssue s ([vReg c sl a, vReg c sl b, dst, kReg sl dk, commonReg cs.toNat, physReg c (fileOfCode f.toNat) d.toNat]
      ++ kReads sl k ++ kReads sl ak ++ kReads sl bk) 1 → guardOn c g = true →
    (isArith t = true → r.toNat ≤ 6 → ∃ rel : Nat → Bool,
      (∀ i, i < n → (rel i = true ↔ Relates r.toNat t.toNat (elem A w i) (elem B w i))) ∧
      Completes (.vcmp sl g dk a b r k t) s s sl.num [⟨.reg (kReg sl dk), lanesOf t.toNat rel, activeLanes K t.toNat, 2, badAB⟩]) ∧
    (t ≠ 15 → Completes (.vsel sl g d a b k t) s s sl.num [⟨.reg dst, (A &&& M) ||| (B &&& ~~~M), fullMask, 2, badAB⟩]) ∧
    (t ≠ 15 → Completes (.vcnt sl g d k t) s s sl.num
      [⟨.reg dst, BitVec.ofNat 2048 ((List.range n).countP (elemOn K t.toNat)), fullMask, 2, anyBad c (kReads sl k)⟩]) ∧
    (t ≠ 15 → Completes (.vbcast sl g d cs q k t) s s sl.num
      [⟨.reg dst, vecOf w ((List.range n).map (fun _ => (regWord c (commonReg cs.toNat)).toNat)), M, 3,
        anyBad c ([commonReg cs.toNat] ++ kReads sl k)⟩]) ∧
    (t ≠ 15 → f.toNat ≤ 2 ∨ f.toNat = 6 ∧ d.toNat < 8 ∨ f.toNat = 7 ∧ d.toNat < 8 → Completes (.vmov sl g d a f k t) s s sl.num
      [⟨.reg (physReg c (fileOfCode f.toNat) d.toNat), A, M, 2, badA⟩]) ∧
    (t ≠ 15 → f = 3 ∨ f = 4 ∨ f = 5 → Completes (.vmov sl g d a f k t) s s sl.num
      [wordRes (physReg c (fileOfCode f.toNat) d.toNat) (A.setWidth 64) 2 (regBad c (vReg c sl a))]) ∧
    (∀ e ∈ ([(0, regGet c (kReg sl ak) &&& regGet c (kReg sl bk)), (1, regGet c (kReg sl ak) ||| regGet c (kReg sl bk)),
        (2, regGet c (kReg sl ak) ^^^ regGet c (kReg sl bk)), (3, regGet c (kReg sl ak) &&& ~~~regGet c (kReg sl bk))] :
        List (BitVec 4 × Vec)),
      Completes (.vkop sl g dk ak bk e.1) s s sl.num [⟨.reg (kReg sl dk), e.2, fullMask, 2, anyBad c (kReads sl ak ++ kReads sl bk)⟩]) ∧
    (∀ e ∈ ([(4, ~~~regGet c (kReg sl ak)), (5, regGet c (kReg sl ak))] : List (BitVec 4 × Vec)),
      Completes (.vkop sl g dk ak 0 e.1) s s sl.num [⟨.reg (kReg sl dk), e.2, fullMask, 2, anyBad c (kReads sl ak)⟩])

/-- R404, R408, R409, R412: reductions, scans, histograms and the k best elements, over the active elements: the pairwise tree by
index, whose node `T k j` covers the elements from 2^k × j on, the running prefix `P i` of the elements below i, the count of
each value, and the elements ranked by value, ties by the lower index. -/
def Obligations.VectorReductionResults : Prop :=
  decodeSlot 2 0x40730003 0 = .ok (.vhist .va 0 14 6 0 3) ∧
  ∀ (s : State) (sl : VSlot) (g k : BitVec 3) (d a : BitVec 4) (r t : BitVec 4),
    let c := me s
    let w := typeWidth t.toNat
    let es := activeElems (regGet c (kReg sl k)) (regGet c (vReg c sl a)) t.toNat
    let n := typeCount t.toNat
    let step := fun (o : Arith) (x y : Nat) => arithElem o t.toNat (fmtRnd c.fmt) (fmtSat c.fmt) 0 x y
    let f : Nat → Nat → Nat :=
      [step .add, step .min, step .max, (· &&& ·), (· ||| ·), (· ^^^ ·)].getD r.toNat (fun x _ => x)
    let top := if isFloat t.toNat then infBits t.toNat else if t = 1 ∨ t = 3 ∨ t = 5 then 2 ^ w - 1 else 2 ^ (w - 1) - 1
    let low := if isFloat t.toNat then 2 ^ (w - 1) + infBits t.toNat else if t = 1 ∨ t = 3 ∨ t = 5 then 0 else 2 ^ (w - 1)
    let iota := [0, top, low, 2 ^ w - 1, 0, 0].getD r.toNat 0
    let canon := fun (v : Nat) => if isFloat t.toNat && decFloat t.toNat v == .nan then nanBits t.toNat else v
    let value := fun (o : Option Nat) => (if r.toNat ≤ 2 then canon else id) (o.getD iota)
    let bad := anyBad c ([vReg c sl a] ++ kReads sl k)
    let out := fun (v : Vec) (lat : Nat) => [(⟨.reg (vReg c sl d), v, fullMask, lat, bad⟩ : Res)]
    let act : List (Nat × Nat) := es.zipIdx.filterMap (fun e => e.1.map (fun v => (e.2, v)))
    let pad := r.toNat + 1 - act.length
    CanIssue s ([vReg c sl a, vReg c sl d] ++ kReads sl k) 1 → guardOn c g = true →
    (isArith t = true → r.toNat ≤ 5 → (isFloat t.toNat = true → r = 0 → fmtRnd c.fmt ≠ 3) →
      (∃ T : Nat → Nat → Option Nat, (∀ j, T 0 j = (es[j]?).getD none) ∧ (∀ k j, T (k + 1) j = combined f (T k (2 * j)) (T k (2 * j + 1))) ∧
        Completes (.vred sl g d a r k t) s s sl.num (out (vecOf w [value (T 9 0)]) 6)) ∧
      (∃ P : Nat → Option Nat, P 0 = none ∧ (∀ i, P (i + 1) = combined f (P i) ((es[i]?).getD none)) ∧
        Completes (.vscan sl g d a r k t) s s sl.num (out (vecOf w ((List.range n).map (fun i => value (P (i + 1))))) 6))) ∧
    (t = 1 ∨ t = 3 → Completes (.vhist sl g d a k t) s s sl.num
      (out (vecOf w ((List.range (typeCount t.toNat)).map (fun b => Nat.min (es.countP (· == some b)) (2 ^ w - 1)))) 8)) ∧
    (isArith t = true → ∃ best : List (Nat × Nat), best.length = min (r.toNat + 1) act.length ∧ (∀ e ∈ best, e ∈ act) ∧
      best.Pairwise (Outranks t.toNat) ∧ (∀ e ∈ act, e ∉ best → ∀ b ∈ best, Outranks t.toNat b e) ∧
      Completes (.vtopk sl g d a r k t) s s sl.num
        (out (vecOf w (best.map (fun e => canon e.2) ++ List.replicate pad 0 ++ best.map (·.1) ++ List.replicate pad (2 ^ w - 1))) 10))

/-- R114, R403, R109, R110: `vcvt`: each active element converted by FMT.RND and FMT.SAT, and under stochastic rounding
one draw for each active element of a conversion that draws.
The refusal of the reserved rounding mode is the model's reading (log 10). -/
def Obligations.VectorConversion : Prop :=
  ∀ (s : State) (sl : VSlot) (g k : BitVec 3) (d a : BitVec 4) (st t : BitVec 4),
    let c := me s
    let wd := typeWidth t.toNat
    let n := 2048 / Nat.max wd (typeWidth st.toNat)
    let K := regGet c (kReg sl k)
    let A := regGet c (vReg c sl a)
    let on := (List.range n).map (elemOn K t.toNat)
    let draws := convDraws st.toNat t.toNat
    let ms := modes (if draws then fmtRnd c.fmt else 0) c.seed on
    let vs := if st = 13 then List.zipWith (convertI4 t.toNat (fmtSat c.fmt)) ms (i4Elems (fmtOutl c.fmt) A n)
      else List.zipWith (fun m i => convertBits st.toNat t.toNat (fmtSat c.fmt) m (elem A (typeWidth st.toNat) i)) ms (List.range n)
    t ≠ 15 → t ≠ 13 → st ≠ 15 → (convDraws st.toNat t.toNat = true → fmtRnd c.fmt ≠ 3) →
    CanIssue s ([vReg c sl a, vReg c sl d] ++ kReads sl k) 1 → guardOn c g = true →
    Completes (.vcvt sl g d a st k t) s (drawn (if draws then drawCount (fmtRnd c.fmt) on else 0) s) sl.num
      [⟨.reg (vReg c sl d), vecOf wd vs, activeMask K t.toNat n ||| ~~~(onesAt 0 (n * wd)), 3, anyBad c ([vReg c sl a] ++ kReads sl k)⟩]

/-- R157, R407: `vpop` takes the oldest row of its queue at issue, where no result for its destination is in the landing buffer
(R33), and its destination is pending until the row arrives through the interlock. -/
def Obligations.QueuePop : Prop :=
  ∀ (s : State) (sl : VSlot) (g k : BitVec 3) (d : BitVec 4) (q : BitVec 3) (t : BitVec 4) (n : Nat) (x : QRow) (xs : List QRow),
    let c := me s
    let M := activeMask (regGet c (kReg sl k)) t.toNat (typeCount t.toNat)
    t ≠ 15 → queueOf c s.cur q.toNat = some n → queueRows s s.cur n = x :: xs → isLanding c (vReg c sl d) = false →
    CanIssue s ([vReg c sl d] ++ kReads sl k) 0 → guardOn c g = true →
    Completes (.vpop sl g d q k t) s
      (updCtx s.cur (fun z => { z with
        pend := z.pend ++ [⟨vReg c sl d, M, c.nextId, 0, x.row, x.bad || anyBad c (kReads sl k), []⟩]
        nextId := z.nextId + 1 })
        (updCore (coreOf s.cur) (fun z => { z with queues := smSet [] z.queues n xs }) s)) sl.num []

/-- R344, R345: special functions of every element, rounded once to nearest even in T, and the copies of FX; the special values of
Table 20-5, and what `frcp` and `frsq` give: the pattern nearest to 1/x, and the one nearest to 1/√x, of whose square the
comparisons speak.
How precisely the transcendental value is computed before it is rounded is the model's reading (log 9). -/
def Obligations.SpecialFunctions : Prop :=
  (∀ f ∈ floatFormats, 10 ≤ f.1 → ∀ v : Nat,
    let t := f.1
    let sign := 2 ^ (f.2.1 + f.2.2.1)
    let mag := magnitude f.2.2.1 f.2.2.2
    let x := decFloat t v
    let value := fun (fn : FxFun) => encFloat t rneMode (fxNum fn x)
    let one := (2 ^ (f.2.1 - 1) - 1) * 2 ^ f.2.2.1
    (x = .nan → ∀ fn, value fn = nanBits t) ∧
    (∀ neg, x = .inf neg →
      value .rcp = (if neg then sign else 0) ∧ value .rsq = (if neg then nanBits t else 0) ∧ value .exp2 = (if neg then 0 else infBits t) ∧
      value .log2 = (if neg then nanBits t else infBits t) ∧ value .tanh = (if neg then sign + one else one) ∧
      value .sig = if neg then 0 else one) ∧
    (∀ neg e, x = .fin neg 0 e →
      let s := if neg then sign else 0
      value .rcp = s + infBits t ∧ value .rsq = s + infBits t ∧ value .exp2 = one ∧ value .log2 = sign + infBits t ∧ value .tanh = s ∧
      value .sig = one - 2 ^ f.2.2.1) ∧
    ∀ neg m e, x = .fin neg m e → m ≠ 0 →
      let q := numVal (.fin false m e)
      (∃ w, RoundsTo rneMode mag (1 / q) w ∧ value .rcp = (if neg then sign else 0) + min w (infBits t)) ∧
      (neg = true → value .rsq = nanBits t ∧ value .log2 = nanBits t) ∧
      (neg = false → q = 1 → value .log2 = 0) ∧
      (neg = false → ∃ a, mag a ^ 2 * q ≤ 1 ∧ 1 < mag (a + 1) ^ 2 * q ∧
        let mid := ((mag a + mag (a + 1)) / 2) ^ 2 * q
        value .rsq = if mid < 1 ∨ (mid = 1 ∧ a % 2 = 1) then a + 1 else a)) ∧
  ∀ (s : State) (g d a : BitVec 3) (t : BitVec 4) (f : BitVec 3),
    let c := me s
    let w := typeWidth t.toNat
    let V := regGet c (fReg a)
    let out := fun (fn : FxFun) => [(⟨.reg (fReg d), vecOf w ((List.range (typeCount t.toNat)).map (fun i =>
      encFloat t.toNat rneMode (fxNum fn (decFloat t.toNat (elem V w i))))), fullMask, 8, regBad c (fReg a)⟩ : Res)]
    let dst := physReg c (fileOfCode f.toNat) d.toNat
    CanIssue s [fReg a, fReg d, dst] 1 → guardOn c g = true →
    (t = 10 ∨ t = 11 ∨ t = 12 →
      ∀ e ∈ ([(.frcp g d a t, .rcp), (.frsq g d a t, .rsq), (.fexp2 g d a t, .exp2), (.flog2 g d a t, .log2),
          (.ftanh g d a t, .tanh), (.fsig g d a t, .sig)] : List (Instr × FxFun)),
        Completes e.1 s s 5 (out e.2)) ∧
    (f.toNat ≤ 2 ∨ 6 ≤ f.toNat → Completes (.fmov g d a f) s s 5 [⟨.reg dst, V, fullMask, 2, regBad c (fReg a)⟩])

/-- R338, R357, R372, R379, R386, R395: the permutes of PX and its copy: which element of A or B each element of D is. -/
def Obligations.PermuteResults : Prop :=
  ∀ (s : State) (g d a b : BitVec 3) (cs : BitVec 5) (q : BitVec 2) (t : BitVec 4) (f : BitVec 3),
    let c := me s
    let w := typeWidth t.toNat
    let n := typeCount t.toNat
    let A := regGet c (zReg a)
    let B := regGet c (zReg b)
    let bad := regBad c (zReg a) || regBad c (zReg b)
    let dst := physReg c (fileOfCode f.toNat) d.toNat
    let perm := fun (h : Nat → Nat) (lat : Nat) => [(⟨.reg (zReg d), vecOf w ((List.range n).map h), fullMask, lat, bad⟩ : Res)]
    let sh := (regWord c (commonReg cs.toNat)).toNat % 512
    CanIssue s [zReg a, zReg b, zReg d, commonReg cs.toNat, dst] 1 → guardOn c g = true →
    (t ≠ 15 →
      Completes (.shuf g d a b t) s s 6 (perm (fun i =>
        if 8 ≤ w then elem A w (elem B w i % n) else elem A w (16 * (i / 16) + elem B w i)) 3) ∧
      Completes (.trns g d a b t) s s 6 (perm (fun i =>
        if i % (n / 8) < n / 8 / 2 then elem A w (8 * (i % (n / 8)) + i / (n / 8)) else elem B w (8 * (i % (n / 8)) + i / (n / 8))) 6) ∧
      Completes (.ilv g d a b t) s s 6 (perm (fun i => if i % 2 = 0 then elem A w (i / 2) else elem B w (i / 2)) 3) ∧
      Completes (.dil g d a b t) s s 6 (perm (fun i =>
        if i < n / 2 then elem A w (2 * i) else elem B w (2 * (i - n / 2) + 1)) 3)) ∧
    (∃ v, Completes (.rmrg g d a b cs q) s s 6
        [⟨.reg (zReg d), v, fullMask, 3, regBad c (zReg a) || (regBad c (zReg b) || regBad c (commonReg cs.toNat))⟩] ∧
      ∀ i, i < 256 → elem v 8 i = if (sh + i) % 512 < 256 then elem A 8 ((sh + i) % 512) else elem B 8 ((sh + i) % 512 - 256)) ∧
    (f.toNat ≤ 2 ∨ 6 ≤ f.toNat → Completes (.pmov g d a f) s s 6 [⟨.reg dst, A, fullMask, 2, regBad c (zReg a)⟩])

/-- R120, R121, R370, R374, R396, R110: packing, unpacking and block scaling, with one draw for each element under
stochastic rounding; the value of each element, the exact one scaled by a power of two and rounded once, and the shared scale of a
block, by its largest magnitude.
The refusal of the reserved rounding mode is the model's reading (log 10). -/
def Obligations.PackResults : Prop :=
  (∀ (t code v : Nat) (auto sat : Bool) (md : Mode), code < 256 →
    let clamp := fun (lo hi z : Int) => max lo (min hi z)
    let rounded := fun (neg : Bool) (x : ℚ) (P : Int → Prop) => ∃ n, RoundsTo md (fun k => (k : ℚ)) x n ∧ P (if neg then -(n : Int) else n)
    (t = 0 ∨ t = 8 ∨ t = 9 →
      let r := packElem t code auto md v
      (code = 255 → r = if t = 0 then 0 else if t = 8 then 0x7F else 0x7E) ∧
      (code ≠ 255 → t ≠ 0 → ∃ z, IsScaled (127 - code) (decFloat 10 v) z ∧ r = encFloat t md z) ∧
      (code ≠ 255 → t = 0 → match decFloat 10 v with
        | .nan => r = 0
        | .inf neg => r = if neg then (if auto then 129 else 128) else 127
        | .fin neg m e => rounded neg (numVal (.fin false m e) * 2 ^ (127 - code : Int)) (fun z =>
            r = ofSigned 8 (clamp (if auto then -127 else -128) 127 z)))) ∧
    (t ≤ 7 ∨ 10 ≤ t ∧ t ≤ 12 →
      let r := psclElem t code sat md v
      (code = 255 → r = if t ≤ 7 then 0 else nanBits t) ∧
      (code ≠ 255 → 10 ≤ t → ∃ z, IsScaled (code - 127) (decFloat t v) z ∧ r = encFloat t md z) ∧
      (code ≠ 255 → t ≤ 7 → rounded (decide (intVal t v < 0)) (|(intVal t v : ℚ)| * 2 ^ (code - 127 : Int)) (fun z =>
        r = ofSigned (typeWidth t) (if sat ∨ t = 7 then clamp (intLo t) (intHi t) z else z))))) ∧
  (∀ (t : Nat) (xs : List Machine.Num),
    let size := fun (x : Machine.Num) => |numVal x|
    ((∃ x ∈ xs, ∀ a m e, x ≠ .fin a m e) → sharedScale t xs = 255) ∧
    ((∀ x ∈ xs, IsZero x) → sharedScale t xs = 0) ∧
    ∀ (amax : ℚ) (l : Int), (∀ x ∈ xs, ∃ a m e, x = .fin a m e) → (∃ x ∈ xs, size x = amax) → (∀ x ∈ xs, size x ≤ amax) →
      2 ^ l ≤ amax → amax < 2 ^ (l + 1) → t = 0 ∨ t = 8 ∨ t = 9 →
      (sharedScale t xs : Int) = max (-127) (min 127 (l - (if t = 8 then 8 else if t = 9 then 15 else 6))) + 127) ∧
  (∀ (t : Nat) (outl : Bool) (v : Vec), t ≠ 15 → t ≤ 15 → (unpkNum t outl v).length = 128 ∧ ∀ i, i < 128 →
    let code := elem v 8 (128 + i / 32)
    ∃ z, (unpkNum t outl v)[i]? = some z ∧
      (typeWidth t ≤ 8 → code = 255 → z = .nan) ∧
      (typeWidth t = 8 → code ≠ 255 → IsScaled (code - 127) (decNum t (elem v 8 i)) z) ∧
      (t = 13 → code ≠ 255 → ∃ e, (i4Elems outl v 128)[i]? = some e ∧ IsScaled (code - 127) (i4Num e) z) ∧
      (8 < typeWidth t → i < typeCount t → z = decNum t (elem v (typeWidth t) i)) ∧
      (8 < typeWidth t → typeCount t ≤ i → z = .fin false 0 0)) ∧
  (∀ k : Int, ∃ a m e, i4Num (.int k) = .fin a m e ∧ numVal (.fin a m e) = k) ∧
  ∀ (s : State) (g d a : BitVec 3) (cs : BitVec 5) (q : BitVec 2) (t : BitVec 4),
    let c := me s
    let A := regGet c (zReg a)
    let C := (regWord c (commonReg cs.toNat)).toNat
    let w := typeWidth t.toNat
    let n := typeCount t.toNat
    let row := (List.range 128).map (elem A 16)
    let given := (List.range 4).map (fun b => bitsOf C (8 * b) 8)
    let shared := (List.range 4).map (fun b => sharedScale t.toNat (((row.drop (32 * b)).take 32).map (decFloat 10)))
    let ms := fun (m : Nat) => modes (fmtRnd c.fmt) c.seed (List.replicate m true)
    let u := fun (m : Nat) => drawn (drawCount (fmtRnd c.fmt) (List.replicate m true)) s
    let packed := fun (codes : List Nat) (auto : Bool) =>
      vecOf 8 (List.zipWith (fun m e => packElem t.toNat (codes.getD (e.2 / 32) 0) auto m e.1) (ms 128) row.zipIdx ++ codes)
    let badC := regBad c (zReg a) || regBad c (commonReg cs.toNat)
    fmtRnd c.fmt ≠ 3 → CanIssue s [zReg a, zReg d, commonReg cs.toNat] 1 → guardOn c g = true →
    (t = 0 ∨ t = 8 ∨ t = 9 →
      Completes (.pack g d a cs q t) s (u 128) 6 [⟨.reg (zReg d), packed given false, fullMask, 4, badC⟩] ∧
      Completes (.packAuto g d a t) s (u 128) 6 [⟨.reg (zReg d), packed shared true, fullMask, 4, regBad c (zReg a)⟩]) ∧
    (t ≠ 15 → Completes (.unpk g d a t) s (u 128) 6
      [⟨.reg (zReg d), vecOf 16 (List.zipWith (encFloat 10) (ms 128) (unpkNum t.toNat (fmtOutl c.fmt) A)), fullMask, 4, regBad c (zReg a)⟩]) ∧
    (isArith t = true → Completes (.pscl g d a cs q t) s (u n) 6
      [⟨.reg (zReg d), vecOf w (List.zipWith (fun m i => psclElem t.toNat (bitsOf C (8 * (i / 32)) 8) (fmtSat c.fmt) m (elem A w i))
        (ms n) (List.range n)), fullMask, 4, badC⟩])

/-- R63, R319, R322: the address slot, at latency 1; a write of w0 is discarded.  The step of `ainc` by each mode of the modifier:
linear; modulo LEN, within the buffer that starts at a multiple of LEN; bit-reversed, the K index bits above E counted in
reverse; and none. -/
def Obligations.AddressResults : Prop :=
  ∀ (s : State) (g : BitVec 3) (d a m e : BitVec 4) (cs : BitVec 5) (q : BitVec 2) (sf w : BitVec 1),
    let c := me s
    let C := regWord c (commonReg cs.toNat)
    let badC := regBad c (commonReg cs.toNat)
    let src := axReg a sf
    let dst := axReg d w
    let A := regWord c (aReg d.toNat)
    let M := regWord c (wReg m.toNat)
    let mode := M.extractLsb' 62 2
    let step := (M.extractLsb' 32 30).toInt
    let len := if M.extractLsb' 0 32 = 0 then 2 ^ 32 else (M.extractLsb' 0 32).toNat
    let E := (M.extractLsb' 8 4).toNat
    let K := if M.extractLsb' 0 6 = 0 then 1 else (M.extractLsb' 0 6).toNat
    let index := fun (x : Word) => (((List.range K).map (fun i => if x.getLsbD (E + i) then 2 ^ (K - 1 - i) else 0)).sum : Int)
    CanIssue s [commonReg cs.toNat, aReg d.toNat, wReg d.toNat, wReg m.toNat, src, dst] 1 → guardOn c g = true →
    Completes (.aset g d cs q) s s 7 [wordRes (aReg d.toNat) C 1 badC] ∧
    (∃ v, Completes (.ainc g d m) s s 7 [wordRes (aReg d.toNat) v 1 (regBad c (aReg d.toNat) || regBad c (wReg m.toNat))] ∧
      (mode = 0 → v = A + (M.setWidth 62).signExtend 64) ∧
      (mode = 1 → ∃ o r : Nat, o = A.toNat % len ∧ r < len ∧ (len : Int) ∣ o + step - r ∧
        v = A - BitVec.ofNat 64 o + BitVec.ofNat 64 r) ∧
      (mode = 2 → K ≤ 32 → E ≤ 8 → (2 ^ K : Int) ∣ index A + step - index v ∧
        ∀ j, j < E ∨ E + K ≤ j → v.getLsbD j = A.getLsbD j) ∧
      (mode = 3 → v = A)) ∧
    (e.toNat ≤ 2 → Completes (.amod g d cs q e) s s 7
      (if d = 0 then [] else [wordRes (wReg d.toNat) (BitVec.ofNat 2 e.toNat ++ C.setWidth 62 : BitVec 64) 1 badC])) ∧
    Completes (.amov g d a sf w) s s 7 (if w = 1 ∧ d = 0 then [] else [wordRes dst (regWord c src) 1 (regBad c src)])

/-! ### Matrix slot -/

/-- R134, R137 to R142, R145, R150, R155, R320, R332, R389, Tables 8-3 and 8-5: what becomes of a matrix operation at its
issue.  With fewer than sixteen outstanding, every check of Table 8-3 passed and its operand rows at live cores it joins
the context's list with its operands as read at issue; a `cim` is assigned to the Valid or Filling copy of its tile, fills an array, or runs by
fallback with WFB set and WFBCNT counted.  With sixteen outstanding the group blocks; a descriptor outside the rules, an
FMT that the operation does not allow and, with CTL.WFAULT set, a tile without an array meet their causes.
The format fault of `drn` with the reserved rounding mode and the block at sixteen before the faults of Table 8-3 are
the model's readings (log 10, log 17). -/
def Obligations.MatrixAcceptance : Prop :=
  ∀ (s : State) (g : BitVec 3) (r tr : BitVec 5) (rp tp b : BitVec 2) (m l o t : BitVec 1) (n : BitVec 3) (key : Nat)
    (place : Word),
    let c := me s
    let p := s.cur
    let D := regWord c (commonReg r.toNat)
    let V := regWord c (commonReg tr.toNat)
    let tag := tagOf c c.fmt V
    let two := [commonReg r.toNat, commonReg tr.toNat]
    let base : MOp := { mopBase c .smx with
      t := t == 1, ov := o == 1, cl := l == 1, desc := D, descB := V, cb := b.toNat, skip := (metaOf s p m).word }
    let rowsD := vaReads c D 0 (descRows D)
    let rowsV := vaReads c V 0 (smxBRows base) ++ (if smxSecond base then vaReads c V (descTpitch V) (smxBRows base) else [])
    let cim : MOp := { mopBase c .cim with
      t := t == 1, ov := o == 1, cl := l == 1, desc := D, cb := b.toNat, skip := (metaOf s p m).word, tag := tag, key := key
      place := place, rowsA := vaRows c D 0 (descRows D), bad := anyBad c (two ++ rowsD) }
    let trapped := fun (e : Cause) => trapEntry p e c.pc 0 none s
    let whole := descBad c D = false
    let word := (metaOf s p m).cause = none ∧ (metaOf s p m).waits = false
    guardOn c g = true →
    (c.mops.length < 16 → whole → b.toNat ≤ 2 → CanIssueMx s [commonReg r.toNat] 0 →
      Completes (.acz g r rp b) s (accept p { mopBase c .acz with desc := D, cb := b.toNat } s) 8 []) ∧
    (c.mops.length < 16 → whole → b.toNat ≤ 2 → drainType (fmtD c.fmt) = true → fmtRnd c.fmt ≠ 3 →
      (queueOf c p n.toNat).isSome = true → CanIssueMx s [commonReg r.toNat] 0 →
      Completes (.drn g r rp b n) s
        (accept p { mopBase c .drn with desc := D, cb := b.toNat, q := n.toNat, seed := c.seed }
          (drawn (if fmtRnd c.fmt = 2 then descRows D * cbCols b.toNat else 0) s)) 8 []) ∧
    (c.mops.length < 16 → whole → b.toNat ≤ 2 → word → (rp = tp → r = tr) → (l = 1 → fullCluster s p = true) →
      (∀ i ∈ mopRows base, coreLive s (holderOf p i) = true) →
      smxFmtOk c.fmt = true → V.getLsbD 63 = false → ((descVsrc D || descVsrc V) = true → vsrcFull c = false) →
      CanIssueMx s (two ++ (rowsD ++ rowsV)) 0 →
      Completes (.smx g r rp tr tp b m l o t) s
        (metaStep p m (accept p { base with
          rowsA := vaRows c D 0 (descRows D)
          rowsB := vaRows c V 0 (smxBRows base)
          rowsC := if smxSecond base then vaRows c V (descTpitch V) (smxBRows base) else []
          bad := anyBad c (two ++ (rowsD ++ rowsV)) } s)) 8 []) ∧
    (c.mops.length < 16 → whole → b.toNat ≤ 1 → word → (rp = tp → r = tr) → (l = 1 → fullCluster s p = true) →
      (∀ i ∈ mopRows cim, coreLive s (holderOf p i) = true) →
      tileCheck s p V = .ok (key, place) → plRepl place ≠ 1 → (fmtA c.fmt = 0 ∨ fmtA c.fmt = 13) →
      (fmtW c.fmt = 0 ∨ fmtW c.fmt = 13) → (descVsrc D = true → vsrcFull c = false) → CanIssueMx s (two ++ rowsD) 0 →
      (∀ a, lookupTile s (coreOf p) tag = some (a, false) → Completes (.cim g r rp tr tp b m l o t) s
        (metaStep p m (touchExtent p V (accept p { cim with arr := some a } s))) 8 []) ∧
      (∀ a, lookupTile s (coreOf p) tag = some (a, true) → Completes (.cim g r rp tr tp b m l o t) s
        (metaStep p m (touchExtent p V (accept p { cim with arr := some a }
          (startFill (coreOf p) a tag key place c.scl none s)))) 8 []) ∧
      (lookupTile s (coreOf p) tag = none → (getCore s (coreOf p)).wfault = false → Completes (.cim g r rp tr tp b m l o t) s
        (metaStep p m (touchExtent p V (updCtx p (fun z => { z with wfb := true, wfbcnt := z.wfbcnt + 1 })
          (accept p { cim with fallback := true } s)))) 8 []) ∧
      (lookupTile s (coreOf p) tag = none → (getCore s (coreOf p)).wfault = true →
        exec (.cim g r rp tr tp b m l o t) s = .next (trapped ⟨6, 5, 8, V &&& ~~~0xFFFF, 0, 0, 0, 0, 0⟩))) ∧
    (competes c = true → c.window = 0 →
      (16 ≤ c.mops.length → b.toNat ≤ 1 → (rp = tp → r = tr) →
        ∀ i ∈ ([.acz g r rp b, .drn g r rp b n, .smx g r rp tr tp b 0 l o t, .cim g r rp tr tp b 0 l o t] : List Instr),
          exec i s = .next (updCtx p (fun z => { z with st := .blocked, stalled := false }) s)) ∧
      (c.mops.length < 16 → isPending c (commonReg r.toNat) = false → b.toNat ≤ 2 →
        (descBad c D = true → exec (.acz g r rp b) s = .next (trapped ⟨5, 5, 8, 0, 0, 0, 0, 0, 0⟩)) ∧
        (drainType (fmtD c.fmt) = false ∨ fmtRnd c.fmt = 3 →
          exec (.drn g r rp b n) s = .next (trapped ⟨4, 5, 8, 0, 0, 0, 0, 0, 0⟩))))

/-- R130, R146, R158, R159, R414, Table 8-8: the residency operations: a prefetch or pin makes the tile resident as a miss
would and completes when it is, that is, once no copy is Filling and it has its copies, or no set can take one more; an unpin is done at acceptance; an invalidation is done at once where no `cim` accepted
before is assigned to a copy, else it is kept; a probe reports the copies with latency 4. -/
def Obligations.TileResidency : Prop :=
  (∀ (s : State) (p k : Nat) (m : MOp),
    let c := getCtx s p
    let core := coreOf p
    let copy := fun (st : ArrState) (a : Nat) => (getArr s core a).tag = m.tag ∧ (getArr s core a).st = st
    let leaves := NextWith (exec (.matrixOpComplete p k) s) (fun t => t = updCtx p (fun c => { c with mops := c.mops.eraseIdx k }) s)
    let stays := NextWith (exec (.matrixOpComplete p k) s) (fun t => t = s)
    p < 512 → c.mops[k]? = some m → m.kind = .wpre ∨ m.kind = .wpin → m.lost = false → m.bad = false →
    dropsSoon s core m.tag m.num = false →
    ((∃ a < 16, copy .filling a) → stays) ∧
    ((∀ a < 16, ¬copy .filling a) →
      (∀ as : List Nat, as.Nodup → m.n ≤ as.length → (∀ a ∈ as, a < 16 ∧ copy .valid a) → leaves) ∧
      ((∀ n < 4, preSet s core m.tag n = none) → leaves) ∧
      ((∀ a < 16, ¬copy .valid a) → leaves) ∧
      (∀ a n, a < 16 → copy .valid a → n < 4 → preSet s core m.tag n ≠ none →
        (∀ as : List Nat, as.Nodup → (∀ x ∈ as, x < 16 ∧ copy .valid x) → as.length < m.n) → stays))) ∧
  ∀ (s : State) (g : BitVec 3) (d tr : BitVec 5) (tp n : BitVec 2) (key : Nat) (place : Word),
    let c := me s
    let p := s.cur
    let V := regWord c (commonReg tr.toNat)
    let tag := tagOf c c.fmt V
    let core := coreOf p
    guardOn c g = true → c.mops.length < 16 → tileCheck s p V = .ok (key, place) → plRepl place ≠ 1 →
    (fmtW c.fmt = 0 ∨ fmtW c.fmt = 13) →
    (c.sup = false → CanIssueMx s [commonReg tr.toNat] 0 →
      Completes (.wpre g tr tp n) s (touchExtent p V (accept p
        { mopBase c .wpre with tag := tag, key := key, place := place, n := n.toNat + 1, started := true }
        (makeResident p tag key place c.scl s))) 8 [] ∧
      Completes (.wpin g tr tp) s (touchExtent p V (accept p
        { mopBase c .wpin with tag := tag, key := key, place := place, n := 1, started := true }
        (pinCopies core tag (makeResident p tag key place c.scl s)))) 8 [] ∧
      Completes (.wunp g tr tp) s (touchExtent p V
        (setPins core tag false (copiesOf s core tag [.filling, .valid, .stale]) s)) 8 [] ∧
      (tileAssigned s core tag s.order = false → Completes (.winv g tr tp) s (touchExtent p V (dropTile core tag s)) 8 []) ∧
      (tileAssigned s core tag s.order = true → Completes (.winv g tr tp) s (touchExtent p V (accept p
        { mopBase c .winv with tag := tag, key := key, place := place, started := true } s)) 8 [])) ∧
    (CanIssueMx s [commonReg tr.toNat, commonReg d.toNat] 1 → Completes (.wprb g d tr tp) s (touchExtent p V s) 8
      [wordRes (commonReg d.toNat) (tileReport s core tag) 4 (regBad c (commonReg tr.toNat))])

/-! ### Scratchpad slots -/

/-- R36, R164, R167, R168, R172, R318, R359: `ld` and `lds`: the bytes at the address register's offset, its low bits
cleared, land with latency 4; the banks touched become the context's; a load waits for full granules unless `.nw`, and
`.c` empties them; no byte of memory changes.
That `.c` empties the granules at the read is the model's reading (log 19). -/
def Obligations.ScratchLoads : Prop :=
  ∀ (s : State) (sl : LSlot) (g : BitVec 3) (r : BitVec 4) (f : BitVec 3) (a m : BitVec 4) (nw cl : BitVec 1),
    let c := me s
    let p := s.cur
    let dst := physReg c (fileOfCode f.toNat) r.toNat
    let post := postUpdate c a.toNat m.toNat
    let reads := memReads a.toNat m.toNat
    CanIssue s (dst :: reads) (1 + post.length) → guardOn c g = true → acquiring s p = false → regOk f r = true →
    ∀ e ∈ ([(.ld sl g r f a m nw cl, 256), (.lds sl g r f a m nw cl, 8)] : List (Instr × Nat)),
      let n := e.2
      let off := scrOff c a / n * n
      let key := scratchKey (clusterOf p) off
      let u := poisonRead p (gransBad s p off n) (takeBanks p (bankIds p off n) s)
      (n = 256 → isVecFile f = true) → coreLive s (holderOf p off) = true → banksReady s p (bankIds p off n) = true →
      (nw = 0 → gransFull s p off n = true) →
      SameBytes s u ∧
      Completes e.1 s (if cl = 1 then { u with empties := (granKeys p off n).foldl (fun q k => smSet false q k true) u.empties } else u)
        sl.num (⟨.reg dst, BitVec.ofNat 2048 (rdNat s.mem key n), fullMask, 4, gransBad s p off n || anyBad c reads⟩ :: post)

/-- R35, R36, R157, R167, R168, R290, R391: `st`, `sts` and `stq`: the bytes of the register or of the queue's oldest row
stand in the scratchpad after the step, their granules full and marked as the data were; every other byte reads as
before. -/
def Obligations.ScratchStores : Prop :=
  ∀ (s : State) (sl : LSlot) (g : BitVec 3) (r : BitVec 4) (f : BitVec 3) (a m : BitVec 4) (q : BitVec 2) (k : Nat)
    (x : QRow) (xs : List QRow),
    let c := me s
    let p := s.cur
    let src := physReg c (fileOfCode f.toNat) r.toNat
    let reads := memReads a.toNat m.toNat
    guardOn c g = true → acquiring s p = false →
    ∀ e ∈ ([(.st sl g r f a m, 256, regGet c src, anyBad c (src :: reads), s, [src]),
        (.sts sl g r f a m q, 8, regGet c src, anyBad c (src :: reads), s, [src]),
        (.stq sl g r a m, 256, x.row, x.bad || anyBad c reads,
          updCore (coreOf p) (fun z => { z with queues := smSet [] z.queues k xs }) s, [])] :
        List (Instr × Nat × Vec × Bool × State × List Reg)),
      let n := e.2.1
      let off := scrOff c a / n * n
      let key := scratchKey (clusterOf p) off
      let v := takeBanks p (bankIds p off n) e.2.2.2.2.1
      let marks := if e.2.2.2.1 then (granKeys p off n).foldl (fun z j => smSet false z j true) s.granBad
        else if n = 256 then (granKeys p off n).foldl (fun z j => smSet false z j false) s.granBad else s.granBad
      CanIssue s (e.2.2.2.2.2 ++ reads) (postUpdate c a.toNat m.toNat).length →
      e.1.wf = true → (e.1 = .stq sl g r a m → queueOf c p r.toNat = some k ∧ queueRows s p k = x :: xs) →
      coreLive s (holderOf p off) = true → banksReady s p (bankIds p off n) = true → rowHeld c (off / 256) = false →
      Completes e.1 s { v with
        mem := wrBytes s.mem key (bytesLE n e.2.2.1.toNat)
        empties := (granKeys p off n).foldl (fun z j => smSet false z j false) s.empties
        granBad := marks } sl.num (postUpdate c a.toNat m.toNat) ∧
      NextWith (exec e.1 s) (fun t => rdBytes t.mem key n = bytesLE n e.2.2.1.toNat ∧
        SameBytesBut (fun j => key ≤ j ∧ j < key + n) s t)

/-- R168, R342, R371: `fset` and `fclr` make a granule or a row of sixteen full or empty; `fwait` waits until it is full;
`park` keeps a register in a spill-map entry at the step's end, `unpark` brings it back with latency 4, the entry number
taken modulo 32 with two contexts per core; no byte of memory changes. -/
def Obligations.GranulesAndSpills : Prop :=
  ∀ (s : State) (sl : LSlot) (g : BitVec 3) (a m r : BitVec 4) (w : BitVec 1) (f : BitVec 3) (q : BitVec 2) (e : BitVec 6),
    let c := me s
    let p := s.cur
    let n := if w = 1 then 256 else 16
    let off := scrOff c a / n * n
    let u := takeBanks p (bankIds p off n) s
    let post := postUpdate c a.toNat m.toNat
    let become := fun (b : Bool) => { u with empties := (granKeys p off n).foldl (fun z j => smSet false z j b) s.empties }
    let reg := physReg c (fileOfCode f.toNat) r.toNat
    let entry := if c.wide then e.toNat else e.toNat % 32
    guardOn c g = true →
    (CanIssue s (memReads a.toNat m.toNat) post.length → acquiring s p = false → coreLive s (holderOf p off) = true → banksReady s p (bankIds p off n) = true →
      Completes (.fset sl g a m w) s (become false) sl.num post ∧
      Completes (.fclr sl g a m w) s (become true) sl.num post ∧
      (gransFull s p off n = true → Completes (.fwait sl g a m w) s u sl.num post)) ∧
    (regOk f r = true →
      ((f = 5 ∨ q = 0) → CanIssue s [reg] 0 → Completes (.park sl g r f q e) s (updCtx p (fun z => { z with
          park := smSet 0 z.park entry (regGet c reg)
          parkBad := if regBad c reg then entry :: z.parkBad.filter (· != entry) else z.parkBad.filter (· != entry) }) s) sl.num []) ∧
      (CanIssue s [reg] 1 → Completes (.unpark sl g r f e) s s sl.num
        [⟨.reg reg, smGet 0 c.park entry, fullMask, 4, c.parkBad.contains entry⟩]))

/-! ### Global memory, translation, transfers and links -/

/-- R32, R174, R192, R193, R318, R352: `gld` issues one request for each line, and its destination is pending until all
have been performed; it waits for a result for its destination in the landing buffer (R33), for an acquire, for a fault-free place in the side log, and for earlier accesses of its own that
overlap without being performed, and meets no cause where the address translates with R. -/
def Obligations.GlobalLoads : Prop :=
  ∀ (s : State) (g : BitVec 3) (r : BitVec 4) (f : BitVec 3) (a m : BitVec 4) (sc : BitVec 3) (o z : BitVec 2) (e : Extent),
    let c := me s
    let p := s.cur
    let size := gmSize z
    let va := gmAddr c a size
    let d := physReg c (fileOfCode f.toNat) r.toNat
    let n := if size = 256 then 4 else 1
    isLanding c d = false → CanIssue s (d :: memReads a.toNat m.toNat) (postUpdate c a.toNat m.toNat).length → guardOn c g = true → (Instr.gld g r f a m sc o z).wf = true →
    translate s p va .read = .ok e → acquiring s p = false → sideMeets s p va size = false → farSpan s p e va size = false →
    Completes (.gld g r f a m sc o z) s
      (touchExtent p va (addReqs p ((List.range n).map (fun i =>
          { reqAt s p .load c.nextId e (va + BitVec.ofNat 64 (64 * i)) (Nat.min size 64) with
            dest := some d, arg := BitVec.ofNat 64 n, lane := i, acq := o == 1, scope := sc.toNat
            bad := anyBad c (memReads a.toNat m.toNat) }))
        (addPend p d fullMask c.nextId n 0 false (takeId p s)))) 11 (postUpdate c a.toNat m.toNat)

/-- R174, R193, R218, R219, R318, R347, R349, R355, R361: writes of the GM slot whose page is present and may be written,
with no entry of the context in the side log (and a plain store to an absent page, which enters it): a store and an atomic become requests, a release waiting for the accesses
before it; a join becomes one at its cell; a plain store to a lattice page that raises every cell it covers is joined
at issue.
That a plain store to a lattice page is performed at issue, and that the check does not ask a covered cell on a failed channel, are
the model's choices (log 30, log 93). -/
def Obligations.GlobalWrites : Prop :=
  ∀ (s : State) (g : BitVec 3) (r : BitVec 4) (f : BitVec 3) (a m : BitVec 4) (sc : BitVec 3) (o z : BitVec 2) (n : BitVec 3)
    (e : Extent),
    let c := me s
    let p := s.cur
    let q := physReg c (fileOfCode f.toNat) r.toNat
    let w := physReg c (fileOfCode f.toNat) (r.toNat + 1)
    let mem := memReads a.toNat m.toNat
    let post := postUpdate c a.toNat m.toNat
    let size := gmSize z
    let va := gmAddr c a size
    let va8 := gmAddr c a 8
    let V := (regGet c q).toNat
    let vec : Bool := f.toNat ≤ 2
    let key := (placeOf s e.place (dieOf p) (physAddr e va)).1
    let join := reqAt s p .ljn c.nextId e va8 (Nat.min (if vec then 64 else 8) 64)
    let both := (if n = 6 then [q, w] else [q]) ++ mem
    guardOn c g = true → acquiring s p = false →
    ((Instr.gst g r f a m sc o z).wf = true → CanIssue s (q :: mem) post.length → translate s p va .write = .absent e →
      (o = 2 → releasing s p = false) → (getCore s (coreOf p)).slog.length + (if size = 256 then 4 else 1) ≤ 64 →
      Completes (.gst g r f a m sc o z) s (updCore (coreOf p) (fun k => { k with
        slog := k.slog ++ sideEntries p .store c.nextId va size V (anyBad c (q :: mem)) 0 0 none false sc.toNat }) s) 11 post) ∧
    (sideOf s p = [] → plRepl e.place ≠ 2 → needsOwner e.place = false →
    ((Instr.gst g r f a m sc o z).wf = true → CanIssue s (q :: mem) post.length → translate s p va .write = .ok e → plLtype e.place = 0 → farSpan s p e va size = false →
      (o = 2 → releasing s p = false) →
      Completes (.gst g r f a m sc o z) s (touchExtent p va (addReqs p ((List.range (if size = 256 then 4 else 1)).map (fun i =>
        let x := reqAt s p .store c.nextId e (va + BitVec.ofNat 64 (64 * i)) (Nat.min size 64)
        { x with bad := anyBad c (q :: mem), scope := sc.toNat,
                 data := BitVec.ofNat 512 (bitsOf V (512 * i) (8 * x.size) <<< (8 * (x.key % 64))) })) s)) 11 post) ∧
    ((Instr.gst g r f a m sc o z).wf = true → CanIssue s (q :: mem) post.length → translate s p va .write = .ok e → plLtype e.place ≠ 0 → farSpan s p e va size = false →
      (o = 2 → releasing s p = false) → (size = 8 → cellSize (plLtype e.place) = 8) → anyBad c (q :: mem) = false →
      (∀ x ∈ cellsIn e.place key size, cellStops s e.place x = false) →
      (c.replay = true ∨ ∀ x ∈ (cellsIn e.place key size).zipIdx, cellLost s e.place x.1 = true ∨
        let z := cellSize (plLtype e.place)
        latLeq (plLtype e.place) (cellGet s e.place x.1) (partOf V (z * x.2) z) = true) →
      (c.reqs.all (fun x => x.kind != .ljn || x.done || x.key + x.size ≤ key || key + size ≤ x.key) = true) →
      Completes (.gst g r f a m sc o z) s (touchExtent p va (cellsJoin e.place key size V s)) 11 post) ∧
    ((Instr.gam g r f a m sc o n).wf = true → isLanding c q = false → CanIssue s both post.length → translate s p va8 .write = .ok e → plLtype e.place = 0 → farAt s p e va8 = false →
      (o = 2 ∨ o = 3 → releasing s p = false) →
      Completes (.gam g r f a m sc o n) s (touchExtent p va8 (addReqs p
        [{ reqAt s p .gam c.nextId e va8 8 with
          bad := anyBad c both, op := n.toNat, arg := regWord c w, dest := some q
          acq := o == 1 || o == 3, scope := sc.toNat, data := BitVec.ofNat 512 (regWord c q).toNat }]
        (addPend p q fullMask c.nextId 1 0 (anyBad c both) (takeId p s)))) 11 post) ∧
    ((Instr.ljn g r f a m).wf = true → CanIssue s (q :: mem) post.length → translate s p va8 .join = .ok e → plLtype e.place ≠ 0 → farAt s p e va8 = false →
      (vec = false → cellSize (plLtype e.place) = 8) → anyBad c (q :: mem) = false →
      Completes (.ljn g r f a m) s (touchExtent p va8 (addReqs p
        [{ join with key := cellOf e.place join.key, size := if vec then cellSize (plLtype e.place) else 8,
                     data := BitVec.ofNat 512 (bitsOf V 0 (if vec then 512 else 64)) }] s)) 11 post))

/-- R220, R351, R354, R364: `lwt` issues its load once the local replica passes the milestone; a prefetch asks for a line
without being an access, and drops without one; `gcb` drops line-cache copies of the core, those on their way with them,
and its `.all` form, which names no address, all of them.
That `gpf.l2` is performed at its home as a load of the line is, after its issue, that `lwt` passes a milestone by the bytes a
failed channel last held, and that a prefetch is no access for the lattice are the model's choices (log 28, log 93). -/
def Obligations.WaitsAndPrefetches : Prop :=
  ∀ (s : State) (g : BitVec 3) (r : BitVec 4) (f : BitVec 3) (a m : BitVec 4) (o : BitVec 2) (e : Extent),
    let c := me s
    let p := s.cur
    let q := physReg c (fileOfCode f.toNat) r.toNat
    let mem := memReads a.toNat m.toNat
    let post := postUpdate c a.toNat m.toNat
    let va8 := gmAddr c a 8
    let va := gmAddr c a 64
    let cell := cellOf e.place (placeOf s e.place (dieOf p) (physAddr e va8)).1
    let z := reqAt s p .lwt c.nextId e va8 (cellSize (plLtype e.place))
    let x := reqAt s p .pf 0 e va 64
    let asks := quietExtent s p va = some e ∧ grantsAt s p e va .read = true ∧ timed e.place = true
    guardOn c g = true →
    (f.toNat ≤ 4 → o.toNat ≤ 1 → acquiring s p = false → translate s p va8 .wait = .ok e → plLtype e.place ≠ 0 →
      cellStops s e.place cell = false → sideMeets s p va8 8 = false →
      latPasses (plLtype e.place) (decide (f.toNat ≤ 2)) (cellGet s e.place cell) (regGet c q).toNat = true →
      isLanding c q = false → CanIssue s (q :: mem) post.length →
      Completes (.lwt g r f a m o) s (touchExtent p va8 (addReqs p
        [{ z with key := cell, op := (decide (f.toNat ≤ 2)).toNat, dest := some q, acq := o == 1, scope := 3, bad := anyBad c (q :: mem) }]
        (addPend p q fullMask c.nextId 1 0 false (takeId p s)))) 11 post) ∧
    (CanIssue s mem post.length →
      (quietExtent s p va = none →
        Completes (.gpf g a m 0) s s 11 post ∧ Completes (.gpf g a m 1) s s 11 post ∧ Completes (.gcb g a m 0) s s 11 post) ∧
      (asks → plLtype e.place = 0 → Completes (.gpf g a m 0) s (addReqs p [x] s) 11 post) ∧
      (asks → plLtype e.place ≠ 0 → Completes (.gpf g a m 0) s s 11 post) ∧
      (asks → Completes (.gpf g a m 1) s (addReqs p [{ x with op := 1 }] s) 11 post) ∧
      (quietExtent s p va = some e → ¬asks → Completes (.gpf g a m 0) s s 11 post ∧ Completes (.gpf g a m 1) s s 11 post) ∧
      (quietExtent s p va = some e →
        Completes (.gcb g a m 0) s (lcDrop (coreOf p) ((placeOf s e.place (dieOf p) (physAddr e va)).1 / 64) s) 11 post)) ∧
    (CanIssue s [] 0 → Completes (.gcb g 0 0 1) s (lcClear (coreOf p) s) 11 [])

/-- R182, R184, R418, R419: a walk issues with both its destinations pending, where no result for them is in the landing
buffer (R33) and no load is made again after a save (R289), and takes its place among the walks; an invalidation, in supervisor mode
and with no earlier one outstanding, is sent to every core. -/
def Obligations.TranslationOperations : Prop :=
  ∀ (s : State) (g : BitVec 3) (d : BitVec 5) (a : BitVec 4) (w : BitVec 1) (n : BitVec 14),
    let c := me s
    let p := s.cur
    let r1 := commonReg d.toNat
    let r2 := commonReg ((d.toNat + 1) % 32)
    let A := regWord c (aReg a.toNat)
    let bad := regBad c (aReg a.toNat)
    guardOn c g = true →
    (isLanding c r1 = false → isLanding c r2 = false → remaking s p = false → CanIssue s [aReg a.toNat, r1, r2] 0 → ∀ e ∈ ([(.xlt g d a w, false), (.xlp g d a w, true)] : List (Instr × Bool)),
      Completes e.1 s (updCtx p (fun z => { z with
        walks := z.walks ++ [⟨e.2, w == 1, c.pc, A, c.nextId, none, s.order⟩]
        pend := z.pend ++ [⟨r1, fullMask, c.nextId, 1, 0, bad, []⟩, ⟨r2, fullMask, c.nextId + 1, 1, 0, bad, []⟩]
        nextId := z.nextId + 2 }) { s with order := s.order + 1 }) 12 []) ∧
    (CanIssue s [aReg a.toNat] 0 → c.sup = true → c.xinvOut = [] →
      Completes (.xinv g a n) s (updCtx p (fun z => { z with xinvOut := [(pageOf A, n.toNat + 1)] }) s) 12 [])

/-- R97, R169, R172, R189, R380, R417, R421: a transfer whose card can be read and breaks no rule joins the copy engine's list, its
destination granules emptied and banks locked; a wait for a tag ends once no transfer carries it; a restripe whose pages
meet R189, and whose leaves no other device owns, joins the list; neither does while a load is made again after a save.
Which granules count as emptied by the transfer itself is the model's reading (log 87), and that the ranges of a card
wrap modulo 8 MiB its choice (log 81). -/
def Obligations.TransferOperations : Prop :=
  ∀ (s : State) (g : BitVec 3) (r w : BitVec 5) (rp wp : BitVec 2) (v : BitVec 1) (tag : BitVec 6) (n : BitVec 9),
    let c := me s
    let p := s.cur
    let A := regWord c (commonReg r.toNat) &&& ~~~15
    let off := A.toNat % 2 ^ 23
    let card : BitVec 1024 :=
      if v = 1 then (globalCard s p A).2.1 else BitVec.ofNat 1024 (natLE (scrBytes s p off 128))
    let bad := if v = 1 then (globalCard s p A).2.2 else gransBad s p off 128
    let src := cardRanges card false
    let dst := cardRanges card true
    let first := regWord c (commonReg r.toNat) &&& ~~~0xFFFF
    let place := regWord c (commonReg w.toNat) &&& ~~~0x800
    let x : Xfer := {
      restripe := false, tag := tag.toNat, gaddr := c.pc, card := card, first := 0, count := cardRuns card, place := 0
      next := 0, marked := false, old := 0, pa := 0, leaf := 0, locks := rangeBanks p dst, held := none, dropped := false, landed := false, buf := []
      bufBad := false, num := s.order
      own := (rangeGrans p src).filter (fun k => (rangeGrans p dst).contains k && !smGet false s.empties k) }
    let y : Xfer := {
      restripe := true, tag := 0, gaddr := c.pc, card := 0, first := first, count := n.toNat + 1, place := place
      next := 0, marked := false, old := 0, pa := 0, leaf := 0, locks := [], held := none, dropped := false, landed := false, buf := [], bufBad := false
      own := [], num := s.order }
    let next := { s with order := s.order + 1 }
    let asn := (getCtx s (extOwner s p)).asn
    let u := updCtx p (fun z => { z with xfers := z.xfers ++ [x] })
      (takeBanks p (rangeBanks p (src ++ dst)) (setGrans (rangeGrans p dst) true next))
    guardOn c g = true →
    (CanIssue s [commonReg r.toNat] 0 → remaking s p = false → (v = 1 → (globalCard s p A).1 = none ∧ cardWaits s p A = false) →
      (v = 0 → rangesDead s p 13 1 [(off, 128)] = none ∧ gransFull s p off 128 = true ∧
        (bankIds p off 128).all (fun id => !(id / 128 == coreOf p && bankLocked s id)) = true) →
      cardBad card = false → rangesDead s p 13 1 src = none → rangesDead s p 13 2 dst = none → cardSplits s p card = false →
      (c.xfers.filter (fun x => !x.restripe)).length < 16 → banksReady s p (rangeBanks p (src ++ dst)) = true →
      Completes (.xfer g r rp v tag) s (poisonRead p bad (if v = 1 then touchExtent p (A + 112) (touchExtent p A u) else u)) 13 []) ∧
    (CanIssue s [] 0 → c.xfers.all (fun x => x.restripe || x.tag != tag.toNat) = true → Completes (.xwt g tag) s s 13 []) ∧
    (CanIssue s [commonReg r.toNat, commonReg w.toNat] 0 → remaking s p = false → (rp = wp → r = w) →
      (∀ i ≤ n.toNat, stripeBad s c.sup (walkTable s asn (first + BitVec.ofNat 64 (2 ^ 16 * i))) place = false ∧
        walkBars s asn (first + BitVec.ofNat 64 (2 ^ 16 * i)) false = []) →
      Completes (.rstr g r rp w wp n) s (updCtx p (fun z => { z with xfers := z.xfers ++ [y] }) next) 13 [])

/-- R269 to R272, R294, R375, R383, R384: sends take the room of the remote queue, a receive the oldest rows of its
channel's queue; each makes its launch non-restartable.
That the rows of a descriptor wrap at 8 MiB is the model's choice (log 81). -/
def Obligations.LinkOperations : Prop :=
  ∀ (s : State) (g : BitVec 3) (r w : BitVec 5) (rp wp : BitVec 2) (q : BitVec 3) (k : Nat) (rows : List QRow),
    let c := me s
    let p := s.cur
    let K := regWord c (commonReg r.toNat)
    let D := regWord c (commonReg w.toNat)
    let ch := getChan s K.toNat
    let n := linkRows D
    let offs := linkOffs D
    let spans := offs.map (fun o => (o, 256))
    let next := { s with order := s.order + 1 }
    let use := fun (m : Nat) (t : State) => updChan K.toNat (fun h => { h with room := h.room - m }) t
    let joins := fun (l : LinkOp) (t : State) => updCtx p (fun z => { z with links := z.links ++ [l] }) t
    CanIssue s [commonReg r.toNat, commonReg w.toNat] 0 → guardOn c g = true → (rp = wp → r = w) → remaking s p = false →
    ch.enabled = true → K.toNat < 256 →
    (D.toNat < 2 ^ 31 → rangesDead s p 13 1 spans = none → portsDown s = false → n ≤ ch.room → offs.all (rowOpen s p) = true →
      Completes (.send g r rp w wp) s
        (joins ⟨true, K.toNat, bitsOf D.toNat 8 15, n, [], false, [], s.order⟩ (unrestart c.lseq (use n next))) 13 []) ∧
    (0 < D.toNat → D.toNat ≤ 64 → portsDown s = false → D.toNat ≤ ch.room → queueOf c p q.toNat = some k →
      queueRows s p k = rows → D.toNat ≤ rows.length →
      Completes (.sendQueue g r rp w wp q) s
        (joins ⟨true, K.toNat, 0, D.toNat, rows.take D.toNat, true, [], s.order⟩ (unrestart c.lseq (use D.toNat
          (updCore (coreOf p) (fun z => { z with queues := smSet [] z.queues k (rows.drop D.toNat) }) next)))) 13 []) ∧
    (D.toNat < 2 ^ 31 → rangesDead s p 13 2 spans = none → n ≤ ch.queue.length → banksReady s p (rangeBanks p spans) = true →
      Completes (.recv g r rp w wp) s
        (joins ⟨false, K.toNat, bitsOf D.toNat 8 15, n, ch.queue.take n, true, rangeBanks p spans, s.order⟩ (unrestart c.lseq
          (takeBanks p (rangeBanks p spans) (setGrans (rangeGrans p spans) true
            (updChan K.toNat (fun h => { h with queue := h.queue.drop n }) next))))) 13 [])

/-- R247, R249, R263, R264, R340: `dlc` and `dlc.a` read their block once its rows are full and unlocked, the fence they
make has nothing left to wait for and the next journal entry is free; the launch is accepted under the context's address
space with its launch as ORIGIN.
That a block is copied as it stands, the capacities being applied at the dispatch, which rows NTILE names outside its
set and that a block wraps at 8 MiB are the model's choices (log 99, log 100, log 81), and that a poisoned block is
taken its reading (log 102). -/
def Obligations.DeviceLaunch : Prop :=
  ∀ (s : State) (g : BitVec 3) (r : BitVec 5) (rp : BitVec 2),
    let c := me s
    let p := s.cur
    let off := (regWord c (commonReg r.toNat)).toNat % 2 ^ 23 / 256 * 256
    CanIssue s [commonReg r.toNat] 0 → guardOn c g = true → remaking s p = false →
    ∀ e ∈ ([(.dlc g r rp, false), (.dlcApportioned g r rp, true)] : List (Instr × Bool)),
      let n := dlcBytes s p off e.2
      let rows := (n + 255) / 256 * 256
      let bs := scrBytes s p off n
      let t := fenceRaise p 0xF s
      rangesDead s p 13 1 [(off, rows)] = none → gransFull s p off rows = true →
      (bankIds p off rows).all (fun id => !(id / 128 == coreOf p && bankLocked s id)) = true →
      fenceWaits s p = false → pathBusy s p 0xF = false → entryFree s s.nextSeq = true →
      Completes e.1 s (acceptLaunch (BitVec.ofNat 4096 (natLE (bs.take 512))) bs e.2 c.asn 1 c.lseq
        (getCore t (coreOf p)).pts t) 13 []

/-! ### Control slot -/

/-- R105, R106, R346, R381: FMT and the scale table take their images four steps after issue; a second write of either in
an iteration is not this one. -/
def Obligations.FormatWrites : Prop :=
  ∀ (s : State) (g : BitVec 3) (i : BitVec 16) (r h l : BitVec 5) (rp hp lp : BitVec 2),
    let c := me s
    let R := regWord c (commonReg r.toNat)
    let H := regWord c (commonReg h.toNat)
    let L := regWord c (commonReg l.toNat)
    guardOn c g = true →
    ((∀ e, c.loops.head? = some e → e.fmtBit = false) →
      (imageOk i = true → CanIssue s [] 1 → Completes (.fmtImm g i) s s 14 [⟨.fmt, i.setWidth 2048, fullMask, 4, false⟩]) ∧
      (CanIssue s [commonReg r.toNat] 1 →
        Completes (.fmtReg g rp r) s s 14 [⟨.fmt, R.setWidth 2048, fullMask, 4, regBad c (commonReg r.toNat)⟩])) ∧
    ((∀ e, c.loops.head? = some e → e.scltBit = false) → (hp = lp → h = l) →
      CanIssue s [commonReg h.toNat, commonReg l.toNat] 1 → Completes (.sclt g hp h lp l) s s 14 [⟨.scl, (H ++ L : BitVec 128).setWidth 2048, fullMask, 4,
        regBad c (commonReg l.toNat) || regBad c (commonReg h.toNat)⟩])

/-- R324 to R327: barriers: an arrival follows the context's accesses; the last of COUNT of them, or any where COUNT is
zero, completes the phase, which returns ARR to zero; `bar` also waits before the next group; `barc` sets COUNT and ends
the phase's arrivals.
What an arrival waits for is the model's reading (log 41). -/
def Obligations.BarrierOperations : Prop :=
  ∀ (s : State) (g : BitVec 3) (b : BitVec 11) (r : BitVec 5) (rp : BitVec 2),
    let c := me s
    let p := s.cur
    let cl := clusterOf p
    let R := regWord c (commonReg r.toNat)
    CanIssue s [] 0 → guardOn c g = true →
    (releasing s p = false →
      Completes (.barArrive g b) s (barArrive p b.toNat s) 14 [] ∧
      NextWith (exec (.bar g b) s) (fun t => RegFrame (barArrive p b.toNat s) t [] ∧ (getCtx t p).barWait = some b.toNat) ∧
      smGet 0 (getCluster (barArrive p b.toNat s) cl).arr b.toNat =
        (let k := getCluster s cl
          if smGet 0 k.count b.toNat = 0 ∨ smGet 0 k.arr b.toNat + 1 = smGet 0 k.count b.toNat then 0
          else smGet 0 k.arr b.toNat + 1)) ∧
    (smGet 0 (getCluster s cl).arr b.toNat = 0 → Completes (.barWait g b) s s 14 []) ∧
    (isPending c (commonReg r.toNat) = false → Completes (.barc g rp r b) s (updCluster cl (fun k => { k with
      count := smSet 0 k.count b.toNat (R.toNat % 2 ^ 16)
      arr := smSet 0 k.arr b.toNat 0
      parts := smSet [] k.parts b.toNat [] }) s) 14 [])

/-- R78, R92, R173, R336, R337, R376: `cqp` appends a count to the core's queue where it has room; `rel` gives up the
context's banks of the named groups once no transfer needs them; `csrr` delivers with latency 2 the value that each register of
Table 4-2 has at issue, and zero for any other number, and `csrw` writes one for groups from the second step on, the
Supervisor registers in supervisor mode only. -/
def Obligations.CoreControl : Prop :=
  ∀ (s : State) (g : BitVec 3) (d r : BitVec 5) (rp : BitVec 2) (m : BitVec 8) (n : BitVec 12),
    let c := me s
    let p := s.cur
    let core := coreOf p
    let k := getCore s core
    let count := fun (v : Nat) => (BitVec.ofNat 64 v : Word)
    let status := count (c.wcol.toNat + 2 * c.wfb.toNat + 2 ^ 2 * c.sup.toNat + 2 ^ 3 * c.replay.toNat
      + 2 ^ 4 * (ctxHeld (unstalled p s) p).toNat + 2 ^ 5 * (k.split % 4) + 2 ^ 8 * (k.op % 8))
    let index := fun (depth : Nat) => count ((c.loops.map (·.index)).reverse.getD depth 0)
    let owner := match c.serves with
      | some q => getCtx s q
      | none => c
    let reads := fun (number : BitVec 12) (v : Word) =>
      Completes (.csrr g d number) s s 14 [wordRes (commonReg d.toNat) v 2 false]
    CanIssue s [] 0 → guardOn c g = true →
    (isPending c (commonReg r.toNat) = false → (getCore s core).cq.length < 64 → Completes (.cqp g rp r) s (updCore core (fun k => { k with
      cq := k.cq ++ [(regWord c (commonReg r.toNat)).setWidth 32] }) s) 14 []) ∧
    (c.xfers.all (fun x => !runsLeftIn p m x) = true → Completes (.rel g m) s (updCore core (fun k => { k with
      owners := k.owners.filter (fun e => !(m.getLsbD (e.1 / 16) && e.2 == .ctx (p % 2))) }) s) 14 []) ∧
    (CanIssue s [commonReg d.toNat] 1 →
      (∀ e ∈ ([(0, c.fmt.setWidth 64), (1, status), (3, c.age.setWidth 64), (4, (c.gpred ||| 1).setWidth 64), (5, c.seed.setWidth 64),
          (6, c.mpc), (8, count c.stepc), (9, count k.cycle), (0xA, c.wfbcnt), (0x10, count c.lseq), (0x11, count c.lclus),
          (0x12, count c.lclcnt), (0x13, count c.lqpos), (0x14, count c.lctxn), (0x18, index 0), (0x19, index 1), (0x1A, index 2),
          (0x1B, index 3), (0x1C, index 4), (0x1D, index 5), (0x20, c.scl.setWidth 64), (0x21, (c.scl >>> 64).setWidth 64)] :
          List (BitVec 12 × Word)), reads e.1 e.2) ∧
      (c.sup = true → reads 2 (count (k.wfault.toNat + 2 ^ 8 * k.lease.toNat)) ∧
        ∀ j, j < 8 → reads (BitVec.ofNat 12 (0x100 + j)) (owner.trec.getD j 0)) ∧
      (¬(n.toNat ≤ 0xA ∧ n ≠ 7 ∨ 0x10 ≤ n.toNat ∧ n.toNat ≤ 0x14 ∨ 0x18 ≤ n.toNat ∧ n.toNat ≤ 0x1D ∨ n = 0x20 ∨ n = 0x21 ∨
        0x100 ≤ n.toNat ∧ n.toNat ≤ 0x107) → reads n 0)) ∧
    ((n = 2 ∨ 0x100 ≤ n.toNat ∧ n.toNat ≤ 0x107 → c.sup = true) →
      (CanIssue s [commonReg r.toNat] 1 → Completes (.csrw g rp r n) s s 14 [⟨.csr n.toNat, (regWord c (commonReg r.toNat)).setWidth 2048, fullMask, 2, false⟩]))


/-! ### Branch slot and `skip` -/

/-- R75, R94, R329, R331, R378: `br`, `call` and `ret`: taken where they have no condition or its register is not zero; a
taken one continues at its target, `br` and `ret` leaving from the innermost loop on those whose bodies exclude it, `call`
leaving none and landing the address past its group in c31; one not taken does nothing.
Which loops a target leaves: from the innermost on, each whose body, from its START to the address past its LEN-th group, excludes
it, as far as the first that holds it.
That the entries keep what the sequencer knows of their bodies is the model's reading (log 70). -/
def Obligations.Branches : Prop :=
  (∀ (s : State) (p : Nat) (t : Word) (out : List LoopEntry) (e : LoopEntry) (es : List LoopEntry),
    (∀ x ∈ out, t.toNat < x.start.toNat ∨ ∃ b, BodyEnds s p x b ∧ b.toNat ≤ t.toNat) →
    popTo s p t out = ([], none) ∧
    (e.start.toNat ≤ t.toNat → (∃ b, BodyEnds s p e b ∧ t.toNat < b.toNat) →
      ∃ x, popTo s p t (out ++ e :: es) = (x :: es, none) ∧ { x with scan := e.scan, last := e.last, left := e.left } = e)) ∧
  ∀ (s : State) (g : BitVec 3) (r : BitVec 5) (q : BitVec 2) (o : BitVec 16),
    let c := me s
    let p := s.cur
    let bare := r = 0 ∧ q = 0
    let cond := bare ∨ regWord c (commonReg r.toNat) ≠ 0
    let cr := if bare then [] else [commonReg r.toNat]
    let target := c.pc + (o.signExtend 64 <<< 2)
    let back := regWord c (commonReg 31) &&& ~~~3
    let loops := fun (i : Instr) => c.loops.map (locate s p (soloGrp c i 15))
    guardOn c g = true →
    (¬cond →
      (CanIssue s cr 0 → Completes (.br g r q o) s s 15 [] ∧ Completes (.call g r q o) s s 15 []) ∧
      (CanIssue s (commonReg 31 :: cr) 0 → Completes (.ret g r q) s s 15 [])) ∧
    (cond → c.bodyWalk = none → c.exiting = false →
      (CanIssue s cr 0 → NextWith (exec (.br g r q o) s) (fun t =>
        let left := popTo s p target (loops (.br g r q o))
        BranchFrame s t [] ∧ (getCtx t p).pc = target ∧ (getCtx t p).loops = left.1 ∧ (getCtx t p).exiting = left.2.isSome)) ∧
      (CanIssue s (commonReg 31 :: cr) 1 → NextWith (exec (.call g r q o) s) (fun t =>
        BranchFrame s t [commonReg 31] ∧ (getCtx t p).pc = target ∧ (getCtx t p).loops = loops (.call g r q o) ∧
        Lands s t 15 (wordRes (commonReg 31) (c.pc + 8) 1 false))) ∧
      (CanIssue s (commonReg 31 :: cr) 0 → NextWith (exec (.ret g r q) s) (fun t =>
        let left := popTo s p back (loops (.ret g r q))
        BranchFrame s t [] ∧ (getCtx t p).pc = back ∧ (getCtx t p).loops = left.1 ∧ (getCtx t p).exiting = left.2.isSome)))

/-- R77, R90, R91, R92, R93, R95, R363, R425: a loop of a count that is not zero pushes its entry, of INDEX 0 and the BOUND of its kind,
and `lsp` sets the stage predicates; one of count zero goes on past its body, where the words of the body can be read; the
count comes from the word, from a common register's low half or from the head of the count queue, which is consumed.
A group that is the last of the innermost body and branches nowhere is the iteration boundary: INDEX and, for `lsp`, AGE rise by
one, modulo 16; the next iteration begins at START with its stage predicates, or after the last they are cleared and the
context goes on past the body.  The stage predicates are those of R95.
What an entry holds of its body and of the loop buffer, and that a loop of count zero in the last group of an outer
body goes on without that body's boundary, are the model's readings (log 70, log 73, log 74). -/
def Obligations.LoopEntries : Prop :=
  (∀ (e : LoopEntry) (n : Nat) (old : BitVec 8), 1 ≤ e.stages → e.bound = n + e.stages - 1 →
    StagesSet e.stages n e.index old (stagePreds old e)) ∧
  (∀ (s : State) (i : Instr) (k : Nat) (e : LoopEntry) (es : List LoopEntry) (n : Nat),
    let c := me s
    let again := e.index + 1 < e.bound
    i.slot = some k → i.wf = true → guardOn c (guardField i) = false → PortsOk i s → CanIssue s [] 0 →
    (k = 8 → c.window = 0) → (k = 14 → e.fmtBit = false ∧ e.scltBit = false) → c.bodyWalk = none → c.exiting = false →
    c.loops = e :: es → e.left = 0 → e.last = c.pc → e.start.toNat ≤ c.pc.toNat → c.pc.toNat < e.scan.toNat →
    NextWith (exec i s) (fun t =>
      let d := getCtx t s.cur
      d.pc = (if again then e.start else e.scan) ∧
      (¬Due s (.csr 3) → d.age = if e.lsp = true then c.age + 1 else c.age) ∧
      (¬Due s (.csr 4) → (e.lsp = false → d.gpred = c.gpred) ∧
        (e.lsp = true → 1 ≤ e.stages → e.bound = n + e.stages - 1 →
          (again → StagesSet e.stages n (e.index + 1) c.gpred d.gpred) ∧
          (¬again → ∀ j, j < 8 → d.gpred.getLsbD j = (c.gpred.getLsbD j && !(decide (1 ≤ j ∧ j ≤ e.stages)))))) ∧
      (again → ∃ x xs, d.loops = x :: xs ∧ xs.length = es.length ∧ x.index = e.index + 1 ∧ x.bound = e.bound ∧ x.lsp = e.lsp ∧
        x.stages = e.stages ∧ x.start = e.start ∧ x.len = e.len ∧ x.fmtBit = false ∧ x.scltBit = false ∧ x.opBit = false) ∧
      (¬again → d.loops.length = es.length))) ∧
  ∀ (s : State) (g k : BitVec 3) (l : BitVec 12) (m n : BitVec 9) (q : BitVec 2) (r : BitVec 5) (v : BitVec 32)
    (vs : List (BitVec 32)),
    let c := me s
    let p := s.cur
    let R := (regWord c (commonReg r.toNat)).toNat % 2 ^ 32
    let u := updCore (coreOf p) (fun z => { z with cq := vs }) s
    let cr := commonReg r.toNat
    guardOn c g = true → c.bodyWalk = none → c.exiting = false →
    ∀ e ∈ ([
        (.loop g l n, [], false, none, n.toNat, l.toNat + 1),
        (.loopReg g l q r, [cr], false, none, R, l.toNat + 1),
        (.loopQ g l, [], true, none, v.toNat, l.toNat + 1),
        (.lsp g k m n, [], false, some (k.toNat + 1), n.toNat, m.toNat + 1),
        (.lspReg g k m q r, [cr], false, some (k.toNat + 1), R, m.toNat + 1),
        (.lspQ g k m, [], true, some (k.toNat + 1), v.toNat, m.toNat + 1)] :
        List (Instr × List Reg × Bool × Option Nat × Nat × Nat)),
      let stages := e.2.2.2.1
      let count := e.2.2.2.2.1
      let len := e.2.2.2.2.2
      let outer := c.loops.map (locate s p (soloGrp c e.1 15))
      let entry : LoopEntry := { lsp := stages.isSome, index := 0, bound := count + stages.getD 1 - 1
                                 stages := stages.getD 0, start := c.pc + 8, len := len
                                 fmtBit := false, scltBit := false, opBit := false
                                 scan := c.pc + 8, last := c.pc + 8, left := len, here := c.pc + 8
                                 buf := decide (len ≤ 64), fresh := decide (len ≤ 64), full := false }
      CanIssue s e.2.1 0 → (e.2.2.1 = true → (getCore s (coreOf p)).cq = v :: vs) →
      (count ≠ 0 → c.loops.length < 6) →
      NextWith (exec e.1 s) (fun t => BranchFrame (if e.2.2.1 then u else s) t [] ∧
        (count ≠ 0 → (getCtx t p).pc = c.pc + 8 ∧ (getCtx t p).loops = entry :: outer.map outerBody ∧
          (¬Due s (.csr 4) → (getCtx t p).gpred = if stages.isSome then stagePreds c.gpred entry else c.gpred)) ∧
        (count = 0 → (getCtx t p).loops = outer ∧ (¬Due s (.csr 4) → (getCtx t p).gpred = c.gpred) ∧
          (¬Due s (.csr 3) → (getCtx t p).age = c.age) ∧
          ∀ a, walkFrom s p len (c.pc + 8) = .ok a → (getCtx t p).pc = a ∧ (getCtx t p).bodyWalk = none))

/-- R278, R280, R281, R330, R393: `brk` and `trap` issue, count their step and then trap their context, where its launch
names a handler and it is no handler itself: the record names the cause, the slot BR, the code and the group, INFO and the
place of the return are one address, that of the next group, which outside every loop and before no line-end mark is eight bytes
on, and no register changes. -/
def Obligations.TrapInstructions : Prop :=
  ∀ (s : State) (g : BitVec 3) (k : BitVec 16),
    let c := me s
    let p := s.cur
    CanIssue s [] 0 → guardOn c g = true → c.serves = none →
    (∀ l, findLaunch s c.lseq = some l → recField l.record 88 8 ≠ 0) →
    ∀ e ∈ ([(.brk g k, 0xC), (.trap g k, 0xD)] : List (Instr × BitVec 16)),
      NextWith (exec e.1 s) (fun t =>
        let d := getCtx t p
        let w := d.trec.getD 0 0
        d.st = .trapped ∧ d.needHandler = true ∧ d.hold = none ∧ d.trec.length = 8 ∧
        w.setWidth 16 = e.2 ∧ (w >>> 16).setWidth 5 = (15 : BitVec 5) ∧ (w >>> 32).setWidth 16 = k ∧
        d.trec.getD 1 0 = c.pc ∧ d.trec.getD 2 0 = 0 ∧ d.trec.getD 6 0 = BitVec.ofNat 64 (c.stepc + 1) ∧
        d.resumeAt = d.trec[7]? ∧ SameRegs s t [] ∧
        (c.loops = [] → c.bodyWalk = none → c.exiting = false → reached s p (c.pc + 8) = c.pc + 8 → d.trec[7]? = some (c.pc + 8)))

/-- R183, R184, R193, R228, R238, R343, R356, R366, R413, R422: fences and waits complete once nothing they order is
left, an acquiring fence dropping the line-cache copies of the cores whatever its scope (log 79) and `ifence` discarding fetched code; `wait 0` goes on with idle steps while results are in flight; `mpc` sets MPC and
`yld` gives sixteen cycles to the other context.
The idle steps of `wait 0` are the model's reading (log 16). -/
def Obligations.FencesAndWaits : Prop :=
  ∀ (s : State) (g : BitVec 3) (k : BitVec 2) (sc : BitVec 3) (m : BitVec 5) (o : BitVec 16),
    let c := me s
    let p := s.cur
    let settled := sideOf s p = [] ∧ c.xinvOut = []
    CanIssue s [] 0 → guardOn c g = true →
    (settled → k.toNat ≤ 2 → sc.toNat ≤ 5 →
      (if k = 1 then ∀ r ∈ c.reqs, r.kind ≠ .load ∧ r.kind ≠ .lwt ∧ r.kind ≠ .gam else ∀ r ∈ c.reqs, r.kind = .pf) →
      openLoads c = [] → Completes (.fence g k sc) s (if k = 2 then s else dropCopies s) 15 []) ∧
    (settled → sc.toNat ≤ 5 → 2 ≤ pathCount m → pathBusy s p m = false → Completes (.fenceX g sc m) s (fenceRaise p m s) 15 []) ∧
    ((∀ r ∈ c.reqs, r.kind ≠ .store ∧ r.kind ≠ .gam) → c.xfers = [] → (∀ e ∈ sideOf s p, e.kind ≠ .store ∧ e.kind ≠ .gam) →
      NextWith (exec (.ifence g) s) (fun t => RegFrame (dropCode p s) t [] ∧ (getCore t (coreOf p)).icache = [] ∧
        (getCtx t p).lbuf = [])) ∧
    (c.pend = [] → NextWith (exec (.wait g 0) s) (fun t => BranchFrame s t [] ∧
      (getCtx t p).waitIdle = !(getCtx t p).landing.isEmpty)) ∧
    (c.xfers = [] → Completes (.wait g 1) s s 15 []) ∧
    ((∀ x ∈ c.mops, x.kind ≠ .drn) → Completes (.wait g 2) s s 15 []) ∧
    (sideOf s p = [] → Completes (.wait g 3) s s 15 []) ∧
    NextWith (exec (.mpc g o) s) (fun t => BranchFrame s t [] ∧ (getCtx t p).mpc = c.pc + (o.signExtend 64 <<< 2)) ∧
    NextWith (exec (.yld g) s) (fun t => BranchFrame s t [] ∧ (getCtx t p).yield = 16)

/-- R31, R259, R285, R341, R394: `done` makes its context Draining, and with a handler's the served context too; `tret` in
supervisor mode makes a handler Draining and the context it serves Ready, at its resume address where it has one; no register of the
context changes, and no byte of memory but the journal entry of the launch that a handler's `done` ends. -/
def Obligations.Ends : Prop :=
  ∀ (s : State) (g : BitVec 3) (q : Nat),
    let c := me s
    let p := s.cur
    CanIssue s [] 0 → guardOn c g = true →
    (c.mops = [] → c.xfers = [] → sideOf s p = [] →
      NextWith (exec (.done g) s) (fun t => (getCtx t p).st = .draining ∧ SameRegs s t [] ∧
        SameBytesBut (fun k => ∃ q, c.serves = some q ∧ inEntry s (getCtx s q).lseq k) s t ∧
        (c.serves = some q → q ≠ p → (getCtx t q).st = .draining ∧ (getCtx t q).hold = none ∧ (getCtx t q).walks = []))) ∧
    (c.sup = true → c.serves = some q → q ≠ p → sideOf s p = [] → c.xinvOut = [] → openLoads c = [] → (∀ r ∈ c.reqs, r.kind = .pf) →
      NextWith (exec (.tret g) s) (fun t => (getCtx t p).st = .draining ∧ SameBytes s t ∧ SameRegs s t [] ∧
        (getCtx t q).st = .ready ∧ (getCtx t q).pc = (getCtx s q).resumeAt.getD (getCtx s q).pc ∧
        (getCtx t q).resumeAt = none ∧ (getCtx t q).hold = none ∧ (getCtx t q).needHandler = false ∧
        ∀ r, regGet (getCtx t q) r = regGet (getCtx s q) r))

/-- R27, R28, R50, R307, R387, R413: `skip` takes as many steps as it says, the first at its issue; a request in it is the context's
from its first step.  In each later issue cycle in which nothing holds the context one more idle step issues: it counts as a
step, results land in it, one fewer is left, and after the last the context goes on past the group; the idle steps of `wait 0`
go on until the landing buffer is empty.
The idle steps of `wait 0` are the model's reading (log 16); that a cycle is counted for each issue and that the copies on their
way arrive in it are its choices (log 15, log 75). -/
def Obligations.IdleGroups : Prop :=
  ∀ (s : State) (i : BitVec 8) (v : BitVec 1) (o : BitVec 3),
    let c := me s
    let p := s.cur
    CanIssue s [] 0 →
    (NextWith (exec (.skip i 0 0) s) (fun t => BranchFrame s t [] ∧ (getCtx t p).stepc = c.stepc + 1 ∧
      (i ≠ 0 → (getCtx t p).idle = i.toNat ∧ (getCtx t p).idleAddr = c.pc ∧ (getCtx t p).idleNext = c.pc + 4) ∧
      (i = 0 → c.loops = [] → c.bodyWalk = none → (getCtx t p).pc = c.pc + 4))) ∧
    (v = 1 → (∀ e, c.loops.head? = some e → e.opBit = false) →
      NextWith (exec (.skip i v o) s) (fun t => (getCtx t p).opReq = o ∧ (getCtx t p).stepc = c.stepc + 1 ∧ SameBytes s t ∧
        SameRegs s t [])) ∧
    ∀ core q, q ≤ 1 → p = 2 * core + q →
      let other := getCtx s (2 * core + 1 - q)
      let u := { installFills core s with cur := p }
      s.bustat = 5 → coreLive s core = true → midGroup c = true → c.exiting = false → c.bodyWalk = none → gateShut s p = false →
      competes other = false → other.yield = 0 →
      ∃ t, exec (.groupIssue core) s = .next (tick core 1 t) ∧ RegFrame u t [] ∧ (getCtx t p).stepc = c.stepc + 1 ∧
        (c.waitIdle = true → (getCtx t p).pc = c.pc ∧ (getCtx t p).waitIdle = !(getCtx t p).landing.isEmpty) ∧
        (c.waitIdle = false → (getCtx t p).idle = c.idle - 1 ∧ (1 < c.idle → (getCtx t p).pc = c.pc) ∧
          (c.idle = 1 → c.loops = [] → (getCtx t p).pc = c.idleNext))

/-! ### What holds of every group -/

/-- R52, R56, R71, R307: a guard that reads false removes every effect of its operation, whichever of the slot operations it is: the
group still issues, none of the operation's registers holding it, nothing of it happens, and the pc goes on past it.  What a
guard does not take off are the checks of the words: the ports, a second `fmt` or `sclt` of an iteration, and a matrix operation
in a settling window.
That those two are checked whatever the guard reads is the model's choice (log 72). -/
def Obligations.GuardFalse : Prop :=
  ∀ (s : State) (i : Instr) (k : Nat),
    let c := me s
    i.slot = some k → i.wf = true → guardOn c (guardField i) = false → PortsOk i s → CanIssue s [] 0 →
    (k = 8 → c.window = 0) → (k = 14 → ∀ e, c.loops.head? = some e → e.fmtBit = false ∧ e.scltBit = false) →
    Completes i s s k [] ∧
    (c.loops = [] → c.bodyWalk = none → NextWith (exec i s) (fun t =>
      (getCtx t s.cur).pc = c.pc + BitVec.ofNat 64 (4 + 4 * (encode i).length)))

/-- R33: an operation that reads or writes a pending register does not issue, nor one by interlock whose destination has an
exposed-latency result in the landing buffer, whichever operation and whichever of its registers it is: where no cause
comes first (R279) its context is Blocked, and nothing else changes but that it asks for the recalls it waits for.
Completeness of the stall, that nothing but the state of the context changes, is the model's reading of one issue (log
5).
A group of one operation stands for the issue (log 5). -/
def Obligations.PendingBlocks : Prop :=
  (∀ (s : State) (i : Instr) (k : Nat) (o : OpSem),
    let c := me s
    let grp := soloGrp c i k
    let blocked := updCtx s.cur (fun z => { z with st := .blocked, stalled := o.held }) s
    competes c = true → i.slot = some k → i.wf = true → guardOn c (guardField i) = true → Pends c i →
    semOf i s.cur { next := grp.next } s = some o → firstCause (groupCauses c ⟨grp, 0, [], []⟩ [o]) = none →
    exec i s = .next (o.recalls.foldl (fun t page => askRecall page t) blocked)) ∧
  ∀ (s : State) (sl : SSlot) (vl : VSlot) (g k q : BitVec 3) (d a b : BitVec 5) (x y z t : BitVec 4),
    let c := me s
    let stalls := fun (i : Instr) => exec i s = .next (updCtx s.cur (fun c => { c with st := .blocked, stalled := false }) s)
    competes c = true → guardOn c g = true →
    ((isPending c (sReg c sl a) = true ∨ isPending c (sReg c sl b) = true ∨ isPending c (sReg c sl d) = true) →
      ∀ i ∈ ([.add sl g d a b, .mul sl g d a b, .rem sl g d a b 0] : List Instr), stalls i) ∧
    (isPending c (vReg c .vb x) = true ∨ isPending c (vReg c .vb y) = true ∨ isPending c (vReg c .vb z) = true →
      stalls (.vadd .vb g x y z 0 0)) ∧
    (isPending c (aReg x.toNat) = true → stalls (.ainc g x y)) ∧
    (∀ n r rs, t ≠ 15 → queueOf c s.cur q.toNat = some n → queueRows s s.cur n = r :: rs → isLanding c (vReg c vl x) = true →
      stalls (.vpop vl g x q k t))

/-- R70, R71, R78, R90, R278, R279, R394, R418: an operation whose word breaks its table, whichever it is, traps with cause 1 and
its slot, before anything else of it, and an idle header that breaks its own traps with SLOT 16; a privileged operation
outside supervisor mode with cause 2; a loop that would push a seventh entry with cause 3; none of them issues. -/
def Obligations.InstructionFaults : Prop :=
  ∀ (s : State) (g k : BitVec 3) (d : BitVec 5) (x : BitVec 4) (n : BitVec 14) (q : BitVec 2) (r l : BitVec 12) (h j : BitVec 9),
    let c := me s
    let p := s.cur
    let traps := fun (i : Instr) (code rank slot : Nat) =>
      exec i s = .next (trapEntry p ⟨code, rank, slot, 0, 0, 0, 0, 0, 0⟩ c.pc 0 none s)
    let loops := ([.loop g l h, .lsp g k j h] : List Instr)
    let loopRegs := ([.loopReg g l q d, .lspReg g k j q d] : List Instr)
    let loopQueues := ([.loopQ g l, .lspQ g k j] : List Instr)
    competes c = true →
    (∀ (i : Instr) (slot : Nat), i.slot = some slot → i.wf = false → WordFetched i s → traps i 1 3 slot) ∧
    (∀ (i : BitVec 8) (v : BitVec 1) (o : BitVec 3), (Instr.skip i v o).wf = false → traps (.skip i v o) 1 2 16) ∧
    (guardOn c g = true → c.sup = false →
      traps (.xinv g x n) 2 4 12 ∧ traps (.tret g) 2 4 15 ∧
      (r = 2 ∨ 0x100 ≤ r.toNat ∧ r.toNat ≤ 0x107 → traps (.csrr g d r) 2 4 14 ∧ traps (.csrw g q d r) 2 4 14)) ∧
    (guardOn c g = true → 6 ≤ c.loops.length →
      (h ≠ 0 → ∀ i ∈ loops, traps i 3 5 15) ∧
      (isPending c (commonReg d.toNat) = false → (regWord c (commonReg d.toNat)).toNat % 2 ^ 32 ≠ 0 → ∀ i ∈ loopRegs, traps i 3 5 15) ∧
      (∀ v vs, (getCore s (coreOf p)).cq = v :: vs → v ≠ 0 → ∀ i ∈ loopQueues, traps i 3 5 15))

/-- R259, R278, R281, R286: taking an exception.  Where the context is no handler it becomes Trapped: the record holds the
fields of Tables 18-2 and 18-3 and stands in the first 64 bytes of the save area, a cause of the scheduler's is held
for it and any other asks for the handler that its launch names; no other byte and no register changes.  Where the
launch names none, the context is Draining at once and its launch ends with the cause and the group address.  In a
handler a cause of the scheduler's holds it without a record, and any other ends the handler, the context it serves
and their launch, with cause 0x0042.
That memory receives the record alone is the model's choice (log 23), and that the group address of a fault in a
handler is its launch's FGROUP its reading (log 46). -/
def Obligations.TakingException : Prop :=
  ∀ (s : State) (p : Nat) (e : Cause) (gaddr info : Word) (resume : Option Word) (b : Nat),
    let c := getCtx s p
    let t := trapEntry p e gaddr info resume s
    let sched := 0x10 ≤ e.code ∧ e.code ≤ 0x14
    let w0 : Word := BitVec.ofNat 64 (e.code + 2 ^ 16 * e.slot + 2 ^ 21 * c.landing.length + 2 ^ 28 * c.sup.toNat
      + 2 ^ 29 * c.replay.toNat + 2 ^ 30 * e.access + 2 ^ 32 * e.num)
    let ws := [w0, gaddr, e.addr, e.place, e.frame, BitVec.ofNat 64 c.lseq, BitVec.ofNat 64 c.stepc, info]
    let record := fun k => memKey 0 b ≤ k ∧ k < memKey 0 b + 64
    e.code < 0x40 →
    (c.serves = none → c.landing.length ≤ 64 → e.num < 2 ^ 16 → c.area = some b →
      (getCtx t p).trec = ws ∧ (∀ q r, regGet (getCtx t q) r = regGet (getCtx s q) r) ∧
      (sched ∨ (∀ l, findLaunch s c.lseq = some l → recField l.record 88 8 ≠ 0) →
        (getCtx t p).st = .trapped ∧ (getCtx t p).resumeAt = resume ∧ (getCtx t p).pc = c.pc ∧
        (getCtx t p).hold = (if sched then some e else none) ∧ (getCtx t p).needHandler = decide (¬sched) ∧
        (AtHome s b 64 → rdBytes t.mem (memKey 0 b) 64 = ws.flatMap (fun w => bytesLE 8 w.toNat)) ∧ SameBytesBut record s t) ∧
      (∀ l, ¬sched → p < 512 → findLaunch s c.lseq = some l → recField l.record 88 8 = 0 →
        (getCtx t p).st = .draining ∧ (getCtx t p).hold = none ∧ (getCtx t p).needHandler = false ∧
        SameBytesBut (fun k => record k ∨ inEntry s c.lseq k) s t ∧
        (l.ending = false → findLaunch t c.lseq = some { l with ending := true, cause := e.code, fgroup := gaddr }))) ∧
    (∀ q, c.serves = some q →
      (sched → (getCtx t p).st = .trapped ∧ (getCtx t p).hold = some e ∧ (getCtx t p).trec = c.trec ∧ t.mem = s.mem ∧
        ∀ k, k ≠ p → getCtx t k = getCtx s k) ∧
      (¬sched → p < 512 → q < 512 → q ≠ p →
        (getCtx t p).st = .free ∧ (getCtx t q).st = .free ∧ SameBytesBut (inEntry s (getCtx s q).lseq) s t ∧
        ∀ l, findLaunch s (getCtx s q).lseq = some l → l.ending = false →
          findLaunch t (getCtx s q).lseq = some { l with ending := true, cause := 0x42, fgroup := gaddr }))

/-- R63, R73: predicate register 0 reads all ones and w0 reads zero, whatever is written to them, and a write to them
changes no register at all; g0 reads true; an i register holds the index of the loop at its depth, 0 in the first
iteration and one more at each boundary, or zero, and cannot be written; an element's predicate bit is that of its
lowest byte lane. -/
def Obligations.FixedRegisters : Prop :=
  (∀ (c : Ctx) (v m : Vec) (b : Bool),
    (∀ fl ∈ ([.ka, .kb, .kc] : List File), regGet c ⟨fl, 0⟩ = (BitVec.allOnes 256).setWidth 2048) ∧ regGet c ⟨.w, 0⟩ = 0 ∧
    guardOn c 0 = true ∧ ∀ fl ∈ ([.ka, .kb, .kc, .w] : List File), ∀ r, regGet (regWrite c ⟨fl, 0⟩ v m b) r = regGet c r) ∧
  (∀ (s : State) (p d : Nat) (v : Word), d < 6 → csrLand p (0x18 + d) v s = s ∧
    csrValue s p (0x18 + d) = match (getCtx s p).loops.reverse[d]? with
      | some e => BitVec.ofNat 64 e.index
      | none => 0) ∧
  (∀ (s : State) (l : BitVec 12) (n : BitVec 9), CanIssue s [] 0 → (me s).loops.length < 6 → (me s).bodyWalk = none → (me s).exiting = false → n ≠ 0 →
    NextWith (exec (.loop 0 l n) s) (fun t => csrValue t s.cur (0x18 + (me s).loops.length) = 0)) ∧
  (∀ (e : LoopEntry) (es : List LoopEntry) (c : Ctx), (boundary e es c).loops = (if e.index + 1 < e.bound then nextIteration e :: es else es) ∧
    (nextIteration e).index = e.index + 1 ∧ (nextIteration e).bound = e.bound ∧ (nextIteration e).fmtBit = false ∧
    (nextIteration e).scltBit = false ∧ (nextIteration e).opBit = false) ∧
  (∀ (K : Vec) (t i : Nat), 8 ≤ typeWidth t → elemOn K t i = K.getLsbD (typeWidth t / 8 * i))

/-- R28, R36, R78, R79, R80, R109: at the end of a step the results with no step left land, the lower slot standing where
two meet and of one slot the later issued; the others wait one step less.  A register takes the bits written; FMT, the
scale table, AGE, GPRED (bit 0 stays 1) and SEED (1 for a zero) take their value; a write to STATUS clears the sticky
bits it names; CTL takes WFAULT and a LEASE that is not 0; every other number is ignored.  WCOL is set where results
meet.  Nothing else of the machine changes. -/
def Obligations.LandingBuffer : Prop :=
  ∀ (s : State) (p : Nat) (e : Landing) (r : Reg) (n : Nat) (v : Word),
    let c := getCtx s p
    let t := landStep p s
    let d := getCtx t p
    let k := getCore s (coreOf p)
    let due := fun (x : Landing) => x ∈ c.landing ∧ x.rem ≤ 1
    let idle := fun (z : Dest) => ∀ x, due x → x.dest ≠ z
    let stands := due e ∧ ∀ x, due x → x.dest = e.dest → x = e ∨ e.slot < x.slot ∨ (e.slot = x.slot ∧ x.born < e.born)
    let meet := ∃ x y, due x ∧ due y ∧ x.dest = y.dest ∧ (x.slot ≠ y.slot ∨ x.born ≠ y.born)
    let w : Word := e.value.setWidth 64
    d.landing = (c.landing.filter (fun x => 1 < x.rem)).map (fun x => { x with rem := x.rem - 1 }) ∧
    (stands →
      (e.dest = .reg r → fixedReg r = false → regGet d r = fits r.file ((regGet c r &&& ~~~e.mask) ||| (e.value &&& e.mask))) ∧
      (e.dest = .fmt → d.fmt = e.value.setWidth 16) ∧
      (e.dest = .scl → d.scl = e.value.setWidth 128) ∧
      (e.dest = .csr 1 → d.wfb = (c.wfb && !w.getLsbD 1) ∧ (¬meet → d.wcol = (c.wcol && !w.getLsbD 0))) ∧
      (e.dest = .csr 2 → getCore t (coreOf p) =
        { k with wfault := w.getLsbD 0, lease := if (w >>> 8).setWidth 8 = (0 : BitVec 8) then k.lease else (w >>> 8).setWidth 8 }) ∧
      (e.dest = .csr 3 → d.age = w.setWidth 4) ∧
      (e.dest = .csr 4 → d.gpred = w.setWidth 8 ||| 1) ∧
      (e.dest = .csr 5 → d.seed = if w.setWidth 32 = (0 : BitVec 32) then 1 else w.setWidth 32)) ∧
    (meet → d.wcol = true) ∧
    (idle (.reg r) → regGet d r = regGet c r) ∧ (idle .fmt → d.fmt = c.fmt) ∧ (idle .scl → d.scl = c.scl) ∧
    (idle (.csr 1) → d.wfb = c.wfb ∧ (¬meet → d.wcol = c.wcol)) ∧ (idle (.csr 2) → getCore t (coreOf p) = k) ∧
    (idle (.csr 3) → d.age = c.age) ∧ (idle (.csr 4) → d.gpred = c.gpred) ∧ (idle (.csr 5) → d.seed = c.seed) ∧
    (n ∉ [1, 2, 3, 4, 5] → csrLand p n v s = s) ∧
    { t with ctxs := s.ctxs, cores := s.cores } = s ∧ (∀ q, q ≠ p → getCtx t q = getCtx s q) ∧
    (∀ q, q ≠ coreOf p → getCore t q = getCore s q) ∧
    { d with files := c.files, regBad := c.regBad, landing := c.landing, fmt := c.fmt, scl := c.scl, wcol := c.wcol
             wfb := c.wfb, age := c.age, gpred := c.gpred, seed := c.seed } = c


/-! ### Encoding, reset, the step -/

/-- R45 to R71: every well-formed instruction decodes from its own words, whatever its operands. -/
def Obligations.RoundTrip : Prop := ∀ i : Instr, Laws.RoundTrip.Statement i

/-- R53, R54, R70, R71: a slot word that decodes is the encoding of a well-formed instruction of its slot, bit for bit: no
bit of a legal word is ignored, and no two words mean one instruction. -/
def Obligations.LegalWordIsItsEncoding : Prop :=
  ∀ (k w e : Nat) (i : Instr), k < 16 → w < 2 ^ 32 → e < 2 ^ 32 → decodeSlot k w e = .ok i →
    i.wf = true ∧ i.slot = some k ∧
      encode i = if hasExt k w then [BitVec.ofNat 32 w, BitVec.ofNat 32 e] else [BitVec.ofNat 32 w]

/-- Tables 3-5 to 3-13: a few words, written out from the tables and the examples of the instruction pages. -/
def Obligations.WordsDecode : Prop :=
  decodeSlot 3 0x4C28C002 0 = .ok (.vbcast .vb 0 5 3 0 0 2) ∧
  decodeSlot 5 0x00143000 0 = .ok (.frcp 0 1 2 12) ∧
  decodeSlot 8 0x14002800 0 = .ok (.wpin 0 5 0) ∧
  decodeSlot 4 0x0011A00C 0 = .ok (.vadd .vc 0 2 3 4 0 12) ∧
  decodeSlot 2 0x0C091817 0 = .ok (.vmad .va 0 1 2 3 1 7) ∧
  decodeSlot 15 0x14000007 0 = .ok (.brk 0 7) ∧
  decodeSlot 15 0x2C000021 0 = .ok (.trap 0 0x21) ∧
  decodeSlot 15 0x30000000 0 = .ok (.tret 0) ∧
  decodeSkip 0xFF010000 = .ok (.skip 255 0 0) ∧
  decodeSkip 0x042D0000 = .ok (.skip 4 1 3)

/-- R72, R78, R83, R303, Tables 4-2 to 4-4 and 19-3, 19-4: the machine right after power good: bring-up state 1, nothing
bound, no memory listed, and every control register, the loop indices among them, at its reset value; what every step keeps
holds.
That ordinary registers, MPC, the registers that a bind sets and the trap record hold 0, where no context is bound yet, and that
memory lists nothing are the model's choices (log 1, log 2). -/
def Obligations.ResetState : Prop :=
  State.reset.power = true ∧ State.reset.bustat = 1 ∧ State.reset.bufail = 0 ∧ State.reset.event = 0 ∧ State.reset.wlogsz = 4 ∧
  State.reset.nextSeq = 1 ∧ State.reset.launches = [] ∧ Sound State.reset ∧
  ∀ p, p < 512 → (getCtx State.reset p).st = .free ∧ (∀ r, fixedReg r = false → regGet (getCtx State.reset p) r = 0) ∧
    ∀ e ∈ ([(0, 0), (1, 0), (2, 0xA00), (3, 0), (4, 1), (5, 1), (6, 0), (8, 0), (9, 0), (10, 0), (0x10, 0),
        (0x11, 0), (0x12, 0), (0x13, 0), (0x14, 0), (0x18, 0), (0x19, 0), (0x1A, 0), (0x1B, 0), (0x1C, 0), (0x1D, 0),
        (0x20, 0x7F7F7F7F7F7F7F7F), (0x21, 0x7F7F7F7F7F7F7F7F), (0x100, 0), (0x101, 0), (0x102, 0), (0x103, 0), (0x104, 0),
        (0x105, 0), (0x106, 0), (0x107, 0)] : List (Nat × Word)), csrValue State.reset p e.1 = e.2

/-- Every step keeps the memory in canonical form and leaves no write of a group behind: from every state with both.
The canonical form is the model's own shape of memory (log 2). -/
def Obligations.StepKeepsSound : Prop := ∀ s t : State, Sound s → step s = .next t → Sound t

/-- R19: without power no part of the package runs, and only power-on leads out of it; with power every step answers a
next state: no instruction is refused and none faults.
That no step with power is refused or faults rests on the model's choice that an event which cannot happen leaves the
state as it is (log 4). -/
def Obligations.OnlyPowerStops : Prop :=
  ∀ s : State,
    (s.power = false → nextEvent s ≠ .powerOn → step s = .fault .unpowered) ∧
    (s.power = false → nextEvent s = .powerOn → NextWith (step s) (fun t => t.power = true)) ∧
    (s.power = true → NextWith (step s) (fun _ => True))

/-- R45 to R49, R423: the bytes at the pc that hold a header with one slot and S, and a well-formed instruction's words, are
fetched as the group of that instruction, where the line may be read now (R233, R297, R311); R96 and R356 apart: nothing
of it stands in the loop buffer or the instruction cache. -/
def Obligations.GroupFetch : Prop :=
  ∀ (s : State) (p k key home : Nat) (w : Word) (i : Instr),
    let c := getCtx s p
    let place := 64 * (key / 64) + c.pc.toNat % 64
    let n := 4 + 4 * (encode i).length
    i.wf = true → i.slot = some k → bufferAt c c.pc = none → c.pc.toNat % 4 = 0 →
    codePlace s p c.pc = .ok (w, key, home) → readWaits s w (dieOf p) home key = false →
    smGet none (getCore s (coreOf p)).icache (key / 64) = none → c.pc.toNat % 64 + n ≤ 64 →
    rdBytes s.mem place n = bytesLE 4 (2 ^ 16 + 2 ^ k) ++ (encode i).flatMap (fun w => bytesLE 4 w.toNat) →
    ∃ f, fetchGroup s p c.pc = .ok f ∧ f.grp = soloGrp c i k ∧ f.errs = []

/-- R27, R37, R38: a step runs the decoded instruction: where a core's issue cycle is the next event, one of its positions
has its turn with the group of a well-formed instruction at its pc and the other has none, the step is that instruction's
`exec` there, with the copies on their way to the line cache installed, the fetched lines in the instruction cache and
one cycle counted (when copies arrive and the count of cycles are the model's choices, log 75, log 15). -/
def Obligations.StepRunsDecoded : Prop :=
  ∀ (s : State) (core q k : Nat) (i : Instr) (f : Fetched) (rest : List Instr) (n : BitVec 8) (v : BitVec 1) (o : BitVec 3),
    let p := 2 * core + q
    let other := 2 * core + 1 - q
    let c := getCtx s p
    let a := installFills core { s with agenda := rest }
    let u := fillCode p f.lines { a with cur := p }
    q ≤ 1 → s.power = true → s.agenda = .groupIssue core :: rest → s.bustat = 5 → coreLive s core = true → s.endw = [] →
    competes c = true → c.bodyWalk = none → c.exiting = false → c.idle = 0 → c.waitIdle = false → c.yield = 0 →
    gateShut a p = false → reached a p c.pc = c.pc → competes (getCtx s other) = false → (getCtx s other).yield = 0 →
    fetchGroup a p c.pc = .ok f → f.errs = [] →
    (f.grp = soloGrp c i k → i.wf = true → i.slot = some k →
      NextWith (exec i u) (fun t => step s = .next (tick core 1 t) ∧
        exec (.groupIssue core) { s with agenda := rest } = .next (tick core 1 t))) ∧
    (f.grp = skipGrp c n v o → (Instr.skip n v o).wf = true →
      NextWith (exec (.skip n v o) u) (fun t => step s = .next (tick core 1 t)))

/-- R35, R37, R38, R39, R52, R110, R157, R279: a group of any operations, at its turn.  With a cause it traps, where something of it blocks its
context is Blocked, and of neither does any operation happen; else all its operations take effect, each as it is on the state
before the group, but that it takes the queue rows and the draws after those of the lower slots; the results of operations
that have no other effect land by step count, and two pops of one queue take its first two rows.  Of two contexts that may
both issue, both do where their slots are disjoint and no two `.c` reads meet, and each computes what it would alone; else one issues
and the other is denied once more: a context denied 15 times first, then one of the latency class, then context 0.  A blocked
context holds up nobody.  Each cycle is counted.
What `semOf` says of an operation is what `exec` issues (log 5); how many cycles an issue cycle has is R308's count of sub-steps
(log 15). -/
def Obligations.GroupsAndJunction : Prop :=
  (∀ (i : Instr) (k : Nat) (v : State), i.slot = some k →
    ∃ o, semOf i v.cur { next := (soloGrp (me v) i k).next } v = some o ∧ exec i v = issueSolo i o v) ∧
  (∀ (core n : Nat) (v : State), (getCore (tick core n v) core).cycle = (getCore v core).cycle + n ∧
    ∀ j, j ≠ core → getCore (tick core n v) j = getCore v j) ∧
  (∀ (s : State) (core q : Nat) (f : Fetched) (rest : List Instr),
    let p := 2 * core + q
    let a := installFills core { s with agenda := rest }
    let u := fillCode p f.lines { a with cur := p }
    let c := getCtx u p
    let other := getCtx s (2 * core + 1 - q)
    let ops := groupOps u p f.grp.next (slotOrder f.grp.ops)
    let on := ops.filter (·.on)
    let n := subSteps (getCore s core).split (ops.map (·.slot))
    q ≤ 1 → s.power = true → s.agenda = .groupIssue core :: rest → s.bustat = 5 → coreLive s core = true → s.endw = [] →
    AtGroup a p f → competes other = false → other.yield = 0 → c.yield = 0 →
    (∀ x ∈ f.grp.ops, ∃ o ∈ ops, ∃ pre : Pre, semOf x.2 p pre u = some o ∧ o.slot = x.1 ∧ pre.next = f.grp.next ∧
      pre.pops = (on.filter (fun z => z.slot < x.1)).flatMap (·.pops) ∧
      pre.draws = ((on.filter (fun z => z.slot < x.1)).map (·.draws)).sum) ∧
    (∀ e, firstCause (groupCauses c f ops) = some e → step s = .next (tick core 1 (trapEntry p e f.grp.addr 0 none u))) ∧
    (firstCause (groupCauses c f ops) = none → barBlocks u p = true ∨ groupBlocks c (getCore u core) q ops = true →
      step s = .next (tick core 1 ((on.flatMap (·.recalls)).foldl (fun t k => askRecall k t)
        (updCtx p (fun c => { c with st := .blocked, stalled := on.any (·.held) }) u)))) ∧
    (MayIssue u p f ops →
      step s = .next (tick core n (issueGroup p f.grp ops (updCtx p (fun c => { c with st := .ready, stalled := false }) u))) ∧
      ((∀ o ∈ ops, o.effect = id ∧ o.seq = .flow) → c.loops = [] → f.grp.idle ≤ 1 →
        let landed : List Landing := on.flatMap (fun o => o.res.map (fun r => ⟨r.dest, r.value, r.mask, r.lat, o.slot, c.stepc, r.bad⟩))
        let w := getCtx (landStep p (updCtx p (fun c => { c with landing := c.landing ++ landed }) u)) p
        ∃ t, step s = .next (tick core n t) ∧ (∀ r, regGet (getCtx t p) r = regGet w r) ∧ (getCtx t p).landing = w.landing ∧
          ((∀ e ∈ c.landing ++ landed, e.rem ≤ 1 → e.dest ≠ .csr 5) → (getCtx t p).seed = advanceSeed (on.map (·.draws)).sum c.seed) ∧
          (getCtx t p).pc = f.grp.next ∧ (getCtx t p).stepc = c.stepc + 1 ∧ (getCtx t p).denials = 0 ∧ SameBytes s t ∧
          ∀ j, j ≠ p → getCtx t j = getCtx u j)) ∧
    (∀ (d e : BitVec 4) (r : BitVec 3) (t1 t2 : BitVec 4) (m : Nat) (x y : QRow) (ys : List QRow),
      f.grp.ops = [(2, .vpop .va 0 d r 0 t1), (3, .vpop .vb 0 e r 0 t2)] → t1 ≠ 15 → t2 ≠ 15 → MayIssue u p f ops →
      queueOf c p r.toNat = some m → queueRows u p m = x :: y :: ys →
      ∃ t, step s = .next (tick core n t) ∧ queueRows t p m = ys ∧
        (getCtx t p).pend = c.pend ++ [
          ⟨vReg c .va d, activeMask (regGet c (kReg .va 0)) t1.toNat (typeCount t1.toNat), c.nextId, 0, x.row, x.bad, []⟩,
          ⟨vReg c .vb e, activeMask (regGet c (kReg .vb 0)) t2.toNat (typeCount t2.toNat), c.nextId + 1, 0, y.row, y.bad, []⟩])) ∧
  ∀ (s : State) (core : Nat) (f g : Fetched) (rest : List Instr),
    let p := 2 * core
    let q := 2 * core + 1
    let a := installFills core { s with agenda := rest }
    let u := fillCode q g.lines (fillCode p f.lines { a with cur := p })
    let c := getCtx u p
    let d := getCtx u q
    let A := groupOps u p f.grp.next (slotOrder f.grp.ops)
    let B := groupOps u q g.grp.next (slotOrder g.grp.ops)
    let ready := fun (j : Nat) => updCtx j (fun c => { c with st := .ready, stalled := false })
    let denied := fun (j : Nat) => updCtx j (fun c => { c with denials := min 15 (c.denials + 1) })
    let blocked := fun (j : Nat) (ops : List OpSem) (t : State) =>
      ((ops.filter (·.on)).flatMap (·.recalls)).foldl (fun t k => askRecall k t)
        (updCtx j (fun c => { c with st := .blocked, stalled := (ops.filter (·.on)).any (·.held) }) t)
    let goes := fun (ops : List OpSem) (t : State) => step s = .next (tick core (subSteps (getCore s core).split (ops.map (·.slot))) t)
    let both := ready q (ready p u)
    let meets := (∃ x ∈ A, ∃ y ∈ B, x.slot = y.slot) ∨ ∃ x ∈ A, ∃ y ∈ B, x.on = true ∧ y.on = true ∧ ∃ k ∈ x.cread, k ∈ y.cread
    let plain := fun (ops : List OpSem) => ∀ o ∈ ops, o.effect = id ∧ ∀ code num, o.seq ≠ .trap code num
    s.power = true → s.agenda = .groupIssue core :: rest → s.bustat = 5 → coreLive s core = true → s.endw = [] →
    AtGroup a p f → AtGroup a q g → c.yield = 0 → d.yield = 0 →
    (MayIssue u p f A → MayIssue u q g B →
      (meets → if 15 ≤ c.denials ∨ (d.denials < 15 ∧ (c.latency = true ∨ d.latency = false))
        then goes A (issueGroup p f.grp A (denied q both)) else goes B (issueGroup q g.grp B (denied p both))) ∧
      (¬meets → plain A → plain B → ∃ t w, goes (A ++ B) t ∧ getCtx t p = getCtx (issueGroup p f.grp A both) p ∧
        getCtx t q = { getCtx (issueGroup q g.grp B both) q with windowOpen := w } ∧ SameBytes s t)) ∧
    (MayIssue u p f A → firstCause (groupCauses d g B) = none → barBlocks u q = true ∨ groupBlocks d (getCore u core) 1 B = true →
      goes A (issueGroup p f.grp A (blocked q B (ready p u)))) ∧
    (MayIssue u q g B → firstCause (groupCauses c f A) = none → barBlocks u p = true ∨ groupBlocks c (getCore u core) 0 A = true →
      goes B (issueGroup q g.grp B (ready q (blocked p A u))))

/-! ### Events: power, heat, the host, other devices -/

/-- R12, R19, R167, R303, R312, R313: power-on leads to state 1 with the retirement tables kept and memory empty, a removal
of power leaves the tables alone; bring-up goes from state to state as its conditions say, the live cores taking their
logical numbers in ascending order, a unit found dead in training appended to the tables, or fails into state 7 with its
reason.
What memory keeps over a loss of power and which failures a bring-up accepts are the model's choices (log 60, log 61). -/
def Obligations.PowerAndBringUp : Prop :=
  ∀ (s : State) (reason : BitVec 8) (v : Word),
    let names := fun (e : Word) (kind size n : Nat) => e.toNat % 256 = kind ∧ e.toNat / 256 % 256 * size + e.toNat / 65536 % 256 = n
    let retires := fun (kind size n : Nat) => ∃ e ∈ s.retTable, names e kind size n
    let dead := fun (kind size n : Nat) => retires kind size n ∨ names v kind size n
    let empty := fun (t : State) => ∀ k, k < 5 * 2 ^ 52 ∨ 2 ^ 63 ≤ k → rdByte t.mem k = 0
    let numbered := fun (t : State) => t.logical = (List.range 256).filter (fun n => coreLive t n)
    let units := fun (t : State) (r : Nat → Nat → Nat → Prop) => (∀ n, n ∈ t.deadCores ↔ r 1 64 n) ∧
      (∀ n, n ∈ t.deadChans ↔ r 2 32 n) ∧ ∀ n, n ∈ t.deadLanes ↔ r 3 8 n
    let unstamped := fun (t : State) => (∀ k, (getCore t k).pts = 0 ∧ (getCore t k).lcache = []) ∧
      ∀ d, (getDie t d).mts = 0 ∧ (getDie t d).l2 = []
    let enough := fun (r : Nat → Nat → Nat → Prop) => (∃ n < 256, ¬r 1 64 n ∧ n ∉ s.failCores) ∧ ∃ n < 512, ¬r 2 32 n
    (s.power = false → NextWith (exec .powerOn s) (fun t => t.power = true ∧ t.bustat = 1 ∧ t.bufail = 0 ∧ t.ctxs = [] ∧
      t.launches = [] ∧ t.event = 0 ∧ t.retTable = s.retTable ∧ empty t)) ∧
    (s.power = true → NextWith (exec .powerRemoval s) (fun t => t.power = false ∧ t.bustat = 0 ∧ t.retTable = s.retTable ∧
      t.ctxs = [] ∧ empty t)) ∧
    (s.bustat = 1 → NextWith (exec (.bringupRetirement false) s) (fun t => t.bustat = 7 ∧ t.bufail = 1) ∧
      (enough retires → NextWith (exec (.bringupRetirement true) s) (fun t => t.bustat = 2 ∧ units t retires ∧ numbered t)) ∧
      ((∀ n < 256, retires 1 64 n) → NextWith (exec (.bringupRetirement true) s) (fun t => t.bustat = 7 ∧ t.bufail = 2)) ∧
      ((∃ n < 256, ¬retires 1 64 n ∧ n ∉ s.failCores) → (∀ n < 512, retires 2 32 n) →
        NextWith (exec (.bringupRetirement true) s) (fun t => t.bustat = 7 ∧ t.bufail = 3))) ∧
    (s.bustat = 2 →
      (enough retires → NextWith (exec (.bringupTraining []) s) (fun t => t.bustat = 3 ∧ unstamped t ∧ units t retires ∧
        numbered t ∧ t.retTable = s.retTable)) ∧
      (entryFits s v = true → enough dead → NextWith (exec (.bringupTraining [v]) s) (fun t => t.bustat = 3 ∧ unstamped t ∧
        units t dead ∧ numbered t ∧ t.retTable = s.retTable ++ [v])) ∧
      ((∃ n < 256, ¬retires 1 64 n ∧ n ∉ s.failCores) → (∀ n < 512, retires 2 32 n) →
        NextWith (exec (.bringupTraining []) s) (fun t => t.bustat = 7 ∧ t.bufail = 4))) ∧
    (s.bustat = 3 → NextWith (exec .bringupCapability s) (fun t => t.bustat = 4 ∧ t.empties = [] ∧ t.granBad = [] ∧
      ∀ k, 2 ^ 63 ≤ k → rdByte t.mem k = 0)) ∧
    (s.bustat = 4 → NextWith (exec .bringupOpen s) (fun t => t = { s with bustat := 5 })) ∧
    (1 ≤ s.bustat.toNat → s.bustat.toNat ≤ 4 → 1 ≤ reason.toNat → reason.toNat ≤ 4 →
      NextWith (exec (.bringupFailed reason) s) (fun t => t = { s with bustat := 7, bufail := reason }))

/-- R297, R298, R306 to R310: thermal holds, thresholds and their caps, the trip output, the end of a transition, split
levels and ballast: what each changes, and that it changes nothing else.
That the point in force changes at once and what starts and ends ballast are the model's choices (log 27, log 63). -/
def Obligations.ThermalAndPoints : Prop :=
  ∀ (s : State) (stack core level die : Nat),
    (stack < 16 → NextWith (exec (.thermalHoldEntry stack) s) (fun t => (∀ x, x ∈ t.holds ↔ x = stack ∨ x ∈ s.holds) ∧
      { t with holds := s.holds } = s)) ∧
    NextWith (exec (.thermalHoldExit stack) s) (fun t => (∀ x, x ∈ t.holds ↔ x ≠ stack ∧ x ∈ s.holds) ∧
      { t with holds := s.holds } = s) ∧
    (stack ∈ s.holds → NextWith (exec (.thermalHoldOver1ms stack) s) (fun t => t = { s with event := s.event ||| 4 })) ∧
    (core < 256 → level < 4 → NextWith (exec (.thresholdCrossing core level) s) (fun t =>
      let k := getCore s core
      getCore t core = { k with thermal := level, cap := [0, 2, 4, 7].getD level 0, op := pointOf t core
                                moves := if pointOf t core = k.op ∨ 2 ∈ k.moves then k.moves else k.moves ++ [2] } ∧
      t.event = (if k.thermal = 0 ∧ level ≠ 0 then s.event ||| 0x20 else s.event) ∧
      { t with event := s.event, cores := s.cores } = s ∧ ∀ j, j ≠ core → getCore t j = getCore s j)) ∧
    (die < 4 → NextWith (exec (.thermalTrip die) s) (fun t => t = { s with trip := true })) ∧
    (core < 256 → NextWith (exec (.opTransitionEnd core) s) (fun t =>
      ((getCore s core).moves = [] → t = s) ∧
      ((getCore s core).moves ≠ [] → getCore t core = { getCore s core with moves := [] } ∧
        { t with ctxs := s.ctxs, cores := s.cores } = s ∧ (∀ j, j ≠ core → getCore t j = getCore s j) ∧
        ∀ p, getCtx t p = if p = 2 * core ∨ p = 2 * core + 1 then
          { getCtx s p with windowOpen := (getCtx s p).windowOpen && (getCtx s p).window != 0 } else getCtx s p))) ∧
    (core < 256 → level < 4 → NextWith (exec (.splitLevelChange core level) s) (fun t =>
      getCore t core = { getCore s core with split := level } ∧ { t with cores := s.cores } = s ∧
      ∀ j, j ≠ core → getCore t j = getCore s j)) ∧
    (die < 4 → NextWith (exec (.rampBallast die) s) (fun t => { t with ballast := s.ballast } = s ∧
      ∀ k, k ∈ t.ballast ↔ (k ∈ s.ballast ∧ k / 64 ≠ die) ∨
        (k / 64 = die ∧ coreLive s k = true ∧ coreFree s k = true ∧ ∀ j ∈ s.ballast, j / 64 ≠ die)))

/-- R206, R233, R235, R299 to R302, R312: the host's registers and apertures and the requests of other devices, on an open
package: what each write changes, what a read within one line returns, and where a request waits for a recall; a page
given back leaves no line in an L2, and the device's own writes that waited for it are made.
How a host write is stamped, the page a recall names, what a peer's request names, the placement word that a host
access carries and that a SAVECNT above 4,096 is ignored are the model's (log 58, log 38, log 59, log 24, log 44). -/
def Obligations.HostAndPeers : Prop :=
  ∀ (s : State) (v place arg : Word) (off pa page dev size op : Nat) (bs : List Byte),
    let w := placeOf s place (s.hcfg.toNat % 4) pa
    let h := l2Get s w.2 (w.1 / 64)
    let free := smGet Grant.none s.grants (w.1 % 2 ^ 52 / 2 ^ 16) = .none ∧ stackWaits s place (s.hcfg.toNat % 4) w.2 w.1 = false
    let kind := v.toNat % 256
    let b1 := v.toNat / 256 % 256
    let b2 := v.toNat / 65536 % 256
    let a := page * 2 ^ 16 + off
    let z := placeOf s place 0 a
    s.bustat = 5 →
    NextWith (exec (.eventClear v) s) (fun t => t = { s with event := s.event &&& ~~~v.setWidth 7 }) ∧
    (v.toNat < 2 ^ 24 → s.retTable.length < 1024 →
      (kind = 1 ∧ b1 < 4 ∧ b2 < 64 ∨ kind = 2 ∧ b1 < 16 ∧ b2 < 32 ∨ kind = 3 ∧ b1 < 16 ∧ b2 < 8) →
      NextWith (exec (.retadd v) s) (fun t => t = if v ∈ s.retTable then { s with event := s.event ||| 0x40 }
        else { s with retTable := s.retTable ++ [v] })) ∧
    (size ≠ 8 → NextWith (exec (.configRegisterWrite off size v) s) (fun t => t = s)) ∧
    NextWith (exec (.configRegisterWrite 0x20 8 v) s) (fun t => t = { s with hcfg := v.setWidth 3 }) ∧
    NextWith (exec (.configRegisterWrite 8 8 v) s) (fun t =>
      t = if s.launches = [] then { s with savebase := v &&& ~~~0xFFFFF } else s) ∧
    NextWith (exec (.configRegisterWrite 0x10 8 v) s) (fun t =>
      t = if s.launches = [] ∧ v.toNat ≤ 4096 then { s with savecnt := v } else s) ∧
    NextWith (exec (.configRegisterWrite 0x18 8 v) s) (fun t =>
      t = if s.launches = [] ∧ 1 ≤ v.toNat ∧ v.toNat ≤ 16 then { s with wlogsz := v } else s) ∧
    (s.power = true → hostBytes s 0x2000 40 =
      [s.event.setWidth 64, s.savebase, s.savecnt, s.wlogsz, s.hcfg.setWidth 64].flatMap (fun x => bytesLE 8 x.toNat)) ∧
    (s.power = false → hostByte s off = 0) ∧
    (0 < size → pa % 64 + size ≤ 64 → pa < 2 ^ 52 → plLtype place = 0 → plTier place ≤ 1 → free →
      NextWith (exec (.hostApertureRead pa size place) s) (fun t => t = { s with hostRead := rdBytes s.mem w.1 size })) ∧
    (2 ^ 52 ≤ pa → NextWith (exec (.hostApertureRead pa size place) s) (fun t => t = { s with hostRead := List.replicate size 0 }) ∧
      NextWith (exec (.hostApertureWrite pa place bs) s) (fun t => t = s)) ∧
    (0 < bs.length → pa % 64 + bs.length ≤ 64 → pa < 2 ^ 52 → plLtype place = 0 → plTier place ≤ 1 → free →
      lineLost s place (keyDie w.1) (w.1 % 2 ^ 52) = false →
      NextWith (exec (.hostApertureWrite pa place bs) s) (fun t => rdBytes t.mem w.1 bs.length = bs ∧
        SameBytesBut (fun k => w.1 ≤ k ∧ k < w.1 + bs.length) s t ∧
        (h.here = true → plCache place ≠ 2 →
          (l2Get t w.2 (w.1 / 64)).wts = h.rts + 1 ∧ (l2Get t w.2 (w.1 / 64)).rts = h.rts + 1))) ∧
    (portsDown s = false → dev < 1024 → page < 2 ^ 36 → smGet Grant.none s.grants page = .none →
      (restripingFrame s page = false →
        NextWith (exec (.peerDeviceRequest dev page 0 place off bs) s) (fun t => smGet Grant.none t.grants page = .shared [dev]) ∧
        NextWith (exec (.peerDeviceRequest dev page 1 place off bs) s) (fun t => smGet Grant.none t.grants page = .owned dev)) ∧
      (restripingFrame s page = true → ∀ n ≤ 1, NextWith (exec (.peerDeviceRequest dev page n place off bs) s) (fun t => t = s)) ∧
      (off < 2 ^ 16 → plTier place < 2 → plLtype place = 0 → plRepl place ≠ 2 → stackWaits s place 0 z.2 z.1 = false →
        lineLost s place (keyDie z.1) (z.1 % 2 ^ 52) = false →
        (0 < bs.length → a % 64 + bs.length ≤ 64 → NextWith (exec (.peerDeviceRequest dev page 3 place off bs) s) (fun t =>
          rdBytes t.mem z.1 bs.length = bs ∧ SameBytesBut (fun k => z.1 ≤ k ∧ k < z.1 + bs.length) s t)) ∧
        (a % 8 = 0 → restripingFrame s page = false → ∀ n, gamNew op (BitVec.ofNat 64 (rdNat s.mem z.1 8)) v arg = some n →
          NextWith (exec (.peerDeviceRequest dev page (4 + op) place off (bytesLE 8 v.toNat ++ bytesLE 8 arg.toNat)) s) (fun t =>
            rdNat t.mem z.1 8 = n.toNat ∧ SameBytesBut (fun k => z.1 ≤ k ∧ k < z.1 + 8) s t)))) ∧
    (portsDown s = false → dev < 1024 → page < 2 ^ 36 → (∃ d, d ≠ dev ∧ smGet Grant.none s.grants page = .owned d) →
      ∀ n, (n ≤ 1 → restripingFrame s page = false) → NextWith (exec (.peerDeviceRequest dev page n place off bs) s) (fun t => page ∈ t.recalls ∧ t.grants = s.grants)) ∧
    (portsDown s = true → NextWith (exec (.recall page) s) (fun t => t = s)) ∧
    (portsDown s = false → page < 16 * 2 ^ 36 → restripingFrame s page = false → s.cmds = [] → NextWith (exec (.recall page) s) (fun t =>
      smGet Grant.none t.grants page = .none ∧ page ∉ t.recalls ∧ (∀ e ∈ t.waiting, e.1 / 2 ^ 16 ≠ page) ∧
      SameBytesBut (fun k => ∃ e ∈ s.waiting, e.1 / 2 ^ 16 = page ∧ memKey 0 e.1 ≤ k ∧ k < memKey 0 e.1 + e.2.length) s t)) ∧
    (portsDown s = false → 16 * 2 ^ 36 ≤ page → NextWith (exec (.recall page) s) (fun t => SameBytes s t ∧
      ∀ d ln, ln / 1024 = page → (l2Get t d ln).here = false))

/-- R290, R291, R294, R296, R311, R314: scrubbing, units that fail in service, the uncorrectable-error event and
rollback: which marks, withdrawals and EVENT bits each brings, and that a rollback puts a logged line back.  Of memory
they change a logged line and the journal entries of the launches concerned.
The keys that stand for errors no scrub finds are the model's choice (log 86). -/
def Obligations.ErrorsAndFailures : Prop :=
  ∀ (s : State) (key core stack chan port lane seq d p f n : Nat) (l : Launch) (e : WLog),
    let marked := fun (t : State) (k : Nat) =>
      if 2 ^ 63 ≤ k then smGet false t.granBad (granKey k) = true else smGet false t.lineBad (k / 64) = true
    NextWith (exec (.patrolScrub key false) s) (fun t => t = s) ∧
    (key < 2 ^ 64 → NextWith (exec (.patrolScrub key true) s) (fun t => t.event = s.event ||| 1 ∧ SameBytes s t ∧ marked t key) ∧
      NextWith (exec (.patrolScrub (2 ^ 64 + key) true) s) (fun t => t.event = s.event ∧ SameBytes s t ∧ marked t key)) ∧
    (p < 512 → n < 512 → ∀ fl, errorFiles[f]? = some fl →
      NextWith (exec (.patrolScrub (2 ^ 65 + p + 512 * f + 2 ^ 13 * n) true) s) (fun t => t.event = s.event ∧ SameBytes s t ∧
        regBad (getCtx t p) ⟨fl, n⟩ = true)) ∧
    (coreLive s core = true → NextWith (exec (.coreFailure core) s) (fun t => coreLive t core = false ∧ t.event &&& 16 = 16 ∧
      (getCtx t (2 * core)).st = .free ∧ (getCtx t (2 * core + 1)).st = .free ∧ (getCore t core).owners = [] ∧
      SameBytesBut (fun k => ∃ x ∈ s.launches, inEntry s x.seq k) s t)) ∧
    (stack < 16 → chan < 32 → 32 * stack + chan ∉ s.deadChans → 32 * stack + chan ∉ s.failChans →
      NextWith (exec (.channelFailure stack chan) s) (fun t =>
        t = { s with failChans := (32 * stack + chan) :: s.failChans, event := s.event ||| 16, rebuild := t.rebuild } ∧
        (∀ z ∈ t.rebuild, z ∈ s.rebuild) ∧
        ∀ a m w g, (a, some (m, w, g)) ∈ s.rebuild → cellLost t w a = true → cellMarked t a = false)) ∧
    (port < 16 → lane < 8 → 8 * port + lane ∉ s.deadLanes → 8 * port + lane ∉ s.failLanes →
      NextWith (exec (.laneFailure port lane) s) (fun t =>
        t = { s with failLanes := (8 * port + lane) :: s.failLanes, event := s.event ||| 8 })) ∧
    NextWith (exec (.flitRetry port) s) (fun t => t = s) ∧
    (findLaunch s seq = some l → l.poison = true → l.raised = false → l.ending = false →
      NextWith (exec (.uncorrectableErrorEvent seq) s) (fun t => t.event &&& 2 = 2 ∧ SameBytesBut (inEntry s seq) s t ∧
        ∃ x, findLaunch t seq = some x ∧ (if l.restartable = true ∧ l.replays < 2 then x.raised = true ∧ x.ending = l.ending
          else x.ending = true ∧ x.cause = 0x41))) ∧
    (findLaunch s seq = some l → l.raised = true → l.ending = false → l.restartable = true →
      (∀ z ∈ s.ctxs, z.2.lseq ≠ seq) → d < 4 → (getDie s d).wlog = [e] → e.seq = seq →
      (∀ x, x ≠ d → ∀ y ∈ (getDie s x).wlog, y.seq ≠ seq) →
      plRepl e.place ≠ 2 → lineLost s e.place (keyDie (64 * e.line)) (64 * e.line % 2 ^ 52) = false →
      grantHolds s e.place (64 * e.line) true = false → readWaits s e.place d d (64 * e.line) = false →
      (∀ k, inEntry s seq k → k < 64 * e.line ∨ 64 * e.line + 64 ≤ k) →
      NextWith (exec (.rollback seq) s) (fun t => rdNat t.mem (64 * e.line) 64 = e.data.toNat ∧
        smGet false t.lineBad e.line = e.bad ∧
        SameBytesBut (fun k => (64 * e.line ≤ k ∧ k < 64 * e.line + 64) ∨ inEntry s seq k) s t ∧
        (∀ r, ringOf s = some r → r.first ≤ seq → AtHome s (r.base + 64 * (seq % r.size)) 64 → rdByte t.mem (memKey 0 (r.base + 64 * (seq % r.size) + 8)) = 5) ∧
        ∃ x, findLaunch t seq = some x ∧ x.st = .relaunched ∧ x.bound = 0 ∧ x.replays = l.replays + 1 ∧ x.raised = false)) ∧
    (findLaunch s seq = some l → l.raised = true → l.ending = false → l.restartable = false →
      NextWith (exec (.rollback seq) s) (fun t => SameBytesBut (inEntry s seq) s t ∧
        ∃ x, findLaunch t seq = some x ∧ x.ending = true ∧ x.cause = 0x41))

/-! ### Events: commands, launches, binding, pre-emption, causes -/

/-- R245 to R250, R254, R269: host commands: a command that breaks no rule takes the next number, shown in LAST, and has
its effect; any other only sets LAST.REF: below state 5, with a byte that its kind does not name or a field outside its set, with no
free journal entry for a launch, with launches in flight for a journal.
A command that waits for a page is reported in LAST once it has been recalled, and later ones wait behind it (log 98).
The order of the record's checks and that a channel has room 0 from its set-up on are the model's choices (log 42, log 96). -/
def Obligations.HostCommands : Prop :=
  ∀ (s : State) (cmd : BitVec 512),
    let f := cmdField cmd
    let n := s.nextSeq
    let taken := fun (t : State) => t.lastSeq = n ∧ t.lastRef = false ∧ t.nextSeq = n + 1
    let all : List Instr := [.cmdLaunch cmd, .cmdReserveSets cmd, .cmdJournal cmd, .cmdLinkChannel cmd]
    let r : BitVec 4096 := BitVec.ofNat 4096 (rdNat s.mem (memKey 0 (f 8 8)) 512)
    let wrong := (f 0 1 = 1 ∧ (f 8 8 % 64 ≠ 0 ∨ 2 ^ 52 ≤ f 8 8 ∨ entryFree s n = false)) ∨
      (f 0 1 = 2 ∧ ∃ d < 4, 16 < popBits 64 (f (16 + 8 * d) 8)) ∨
      (f 0 1 = 3 ∧ (f 8 8 % 65536 ≠ 0 ∨ 2 ^ 52 ≤ f 8 8 ∨ f 16 1 < 6 ∨ 16 < f 16 1 ∨ f 24 8 % 65536 ≠ 0 ∨ 2 ^ 52 ≤ f 24 8 ∨ s.launches ≠ [])) ∨
      (f 0 1 = 4 ∧ (1024 ≤ f 18 2 ∨ 2 ≤ f 21 1))
    let kept := fun (t : State) => t.lastSeq = s.lastSeq ∧ t.lastRef = s.lastRef ∧ t.nextSeq = n ∧ t.launches = s.launches ∧ SameBytes s t
    (∀ c cs, s.cmds = c :: cs → cmdRefused c s = false → cmdBars c s ≠ [] → ∀ i ∈ all, NextWith (exec i s) (fun t =>
      kept t ∧ t.cmds = s.cmds ++ [cmd])) ∧
    (s.cmds = [] → s.bustat ≠ 5 ∨ cmdReserved cmd = true ∨ wrong → ∀ i ∈ all, NextWith (exec i s) (fun t => t = { s with lastRef := true })) ∧
    (∀ g, s.cmds = [] → s.bustat = 5 → cmdReserved cmd = false → ¬wrong →
      (f 0 1 = 1 ∧ (g = f 8 8 / 2 ^ 16 ∨ g = (f 8 8 + 511) / 2 ^ 16) ∧ pageGranted s g false = true) ∨
        (f 0 1 = 3 ∧ f 8 8 / 2 ^ 16 ≤ g ∧ 2 ^ 16 * g < f 8 8 + 64 * 2 ^ f 16 1 ∧ pageGranted s g true = true) →
      ∀ i ∈ all, NextWith (exec i s) (fun t => kept t ∧ t.cmds = [cmd] ∧ g ∈ t.recalls)) ∧
    (s.cmds = [] → s.bustat = 5 → cmdReserved cmd = false →
      (f 0 1 = 1 → f 8 8 % 64 = 0 → f 8 8 < 2 ^ 52 → entryFree s n = true → cmdBars cmd s = [] → NextWith (exec (.cmdLaunch cmd) s) (fun t => taken t ∧
        (recordCause s n r false = 0 → ∃ l ∈ t.launches, l.seq = n ∧ l.st = .accepted ∧ l.record = r ∧ l.asn = recField r 80 2) ∧
        (recordCause s n r false ≠ 0 → t.launches = s.launches ∧ smGet none t.finals n = some false) ∧
        ∀ j, ringOf s = some j → AtHome s (j.base + 64 * (n % j.size)) 64 → rdByte t.mem (memKey 0 (j.base + 64 * (n % j.size)) + 8) = if recordCause s n r false = 0 then 0 else 4)) ∧
      (f 0 1 = 2 → (∀ d < 4, popBits 64 (f (16 + 8 * d) 8) ≤ 16) → NextWith (exec (.cmdReserveSets cmd) s) (fun t => taken t ∧
        SameBytes s t ∧ ∀ d < 4, (getDie t d).reserve = BitVec.ofNat 64 (f (16 + 8 * d) 8))) ∧
      (f 0 1 = 3 → f 8 8 % 65536 = 0 → f 8 8 < 2 ^ 52 → 6 ≤ f 16 1 → f 16 1 ≤ 16 → f 24 8 % 65536 = 0 → f 24 8 < 2 ^ 52 →
        s.launches = [] → AtHome s (f 8 8) (64 * 2 ^ f 16 1) → NextWith (exec (.cmdJournal cmd) s) (fun t => taken t ∧ t.journal = some (f 8 8, f 16 1, f 24 8, n) ∧
          ∀ i < 2 ^ f 16 1, rdByte t.mem (f 8 8 + 64 * i + 8) = 6)) ∧
      (f 0 1 = 4 → f 18 2 < 1024 → f 21 1 ≤ 1 → NextWith (exec (.cmdLinkChannel cmd) s) (fun t => taken t ∧ SameBytes s t ∧
        getChan t (f 16 1) = { getChan s (f 16 1) with dev := f 18 2, chan := f 20 1, enabled := f 21 1 == 1, room := 0 })))

/-- R25, R31, R72, R173, R180, R255 to R257, R260, R261: the life of a launch: dispatch once its predecessors have completed, the
fault of one whose predecessor faulted, binding of its next cluster, whose contexts take c0 to c3 from the parameters, their other
registers at the reset values, the address space and ranges of the record with the extents of their pages, merged where they
continue one another, and the free banks of their masks; its final states; and a position that becomes Ready
after loading, and after draining, its results landed and its banks released, Free once its writes are performed.
Which cores a cluster takes and that the BASE of a range counts modulo 2^48 are the model's choices (log 44, log 115);
that draining waits for the writes, that MPC is the context's own entry, that a page whose entry breaks the rules is
left out and that the walks set A and D are its readings (log 83, log 43, log 50, log 85). -/
def Obligations.LaunchLife : Prop :=
  (∀ (s : State) (asn room : Nat) (rs : List Range),
    let es := tableOf s asn room rs
    let walk := fun (v : Nat) => walkTable s asn (sextW 48 (v % 2 ^ 32 * 2 ^ 16))
    let declared := fun (v : Nat) (r : Range) => r.base / 2 ^ 16 ≤ v ∧ v < r.base / 2 ^ 16 + r.len / 2 ^ 16
    es.length ≤ room ∧
    (∀ e ∈ es, ∀ i, i < e.pages → ∃ v, ∃ r ∈ rs, declared v r ∧ v % 2 ^ 32 = e.vpn + i ∧ e.kinds = r.kinds ∧
      if e.absent = true then (walk v).kind = .absent else (walk v).kind = .leaf ∧ (walk v).place = e.place ∧
        ((walk v).frame ^^^ e.perm) &&& 0x3C = 0 ∧
        frameAddr (walk v).frame + v % ((walk v).span / 2 ^ 16) * 2 ^ 16 = e.frame + i * 2 ^ 16) ∧
    (es.length < room → ∀ r ∈ rs, ∀ v, declared v r → (walk v).kind ≠ .broken → ∃ e ∈ es, e.vpn ≤ v % 2 ^ 32 ∧ v % 2 ^ 32 < e.vpn + e.pages)) ∧
  ∀ (s : State) (seq cl p : Nat) (l : Launch) (ks : List Nat),
    (findLaunch s seq = some l →
      (l.st = .accepted → (∀ q ∈ l.preds, q.2 = some true) → l.apportioned = false → recFlag l.record 0 = false →
        recFlag l.record 1 = false → recNclus l.record ≠ 0 → NextWith (exec (.dispatch seq) s) (fun t =>
          ∃ x, findLaunch t seq = some x ∧ x.st = .dispatched ∧ x.nclus = recNclus l.record ∧ x.record = l.record)) ∧
      (l.st = .accepted → (∀ q ∈ l.preds, q.2 = some true) → l.apportioned = true → recFlag l.record 1 = false →
        dispatchBars s l = [] → deviceBars s [l.slot / 2 ^ 16] = [] →
        let head := rdBytes s.mem (memKey 0 l.slot) 832
        let block := head ++ rdBytes s.mem (memKey 0 (l.slot + 832)) (16 * blkWord head 516 2)
        blockAssign block ≠ [] → NextWith (exec (.dispatch seq) s) (fun t =>
          ∃ x, findLaunch t seq = some x ∧ x.st = .dispatched ∧ x.assign = blockAssign block ∧ x.nclus = x.assign.length)) ∧
      (l.st = .accepted → (∃ q ∈ l.preds, q.2 = some false) → NextWith (exec (.predecessorFaulted seq) s) (fun t =>
        findLaunch t seq = none ∧ smGet none t.finals seq = some false)) ∧
      (mayBind s l = true → recFlag l.record 2 = false → recCtxs l.record = 1 ∨ recCtxs l.record = 2 → coresFor s l cl = some ks →
        recCores l.record * recCtxs l.record ≤ (freeAreas s).length → rangeBars s l.asn (recRanges l.record) = [] →
        NextWith (exec (.bindCluster seq cl) s) (fun t =>
          (∃ x, findLaunch t seq = some x ∧ x.bound = l.bound + 1 ∧ x.waves = l.waves ++ [(l.bound, cl)] ∧
            x.st = if l.st = .dispatched then .running else l.st) ∧
          ∀ q k i, ks[q]? = some k → i < recCtxs l.record →
            let c := getCtx t (2 * k + i)
            c.st = .restoring ∧ c.lseq = l.seq ∧ c.lclus = l.bound ∧ c.lqpos = q ∧ c.lctxn = i ∧ c.sup = false ∧
            c.lclcnt = l.nclus ∧ c.mpc = c.pc ∧ c.pc = BitVec.ofNat 64 (recField l.record 0 8 + recField l.record (384 + 4 * (2 * q + i)) 4) ∧
            c.asn = l.asn ∧ c.latency = recLatency l.record ∧ c.replay = (l.replays != 0) ∧ c.ranges = recRanges l.record ∧
            c.extents = tableOf (markRanges l.asn (recRanges l.record) s) l.asn (if recCtxs l.record = 1 then 64 else 32) (recRanges l.record) ∧
            FreshRegs t (2 * k + i) (match l.assign[l.bound]? with
              | some x => if l.apportioned then [l.slot + 832 + 16 * x.2.1, x.1, recField l.record 64 8, recField l.record 72 8]
                else (List.range 4).map (fun j => recField l.record (48 + 8 * j) 8)
              | none => (List.range 4).map (fun j => recField l.record (48 + 8 * j) 8)) ∧
            (getCore t k).icache = [] ∧ (getCore t k).pts = serMax (getCore s k).pts l.ptsFloor ∧
            ∀ b, b < 128 → smGet .none (getCore t k).owners b = match smGet .none (getCore s k).owners b with
              | .none => if bitOf (recField l.record (416 + 2 * q) 1) (b / 16) = true then .ctx 0
                else if recCtxs l.record = 2 ∧ bitOf (recField l.record (417 + 2 * q) 1) (b / 16) = true then .ctx 1 else .none
              | o => o)) ∧
      (l.st ≠ .accepted → l.ending = false → l.poison = false → l.raised = false → l.nclus ≤ l.bound → ctxsOf s seq = [] →
        launchBusy s seq = false → NextWith (exec (.launchComplete seq) s) (fun t =>
          findLaunch t seq = none ∧ smGet none t.finals seq = some true)) ∧
      (l.ending = true → ctxsOf s seq = [] → NextWith (exec (.launchFaulted seq) s) (fun t =>
        findLaunch t seq = none ∧ smGet none t.finals seq = some false))) ∧
    ((getCtx s p).st = .restoring → (getCtx s p).needHandler = false → (getCtx s p).hold = none →
      NextWith (exec (.restoreComplete p) s) (fun t => getCtx t p = { getCtx s p with st := .ready, binding := false } ∧
        SameBytes s t ∧ ∀ q, q ≠ p → getCtx t q = getCtx s q)) ∧
    (p < 512 → (getCtx s p).st = .draining →
      (writesLeft (getCtx s p) = true → NextWith (exec (.drainComplete p) s) (fun t => (getCtx t p).st = .draining ∧
        (getCtx t p).landing = [] ∧ SameBytes s t ∧ ∀ e ∈ (getCore t (coreOf p)).owners, e.2 ≠ .ctx (p % 2))) ∧
      (writesLeft (getCtx s p) = false → NextWith (exec (.drainComplete p) s) (fun t => getCtx t p = {} ∧
        SameBytes s t ∧ ∀ e ∈ (getCore t (coreOf p)).owners, e.2 ≠ .ctx (p % 2))))

/-- R24, R40 to R42, R161, R173, R282 to R284, R287 to R289, R310: pre-emption: a request, its landing at a pre-emption
point, the save, which writes the registers into the regions of Table 18-4, and the resumption of a context with its
registers as they were and accumulator rows that were zero zero again, its loads to be made anew and no ballast on its
core; the end of a launch that misses its point; and the binding of a handler beside a trapped context, in supervisor mode
at the record's handler address, with the parameters, the reset values, the served context's address space and extents, and no bank
or queue.
FGROUP of a context that misses its point and the order within a region of the save area are the model's readings (log
23, log 46), and so are what a save leaves of a loop and of its buffer (log 70, log 74) and LCTXN and MPC of a handler
(log 49, log 43). -/
def Obligations.PreemptionAndHandlers : Prop :=
  ∀ (s : State) (p key a : Nat) (as : List Nat) (v : Saved) (l : Launch),
    let c := getCtx s p
    let old := getCtx s key
    p < 512 →
    (c.st = .ready ∨ c.st = .blocked ∨ onHold c = true → c.sup = false → wantedBorrower s p = true ∨ inHandlerWay s p = true →
      NextWith (exec (.preemptionRequest p) s) (fun t => t = setCtx p { c with preempt := true } s)) ∧
    (c.preempt = true → (c.st = .ready ∧ (c.loops = [] ∨ c.atPoint = true)) ∨ c.st = .blocked ∨ onHold c = true →
      NextWith (exec (.preemptSave p) s) (fun t => getCtx t p = { c with st := .saving, preempt := false } ∧ SameBytes s t)) ∧
    (c.st = .saving → saveReady s p = true → (∀ b, c.area = some b → b % 2 ^ 20 = 0) →
      NextWith (exec (.saveComplete p) s) (fun t => getCtx t p = {} ∧
      SameBytesBut (fun k => ∃ b, c.area = some b ∧ memKey 0 b ≤ k ∧ k < memKey 0 b + 2 ^ 20) s t ∧
      (∀ b, c.area = some b → AtHome s b (2 ^ 20) → ∀ e ∈ ([(.x, 0x1000, 32, 8), (.y, 0x1100, 32, 8), (.a, 0x1200, 16, 8), (.w, 0x1280, 16, 8),
          (.c, 0x1300, 32, 8), (.ka, 0x1400, 8, 32), (.kb, 0x1500, 8, 32), (.kc, 0x1600, 8, 32), (.va, 0x2000, 16, 256),
          (.vb, 0x3000, 16, 256), (.vc, 0x4000, 16, 256), (.f, 0x5000, 8, 256), (.z, 0x5800, 8, 256)] : List (File × Nat × Nat × Nat)),
        ∀ i < e.2.2.1, rdNat t.mem (memKey 0 b + e.2.1 + e.2.2.2 * i) e.2.2.2 = (regGet c ⟨e.1, i⟩).toNat) ∧
      (∀ e ∈ (getCore t (coreOf p)).owners, e.2 ≠ .ctx (p % 2)) ∧
      ∃ x ∈ t.saved, x.core = coreOf p ∧ 512 ≤ x.key ∧ (getCtx t x.key).files = c.files ∧ (getCtx t x.key).pc = c.pc ∧
        (getCtx t x.key).loops = c.loops.map (unbufferEntry true s p c) ∧ (getCtx t x.key).landing = c.landing ∧ (getCtx t x.key).yield = 0)) ∧
    (s.saved.find? (fun x => x.key == key) = some v → coreOf p = v.core → 512 ≤ key → mayResume s old p = true → deviceBars s (areaPages old) = [] →
      NextWith (exec (.resume key p) s) (fun t => (getCtx t p).st = .restoring ∧ (getCtx t p).files = old.files ∧
        (getCtx t p).pc = old.pc ∧ (getCtx t p).landing = old.landing ∧ getCtx t key = {} ∧
        (∀ x ∈ t.saved, x.key ≠ key) ∧ SameBytes s t ∧ coreOf p ∉ t.ballast ∧
        (∀ r ∈ (getCtx t p).reqs, r.kind = .load ∨ r.kind = .lwt → r.again = true) ∧
        ∀ r, r < accRows old → (∀ e ∈ v.acc, e.1 ≠ r) → smGet 0 (getCore t (coreOf p)).acc (accFirst old p + r) = 0)) ∧
    (c.preempt = true → (c.st = .ready ∧ c.loops ≠ [] ∧ c.atPoint = false) ∨ (c.st = .trapped ∧ onHold c = false) →
      findLaunch s c.lseq = some l → l.ending = false →
      NextWith (exec (.preemptionOverdue p) s) (fun t => (getCtx t p).st = .free ∧ SameBytesBut (inEntry s c.lseq) s t ∧
        ∃ x, findLaunch t c.lseq = some x ∧ x.ending = true ∧ x.cause = 0x40 ∧ x.fgroup = c.pc)) ∧
    (c.st = .trapped → c.needHandler = true → findLaunch s c.lseq = some l → freeAreas s = a :: as →
      (getCtx s (otherPos p)).st = .free → coreLive s (coreOf p) = true → NextWith (exec (.handlerBind p) s) (fun t =>
        let h := getCtx t (otherPos p)
        h.st = .restoring ∧ h.sup = true ∧ h.serves = some p ∧ h.pc = BitVec.ofNat 64 (recField l.record 88 8) ∧ h.area = some a ∧
        h.mpc = h.pc ∧ h.latency = true ∧ h.asn = c.asn ∧ extOwner t (otherPos p) = p ∧ h.lseq = c.lseq ∧ h.lclus = c.lclus ∧
        h.lclcnt = c.lclcnt ∧ h.lqpos = c.lqpos ∧ h.lctxn = otherPos p % 2 ∧ (∀ n, queueOf h (otherPos p) n = none) ∧
        FreshRegs t (otherPos p) ((List.range 4).map (fun j => recField l.record (48 + 8 * j) 8)) ∧
        (getCore t (coreOf p)).icache = [] ∧ (getCore t (coreOf p)).owners = (getCore s (coreOf p)).owners ∧
        (getCtx t p).needHandler = false ∧ SameBytes s t))

/-- R48, R182 to R184, R234, R278, R280, R419, R427: causes of fetching and of earlier work, what the scheduler resolves or
hands on, walks and invalidations, and the replay of the side log.
That a refused answer meets the held cause and that an invalidation acts when it completes are the model's readings
(log 34, log 55). -/
def Obligations.CausesAndTranslation : Prop :=
  ∀ (s : State) (p k core vp n : Nat) (e : Cause) (w : Walk) (e1 e2 : Pend) (x y : Nat) (rest : List (Nat × Nat))
    (z : SideEntry) (zs : List SideEntry) (xt : Extent),
    let c := getCtx s p
    let named := c.serves = none ∧ ∀ l, findLaunch s c.lseq = some l → recField l.record 88 8 ≠ 0
    (p < 512 → competes c = true → c.bodyWalk = none → c.exiting = false → c.idle = 0 → c.waitIdle = false →
      gateShut s p = false → reached s p c.pc = c.pc → fetchGroup s p c.pc = .error (.cause e) → e.rank = 1 →
      exec (.fetchFault p) s = .next (trapEntry p e c.pc 0 none s)) ∧
    (p < 512 → c.st = .ready ∨ c.st = .blocked → c.after[k]? = some e → e.info.getLsbD 63 = false →
      e.code < 2 ^ 16 → e.slot < 32 → named → NextWith (exec (.deferredCause p k) s) (fun t => (getCtx t p).st = .trapped ∧
        (getCtx t p).after = c.after.eraseIdx k ∧ ((getCtx t p).trec.getD 0 0).toNat % 2 ^ 16 = e.code ∧
        (getCtx t p).trec.getD 1 0 = e.info ∧ (getCtx t p).trec.getD 7 0 = reached s p c.pc)) ∧
    (c.hold = some e → c.st = .trapped → e.code = 0x10 ∨ e.code = 0x11 ∨ e.code = 0x12 → (walkFor s p e.addr).kind = .leaf →
      walkWaits s p e.addr (e.access == 2) = [] →
      NextWith (exec (.schedulerResolve p true) s) (fun t => (getCtx t p).st = .ready ∧ (getCtx t p).hold = none ∧ (getCtx t p).pc = c.pc)) ∧
    (c.hold = some e → c.st = .trapped → e.code = 0x10 ∨ e.code = 0x11 ∨ e.code = 0x12 → named →
      NextWith (exec (.schedulerResolve p false) s) (fun t => (getCtx t p).st = .trapped ∧ (getCtx t p).hold = none ∧
        (getCtx t p).needHandler = true ∧ ((getCtx t p).trec.getD 0 0).toNat % 2 ^ 16 = 0x26)) ∧
    (c.hold = some e → c.st = .trapped → e.code = 0x14 →
      (portsDown s = false → walkBars s (getCtx s (extOwner s p)).asn e.addr true = [] → NextWith (exec (.ownershipUpgrade p true) s) (fun t => (getCtx t p).st = .ready ∧ (getCtx t p).hold = none)) ∧
      (named → NextWith (exec (.ownershipUpgrade p false) s) (fun t => (getCtx t p).hold = none ∧ (getCtx t p).needHandler = true ∧
        ((getCtx t p).trec.getD 0 0).toNat % 2 ^ 16 = 0x22))) ∧
    (p < 512 → c.walks[k]? = some w → w.held = none →
      c.pend.find? (fun q => q.id == w.id) = some e1 → c.pend.find? (fun q => q.id == w.id + 1) = some e2 →
      e1.dest = commonReg x → e2.dest = commonReg y → x ≠ y → e1.mask = fullMask → e2.mask = fullMask →
      (∀ q ∈ c.landing, q.dest ≠ .reg (commonReg x) ∧ q.dest ≠ .reg (commonReg y)) →
      (∀ q ∈ c.pend, q.id = w.id → q = e1) → (∀ q ∈ c.pend, q.id = w.id + 1 → q = e2) →
      let r := walkTable s (getCtx s (extOwner s p)).asn w.va
      walkTurn s p w = true → walkBars s (getCtx s (extOwner s p)).asn w.va (!w.probe && setsBit r w.write) = [] →
      let fw := if w.probe then r.frame else r.frame ||| (if w.write then 0x80 else 0x40)
      (w.probe = true ∨ (r.kind = .leaf ∧ leafGrants r.frame (if w.write then 3 else 2) c.sup = true) →
        NextWith (exec (.walkComplete p k) s) (fun t => regWord (getCtx t p) (commonReg x) = fw ∧
          regWord (getCtx t p) (commonReg y) = r.place ∧ (getCtx t p).walks = c.walks.eraseIdx k)) ∧
      (w.probe = false → r.kind = .absent → NextWith (exec (.walkComplete p k) s) (fun t =>
        (∃ h, (getCtx t p).walks = c.walks.set k { w with held := some h } ∧ h.code = 0x10 ∧ h.addr = w.va) ∧ SameBytes s t))) ∧
    (c.xinvOut = (vp, n) :: rest → NextWith (exec (.xinvComplete p) s) (fun t => (getCtx t p).xinvOut = rest ∧ SameBytes s t ∧
      ∀ q, (getCtx s q).asn = (getCtx s (extOwner s p)).asn →
        512 ≤ q ∨ filterHits (getCore s (coreOf q)).filter vp n = true →
        ∀ e ∈ (getCtx t q).extents, e.vpn + e.pages ≤ vp ∨ vp + n ≤ e.vpn)) ∧
    ((getCore s core).slog = z :: zs → coreOf z.pos = core → z.cause = none → z.kind = .store → replayOf s z = .go xt →
      plLtype xt.place = 0 → NextWith (exec (.sideLogReplay core) s) (fun t => (getCore t core).slog = zs ∧
        (getCtx t z.pos).reqs = (getCtx s z.pos).reqs ++ [replayReq s z xt] ∧ SameBytes s t))

/-! ### Events: the matrix engine, the memory path, transfers, lattices, links -/

/-- R122 to R124, R139, R140, R147, R148, R155, R156, R389: the value of a block is its exact sum, or of `smx` its product, rounded
once to f32, clamped to the largest finite, zero below the smallest normal; the values of even positions are added in order to
the old element, or to +0 with `.ov`, those of odd ones to +0, and the two sums to each other, each sum rounded to nearest even:
so each element that `cim`, `smx` and `acz` write is given.  An accepted operation starts, where the engine works for its context,
and takes its result, then updates the columns of its block in the accumulator; fills and replicas end with a Valid array, but
a poisoned fill with an Invalid one; a drain pushes its rows in order while its queue has room, and else meets the
queue-overflow cause. -/
def Obligations.MatrixEngine : Prop :=
  ∀ (s : State) (p k core a b q : Nat) (m : MOp),
    let c := getCtx s p
    let x := getArr s core a
    let others := fun (t : State) (n : Nat) => ∀ i, i ≠ n → getArr t core i = getArr s core i
    let image := (imageAsk core x.place x.key x.tag.wfmt s).2
    let signed := fun (neg : Bool) => if neg then 2 ^ 31 else 0
    let sum32 := fun (f g : Nat) => arithElem .add 12 0 false 0 f g
    let chain := fun (old : Nat) (bs : List Nat) (ov : Bool) =>
      let at_ := fun (n : Nat) => (bs.zipIdx.filter (fun e => e.2 % 2 = n)).map (·.1)
      sum32 ((at_ 0).foldl sum32 (if ov then 0 else old)) ((at_ 1).foldl sum32 0)
    let old := fun (r j : Nat) => accElem (smGet 0 (getCore s (coreOf p)).acc r) j
    let outRow := fun (i : Nat) => if c.wide then (descArow m.desc + i) % 512 else 256 * (p % 2) + (descArow m.desc + i) % 256
    let rowA := operandRow s p m.desc m.rowsA
    let sc := fun (n : Nat) => decNum 14 n
    let four := m.tag.wfmt = 13
    let weight := fun (k n : Nat) => if four then
        i4Num ((i4Elems m.tag.outl (BitVec.ofNat 2048 (rdNat s.mem (m.key + 64 * n) 64)) 128).getD k (.int 0))
      else numOfInt (rdByte s.mem (m.key + 128 * n + k)).toInt
    let nibble := fun (n : Nat) =>
      bitsOf (rdByte s.mem (m.key + (if four then 8192 else 16384) + n / 2)).toNat (4 * (n % 2)) 4
    let elements := fun (table : BitVec 128) (first count : Nat) (P : Nat → Nat → Nat → Prop) => ∀ i, i < descRows m.desc →
      ∃ v, (mopResult s p m table)[i]? = some (outRow i, v) ∧
        (∀ j, j < count → P i j (accElem v (first + j))) ∧
        ∀ j, j < 256 → j < first ∨ first + count ≤ j → accElem v j = old (outRow i) j
    (blockValue .nan = 0x7FC00000 ∧
      ∀ (neg : Bool) (n : Nat) (e : Int), blockValue (.inf neg) = signed neg + 0x7F800000 ∧
        (n = 0 → blockValue (.fin neg n e) = 0) ∧
        (n ≠ 0 → ∃ w, RoundsTo rneMode (magnitude 23 127) (numVal (.fin false n e)) w ∧
          blockValue (.fin neg n e) = signed neg + (if 0x7F7FFFFF < w then 0x7F7FFFFF else if w < 0x00800000 then 0 else w))) ∧
    (∀ table,
      (m.kind = .acz → m.cb ≤ 2 → elements table (if m.cb = 1 then 128 else 0) (if m.cb = 2 then 256 else 128) (fun _ _ f => f = 0)) ∧
      (m.kind = .cim → m.cb ≤ 1 → elements table (128 * m.cb) 128 (fun i j f => ∃ B : List Nat, B.length = 4 ∧
        f = chain (old (outRow i) (128 * m.cb + j)) B m.ov ∧
        ∀ b, b < 4 → (m.skip.getLsbD b = true → B[b]? = some 0) ∧ (m.skip.getLsbD b = false →
          ∃ z, B[b]? = some (blockValue z) ∧ IsDot ((List.range 32).map (fun r =>
            let q := 32 * b + r
            [numOfInt (if fmtA m.fmt = 13 then toSigned 4 (elem (rowA i) 4 q) else toSigned 8 (elem (rowA i) 8 q)),
              if m.t then weight j q else weight q j,
              if descUscl m.desc then .fin false 1 0 else sc (elem (rowA i) 8 (128 + b)),
              sc (bitsOf table.toNat (8 * nibble (if m.t then 4 * q + j / 32 else 4 * j + b)) 8)])) z))) ∧
      (m.kind = .smx → m.cb ≤ 2 → elements table (if m.cb = 1 then 128 else 0) (if m.cb = 2 then 256 else 128) (fun i j f =>
        let wa := typeWidth (fmtA m.fmt)
        let wb := typeWidth (fmtW m.fmt)
        let count := if fmtA m.fmt = 10 ∨ fmtA m.fmt = 11 then 128 else 256
        let elemB := fun (k : Nat) =>
          if m.t = false then elem (operandRow s p m.descB m.rowsB j) wb k
          else if wb = 16 ∧ 128 ≤ j then elem (operandRow s p (descSecond m.descB) m.rowsC k) 16 (j - 128)
          else elem (operandRow s p m.descB m.rowsB k) wb j
        ∃ B : List Nat, B.length = count ∧ f = chain (old (outRow i) ((if m.cb = 1 then 128 else 0) + j)) B m.ov ∧
          ∀ k, k < count → (m.skip.getLsbD (k / 32) = true → B[k]? = some 0) ∧ (m.skip.getLsbD (k / 32) = false →
            ∃ z, B[k]? = some (blockValue z) ∧
              IsProduct (decFloat (fmtA m.fmt) (elem (rowA i) wa k)) (decFloat (fmtW m.fmt) (elemB k)) z)))) ∧
    (c.mops[k]? = some m → m.kind = .cim ∨ m.arr = none → m.fallback = false → m.cl = false → engineRuns s p = true →
      mopReady s p k = true →
      let table := match m.arr with
        | some i => (getArr s (coreOf p) i).table
        | none => m.table
      NextWith (exec (.matrixOpStart p k) s) (fun t => SameBytes s t ∧ (getCtx t p).mops = c.mops.set k { m with
        started := true, begun := (getCore s (coreOf p)).cycle, result := mopResult s p m table, bad := m.bad || rowsBad s p m })) ∧
    (c.st = .saving ∨ c.st = .restoring ∨ 512 ≤ p → NextWith (exec (.matrixOpStart p k) s) (fun t => t = s) ∧
      NextWith (exec (.drainRowPush p k) s) (fun t => t = s)) ∧
    (p < 512 → c.mops[k]? = some m → m.kind = .cim ∨ m.kind = .smx ∨ m.kind = .acz → m.started = true → m.lost = false →
      NextWith (exec (.matrixOpComplete p k) s) (fun t => (getCtx t p).mops = c.mops.eraseIdx k ∧ SameBytes s t ∧
        (getCore t (coreOf p)).acc = m.result.foldl (fun z e => smSet 0 z e.1
          ((smGet 0 z e.1 &&& ~~~colMask m.cb) ||| (e.2 &&& colMask m.cb))) (getCore s (coreOf p)).acc)) ∧
    (x.st = .filling → x.source = none →
      (image = true → plCache x.place ≠ 2 →
        (arrImageBad s core a = false → NextWith (exec (.tileFillComplete core a) s) (fun t =>
          getArr t core a = { x with st := .valid, age := (getCore s core).cycle } ∧ others t a)) ∧
        (arrImageBad s core a = true → NextWith (exec (.tileFillComplete core a) s) (fun t =>
          (getArr t core a).st = .invalid ∧ others t a))) ∧
      (image = false → NextWith (exec (.tileFillComplete core a) s) (fun t => getArr t core a = x ∧ others t a ∧ SameBytes s t))) ∧
    (x.st = .filling → x.source = some b → NextWith (exec (.replicaComplete core a) s) (fun t =>
      getArr t core a = { x with st := .valid, source := none, age := (getCore s core).cycle } ∧ others t a)) ∧
    (replicaOf s core a = some b → NextWith (exec (.replicaStart core a) s) (fun t => (getArr t core b).st = .filling ∧
      (getArr t core b).tag = x.tag ∧ (getArr t core b).source = some a ∧ others t b)) ∧
    (c.mops[k]? = some m → m.kind = .drn → m.started = true → m.overflow = 0 → queueOf c p m.q = some q →
      ((queueRows s p q).length < 64 → engineRuns s p = true → NextWith (exec (.drainRowPush p k) s) (fun t =>
        (∃ r, queueRows t p q = queueRows s p q ++ [r] ∧
          r.row = (drainRows s p m (m.nextRow / rowsPer m)).getD (m.nextRow % rowsPer m) 0) ∧
        (getCtx t p).mops = if m.nextRow + 1 = descRows m.desc * rowsPer m then c.mops.eraseIdx k
          else c.mops.set k { m with nextRow := m.nextRow + 1, waited := 0 })) ∧
      (64 ≤ (queueRows s p q).length → c.st = .ready ∨ c.st = .blocked → 4096 ≤ m.waited →
        NextWith (exec (.queueOverflow p k) s) (fun t =>
          ∃ h, (getCtx t p).after = c.after ++ [h] ∧ h.code = 7 ∧ h.num = m.q ∧ h.info = m.gaddr)))

/-- R175, R176, R178, R195, R202, R205, R206, R208, R215, R219, R220, R349: loads and stores at the home L2 with their leases and jumps, the bytes that a
load delivers and the copy on its way to the core, the indivisible read and write of a `gam`, which returns the old value, and its
service as a load where a `cas` fails, the join of an `ljn` at its replica, cell by cell of each type, and what `lwt` reads of its cell, acknowledgement in the order of a line's writes, the arrival of
interlocked data, the calendar, evictions, and the ticks, windows and sweeps of the timestamps.
When lines of memory enter an L2 is the model's choice (log 28), and so are the count of ticks (log 3) and the copy's
being on its way until the core's next issue cycle (log 75). -/
def Obligations.MemoryEngine : Prop :=
  ∀ (s : State) (p k core die line stack chan : Nat) (r : GReq) (e : Pend) (b : Burst) (bs : List Burst) (top low : Stamp),
    let c := getCtx s p
    let co := coreOf p
    let ln := r.key / 64
    let h := l2Get s r.home ln
    let lease : Stamp := (getCore s co).lease.setWidth 24
    let near := plLtype r.place = 0 ∧ timed r.place = true ∧ smGet Grant.none s.grants (r.key % 2 ^ 52 / 2 ^ 16) = .none ∧
      farWaits s r.place r.home r.key = false ∧ h.here = true ∧ plCache r.place ≠ 2 ∧ r.lost = false
    let rts := serMax (serMax h.rts (h.wts + lease)) (r.pts + lease)
    let bad := keyBad s r.place r.key
    let bytes := bitsOf (overlay (c.reqs.take k) r (lineNow s r.key)).toNat (8 * (r.key % 64)) (8 * r.size)
    let landed := fun (v : Nat) (again : List GReq) (ill : Bool) (e : Pend) => if e.id = r.id then { e with
      left := e.left - 1, value := e.value ||| BitVec.ofNat 2048 v, bad := e.bad || ill
      got := if e.left ≤ 1 ∧ isLanding c e.dest = true then [] else e.got ++ again } else e
    let T := plLtype r.place
    let cell := rdNat s.mem r.key (cellSize T)
    let old : Word := BitVec.ofNat 64 (rdNat s.mem r.key 8)
    let v : Word := r.data.setWidth 64
    let new := [some (old + v), some (if old.toInt ≤ v.toInt then old else v), some (if old.toInt ≤ v.toInt then v else old),
      some (old &&& v), some (old ||| v), some v].getD r.op (if old = v then some r.arg else none)
    (c.reqs[k]? = some r →
      (r.kind = .gam → r.done = false → storeWaits (earlier c k r) r = false → near → plRepl r.place ≠ 2 → restriping s r.place r.key = false →
        r.key % 8 = 0 → r.size = 8 → r.lane = 0 → lineLost s r.place (keyDie r.key) (r.key % 2 ^ 52) = false →
        (∀ n, new = some n → NextWith (exec (.globalStorePerform p k) s) (fun t => rdNat t.mem r.key 8 = n.toNat ∧
          SameBytesBut (fun a => r.key ≤ a ∧ a < r.key + 8) s t ∧
          (l2Get t r.home ln).wts = serMax r.pts (h.rts + 1) ∧ (l2Get t r.home ln).rts = serMax r.pts (h.rts + 1) ∧
          (∃ x, (getCtx t p).reqs[k]? = some x ∧ x.done = true ∧ x.wts = serMax r.pts (h.rts + 1)) ∧
          (getCtx t p).pend = c.pend.map (landed old.toNat [] bad))) ∧
        (new = none → ackWaits (c.reqs.take k) r = false → NextWith (exec (.globalStorePerform p k) s) (fun t => SameBytes s t ∧
          (getCtx t p).reqs = c.reqs.eraseIdx k ∧ (l2Get t r.home ln).rts = rts ∧ (l2Get t r.home ln).wts = h.wts ∧
          (getCore t co).pts = serMax (getCore s co).pts h.wts ∧
          (getCtx t p).pend = c.pend.map (landed old.toNat [] (bad || r.bad))))) ∧
      (r.kind = .ljn → r.done = false → storeWaits (earlier c k r) r = false → r.lost = false → T ≠ 0 → T < 8 → r.size = cellSize T →
        restriping s r.place r.key = false → cellWaits s r.place r.key = false → cellLost s r.place r.key = false →
        cellMarked s r.key = false → smGet false s.lineBad ln = false →
        let x := bitsOf r.data.toNat 0 (8 * r.size)
        NextWith (exec (.globalStorePerform p k) s) (fun t =>
          let z := rdNat t.mem r.key (cellSize T)
          (getCtx t p).reqs = c.reqs.eraseIdx k ∧ SameBytesBut (fun a => r.key ≤ a ∧ a < r.key + cellSize T) s t ∧
          (T = 1 → z = max cell x) ∧ (T = 2 → z = min cell x) ∧ (T = 3 → toSigned 64 z = max (toSigned 64 cell) (toSigned 64 x)) ∧
          (T = 4 → z = cell ||| x) ∧ (T = 5 → z = cell &&& x) ∧
          (T = 6 → z = if lane64 cell 0 < lane64 x 0 ∨ (lane64 cell 0 = lane64 x 0 ∧ lane64 cell 1 ≤ lane64 x 1) then x else cell) ∧
          (T = 7 → ∀ i, i < 8 → lane64 z i = max (lane64 cell i) (lane64 x i)))) ∧
      (p < 512 → r.kind = .lwt → loadWaits (earlier c k r) r = false → r.lost = false → T ≠ 0 → r.size = cellSize T → cellOf r.place r.key = r.key →
        cellStops s r.place r.key = false → cellLost s r.place r.key = false →
        NextWith (exec (.globalLoadPerform p k) s) (fun t => SameBytes s t ∧ (getCtx t p).reqs = c.reqs.eraseIdx k ∧
          (getCtx t p).pend = c.pend.map (landed (if r.op = 1 then cell else if T = 6 then lane64 cell 1
            else if T = 7 then min ((List.range 8).map (lane64 cell)).sum (2 ^ 64 - 1) else cell) [r] r.bad))) ∧
      (p < 512 → r.kind = .load → loadWaits (earlier c k r) r = false → near → (lcGet s co ln).here = false →
        NextWith (exec (.globalLoadPerform p k) s) (fun t => SameBytes s t ∧ (getCtx t p).reqs = c.reqs.eraseIdx k ∧
          (l2Get t r.home ln).rts = rts ∧ (l2Get t r.home ln).wts = h.wts ∧
          (getCore t co).pts = serMax (getCore s co).pts h.wts ∧
          (getCore t co).fills = (getCore s co).fills ++ [⟨r.home, ln, ⟨true, lineNow s r.key, h.wts, rts, bad⟩⟩] ∧
          (getCtx t p).pend = c.pend.map (fun e => if e.id = r.id then { e with
            left := e.left - 1
            value := e.value ||| (BitVec.ofNat 2048 bytes <<< (512 * r.lane))
            bad := e.bad || (overlayBad (c.reqs.take k) r bad || r.bad)
            got := if e.left ≤ 1 ∧ isLanding c e.dest = true then [] else e.got ++ [r] } else e))) ∧
      (r.kind = .store → r.done = false → storeWaits (earlier c k r) r = false → near → plRepl r.place ≠ 2 →
        lineLost s r.place (keyDie r.key) (r.key % 2 ^ 52) = false →
        NextWith (exec (.globalStorePerform p k) s) (fun t =>
          rdNat t.mem r.key r.size = bitsOf r.data.toNat (8 * (r.key % 64)) (8 * r.size) ∧
          SameBytesBut (fun a => r.key ≤ a ∧ a < r.key + r.size) s t ∧
          (l2Get t r.home ln).wts = serMax r.pts (h.rts + 1) ∧ (l2Get t r.home ln).rts = serMax r.pts (h.rts + 1) ∧
          ∃ x, (getCtx t p).reqs[k]? = some x ∧ x.done = true ∧ x.wts = serMax r.pts (h.rts + 1))) ∧
      (r.done = true → ackWaits (c.reqs.take k) r = true → NextWith (exec (.storeAck p k) s) (fun t => t = s)) ∧
      (r.done = true → ackWaits (c.reqs.take k) r = false → timed r.place = true → NextWith (exec (.storeAck p k) s) (fun t => SameBytes s t ∧
        (getCtx t p).reqs = c.reqs.eraseIdx k ∧ (getCore t co).pts = serMax (getCore s co).pts r.wts ∧
        ((lcGet s co ln).here = true → (lcGet t co ln).data = r.data ∧ (lcGet t co ln).wts = r.wts)))) ∧
    (c.pend[k]? = some e → e.left = 0 → isLanding c e.dest = false → fixedReg e.dest = false →
      NextWith (exec (.interlockDataArrival p k) s) (fun t => (getCtx t p).pend = c.pend.eraseIdx k ∧ SameBytes s t ∧
        regGet (getCtx t p) e.dest = fits e.dest.file ((regGet c e.dest &&& ~~~e.mask) ||| (e.value &&& e.mask)) ∧
        ∀ q, q ≠ e.dest → regGet (getCtx t p) q = regGet c q)) ∧
    ((l2Get s die line).here = true → NextWith (exec (.l2Eviction die line) s) (fun t => (l2Get t die line).here = false ∧
      (getDie t die).mts = serMax (getDie s die).mts (l2Get s die line).rts ∧ SameBytes s t)) ∧
    (chanLive s stack chan = true → s.bursts = b :: bs → b.stack = stack → b.chan = chan → b.served = false → b.bulk = false →
      coreLive s b.core = true → NextWith (exec (.hbmCalendarSlot stack chan (b.core % 64)) s) (fun t =>
        t.bursts = (if stack ∈ s.holds then s.bursts else { b with served := true } :: bs) ∧ SameBytes s t)) ∧
    (s.bursts[k]? = some b → b.served = true → NextWith (exec (.hbmDataReturn k) s) (fun t => t.bursts = s.bursts.eraseIdx k ∧
      SameBytes s t ∧ ((getDie s b.die).l2.length + 4 ≤ 2 ^ 20 → ∀ i ∈ burstLines b, (l2Get t b.die i).here = true))) ∧
    NextWith (exec .ptsTick s) (fun t => t.ticks = (s.ticks + 1) % 2 ^ 20 ∧ SameBytes s t ∧
      ∀ i, (getCore t i).pts = (getCore s i).pts + (if coreLive s i = true then 1 else 0)) ∧
    (ptsSpan s = some (top, low) →
      NextWith (exec .ptsWindowRaise s) (fun t => SameBytes s t ∧
        ∀ i, coreLive s i = true → (getCore t i).pts = serMax (getCore s i).pts (top - 2 ^ 20)) ∧
      NextWith (exec (.timestampSweep die) s) (fun t => SameBytes s t ∧ (getDie t die).mts = serMax (low - 2 ^ 21) (getDie s die).mts ∧
        ((l2Get s die line).here = true → (l2Get t die line).rts = serMax (low - 2 ^ 21) (l2Get s die line).rts ∧
          (l2Get t die line).wts = serMax (low - 2 ^ 21) (l2Get s die line).wts))) ∧
    NextWith (exec (.lineCacheExpiryDrop core) s) (fun t => SameBytes s t ∧ ∀ z, z ∈ (getCore t core).lcache ↔
      z ∈ (getCore s core).lcache ∧ serLe (getCore s core).pts z.2.rts = true)

/-- R169 to R171, R189, R215, R221, R224, R269, R271, R272, R417: a transfer reads the granules of a run in ascending order as
they fill, its runs land one after another and its last makes the granules full; a restripe marks and commits page by
page; lattice cells are sent and joined; rows move through the links.
The order of a transfer's runs, the two events of a restriped page, the argument of the room event and run offsets
modulo 8 MiB are the model's choices (log 22, log 35, log 37, log 81); that a transfer reads granules which it has
itself emptied is its reading (log 87). -/
def Obligations.TransfersLatticesLinks : Prop :=
  ∀ (s : State) (p k die cell ch n : Nat) (x : Xfer) (y : Exch) (w : Word) (g : BitVec 512) (row : Vec) (bad : Bool)
    (lk : LinkOp) (hd : QRow) (tl : List QRow) (q i : Nat) (dc : Nat × Word),
    let c := getCtx s p
    let c0 := memKey (1 + die) cell
    (c.xfers[k]? = some x →
      let off := (runDst x.card x.next).toNat % 2 ^ 23
      (x.restripe = false → x.dropped = false → x.held = none → x.next < x.count → x.buf = [] →
        (cardZero x.card = true → cardDstG x.card = false → openFor s p x off (cardRun x.card) = true →
          NextWith (exec (.xferRunLand p k) s) (fun t =>
            (getCtx t p).xfers = c.xfers.set k { x with next := x.next + 1, landed := x.next + 1 == x.count, bufBad := false } ∧
            (∀ a, a < 2 ^ 63 → rdByte t.mem a = rdByte s.mem a) ∧
            (off % 16 = 0 → cardRun x.card % 16 = 0 → ∀ o ∈ granOffs off (cardRun x.card), rdNat t.mem (scratchKey (clusterOf p) o) 16 = 0) ∧
            (x.next + 1 = x.count → ∀ z ∈ granKeys p off (cardRun x.card), smGet false t.empties z = false))) ∧
        (cardZero x.card = false → cardSrcG x.card = false →
          let gs := (granOffs ((runSrc x.card x.next).toNat % 2 ^ 23) (cardRun x.card)).takeWhile (granOpen s p x)
          16 * gs.length < cardRun x.card → NextWith (exec (.xferRunLand p k) s) (fun t => SameBytes s t ∧
            (getCtx t p).xfers = c.xfers.set k { x with
              buf := gs.flatMap (fun o => rdBytes s.mem (scratchKey (clusterOf p) o) 16)
              bufBad := x.bufBad || gs.any (fun o => gransBad s p o 16) }))) ∧
      (x.count ≤ x.next → NextWith (exec (.xferComplete p k) s) (fun t => (getCtx t p).xfers = c.xfers.eraseIdx k ∧ SameBytes s t)) ∧
      (x.restripe = true → x.dropped = false → x.held = none → x.next < x.count →
        let va := x.first + BitVec.ofNat 64 (2 ^ 16 * x.next)
        let e := walkTable s c.asn va
        let old := e.place &&& ~~~0x800
        let pa := frameAddr e.frame
        (x.marked = false → walkBars s c.asn va true = [] → restriping s old pa = false →
          (stripeBad s c.sup { e with place := old } x.place = false → moveWaits s old x.place pa = false → AtHome s (e.addr + 8) 8 →
            NextWith (exec (.restripePageCommit p k) s) (fun t =>
              (getCtx t p).xfers = c.xfers.set k { x with marked := true, old := old, pa := pa, leaf := e.addr } ∧
              rdNat t.mem (memKey 0 (e.addr + 8)) 8 = (e.place ||| 0x800).toNat)) ∧
          (p < 512 → stripeBad s c.sup { e with place := old } x.place = true → NextWith (exec (.restripePageCommit p k) s) (fun t =>
            ∃ z, (getCtx t p).xfers[k]? = some z ∧ z.held.isSome = true ∧ SameBytes s t))) ∧
        (x.marked = false → walkBars s c.asn va true = [] → restriping s old pa = true →
          NextWith (exec (.restripePageCommit p k) s) (fun t => t = s)) ∧
        (x.marked = true → pageGranted s (x.leaf / 2 ^ 16) true = false →
          (∀ b ∈ s.bursts, b.use ≠ .copy x.num) → NextWith (exec (.restripePageCommit p k) s) (fun t =>
          (∃ z, (getCtx t p).xfers[k]? = some z ∧ z.marked = false ∧ z.next = x.next + 1) ∧
          (AtHome s (x.leaf + 8) 8 → keysBad s x.old (placeKey x.old ((copiesAt x.old).headD 0) x.pa) 1024 = true →
            rdNat t.mem (memKey 0 (x.leaf + 8)) 8 = x.old.toNat ∧
            SameBytesBut (fun a => memKey 0 (x.leaf + 8) ≤ a ∧ a < memKey 0 (x.leaf + 8) + 8) s t))))) ∧
    NextWith (exec .exchangePhase s) (fun t =>
      let z := spoilAll s
      let sent := sendCell z dc.2 dc.1 (partnerIn s.phase die)
      t.phase = s.phase + 1 ∧ SameBytes s t ∧ (die < 4 →
        (dc ∈ dueCells z die → cellLost z dc.2 dc.1 = false → sent ∈ t.exch) ∧ (dc ∈ rebuildCells z die → sent ∈ t.exch))) ∧
    (s.exch[k]? = some y → y.bad = true → cellWaits s y.place y.cell = false → NextWith (exec (.exchangeApply k) s) (fun t =>
      t = { s with exch := s.exch.eraseIdx k, event := s.event ||| 1 })) ∧
    (s.exch[k]? = some y → cellWaits s y.place y.cell = true → NextWith (exec (.exchangeApply k) s) (fun t => t = s)) ∧
    (s.exch[k]? = some y → y.bad = false → cellWaits s y.place y.cell = false → cellLost s y.place y.cell = false →
      cellMarked s y.cell = false → smGet false s.lineBad (y.cell / 64) = false →
      NextWith (exec (.exchangeApply k) s) (fun t => t.exch = s.exch.eraseIdx k ∧
        cellGet t y.place y.cell = latJoin (plLtype y.place) (cellGet s y.place y.cell) y.data.toNat % 2 ^ (8 * cellSize (plLtype y.place)) ∧
        SameBytesBut (fun a => y.cell ≤ a ∧ a < y.cell + cellSize (plLtype y.place)) s t)) ∧
    (smGet none s.rebuild c0 = some (0, w, g) → (∀ z ∈ s.exch, z.cell ≠ c0) → cellLost s w c0 = false →
      NextWith (exec (.latticeRebuildEnd die cell) s) (fun t => cellMarked t c0 = false ∧
        cellGet t w c0 = g.toNat % 2 ^ (8 * cellSize (plLtype w)))) ∧
    (ch < 256 → portsDown s = false → (getChan s ch).queue.length < 256 → NextWith (exec (.linkRowReceive ch row bad) s) (fun t =>
      (getChan t ch).queue = (getChan s ch).queue ++ [⟨row, bad⟩] ∧ SameBytes s t)) ∧
    (c.links[k]? = some lk → lk.send = false → lk.queue = hd :: tl →
      (bankIds p (lk.row % 32768 * 256) 256).all (fun b => !lockedAgainst s p lk.num lk.locks b) = true → NextWith (exec (.recvRowLand p k) s) (fun t =>
      let key := scratchKey (clusterOf p) (lk.row % 32768 * 256)
      rdNat t.mem key 256 = hd.row.toNat ∧ SameBytesBut (fun a => key ≤ a ∧ a < key + 256) s t ∧
      (∀ z ∈ granKeys p (lk.row % 32768 * 256) 256, smGet false t.empties z = false) ∧
      (tl = [] → (getCtx t p).links = c.links.eraseIdx k))) ∧
    (portsDown s = false →
      (n ≠ 0 → ch < 256 → NextWith (exec (.remoteQueueRoom ch n) s) (fun t =>
        (getChan t ch).room = min 256 ((getChan s ch).room + n) ∧ (getChan t ch).queue = (getChan s ch).queue)) ∧
      (senderOn s ch = some (q, i) → (getCtx s q).links[i]? = some lk → sendOpen s q lk = true → NextWith (exec (.remoteQueueRoom ch 0) s) (fun t =>
        t.sent = s.sent ++ [(ch, sendRow s q lk)] ∧ SameBytes s t)))
end

