-- ==== Sys2Proof/Laws/SMap.lean ====
section
/-! SUPPORT. Laws of the sparse tables: reads after writes, and the canonical form. -/

namespace Sys2Proof.Machine

variable {α : Type}

/-- An empty table reads as the default. -/
@[simp] theorem smGet_nil (d : α) (k : Nat) : smGet d [] k = d := rfl

/-- Erasing the first key. -/
theorem smErase_cons_eq (e : Nat × α) (m : SMap α) {k : Nat} (h : e.1 = k) : smErase (e :: m) k = smErase m k := by
  simp [smErase, h]

/-- Erasing another key than the first. -/
theorem smErase_cons_ne (e : Nat × α) (m : SMap α) {k : Nat} (h : e.1 ≠ k) : smErase (e :: m) k = e :: smErase m k := by
  simp [smErase, h]

/-- A key that was erased reads as the default. -/
theorem smGet_erase_self (d : α) (m : SMap α) (k : Nat) : smGet d (smErase m k) k = d := by
  induction m with
  | nil => rfl
  | cons e m ih =>
    by_cases h : e.1 = k
    · rw [smErase_cons_eq e m h, ih]
    · rw [smErase_cons_ne e m h, smGet, if_neg h, ih]

/-- Erasing a key leaves the others. -/
theorem smGet_erase_ne (d : α) (m : SMap α) {j k : Nat} (h : j ≠ k) : smGet d (smErase m k) j = smGet d m j := by
  induction m with
  | nil => rfl
  | cons e m ih =>
    by_cases hk : e.1 = k
    · rw [smErase_cons_eq e m hk, smGet, if_neg (fun q => h (q.symm.trans hk)), ih]
    · rw [smErase_cons_ne e m hk, smGet, smGet, ih]

/-- An inserted key reads as its value, where it was not listed. -/
theorem smGet_insert_self (d : α) (m : SMap α) (k : Nat) (v : α) (h : ∀ e ∈ m, e.1 ≠ k) : smGet d (smInsert m k v) k = v := by
  induction m with
  | nil => simp [smInsert, smGet]
  | cons e m ih =>
    rw [smInsert]
    by_cases hk : k < e.1
    · simp [hk, smGet]
    · rw [if_neg hk, smGet, if_neg (h e (List.mem_cons_self ..))]
      exact ih (fun x hx => h x (List.mem_cons_of_mem _ hx))

/-- Inserting a key leaves the others. -/
theorem smGet_insert_ne (d : α) (m : SMap α) {j k : Nat} (v : α) (h : j ≠ k) : smGet d (smInsert m k v) j = smGet d m j := by
  induction m with
  | nil => simp [smInsert, smGet, Ne.symm h]
  | cons e m ih =>
    rw [smInsert]
    by_cases hk : k < e.1
    · simp [hk, smGet, Ne.symm h]
    · rw [if_neg hk, smGet, smGet, ih]

/-- An erased key is not listed. -/
theorem smErase_fresh (m : SMap α) (k : Nat) : ∀ e ∈ smErase m k, e.1 ≠ k := by
  intro e he
  simpa using (List.mem_filter.mp he).2

/-- A key reads as what was last written to it. -/
@[simp] theorem smGet_set_self [DecidableEq α] (d : α) (m : SMap α) (k : Nat) (v : α) : smGet d (smSet d m k v) k = v := by
  unfold smSet
  split
  · next h => rw [smGet_erase_self, h]
  · exact smGet_insert_self d _ k v (smErase_fresh m k)

/-- A write leaves every other key alone. -/
theorem smGet_set_ne [DecidableEq α] (d : α) (m : SMap α) {j k : Nat} (v : α) (h : j ≠ k) :
    smGet d (smSet d m k v) j = smGet d m j := by
  unfold smSet
  split
  · exact smGet_erase_ne d m h
  · rw [smGet_insert_ne d _ v h, smGet_erase_ne d m h]

/-- Reads after a write, both cases. -/
theorem smGet_set [DecidableEq α] (d : α) (m : SMap α) (j k : Nat) (v : α) :
    smGet d (smSet d m k v) j = if j = k then v else smGet d m j := by
  by_cases h : j = k
  · subst h; simp
  · rw [if_neg h, smGet_set_ne d m v h]

section Form
variable [DecidableEq α]

/-- A lower bound may be lowered. -/
theorem smWfFrom_mono (d : α) {lo hi : Nat} (m : SMap α) (h : lo ≤ hi) (w : smWfFrom d hi m = true) :
    smWfFrom d lo m = true := by
  cases m with
  | nil => rfl
  | cons e m =>
    simp only [smWfFrom, Bool.and_eq_true, decide_eq_true_eq] at w ⊢
    exact ⟨⟨Nat.le_trans h w.1.1, w.1.2⟩, w.2⟩

/-- Filtering keeps the form. -/
theorem smWfFrom_filter (d : α) (p : Nat × α → Bool) (lo : Nat) (m : SMap α) (w : smWfFrom d lo m = true) :
    smWfFrom d lo (m.filter p) = true := by
  induction m generalizing lo with
  | nil => rfl
  | cons e m ih =>
    simp only [smWfFrom, Bool.and_eq_true, decide_eq_true_eq] at w
    by_cases h : p e = true
    · rw [List.filter_cons_of_pos h]
      simp only [smWfFrom, Bool.and_eq_true, decide_eq_true_eq]
      exact ⟨w.1, ih _ w.2⟩
    · rw [List.filter_cons_of_neg h]
      exact smWfFrom_mono d _ (Nat.le_trans w.1.1 (Nat.le_succ _)) (ih _ w.2)

/-- Inserting an unlisted key keeps the form. -/
theorem smWfFrom_insert (d : α) (lo : Nat) (m : SMap α) {k : Nat} {v : α} (hk : lo ≤ k) (hv : v ≠ d)
    (fresh : ∀ e ∈ m, e.1 ≠ k) (w : smWfFrom d lo m = true) : smWfFrom d lo (smInsert m k v) = true := by
  induction m generalizing lo with
  | nil => simp [smInsert, smWfFrom, hk, hv]
  | cons e m ih =>
    simp only [smWfFrom, Bool.and_eq_true, decide_eq_true_eq] at w
    rw [smInsert]
    by_cases h : k < e.1
    · rw [if_pos h]
      simp only [smWfFrom, Bool.and_eq_true, decide_eq_true_eq]
      exact ⟨⟨hk, hv⟩, ⟨h, w.1.2⟩, w.2⟩
    · rw [if_neg h]
      simp only [smWfFrom, Bool.and_eq_true, decide_eq_true_eq]
      have ne := fresh e (List.mem_cons_self ..)
      exact ⟨w.1, ih _ (by omega) (fun x hx => fresh x (List.mem_cons_of_mem _ hx)) w.2⟩

/-- A write keeps the canonical form. -/
theorem smWf_set (d : α) (m : SMap α) (k : Nat) (v : α) (w : smWf d m = true) : smWf d (smSet d m k v) = true := by
  unfold smSet
  split
  · exact smWfFrom_filter d _ 0 m w
  · next h => exact smWfFrom_insert d 0 _ (Nat.zero_le _) h (smErase_fresh m k) (smWfFrom_filter d _ 0 m w)

end Form

theorem smErase_erase (m : SMap α) (k : Nat) : smErase (smErase m k) k = smErase m k := by
  unfold smErase
  rw [List.filter_filter]
  simp

theorem smErase_of_fresh (m : SMap α) (k : Nat) (h : ∀ e ∈ m, e.1 ≠ k) : smErase m k = m := by
  unfold smErase
  rw [List.filter_eq_self]
  intro e he
  simpa using h e he

theorem smErase_insert (m : SMap α) (k : Nat) (v : α) (h : ∀ e ∈ m, e.1 ≠ k) : smErase (smInsert m k v) k = m := by
  induction m with
  | nil => simp [smInsert, smErase]
  | cons e m ih =>
    have he := h e List.mem_cons_self
    have hm : ∀ x ∈ m, x.1 ≠ k := fun x hx => h x (List.mem_cons_of_mem _ hx)
    unfold smInsert
    split
    · rw [smErase_cons_eq _ _ rfl, smErase_of_fresh _ _ h]
    · rw [smErase_cons_ne _ _ he, ih hm]

/-- The later of two writes at a key stands. -/
theorem smSet_smSet [DecidableEq α] (d : α) (m : SMap α) (k : Nat) (v w : α) : smSet d (smSet d m k v) k w = smSet d m k w := by
  have h : smErase (smSet d m k v) k = smErase m k := by
    unfold smSet
    split
    · exact smErase_erase m k
    · exact smErase_insert _ _ _ (smErase_fresh m k)
  show (if w = d then smErase (smSet d m k v) k else smInsert (smErase (smSet d m k v) k) k w) = smSet d m k w
  rw [h]
  rfl

end Sys2Proof.Machine
end

