-- ==== Sys2Proof/Laws/Memory.lean ====
section
/-! SUPPORT. Laws of the memory: reads after writes, and the canonical form. -/

namespace Sys2Proof.Machine

/-- A byte reads as what was last written to it. -/
@[simp] theorem rdByte_wrByte_self (m : List Host.Cell) (k : Nat) (b : Byte) : rdByte (wrByte m k b) k = b :=
  smGet_set_self ..

/-- A write of a byte leaves every other byte alone. -/
theorem rdByte_wrByte_ne (m : List Host.Cell) {j k : Nat} (b : Byte) (h : j ≠ k) : rdByte (wrByte m k b) j = rdByte m j :=
  smGet_set_ne _ _ _ h

/-- A write of a byte keeps the canonical form. -/
theorem wrByte_wf (m : List Host.Cell) (k : Nat) (b : Byte) (w : Memory.wf m = true) : Memory.wf (wrByte m k b) = true :=
  smWf_set _ _ _ _ w

/-- A write of bytes leaves every byte below alone. -/
theorem rdByte_wrBytes_below (m : List Host.Cell) {j k : Nat} (bs : List Byte) (h : j < k) :
    rdByte (wrBytes m k bs) j = rdByte m j := by
  induction bs generalizing m k with
  | nil => rfl
  | cons b bs ih => rw [wrBytes, ih _ (Nat.lt_succ_of_lt h), rdByte_wrByte_ne _ _ (Nat.ne_of_lt h)]

/-- A write of bytes leaves every byte above alone. -/
theorem rdByte_wrBytes_above (m : List Host.Cell) {j k : Nat} (bs : List Byte) (h : k + bs.length ≤ j) :
    rdByte (wrBytes m k bs) j = rdByte m j := by
  induction bs generalizing m k with
  | nil => rfl
  | cons b bs ih =>
    rw [List.length_cons] at h
    rw [wrBytes, ih _ (by omega), rdByte_wrByte_ne _ _ (by omega)]

/-- The bytes written are read. -/
theorem rdByte_wrBytes_in (m : List Host.Cell) (k i : Nat) (bs : List Byte) (h : i < bs.length) :
    rdByte (wrBytes m k bs) (k + i) = bs.getD i 0 := by
  induction bs generalizing m k i with
  | nil => exact absurd h (Nat.not_lt_zero _)
  | cons b bs ih =>
    cases i with
    | zero =>
      rw [wrBytes]
      exact (rdByte_wrBytes_below _ _ (Nat.lt_succ_self k)).trans (rdByte_wrByte_self m k b)
    | succ i =>
      rw [wrBytes, show k + (i + 1) = k + 1 + i by omega, ih _ _ _ (by simpa using h)]
      rfl

/-- A write of bytes keeps the canonical form. -/
theorem wrBytes_wf (m : List Host.Cell) (k : Nat) (bs : List Byte) (w : Memory.wf m = true) :
    Memory.wf (wrBytes m k bs) = true := by
  induction bs generalizing m k with
  | nil => exact w
  | cons b bs ih => exact ih _ _ (wrByte_wf _ _ _ w)

/-- A write of a number keeps the canonical form. -/
theorem wrNat_wf (m : List Host.Cell) (k n v : Nat) (w : Memory.wf m = true) : Memory.wf (wrNat m k n v) = true :=
  wrBytes_wf _ _ _ w

/-- The bytes of a number: as many as asked for. -/
@[simp] theorem bytesLE_length (n v : Nat) : (bytesLE n v).length = n := by
  induction n generalizing v with
  | zero => rfl
  | succ n ih => simp [bytesLE, ih]

/-- A number written and read at one place. -/
theorem bytesLE_natLE (n v : Nat) : natLE (bytesLE n v) = v % 256 ^ n := by
  induction n generalizing v with
  | zero => simp [bytesLE, natLE, Nat.mod_one]
  | succ n ih =>
    have e : (256 : Nat) ^ (n + 1) = 256 * 256 ^ n := by rw [Nat.pow_succ, Nat.mul_comm]
    rw [bytesLE, natLE, ih, BitVec.toNat_ofNat, e, Nat.mod_mul]

/-- The bytes that were written are read as they were written. -/
theorem rdBytes_wrBytes (m : List Host.Cell) (k : Nat) (bs : List Byte) : rdBytes (wrBytes m k bs) k bs.length = bs := by
  induction bs generalizing m k with
  | nil => rfl
  | cons b bs ih =>
    rw [List.length_cons, rdBytes, wrBytes, rdByte_wrBytes_below _ _ (Nat.lt_succ_self _), rdByte_wrByte_self, ih]

/-- A number is read as it was written. -/
theorem rdNat_wrNat (m : List Host.Cell) (k n v : Nat) : rdNat (wrNat m k n v) k n = v % 256 ^ n := by
  have h := rdBytes_wrBytes m k (bytesLE n v)
  rw [bytesLE_length] at h
  rw [rdNat, wrNat, h, bytesLE_natLE]

/-- The memory right after reset is in canonical form. -/
theorem reset_mem_wf : Memory.wf State.reset.mem = true := rfl

end Sys2Proof.Machine
end

