-- ==== Sys2Proof/Laws/State.lean ====
section
/-! SUPPORT. Laws of the state's updates: what each leaves alone, field by field, and reads after writes. -/

namespace Sys2Proof.Machine

variable (s : State)


/-! ### `setCtx` -/

@[simp] theorem setCtx_ctxs (p : Nat) (c : Ctx) : (setCtx p c s).ctxs = smSet {} s.ctxs p c := rfl
@[simp] theorem setCtx_cores (p : Nat) (c : Ctx) : (setCtx p c s).cores = s.cores := rfl
@[simp] theorem setCtx_clusters (p : Nat) (c : Ctx) : (setCtx p c s).clusters = s.clusters := rfl
@[simp] theorem setCtx_dies (p : Nat) (c : Ctx) : (setCtx p c s).dies = s.dies := rfl
@[simp] theorem setCtx_mem (p : Nat) (c : Ctx) : (setCtx p c s).mem = s.mem := rfl
@[simp] theorem setCtx_empties (p : Nat) (c : Ctx) : (setCtx p c s).empties = s.empties := rfl
@[simp] theorem setCtx_granBad (p : Nat) (c : Ctx) : (setCtx p c s).granBad = s.granBad := rfl
@[simp] theorem setCtx_lineBad (p : Nat) (c : Ctx) : (setCtx p c s).lineBad = s.lineBad := rfl
@[simp] theorem setCtx_dirty (p : Nat) (c : Ctx) : (setCtx p c s).dirty = s.dirty := rfl
@[simp] theorem setCtx_exch (p : Nat) (c : Ctx) : (setCtx p c s).exch = s.exch := rfl
@[simp] theorem setCtx_rebuild (p : Nat) (c : Ctx) : (setCtx p c s).rebuild = s.rebuild := rfl
@[simp] theorem setCtx_phase (p : Nat) (c : Ctx) : (setCtx p c s).phase = s.phase := rfl
@[simp] theorem setCtx_ticks (p : Nat) (c : Ctx) : (setCtx p c s).ticks = s.ticks := rfl
@[simp] theorem setCtx_bursts (p : Nat) (c : Ctx) : (setCtx p c s).bursts = s.bursts := rfl
@[simp] theorem setCtx_roots (p : Nat) (c : Ctx) : (setCtx p c s).roots = s.roots := rfl
@[simp] theorem setCtx_grants (p : Nat) (c : Ctx) : (setCtx p c s).grants = s.grants := rfl
@[simp] theorem setCtx_recalls (p : Nat) (c : Ctx) : (setCtx p c s).recalls = s.recalls := rfl
@[simp] theorem setCtx_waiting (p : Nat) (c : Ctx) : (setCtx p c s).waiting = s.waiting := rfl
@[simp] theorem setCtx_launches (p : Nat) (c : Ctx) : (setCtx p c s).launches = s.launches := rfl
@[simp] theorem setCtx_finals (p : Nat) (c : Ctx) : (setCtx p c s).finals = s.finals := rfl
@[simp] theorem setCtx_saved (p : Nat) (c : Ctx) : (setCtx p c s).saved = s.saved := rfl
@[simp] theorem setCtx_lastSeq (p : Nat) (c : Ctx) : (setCtx p c s).lastSeq = s.lastSeq := rfl
@[simp] theorem setCtx_lastRef (p : Nat) (c : Ctx) : (setCtx p c s).lastRef = s.lastRef := rfl
@[simp] theorem setCtx_nextSeq (p : Nat) (c : Ctx) : (setCtx p c s).nextSeq = s.nextSeq := rfl
@[simp] theorem setCtx_journal (p : Nat) (c : Ctx) : (setCtx p c s).journal = s.journal := rfl
@[simp] theorem setCtx_chans (p : Nat) (c : Ctx) : (setCtx p c s).chans = s.chans := rfl
@[simp] theorem setCtx_sent (p : Nat) (c : Ctx) : (setCtx p c s).sent = s.sent := rfl
@[simp] theorem setCtx_power (p : Nat) (c : Ctx) : (setCtx p c s).power = s.power := rfl
@[simp] theorem setCtx_bustat (p : Nat) (c : Ctx) : (setCtx p c s).bustat = s.bustat := rfl
@[simp] theorem setCtx_bufail (p : Nat) (c : Ctx) : (setCtx p c s).bufail = s.bufail := rfl
@[simp] theorem setCtx_event (p : Nat) (c : Ctx) : (setCtx p c s).event = s.event := rfl
@[simp] theorem setCtx_savebase (p : Nat) (c : Ctx) : (setCtx p c s).savebase = s.savebase := rfl
@[simp] theorem setCtx_savecnt (p : Nat) (c : Ctx) : (setCtx p c s).savecnt = s.savecnt := rfl
@[simp] theorem setCtx_wlogsz (p : Nat) (c : Ctx) : (setCtx p c s).wlogsz = s.wlogsz := rfl
@[simp] theorem setCtx_hcfg (p : Nat) (c : Ctx) : (setCtx p c s).hcfg = s.hcfg := rfl
@[simp] theorem setCtx_retTable (p : Nat) (c : Ctx) : (setCtx p c s).retTable = s.retTable := rfl
@[simp] theorem setCtx_logical (p : Nat) (c : Ctx) : (setCtx p c s).logical = s.logical := rfl
@[simp] theorem setCtx_deadCores (p : Nat) (c : Ctx) : (setCtx p c s).deadCores = s.deadCores := rfl
@[simp] theorem setCtx_deadChans (p : Nat) (c : Ctx) : (setCtx p c s).deadChans = s.deadChans := rfl
@[simp] theorem setCtx_deadLanes (p : Nat) (c : Ctx) : (setCtx p c s).deadLanes = s.deadLanes := rfl
@[simp] theorem setCtx_failCores (p : Nat) (c : Ctx) : (setCtx p c s).failCores = s.failCores := rfl
@[simp] theorem setCtx_failChans (p : Nat) (c : Ctx) : (setCtx p c s).failChans = s.failChans := rfl
@[simp] theorem setCtx_failLanes (p : Nat) (c : Ctx) : (setCtx p c s).failLanes = s.failLanes := rfl
@[simp] theorem setCtx_holds (p : Nat) (c : Ctx) : (setCtx p c s).holds = s.holds := rfl
@[simp] theorem setCtx_trip (p : Nat) (c : Ctx) : (setCtx p c s).trip = s.trip := rfl
@[simp] theorem setCtx_ballast (p : Nat) (c : Ctx) : (setCtx p c s).ballast = s.ballast := rfl
@[simp] theorem setCtx_hostRead (p : Nat) (c : Ctx) : (setCtx p c s).hostRead = s.hostRead := rfl
@[simp] theorem setCtx_cmds (p : Nat) (c : Ctx) : (setCtx p c s).cmds = s.cmds := rfl
@[simp] theorem setCtx_slots (p : Nat) (c : Ctx) : (setCtx p c s).slots = s.slots := rfl
@[simp] theorem setCtx_lent (p : Nat) (c : Ctx) : (setCtx p c s).lent = s.lent := rfl
@[simp] theorem setCtx_agenda (p : Nat) (c : Ctx) : (setCtx p c s).agenda = s.agenda := rfl
@[simp] theorem setCtx_cur (p : Nat) (c : Ctx) : (setCtx p c s).cur = s.cur := rfl
@[simp] theorem setCtx_rot (p : Nat) (c : Ctx) : (setCtx p c s).rot = s.rot := rfl
@[simp] theorem setCtx_fresh (p : Nat) (c : Ctx) : (setCtx p c s).fresh = s.fresh := rfl
@[simp] theorem setCtx_order (p : Nat) (c : Ctx) : (setCtx p c s).order = s.order := rfl
@[simp] theorem setCtx_endw (p : Nat) (c : Ctx) : (setCtx p c s).endw = s.endw := rfl

/-! ### `updCtx` -/

@[simp] theorem updCtx_ctxs (p : Nat) (f : Ctx → Ctx) : (updCtx p f s).ctxs = smSet {} s.ctxs p (f (getCtx s p)) := rfl
@[simp] theorem updCtx_cores (p : Nat) (f : Ctx → Ctx) : (updCtx p f s).cores = s.cores := rfl
@[simp] theorem updCtx_clusters (p : Nat) (f : Ctx → Ctx) : (updCtx p f s).clusters = s.clusters := rfl
@[simp] theorem updCtx_dies (p : Nat) (f : Ctx → Ctx) : (updCtx p f s).dies = s.dies := rfl
@[simp] theorem updCtx_mem (p : Nat) (f : Ctx → Ctx) : (updCtx p f s).mem = s.mem := rfl
@[simp] theorem updCtx_empties (p : Nat) (f : Ctx → Ctx) : (updCtx p f s).empties = s.empties := rfl
@[simp] theorem updCtx_granBad (p : Nat) (f : Ctx → Ctx) : (updCtx p f s).granBad = s.granBad := rfl
@[simp] theorem updCtx_lineBad (p : Nat) (f : Ctx → Ctx) : (updCtx p f s).lineBad = s.lineBad := rfl
@[simp] theorem updCtx_dirty (p : Nat) (f : Ctx → Ctx) : (updCtx p f s).dirty = s.dirty := rfl
@[simp] theorem updCtx_exch (p : Nat) (f : Ctx → Ctx) : (updCtx p f s).exch = s.exch := rfl
@[simp] theorem updCtx_rebuild (p : Nat) (f : Ctx → Ctx) : (updCtx p f s).rebuild = s.rebuild := rfl
@[simp] theorem updCtx_phase (p : Nat) (f : Ctx → Ctx) : (updCtx p f s).phase = s.phase := rfl
@[simp] theorem updCtx_ticks (p : Nat) (f : Ctx → Ctx) : (updCtx p f s).ticks = s.ticks := rfl
@[simp] theorem updCtx_bursts (p : Nat) (f : Ctx → Ctx) : (updCtx p f s).bursts = s.bursts := rfl
@[simp] theorem updCtx_roots (p : Nat) (f : Ctx → Ctx) : (updCtx p f s).roots = s.roots := rfl
@[simp] theorem updCtx_grants (p : Nat) (f : Ctx → Ctx) : (updCtx p f s).grants = s.grants := rfl
@[simp] theorem updCtx_recalls (p : Nat) (f : Ctx → Ctx) : (updCtx p f s).recalls = s.recalls := rfl
@[simp] theorem updCtx_waiting (p : Nat) (f : Ctx → Ctx) : (updCtx p f s).waiting = s.waiting := rfl
@[simp] theorem updCtx_launches (p : Nat) (f : Ctx → Ctx) : (updCtx p f s).launches = s.launches := rfl
@[simp] theorem updCtx_finals (p : Nat) (f : Ctx → Ctx) : (updCtx p f s).finals = s.finals := rfl
@[simp] theorem updCtx_saved (p : Nat) (f : Ctx → Ctx) : (updCtx p f s).saved = s.saved := rfl
@[simp] theorem updCtx_lastSeq (p : Nat) (f : Ctx → Ctx) : (updCtx p f s).lastSeq = s.lastSeq := rfl
@[simp] theorem updCtx_lastRef (p : Nat) (f : Ctx → Ctx) : (updCtx p f s).lastRef = s.lastRef := rfl
@[simp] theorem updCtx_nextSeq (p : Nat) (f : Ctx → Ctx) : (updCtx p f s).nextSeq = s.nextSeq := rfl
@[simp] theorem updCtx_journal (p : Nat) (f : Ctx → Ctx) : (updCtx p f s).journal = s.journal := rfl
@[simp] theorem updCtx_chans (p : Nat) (f : Ctx → Ctx) : (updCtx p f s).chans = s.chans := rfl
@[simp] theorem updCtx_sent (p : Nat) (f : Ctx → Ctx) : (updCtx p f s).sent = s.sent := rfl
@[simp] theorem updCtx_power (p : Nat) (f : Ctx → Ctx) : (updCtx p f s).power = s.power := rfl
@[simp] theorem updCtx_bustat (p : Nat) (f : Ctx → Ctx) : (updCtx p f s).bustat = s.bustat := rfl
@[simp] theorem updCtx_bufail (p : Nat) (f : Ctx → Ctx) : (updCtx p f s).bufail = s.bufail := rfl
@[simp] theorem updCtx_event (p : Nat) (f : Ctx → Ctx) : (updCtx p f s).event = s.event := rfl
@[simp] theorem updCtx_savebase (p : Nat) (f : Ctx → Ctx) : (updCtx p f s).savebase = s.savebase := rfl
@[simp] theorem updCtx_savecnt (p : Nat) (f : Ctx → Ctx) : (updCtx p f s).savecnt = s.savecnt := rfl
@[simp] theorem updCtx_wlogsz (p : Nat) (f : Ctx → Ctx) : (updCtx p f s).wlogsz = s.wlogsz := rfl
@[simp] theorem updCtx_hcfg (p : Nat) (f : Ctx → Ctx) : (updCtx p f s).hcfg = s.hcfg := rfl
@[simp] theorem updCtx_retTable (p : Nat) (f : Ctx → Ctx) : (updCtx p f s).retTable = s.retTable := rfl
@[simp] theorem updCtx_logical (p : Nat) (f : Ctx → Ctx) : (updCtx p f s).logical = s.logical := rfl
@[simp] theorem updCtx_deadCores (p : Nat) (f : Ctx → Ctx) : (updCtx p f s).deadCores = s.deadCores := rfl
@[simp] theorem updCtx_deadChans (p : Nat) (f : Ctx → Ctx) : (updCtx p f s).deadChans = s.deadChans := rfl
@[simp] theorem updCtx_deadLanes (p : Nat) (f : Ctx → Ctx) : (updCtx p f s).deadLanes = s.deadLanes := rfl
@[simp] theorem updCtx_failCores (p : Nat) (f : Ctx → Ctx) : (updCtx p f s).failCores = s.failCores := rfl
@[simp] theorem updCtx_failChans (p : Nat) (f : Ctx → Ctx) : (updCtx p f s).failChans = s.failChans := rfl
@[simp] theorem updCtx_failLanes (p : Nat) (f : Ctx → Ctx) : (updCtx p f s).failLanes = s.failLanes := rfl
@[simp] theorem updCtx_holds (p : Nat) (f : Ctx → Ctx) : (updCtx p f s).holds = s.holds := rfl
@[simp] theorem updCtx_trip (p : Nat) (f : Ctx → Ctx) : (updCtx p f s).trip = s.trip := rfl
@[simp] theorem updCtx_ballast (p : Nat) (f : Ctx → Ctx) : (updCtx p f s).ballast = s.ballast := rfl
@[simp] theorem updCtx_hostRead (p : Nat) (f : Ctx → Ctx) : (updCtx p f s).hostRead = s.hostRead := rfl
@[simp] theorem updCtx_cmds (p : Nat) (f : Ctx → Ctx) : (updCtx p f s).cmds = s.cmds := rfl
@[simp] theorem updCtx_slots (p : Nat) (f : Ctx → Ctx) : (updCtx p f s).slots = s.slots := rfl
@[simp] theorem updCtx_lent (p : Nat) (f : Ctx → Ctx) : (updCtx p f s).lent = s.lent := rfl
@[simp] theorem updCtx_agenda (p : Nat) (f : Ctx → Ctx) : (updCtx p f s).agenda = s.agenda := rfl
@[simp] theorem updCtx_cur (p : Nat) (f : Ctx → Ctx) : (updCtx p f s).cur = s.cur := rfl
@[simp] theorem updCtx_rot (p : Nat) (f : Ctx → Ctx) : (updCtx p f s).rot = s.rot := rfl
@[simp] theorem updCtx_fresh (p : Nat) (f : Ctx → Ctx) : (updCtx p f s).fresh = s.fresh := rfl
@[simp] theorem updCtx_order (p : Nat) (f : Ctx → Ctx) : (updCtx p f s).order = s.order := rfl
@[simp] theorem updCtx_endw (p : Nat) (f : Ctx → Ctx) : (updCtx p f s).endw = s.endw := rfl

/-! ### `setCore` -/

@[simp] theorem setCore_ctxs (k : Nat) (c : Core) : (setCore k c s).ctxs = s.ctxs := rfl
@[simp] theorem setCore_cores (k : Nat) (c : Core) : (setCore k c s).cores = smSet {} s.cores k c := rfl
@[simp] theorem setCore_clusters (k : Nat) (c : Core) : (setCore k c s).clusters = s.clusters := rfl
@[simp] theorem setCore_dies (k : Nat) (c : Core) : (setCore k c s).dies = s.dies := rfl
@[simp] theorem setCore_mem (k : Nat) (c : Core) : (setCore k c s).mem = s.mem := rfl
@[simp] theorem setCore_empties (k : Nat) (c : Core) : (setCore k c s).empties = s.empties := rfl
@[simp] theorem setCore_granBad (k : Nat) (c : Core) : (setCore k c s).granBad = s.granBad := rfl
@[simp] theorem setCore_lineBad (k : Nat) (c : Core) : (setCore k c s).lineBad = s.lineBad := rfl
@[simp] theorem setCore_dirty (k : Nat) (c : Core) : (setCore k c s).dirty = s.dirty := rfl
@[simp] theorem setCore_exch (k : Nat) (c : Core) : (setCore k c s).exch = s.exch := rfl
@[simp] theorem setCore_rebuild (k : Nat) (c : Core) : (setCore k c s).rebuild = s.rebuild := rfl
@[simp] theorem setCore_phase (k : Nat) (c : Core) : (setCore k c s).phase = s.phase := rfl
@[simp] theorem setCore_ticks (k : Nat) (c : Core) : (setCore k c s).ticks = s.ticks := rfl
@[simp] theorem setCore_bursts (k : Nat) (c : Core) : (setCore k c s).bursts = s.bursts := rfl
@[simp] theorem setCore_roots (k : Nat) (c : Core) : (setCore k c s).roots = s.roots := rfl
@[simp] theorem setCore_grants (k : Nat) (c : Core) : (setCore k c s).grants = s.grants := rfl
@[simp] theorem setCore_recalls (k : Nat) (c : Core) : (setCore k c s).recalls = s.recalls := rfl
@[simp] theorem setCore_waiting (k : Nat) (c : Core) : (setCore k c s).waiting = s.waiting := rfl
@[simp] theorem setCore_launches (k : Nat) (c : Core) : (setCore k c s).launches = s.launches := rfl
@[simp] theorem setCore_finals (k : Nat) (c : Core) : (setCore k c s).finals = s.finals := rfl
@[simp] theorem setCore_saved (k : Nat) (c : Core) : (setCore k c s).saved = s.saved := rfl
@[simp] theorem setCore_lastSeq (k : Nat) (c : Core) : (setCore k c s).lastSeq = s.lastSeq := rfl
@[simp] theorem setCore_lastRef (k : Nat) (c : Core) : (setCore k c s).lastRef = s.lastRef := rfl
@[simp] theorem setCore_nextSeq (k : Nat) (c : Core) : (setCore k c s).nextSeq = s.nextSeq := rfl
@[simp] theorem setCore_journal (k : Nat) (c : Core) : (setCore k c s).journal = s.journal := rfl
@[simp] theorem setCore_chans (k : Nat) (c : Core) : (setCore k c s).chans = s.chans := rfl
@[simp] theorem setCore_sent (k : Nat) (c : Core) : (setCore k c s).sent = s.sent := rfl
@[simp] theorem setCore_power (k : Nat) (c : Core) : (setCore k c s).power = s.power := rfl
@[simp] theorem setCore_bustat (k : Nat) (c : Core) : (setCore k c s).bustat = s.bustat := rfl
@[simp] theorem setCore_bufail (k : Nat) (c : Core) : (setCore k c s).bufail = s.bufail := rfl
@[simp] theorem setCore_event (k : Nat) (c : Core) : (setCore k c s).event = s.event := rfl
@[simp] theorem setCore_savebase (k : Nat) (c : Core) : (setCore k c s).savebase = s.savebase := rfl
@[simp] theorem setCore_savecnt (k : Nat) (c : Core) : (setCore k c s).savecnt = s.savecnt := rfl
@[simp] theorem setCore_wlogsz (k : Nat) (c : Core) : (setCore k c s).wlogsz = s.wlogsz := rfl
@[simp] theorem setCore_hcfg (k : Nat) (c : Core) : (setCore k c s).hcfg = s.hcfg := rfl
@[simp] theorem setCore_retTable (k : Nat) (c : Core) : (setCore k c s).retTable = s.retTable := rfl
@[simp] theorem setCore_logical (k : Nat) (c : Core) : (setCore k c s).logical = s.logical := rfl
@[simp] theorem setCore_deadCores (k : Nat) (c : Core) : (setCore k c s).deadCores = s.deadCores := rfl
@[simp] theorem setCore_deadChans (k : Nat) (c : Core) : (setCore k c s).deadChans = s.deadChans := rfl
@[simp] theorem setCore_deadLanes (k : Nat) (c : Core) : (setCore k c s).deadLanes = s.deadLanes := rfl
@[simp] theorem setCore_failCores (k : Nat) (c : Core) : (setCore k c s).failCores = s.failCores := rfl
@[simp] theorem setCore_failChans (k : Nat) (c : Core) : (setCore k c s).failChans = s.failChans := rfl
@[simp] theorem setCore_failLanes (k : Nat) (c : Core) : (setCore k c s).failLanes = s.failLanes := rfl
@[simp] theorem setCore_holds (k : Nat) (c : Core) : (setCore k c s).holds = s.holds := rfl
@[simp] theorem setCore_trip (k : Nat) (c : Core) : (setCore k c s).trip = s.trip := rfl
@[simp] theorem setCore_ballast (k : Nat) (c : Core) : (setCore k c s).ballast = s.ballast := rfl
@[simp] theorem setCore_hostRead (k : Nat) (c : Core) : (setCore k c s).hostRead = s.hostRead := rfl
@[simp] theorem setCore_cmds (k : Nat) (c : Core) : (setCore k c s).cmds = s.cmds := rfl
@[simp] theorem setCore_slots (k : Nat) (c : Core) : (setCore k c s).slots = s.slots := rfl
@[simp] theorem setCore_lent (k : Nat) (c : Core) : (setCore k c s).lent = s.lent := rfl
@[simp] theorem setCore_agenda (k : Nat) (c : Core) : (setCore k c s).agenda = s.agenda := rfl
@[simp] theorem setCore_cur (k : Nat) (c : Core) : (setCore k c s).cur = s.cur := rfl
@[simp] theorem setCore_rot (k : Nat) (c : Core) : (setCore k c s).rot = s.rot := rfl
@[simp] theorem setCore_fresh (k : Nat) (c : Core) : (setCore k c s).fresh = s.fresh := rfl
@[simp] theorem setCore_order (k : Nat) (c : Core) : (setCore k c s).order = s.order := rfl
@[simp] theorem setCore_endw (k : Nat) (c : Core) : (setCore k c s).endw = s.endw := rfl

/-! ### `updCore` -/

@[simp] theorem updCore_ctxs (k : Nat) (f : Core → Core) : (updCore k f s).ctxs = s.ctxs := rfl
@[simp] theorem updCore_cores (k : Nat) (f : Core → Core) : (updCore k f s).cores = smSet {} s.cores k (f (getCore s k)) := rfl
@[simp] theorem updCore_clusters (k : Nat) (f : Core → Core) : (updCore k f s).clusters = s.clusters := rfl
@[simp] theorem updCore_dies (k : Nat) (f : Core → Core) : (updCore k f s).dies = s.dies := rfl
@[simp] theorem updCore_mem (k : Nat) (f : Core → Core) : (updCore k f s).mem = s.mem := rfl
@[simp] theorem updCore_empties (k : Nat) (f : Core → Core) : (updCore k f s).empties = s.empties := rfl
@[simp] theorem updCore_granBad (k : Nat) (f : Core → Core) : (updCore k f s).granBad = s.granBad := rfl
@[simp] theorem updCore_lineBad (k : Nat) (f : Core → Core) : (updCore k f s).lineBad = s.lineBad := rfl
@[simp] theorem updCore_dirty (k : Nat) (f : Core → Core) : (updCore k f s).dirty = s.dirty := rfl
@[simp] theorem updCore_exch (k : Nat) (f : Core → Core) : (updCore k f s).exch = s.exch := rfl
@[simp] theorem updCore_rebuild (k : Nat) (f : Core → Core) : (updCore k f s).rebuild = s.rebuild := rfl
@[simp] theorem updCore_phase (k : Nat) (f : Core → Core) : (updCore k f s).phase = s.phase := rfl
@[simp] theorem updCore_ticks (k : Nat) (f : Core → Core) : (updCore k f s).ticks = s.ticks := rfl
@[simp] theorem updCore_bursts (k : Nat) (f : Core → Core) : (updCore k f s).bursts = s.bursts := rfl
@[simp] theorem updCore_roots (k : Nat) (f : Core → Core) : (updCore k f s).roots = s.roots := rfl
@[simp] theorem updCore_grants (k : Nat) (f : Core → Core) : (updCore k f s).grants = s.grants := rfl
@[simp] theorem updCore_recalls (k : Nat) (f : Core → Core) : (updCore k f s).recalls = s.recalls := rfl
@[simp] theorem updCore_waiting (k : Nat) (f : Core → Core) : (updCore k f s).waiting = s.waiting := rfl
@[simp] theorem updCore_launches (k : Nat) (f : Core → Core) : (updCore k f s).launches = s.launches := rfl
@[simp] theorem updCore_finals (k : Nat) (f : Core → Core) : (updCore k f s).finals = s.finals := rfl
@[simp] theorem updCore_saved (k : Nat) (f : Core → Core) : (updCore k f s).saved = s.saved := rfl
@[simp] theorem updCore_lastSeq (k : Nat) (f : Core → Core) : (updCore k f s).lastSeq = s.lastSeq := rfl
@[simp] theorem updCore_lastRef (k : Nat) (f : Core → Core) : (updCore k f s).lastRef = s.lastRef := rfl
@[simp] theorem updCore_nextSeq (k : Nat) (f : Core → Core) : (updCore k f s).nextSeq = s.nextSeq := rfl
@[simp] theorem updCore_journal (k : Nat) (f : Core → Core) : (updCore k f s).journal = s.journal := rfl
@[simp] theorem updCore_chans (k : Nat) (f : Core → Core) : (updCore k f s).chans = s.chans := rfl
@[simp] theorem updCore_sent (k : Nat) (f : Core → Core) : (updCore k f s).sent = s.sent := rfl
@[simp] theorem updCore_power (k : Nat) (f : Core → Core) : (updCore k f s).power = s.power := rfl
@[simp] theorem updCore_bustat (k : Nat) (f : Core → Core) : (updCore k f s).bustat = s.bustat := rfl
@[simp] theorem updCore_bufail (k : Nat) (f : Core → Core) : (updCore k f s).bufail = s.bufail := rfl
@[simp] theorem updCore_event (k : Nat) (f : Core → Core) : (updCore k f s).event = s.event := rfl
@[simp] theorem updCore_savebase (k : Nat) (f : Core → Core) : (updCore k f s).savebase = s.savebase := rfl
@[simp] theorem updCore_savecnt (k : Nat) (f : Core → Core) : (updCore k f s).savecnt = s.savecnt := rfl
@[simp] theorem updCore_wlogsz (k : Nat) (f : Core → Core) : (updCore k f s).wlogsz = s.wlogsz := rfl
@[simp] theorem updCore_hcfg (k : Nat) (f : Core → Core) : (updCore k f s).hcfg = s.hcfg := rfl
@[simp] theorem updCore_retTable (k : Nat) (f : Core → Core) : (updCore k f s).retTable = s.retTable := rfl
@[simp] theorem updCore_logical (k : Nat) (f : Core → Core) : (updCore k f s).logical = s.logical := rfl
@[simp] theorem updCore_deadCores (k : Nat) (f : Core → Core) : (updCore k f s).deadCores = s.deadCores := rfl
@[simp] theorem updCore_deadChans (k : Nat) (f : Core → Core) : (updCore k f s).deadChans = s.deadChans := rfl
@[simp] theorem updCore_deadLanes (k : Nat) (f : Core → Core) : (updCore k f s).deadLanes = s.deadLanes := rfl
@[simp] theorem updCore_failCores (k : Nat) (f : Core → Core) : (updCore k f s).failCores = s.failCores := rfl
@[simp] theorem updCore_failChans (k : Nat) (f : Core → Core) : (updCore k f s).failChans = s.failChans := rfl
@[simp] theorem updCore_failLanes (k : Nat) (f : Core → Core) : (updCore k f s).failLanes = s.failLanes := rfl
@[simp] theorem updCore_holds (k : Nat) (f : Core → Core) : (updCore k f s).holds = s.holds := rfl
@[simp] theorem updCore_trip (k : Nat) (f : Core → Core) : (updCore k f s).trip = s.trip := rfl
@[simp] theorem updCore_ballast (k : Nat) (f : Core → Core) : (updCore k f s).ballast = s.ballast := rfl
@[simp] theorem updCore_hostRead (k : Nat) (f : Core → Core) : (updCore k f s).hostRead = s.hostRead := rfl
@[simp] theorem updCore_cmds (k : Nat) (f : Core → Core) : (updCore k f s).cmds = s.cmds := rfl
@[simp] theorem updCore_slots (k : Nat) (f : Core → Core) : (updCore k f s).slots = s.slots := rfl
@[simp] theorem updCore_lent (k : Nat) (f : Core → Core) : (updCore k f s).lent = s.lent := rfl
@[simp] theorem updCore_agenda (k : Nat) (f : Core → Core) : (updCore k f s).agenda = s.agenda := rfl
@[simp] theorem updCore_cur (k : Nat) (f : Core → Core) : (updCore k f s).cur = s.cur := rfl
@[simp] theorem updCore_rot (k : Nat) (f : Core → Core) : (updCore k f s).rot = s.rot := rfl
@[simp] theorem updCore_fresh (k : Nat) (f : Core → Core) : (updCore k f s).fresh = s.fresh := rfl
@[simp] theorem updCore_order (k : Nat) (f : Core → Core) : (updCore k f s).order = s.order := rfl
@[simp] theorem updCore_endw (k : Nat) (f : Core → Core) : (updCore k f s).endw = s.endw := rfl

/-! ### `updCluster` -/

@[simp] theorem updCluster_ctxs (k : Nat) (f : Cluster → Cluster) : (updCluster k f s).ctxs = s.ctxs := rfl
@[simp] theorem updCluster_cores (k : Nat) (f : Cluster → Cluster) : (updCluster k f s).cores = s.cores := rfl
@[simp] theorem updCluster_clusters (k : Nat) (f : Cluster → Cluster) : (updCluster k f s).clusters = smSet {} s.clusters k (f (getCluster s k)) := rfl
@[simp] theorem updCluster_dies (k : Nat) (f : Cluster → Cluster) : (updCluster k f s).dies = s.dies := rfl
@[simp] theorem updCluster_mem (k : Nat) (f : Cluster → Cluster) : (updCluster k f s).mem = s.mem := rfl
@[simp] theorem updCluster_empties (k : Nat) (f : Cluster → Cluster) : (updCluster k f s).empties = s.empties := rfl
@[simp] theorem updCluster_granBad (k : Nat) (f : Cluster → Cluster) : (updCluster k f s).granBad = s.granBad := rfl
@[simp] theorem updCluster_lineBad (k : Nat) (f : Cluster → Cluster) : (updCluster k f s).lineBad = s.lineBad := rfl
@[simp] theorem updCluster_dirty (k : Nat) (f : Cluster → Cluster) : (updCluster k f s).dirty = s.dirty := rfl
@[simp] theorem updCluster_exch (k : Nat) (f : Cluster → Cluster) : (updCluster k f s).exch = s.exch := rfl
@[simp] theorem updCluster_rebuild (k : Nat) (f : Cluster → Cluster) : (updCluster k f s).rebuild = s.rebuild := rfl
@[simp] theorem updCluster_phase (k : Nat) (f : Cluster → Cluster) : (updCluster k f s).phase = s.phase := rfl
@[simp] theorem updCluster_ticks (k : Nat) (f : Cluster → Cluster) : (updCluster k f s).ticks = s.ticks := rfl
@[simp] theorem updCluster_bursts (k : Nat) (f : Cluster → Cluster) : (updCluster k f s).bursts = s.bursts := rfl
@[simp] theorem updCluster_roots (k : Nat) (f : Cluster → Cluster) : (updCluster k f s).roots = s.roots := rfl
@[simp] theorem updCluster_grants (k : Nat) (f : Cluster → Cluster) : (updCluster k f s).grants = s.grants := rfl
@[simp] theorem updCluster_recalls (k : Nat) (f : Cluster → Cluster) : (updCluster k f s).recalls = s.recalls := rfl
@[simp] theorem updCluster_waiting (k : Nat) (f : Cluster → Cluster) : (updCluster k f s).waiting = s.waiting := rfl
@[simp] theorem updCluster_launches (k : Nat) (f : Cluster → Cluster) : (updCluster k f s).launches = s.launches := rfl
@[simp] theorem updCluster_finals (k : Nat) (f : Cluster → Cluster) : (updCluster k f s).finals = s.finals := rfl
@[simp] theorem updCluster_saved (k : Nat) (f : Cluster → Cluster) : (updCluster k f s).saved = s.saved := rfl
@[simp] theorem updCluster_lastSeq (k : Nat) (f : Cluster → Cluster) : (updCluster k f s).lastSeq = s.lastSeq := rfl
@[simp] theorem updCluster_lastRef (k : Nat) (f : Cluster → Cluster) : (updCluster k f s).lastRef = s.lastRef := rfl
@[simp] theorem updCluster_nextSeq (k : Nat) (f : Cluster → Cluster) : (updCluster k f s).nextSeq = s.nextSeq := rfl
@[simp] theorem updCluster_journal (k : Nat) (f : Cluster → Cluster) : (updCluster k f s).journal = s.journal := rfl
@[simp] theorem updCluster_chans (k : Nat) (f : Cluster → Cluster) : (updCluster k f s).chans = s.chans := rfl
@[simp] theorem updCluster_sent (k : Nat) (f : Cluster → Cluster) : (updCluster k f s).sent = s.sent := rfl
@[simp] theorem updCluster_power (k : Nat) (f : Cluster → Cluster) : (updCluster k f s).power = s.power := rfl
@[simp] theorem updCluster_bustat (k : Nat) (f : Cluster → Cluster) : (updCluster k f s).bustat = s.bustat := rfl
@[simp] theorem updCluster_bufail (k : Nat) (f : Cluster → Cluster) : (updCluster k f s).bufail = s.bufail := rfl
@[simp] theorem updCluster_event (k : Nat) (f : Cluster → Cluster) : (updCluster k f s).event = s.event := rfl
@[simp] theorem updCluster_savebase (k : Nat) (f : Cluster → Cluster) : (updCluster k f s).savebase = s.savebase := rfl
@[simp] theorem updCluster_savecnt (k : Nat) (f : Cluster → Cluster) : (updCluster k f s).savecnt = s.savecnt := rfl
@[simp] theorem updCluster_wlogsz (k : Nat) (f : Cluster → Cluster) : (updCluster k f s).wlogsz = s.wlogsz := rfl
@[simp] theorem updCluster_hcfg (k : Nat) (f : Cluster → Cluster) : (updCluster k f s).hcfg = s.hcfg := rfl
@[simp] theorem updCluster_retTable (k : Nat) (f : Cluster → Cluster) : (updCluster k f s).retTable = s.retTable := rfl
@[simp] theorem updCluster_logical (k : Nat) (f : Cluster → Cluster) : (updCluster k f s).logical = s.logical := rfl
@[simp] theorem updCluster_deadCores (k : Nat) (f : Cluster → Cluster) : (updCluster k f s).deadCores = s.deadCores := rfl
@[simp] theorem updCluster_deadChans (k : Nat) (f : Cluster → Cluster) : (updCluster k f s).deadChans = s.deadChans := rfl
@[simp] theorem updCluster_deadLanes (k : Nat) (f : Cluster → Cluster) : (updCluster k f s).deadLanes = s.deadLanes := rfl
@[simp] theorem updCluster_failCores (k : Nat) (f : Cluster → Cluster) : (updCluster k f s).failCores = s.failCores := rfl
@[simp] theorem updCluster_failChans (k : Nat) (f : Cluster → Cluster) : (updCluster k f s).failChans = s.failChans := rfl
@[simp] theorem updCluster_failLanes (k : Nat) (f : Cluster → Cluster) : (updCluster k f s).failLanes = s.failLanes := rfl
@[simp] theorem updCluster_holds (k : Nat) (f : Cluster → Cluster) : (updCluster k f s).holds = s.holds := rfl
@[simp] theorem updCluster_trip (k : Nat) (f : Cluster → Cluster) : (updCluster k f s).trip = s.trip := rfl
@[simp] theorem updCluster_ballast (k : Nat) (f : Cluster → Cluster) : (updCluster k f s).ballast = s.ballast := rfl
@[simp] theorem updCluster_hostRead (k : Nat) (f : Cluster → Cluster) : (updCluster k f s).hostRead = s.hostRead := rfl
@[simp] theorem updCluster_cmds (k : Nat) (f : Cluster → Cluster) : (updCluster k f s).cmds = s.cmds := rfl
@[simp] theorem updCluster_slots (k : Nat) (f : Cluster → Cluster) : (updCluster k f s).slots = s.slots := rfl
@[simp] theorem updCluster_lent (k : Nat) (f : Cluster → Cluster) : (updCluster k f s).lent = s.lent := rfl
@[simp] theorem updCluster_agenda (k : Nat) (f : Cluster → Cluster) : (updCluster k f s).agenda = s.agenda := rfl
@[simp] theorem updCluster_cur (k : Nat) (f : Cluster → Cluster) : (updCluster k f s).cur = s.cur := rfl
@[simp] theorem updCluster_rot (k : Nat) (f : Cluster → Cluster) : (updCluster k f s).rot = s.rot := rfl
@[simp] theorem updCluster_fresh (k : Nat) (f : Cluster → Cluster) : (updCluster k f s).fresh = s.fresh := rfl
@[simp] theorem updCluster_order (k : Nat) (f : Cluster → Cluster) : (updCluster k f s).order = s.order := rfl
@[simp] theorem updCluster_endw (k : Nat) (f : Cluster → Cluster) : (updCluster k f s).endw = s.endw := rfl

/-! ### `updDie` -/

@[simp] theorem updDie_ctxs (d : Nat) (f : Die → Die) : (updDie d f s).ctxs = s.ctxs := rfl
@[simp] theorem updDie_cores (d : Nat) (f : Die → Die) : (updDie d f s).cores = s.cores := rfl
@[simp] theorem updDie_clusters (d : Nat) (f : Die → Die) : (updDie d f s).clusters = s.clusters := rfl
@[simp] theorem updDie_dies (d : Nat) (f : Die → Die) : (updDie d f s).dies = smSet {} s.dies d (f (getDie s d)) := rfl
@[simp] theorem updDie_mem (d : Nat) (f : Die → Die) : (updDie d f s).mem = s.mem := rfl
@[simp] theorem updDie_empties (d : Nat) (f : Die → Die) : (updDie d f s).empties = s.empties := rfl
@[simp] theorem updDie_granBad (d : Nat) (f : Die → Die) : (updDie d f s).granBad = s.granBad := rfl
@[simp] theorem updDie_lineBad (d : Nat) (f : Die → Die) : (updDie d f s).lineBad = s.lineBad := rfl
@[simp] theorem updDie_dirty (d : Nat) (f : Die → Die) : (updDie d f s).dirty = s.dirty := rfl
@[simp] theorem updDie_exch (d : Nat) (f : Die → Die) : (updDie d f s).exch = s.exch := rfl
@[simp] theorem updDie_rebuild (d : Nat) (f : Die → Die) : (updDie d f s).rebuild = s.rebuild := rfl
@[simp] theorem updDie_phase (d : Nat) (f : Die → Die) : (updDie d f s).phase = s.phase := rfl
@[simp] theorem updDie_ticks (d : Nat) (f : Die → Die) : (updDie d f s).ticks = s.ticks := rfl
@[simp] theorem updDie_bursts (d : Nat) (f : Die → Die) : (updDie d f s).bursts = s.bursts := rfl
@[simp] theorem updDie_roots (d : Nat) (f : Die → Die) : (updDie d f s).roots = s.roots := rfl
@[simp] theorem updDie_grants (d : Nat) (f : Die → Die) : (updDie d f s).grants = s.grants := rfl
@[simp] theorem updDie_recalls (d : Nat) (f : Die → Die) : (updDie d f s).recalls = s.recalls := rfl
@[simp] theorem updDie_waiting (d : Nat) (f : Die → Die) : (updDie d f s).waiting = s.waiting := rfl
@[simp] theorem updDie_launches (d : Nat) (f : Die → Die) : (updDie d f s).launches = s.launches := rfl
@[simp] theorem updDie_finals (d : Nat) (f : Die → Die) : (updDie d f s).finals = s.finals := rfl
@[simp] theorem updDie_saved (d : Nat) (f : Die → Die) : (updDie d f s).saved = s.saved := rfl
@[simp] theorem updDie_lastSeq (d : Nat) (f : Die → Die) : (updDie d f s).lastSeq = s.lastSeq := rfl
@[simp] theorem updDie_lastRef (d : Nat) (f : Die → Die) : (updDie d f s).lastRef = s.lastRef := rfl
@[simp] theorem updDie_nextSeq (d : Nat) (f : Die → Die) : (updDie d f s).nextSeq = s.nextSeq := rfl
@[simp] theorem updDie_journal (d : Nat) (f : Die → Die) : (updDie d f s).journal = s.journal := rfl
@[simp] theorem updDie_chans (d : Nat) (f : Die → Die) : (updDie d f s).chans = s.chans := rfl
@[simp] theorem updDie_sent (d : Nat) (f : Die → Die) : (updDie d f s).sent = s.sent := rfl
@[simp] theorem updDie_power (d : Nat) (f : Die → Die) : (updDie d f s).power = s.power := rfl
@[simp] theorem updDie_bustat (d : Nat) (f : Die → Die) : (updDie d f s).bustat = s.bustat := rfl
@[simp] theorem updDie_bufail (d : Nat) (f : Die → Die) : (updDie d f s).bufail = s.bufail := rfl
@[simp] theorem updDie_event (d : Nat) (f : Die → Die) : (updDie d f s).event = s.event := rfl
@[simp] theorem updDie_savebase (d : Nat) (f : Die → Die) : (updDie d f s).savebase = s.savebase := rfl
@[simp] theorem updDie_savecnt (d : Nat) (f : Die → Die) : (updDie d f s).savecnt = s.savecnt := rfl
@[simp] theorem updDie_wlogsz (d : Nat) (f : Die → Die) : (updDie d f s).wlogsz = s.wlogsz := rfl
@[simp] theorem updDie_hcfg (d : Nat) (f : Die → Die) : (updDie d f s).hcfg = s.hcfg := rfl
@[simp] theorem updDie_retTable (d : Nat) (f : Die → Die) : (updDie d f s).retTable = s.retTable := rfl
@[simp] theorem updDie_logical (d : Nat) (f : Die → Die) : (updDie d f s).logical = s.logical := rfl
@[simp] theorem updDie_deadCores (d : Nat) (f : Die → Die) : (updDie d f s).deadCores = s.deadCores := rfl
@[simp] theorem updDie_deadChans (d : Nat) (f : Die → Die) : (updDie d f s).deadChans = s.deadChans := rfl
@[simp] theorem updDie_deadLanes (d : Nat) (f : Die → Die) : (updDie d f s).deadLanes = s.deadLanes := rfl
@[simp] theorem updDie_failCores (d : Nat) (f : Die → Die) : (updDie d f s).failCores = s.failCores := rfl
@[simp] theorem updDie_failChans (d : Nat) (f : Die → Die) : (updDie d f s).failChans = s.failChans := rfl
@[simp] theorem updDie_failLanes (d : Nat) (f : Die → Die) : (updDie d f s).failLanes = s.failLanes := rfl
@[simp] theorem updDie_holds (d : Nat) (f : Die → Die) : (updDie d f s).holds = s.holds := rfl
@[simp] theorem updDie_trip (d : Nat) (f : Die → Die) : (updDie d f s).trip = s.trip := rfl
@[simp] theorem updDie_ballast (d : Nat) (f : Die → Die) : (updDie d f s).ballast = s.ballast := rfl
@[simp] theorem updDie_hostRead (d : Nat) (f : Die → Die) : (updDie d f s).hostRead = s.hostRead := rfl
@[simp] theorem updDie_cmds (d : Nat) (f : Die → Die) : (updDie d f s).cmds = s.cmds := rfl
@[simp] theorem updDie_slots (d : Nat) (f : Die → Die) : (updDie d f s).slots = s.slots := rfl
@[simp] theorem updDie_lent (d : Nat) (f : Die → Die) : (updDie d f s).lent = s.lent := rfl
@[simp] theorem updDie_agenda (d : Nat) (f : Die → Die) : (updDie d f s).agenda = s.agenda := rfl
@[simp] theorem updDie_cur (d : Nat) (f : Die → Die) : (updDie d f s).cur = s.cur := rfl
@[simp] theorem updDie_rot (d : Nat) (f : Die → Die) : (updDie d f s).rot = s.rot := rfl
@[simp] theorem updDie_fresh (d : Nat) (f : Die → Die) : (updDie d f s).fresh = s.fresh := rfl
@[simp] theorem updDie_order (d : Nat) (f : Die → Die) : (updDie d f s).order = s.order := rfl
@[simp] theorem updDie_endw (d : Nat) (f : Die → Die) : (updDie d f s).endw = s.endw := rfl

/-! ### `setMem` -/

@[simp] theorem setMem_ctxs (m : List Host.Cell) : (setMem m s).ctxs = s.ctxs := rfl
@[simp] theorem setMem_cores (m : List Host.Cell) : (setMem m s).cores = s.cores := rfl
@[simp] theorem setMem_clusters (m : List Host.Cell) : (setMem m s).clusters = s.clusters := rfl
@[simp] theorem setMem_dies (m : List Host.Cell) : (setMem m s).dies = s.dies := rfl
@[simp] theorem setMem_mem (m : List Host.Cell) : (setMem m s).mem = m := rfl
@[simp] theorem setMem_empties (m : List Host.Cell) : (setMem m s).empties = s.empties := rfl
@[simp] theorem setMem_granBad (m : List Host.Cell) : (setMem m s).granBad = s.granBad := rfl
@[simp] theorem setMem_lineBad (m : List Host.Cell) : (setMem m s).lineBad = s.lineBad := rfl
@[simp] theorem setMem_dirty (m : List Host.Cell) : (setMem m s).dirty = s.dirty := rfl
@[simp] theorem setMem_exch (m : List Host.Cell) : (setMem m s).exch = s.exch := rfl
@[simp] theorem setMem_rebuild (m : List Host.Cell) : (setMem m s).rebuild = s.rebuild := rfl
@[simp] theorem setMem_phase (m : List Host.Cell) : (setMem m s).phase = s.phase := rfl
@[simp] theorem setMem_ticks (m : List Host.Cell) : (setMem m s).ticks = s.ticks := rfl
@[simp] theorem setMem_bursts (m : List Host.Cell) : (setMem m s).bursts = s.bursts := rfl
@[simp] theorem setMem_roots (m : List Host.Cell) : (setMem m s).roots = s.roots := rfl
@[simp] theorem setMem_grants (m : List Host.Cell) : (setMem m s).grants = s.grants := rfl
@[simp] theorem setMem_recalls (m : List Host.Cell) : (setMem m s).recalls = s.recalls := rfl
@[simp] theorem setMem_waiting (m : List Host.Cell) : (setMem m s).waiting = s.waiting := rfl
@[simp] theorem setMem_launches (m : List Host.Cell) : (setMem m s).launches = s.launches := rfl
@[simp] theorem setMem_finals (m : List Host.Cell) : (setMem m s).finals = s.finals := rfl
@[simp] theorem setMem_saved (m : List Host.Cell) : (setMem m s).saved = s.saved := rfl
@[simp] theorem setMem_lastSeq (m : List Host.Cell) : (setMem m s).lastSeq = s.lastSeq := rfl
@[simp] theorem setMem_lastRef (m : List Host.Cell) : (setMem m s).lastRef = s.lastRef := rfl
@[simp] theorem setMem_nextSeq (m : List Host.Cell) : (setMem m s).nextSeq = s.nextSeq := rfl
@[simp] theorem setMem_journal (m : List Host.Cell) : (setMem m s).journal = s.journal := rfl
@[simp] theorem setMem_chans (m : List Host.Cell) : (setMem m s).chans = s.chans := rfl
@[simp] theorem setMem_sent (m : List Host.Cell) : (setMem m s).sent = s.sent := rfl
@[simp] theorem setMem_power (m : List Host.Cell) : (setMem m s).power = s.power := rfl
@[simp] theorem setMem_bustat (m : List Host.Cell) : (setMem m s).bustat = s.bustat := rfl
@[simp] theorem setMem_bufail (m : List Host.Cell) : (setMem m s).bufail = s.bufail := rfl
@[simp] theorem setMem_event (m : List Host.Cell) : (setMem m s).event = s.event := rfl
@[simp] theorem setMem_savebase (m : List Host.Cell) : (setMem m s).savebase = s.savebase := rfl
@[simp] theorem setMem_savecnt (m : List Host.Cell) : (setMem m s).savecnt = s.savecnt := rfl
@[simp] theorem setMem_wlogsz (m : List Host.Cell) : (setMem m s).wlogsz = s.wlogsz := rfl
@[simp] theorem setMem_hcfg (m : List Host.Cell) : (setMem m s).hcfg = s.hcfg := rfl
@[simp] theorem setMem_retTable (m : List Host.Cell) : (setMem m s).retTable = s.retTable := rfl
@[simp] theorem setMem_logical (m : List Host.Cell) : (setMem m s).logical = s.logical := rfl
@[simp] theorem setMem_deadCores (m : List Host.Cell) : (setMem m s).deadCores = s.deadCores := rfl
@[simp] theorem setMem_deadChans (m : List Host.Cell) : (setMem m s).deadChans = s.deadChans := rfl
@[simp] theorem setMem_deadLanes (m : List Host.Cell) : (setMem m s).deadLanes = s.deadLanes := rfl
@[simp] theorem setMem_failCores (m : List Host.Cell) : (setMem m s).failCores = s.failCores := rfl
@[simp] theorem setMem_failChans (m : List Host.Cell) : (setMem m s).failChans = s.failChans := rfl
@[simp] theorem setMem_failLanes (m : List Host.Cell) : (setMem m s).failLanes = s.failLanes := rfl
@[simp] theorem setMem_holds (m : List Host.Cell) : (setMem m s).holds = s.holds := rfl
@[simp] theorem setMem_trip (m : List Host.Cell) : (setMem m s).trip = s.trip := rfl
@[simp] theorem setMem_ballast (m : List Host.Cell) : (setMem m s).ballast = s.ballast := rfl
@[simp] theorem setMem_hostRead (m : List Host.Cell) : (setMem m s).hostRead = s.hostRead := rfl
@[simp] theorem setMem_cmds (m : List Host.Cell) : (setMem m s).cmds = s.cmds := rfl
@[simp] theorem setMem_slots (m : List Host.Cell) : (setMem m s).slots = s.slots := rfl
@[simp] theorem setMem_lent (m : List Host.Cell) : (setMem m s).lent = s.lent := rfl
@[simp] theorem setMem_agenda (m : List Host.Cell) : (setMem m s).agenda = s.agenda := rfl
@[simp] theorem setMem_cur (m : List Host.Cell) : (setMem m s).cur = s.cur := rfl
@[simp] theorem setMem_rot (m : List Host.Cell) : (setMem m s).rot = s.rot := rfl
@[simp] theorem setMem_fresh (m : List Host.Cell) : (setMem m s).fresh = s.fresh := rfl
@[simp] theorem setMem_order (m : List Host.Cell) : (setMem m s).order = s.order := rfl
@[simp] theorem setMem_endw (m : List Host.Cell) : (setMem m s).endw = s.endw := rfl

/-! ### `updLaunch` -/

@[simp] theorem updLaunch_ctxs (seq : Nat) (f : Launch → Launch) : (updLaunch seq f s).ctxs = s.ctxs := rfl
@[simp] theorem updLaunch_cores (seq : Nat) (f : Launch → Launch) : (updLaunch seq f s).cores = s.cores := rfl
@[simp] theorem updLaunch_clusters (seq : Nat) (f : Launch → Launch) : (updLaunch seq f s).clusters = s.clusters := rfl
@[simp] theorem updLaunch_dies (seq : Nat) (f : Launch → Launch) : (updLaunch seq f s).dies = s.dies := rfl
@[simp] theorem updLaunch_mem (seq : Nat) (f : Launch → Launch) : (updLaunch seq f s).mem = s.mem := rfl
@[simp] theorem updLaunch_empties (seq : Nat) (f : Launch → Launch) : (updLaunch seq f s).empties = s.empties := rfl
@[simp] theorem updLaunch_granBad (seq : Nat) (f : Launch → Launch) : (updLaunch seq f s).granBad = s.granBad := rfl
@[simp] theorem updLaunch_lineBad (seq : Nat) (f : Launch → Launch) : (updLaunch seq f s).lineBad = s.lineBad := rfl
@[simp] theorem updLaunch_dirty (seq : Nat) (f : Launch → Launch) : (updLaunch seq f s).dirty = s.dirty := rfl
@[simp] theorem updLaunch_exch (seq : Nat) (f : Launch → Launch) : (updLaunch seq f s).exch = s.exch := rfl
@[simp] theorem updLaunch_rebuild (seq : Nat) (f : Launch → Launch) : (updLaunch seq f s).rebuild = s.rebuild := rfl
@[simp] theorem updLaunch_phase (seq : Nat) (f : Launch → Launch) : (updLaunch seq f s).phase = s.phase := rfl
@[simp] theorem updLaunch_ticks (seq : Nat) (f : Launch → Launch) : (updLaunch seq f s).ticks = s.ticks := rfl
@[simp] theorem updLaunch_bursts (seq : Nat) (f : Launch → Launch) : (updLaunch seq f s).bursts = s.bursts := rfl
@[simp] theorem updLaunch_roots (seq : Nat) (f : Launch → Launch) : (updLaunch seq f s).roots = s.roots := rfl
@[simp] theorem updLaunch_grants (seq : Nat) (f : Launch → Launch) : (updLaunch seq f s).grants = s.grants := rfl
@[simp] theorem updLaunch_recalls (seq : Nat) (f : Launch → Launch) : (updLaunch seq f s).recalls = s.recalls := rfl
@[simp] theorem updLaunch_waiting (seq : Nat) (f : Launch → Launch) : (updLaunch seq f s).waiting = s.waiting := rfl
@[simp] theorem updLaunch_launches (seq : Nat) (f : Launch → Launch) : (updLaunch seq f s).launches = s.launches.map (fun l => if l.seq == seq then f l else l) := rfl
@[simp] theorem updLaunch_finals (seq : Nat) (f : Launch → Launch) : (updLaunch seq f s).finals = s.finals := rfl
@[simp] theorem updLaunch_saved (seq : Nat) (f : Launch → Launch) : (updLaunch seq f s).saved = s.saved := rfl
@[simp] theorem updLaunch_lastSeq (seq : Nat) (f : Launch → Launch) : (updLaunch seq f s).lastSeq = s.lastSeq := rfl
@[simp] theorem updLaunch_lastRef (seq : Nat) (f : Launch → Launch) : (updLaunch seq f s).lastRef = s.lastRef := rfl
@[simp] theorem updLaunch_nextSeq (seq : Nat) (f : Launch → Launch) : (updLaunch seq f s).nextSeq = s.nextSeq := rfl
@[simp] theorem updLaunch_journal (seq : Nat) (f : Launch → Launch) : (updLaunch seq f s).journal = s.journal := rfl
@[simp] theorem updLaunch_chans (seq : Nat) (f : Launch → Launch) : (updLaunch seq f s).chans = s.chans := rfl
@[simp] theorem updLaunch_sent (seq : Nat) (f : Launch → Launch) : (updLaunch seq f s).sent = s.sent := rfl
@[simp] theorem updLaunch_power (seq : Nat) (f : Launch → Launch) : (updLaunch seq f s).power = s.power := rfl
@[simp] theorem updLaunch_bustat (seq : Nat) (f : Launch → Launch) : (updLaunch seq f s).bustat = s.bustat := rfl
@[simp] theorem updLaunch_bufail (seq : Nat) (f : Launch → Launch) : (updLaunch seq f s).bufail = s.bufail := rfl
@[simp] theorem updLaunch_event (seq : Nat) (f : Launch → Launch) : (updLaunch seq f s).event = s.event := rfl
@[simp] theorem updLaunch_savebase (seq : Nat) (f : Launch → Launch) : (updLaunch seq f s).savebase = s.savebase := rfl
@[simp] theorem updLaunch_savecnt (seq : Nat) (f : Launch → Launch) : (updLaunch seq f s).savecnt = s.savecnt := rfl
@[simp] theorem updLaunch_wlogsz (seq : Nat) (f : Launch → Launch) : (updLaunch seq f s).wlogsz = s.wlogsz := rfl
@[simp] theorem updLaunch_hcfg (seq : Nat) (f : Launch → Launch) : (updLaunch seq f s).hcfg = s.hcfg := rfl
@[simp] theorem updLaunch_retTable (seq : Nat) (f : Launch → Launch) : (updLaunch seq f s).retTable = s.retTable := rfl
@[simp] theorem updLaunch_logical (seq : Nat) (f : Launch → Launch) : (updLaunch seq f s).logical = s.logical := rfl
@[simp] theorem updLaunch_deadCores (seq : Nat) (f : Launch → Launch) : (updLaunch seq f s).deadCores = s.deadCores := rfl
@[simp] theorem updLaunch_deadChans (seq : Nat) (f : Launch → Launch) : (updLaunch seq f s).deadChans = s.deadChans := rfl
@[simp] theorem updLaunch_deadLanes (seq : Nat) (f : Launch → Launch) : (updLaunch seq f s).deadLanes = s.deadLanes := rfl
@[simp] theorem updLaunch_failCores (seq : Nat) (f : Launch → Launch) : (updLaunch seq f s).failCores = s.failCores := rfl
@[simp] theorem updLaunch_failChans (seq : Nat) (f : Launch → Launch) : (updLaunch seq f s).failChans = s.failChans := rfl
@[simp] theorem updLaunch_failLanes (seq : Nat) (f : Launch → Launch) : (updLaunch seq f s).failLanes = s.failLanes := rfl
@[simp] theorem updLaunch_holds (seq : Nat) (f : Launch → Launch) : (updLaunch seq f s).holds = s.holds := rfl
@[simp] theorem updLaunch_trip (seq : Nat) (f : Launch → Launch) : (updLaunch seq f s).trip = s.trip := rfl
@[simp] theorem updLaunch_ballast (seq : Nat) (f : Launch → Launch) : (updLaunch seq f s).ballast = s.ballast := rfl
@[simp] theorem updLaunch_hostRead (seq : Nat) (f : Launch → Launch) : (updLaunch seq f s).hostRead = s.hostRead := rfl
@[simp] theorem updLaunch_cmds (seq : Nat) (f : Launch → Launch) : (updLaunch seq f s).cmds = s.cmds := rfl
@[simp] theorem updLaunch_slots (seq : Nat) (f : Launch → Launch) : (updLaunch seq f s).slots = s.slots := rfl
@[simp] theorem updLaunch_lent (seq : Nat) (f : Launch → Launch) : (updLaunch seq f s).lent = s.lent := rfl
@[simp] theorem updLaunch_agenda (seq : Nat) (f : Launch → Launch) : (updLaunch seq f s).agenda = s.agenda := rfl
@[simp] theorem updLaunch_cur (seq : Nat) (f : Launch → Launch) : (updLaunch seq f s).cur = s.cur := rfl
@[simp] theorem updLaunch_rot (seq : Nat) (f : Launch → Launch) : (updLaunch seq f s).rot = s.rot := rfl
@[simp] theorem updLaunch_fresh (seq : Nat) (f : Launch → Launch) : (updLaunch seq f s).fresh = s.fresh := rfl
@[simp] theorem updLaunch_order (seq : Nat) (f : Launch → Launch) : (updLaunch seq f s).order = s.order := rfl
@[simp] theorem updLaunch_endw (seq : Nat) (f : Launch → Launch) : (updLaunch seq f s).endw = s.endw := rfl

/-! ### Reads after writes -/

/-- The context written is read. -/
@[simp] theorem getCtx_setCtx_self (p : Nat) (c : Ctx) : getCtx (setCtx p c s) p = c := smGet_set_self ..

/-- Another context is as it was. -/
theorem getCtx_setCtx_ne {p q : Nat} (c : Ctx) (h : q ≠ p) : getCtx (setCtx p c s) q = getCtx s q := smGet_set_ne _ _ _ h

/-- The context changed is read. -/
@[simp] theorem getCtx_updCtx_self (p : Nat) (f : Ctx → Ctx) : getCtx (updCtx p f s) p = f (getCtx s p) :=
  getCtx_setCtx_self s p _

/-- Another context is as it was. -/
theorem getCtx_updCtx_ne {p q : Nat} (f : Ctx → Ctx) (h : q ≠ p) : getCtx (updCtx p f s) q = getCtx s q :=
  getCtx_setCtx_ne s _ h

/-- The core written is read. -/
@[simp] theorem getCore_setCore_self (k : Nat) (c : Core) : getCore (setCore k c s) k = c := smGet_set_self ..

/-- Another core is as it was. -/
theorem getCore_setCore_ne {j k : Nat} (c : Core) (h : j ≠ k) : getCore (setCore k c s) j = getCore s j :=
  smGet_set_ne _ _ _ h

/-- The core changed is read. -/
@[simp] theorem getCore_updCore_self (k : Nat) (f : Core → Core) : getCore (updCore k f s) k = f (getCore s k) :=
  getCore_setCore_self s k _

/-- Another core is as it was. -/
theorem getCore_updCore_ne {j k : Nat} (f : Core → Core) (h : j ≠ k) : getCore (updCore k f s) j = getCore s j :=
  getCore_setCore_ne s _ h

/-- The cluster changed is read. -/
@[simp] theorem getCluster_updCluster_self (k : Nat) (f : Cluster → Cluster) :
    getCluster (updCluster k f s) k = f (getCluster s k) := smGet_set_self ..

/-- The die changed is read. -/
@[simp] theorem getDie_updDie_self (d : Nat) (f : Die → Die) : getDie (updDie d f s) d = f (getDie s d) := smGet_set_self ..

@[simp] theorem getCore_setCtx (p : Nat) (c : Ctx) (q : Nat) : getCore (setCtx p c s) q = getCore s q := rfl
@[simp] theorem getCluster_setCtx (p : Nat) (c : Ctx) (q : Nat) : getCluster (setCtx p c s) q = getCluster s q := rfl
@[simp] theorem getDie_setCtx (p : Nat) (c : Ctx) (q : Nat) : getDie (setCtx p c s) q = getDie s q := rfl
@[simp] theorem getCore_updCtx (p : Nat) (f : Ctx → Ctx) (q : Nat) : getCore (updCtx p f s) q = getCore s q := rfl
@[simp] theorem getCluster_updCtx (p : Nat) (f : Ctx → Ctx) (q : Nat) : getCluster (updCtx p f s) q = getCluster s q := rfl
@[simp] theorem getDie_updCtx (p : Nat) (f : Ctx → Ctx) (q : Nat) : getDie (updCtx p f s) q = getDie s q := rfl
@[simp] theorem getCtx_setCore (k : Nat) (c : Core) (q : Nat) : getCtx (setCore k c s) q = getCtx s q := rfl
@[simp] theorem getCluster_setCore (k : Nat) (c : Core) (q : Nat) : getCluster (setCore k c s) q = getCluster s q := rfl
@[simp] theorem getDie_setCore (k : Nat) (c : Core) (q : Nat) : getDie (setCore k c s) q = getDie s q := rfl
@[simp] theorem getCtx_updCore (k : Nat) (f : Core → Core) (q : Nat) : getCtx (updCore k f s) q = getCtx s q := rfl
@[simp] theorem getCluster_updCore (k : Nat) (f : Core → Core) (q : Nat) : getCluster (updCore k f s) q = getCluster s q := rfl
@[simp] theorem getDie_updCore (k : Nat) (f : Core → Core) (q : Nat) : getDie (updCore k f s) q = getDie s q := rfl
@[simp] theorem getCtx_updCluster (k : Nat) (f : Cluster → Cluster) (q : Nat) : getCtx (updCluster k f s) q = getCtx s q := rfl
@[simp] theorem getCore_updCluster (k : Nat) (f : Cluster → Cluster) (q : Nat) : getCore (updCluster k f s) q = getCore s q := rfl
@[simp] theorem getDie_updCluster (k : Nat) (f : Cluster → Cluster) (q : Nat) : getDie (updCluster k f s) q = getDie s q := rfl
@[simp] theorem getCtx_updDie (d : Nat) (f : Die → Die) (q : Nat) : getCtx (updDie d f s) q = getCtx s q := rfl
@[simp] theorem getCore_updDie (d : Nat) (f : Die → Die) (q : Nat) : getCore (updDie d f s) q = getCore s q := rfl
@[simp] theorem getCluster_updDie (d : Nat) (f : Die → Die) (q : Nat) : getCluster (updDie d f s) q = getCluster s q := rfl
@[simp] theorem getCtx_setMem (m : List Host.Cell) (q : Nat) : getCtx (setMem m s) q = getCtx s q := rfl
@[simp] theorem getCore_setMem (m : List Host.Cell) (q : Nat) : getCore (setMem m s) q = getCore s q := rfl
@[simp] theorem getCluster_setMem (m : List Host.Cell) (q : Nat) : getCluster (setMem m s) q = getCluster s q := rfl
@[simp] theorem getDie_setMem (m : List Host.Cell) (q : Nat) : getDie (setMem m s) q = getDie s q := rfl
@[simp] theorem getCtx_updLaunch (seq : Nat) (f : Launch → Launch) (q : Nat) : getCtx (updLaunch seq f s) q = getCtx s q := rfl
@[simp] theorem getCore_updLaunch (seq : Nat) (f : Launch → Launch) (q : Nat) : getCore (updLaunch seq f s) q = getCore s q := rfl
@[simp] theorem getCluster_updLaunch (seq : Nat) (f : Launch → Launch) (q : Nat) : getCluster (updLaunch seq f s) q = getCluster s q := rfl
@[simp] theorem getDie_updLaunch (seq : Nat) (f : Launch → Launch) (q : Nat) : getDie (updLaunch seq f s) q = getDie s q := rfl

end Sys2Proof.Machine
end

