-- ==== Sys2Proof/Laws/Regs.lean ====
section
/-! SUPPORT. Laws of the register files: reads after writes. -/

namespace Sys2Proof.Machine

/-- A value written to a register is read back, as far as the file is wide; a fixed register keeps its value. -/
theorem filesGet_set_self (f : Files) (r : Reg) (v : Vec) (h : fixedReg r = false) : filesGet (filesSet f r v) r = fits r.file v := by
  obtain ⟨fl, n⟩ := r
  cases fl <;> simp_all [filesGet, filesSet, fits, fileWidth, fixedReg, predGet]

/-- Another register is as it was. -/
theorem filesGet_set_ne (f : Files) {r q : Reg} (v : Vec) (h : q ≠ r) : filesGet (filesSet f r v) q = filesGet f q := by
  obtain ⟨fr, n⟩ := r
  obtain ⟨fq, m⟩ := q
  by_cases hf : fq = fr
  · subst hf
    have hn : m ≠ n := fun e => h (by rw [e])
    cases fq <;> simp only [filesGet, filesSet] <;> (try split) <;> (try split) <;> simp [predGet, smGet_set_ne _ _ _ hn]
  · cases fr <;> cases fq <;> first | exact absurd rfl hf | rfl | (simp only [filesSet]; split <;> rfl)

end Sys2Proof.Machine
end

