-- ==== Sys2Proof/Laws/Landing.lean ====
section
/-! SUPPORT. What the end of a step does to its context: the due results land, and nothing else changes (R28, R36). -/

namespace Sys2Proof.Machine

/-- `t` is `s` but for the context at `p` and the core of `p`. -/
structure AtPos (p : Nat) (s t : State) : Prop where
  rest : { t with ctxs := s.ctxs, cores := s.cores } = s
  ctxs : ∀ q, q ≠ p → getCtx t q = getCtx s q
  cores : ∀ k, k ≠ coreOf p → getCore t k = getCore s k

theorem AtPos.refl (p : Nat) (s : State) : AtPos p s s := ⟨rfl, fun _ _ => rfl, fun _ _ => rfl⟩

theorem AtPos.trans {p : Nat} {s t u : State} (a : AtPos p s t) (b : AtPos p t u) : AtPos p s u where
  rest := by
    have h := congrArg (fun x : State => { x with ctxs := s.ctxs, cores := s.cores }) b.rest
    exact h.trans a.rest
  ctxs q h := (b.ctxs q h).trans (a.ctxs q h)
  cores k h := (b.cores k h).trans (a.cores k h)

theorem AtPos.updCtx (p : Nat) (f : Ctx → Ctx) (s : State) : AtPos p s (updCtx p f s) :=
  ⟨rfl, fun _ h => getCtx_updCtx_ne s f h, fun _ _ => rfl⟩

theorem AtPos.setCtx (p : Nat) (c : Ctx) (s : State) : AtPos p s (setCtx p c s) :=
  ⟨rfl, fun _ h => getCtx_setCtx_ne s c h, fun _ _ => rfl⟩

theorem AtPos.updCore (p : Nat) (f : Core → Core) (s : State) : AtPos p s (updCore (coreOf p) f s) :=
  ⟨rfl, fun _ _ => rfl, fun _ h => getCore_updCore_ne s f h⟩

/-- The memory is one of the things outside. -/
theorem AtPos.mem {p : Nat} {s t : State} (a : AtPos p s t) : t.mem = s.mem := by
  have h := congrArg State.mem a.rest
  exact h

/-! ### One result lands -/

/-- What a landing result may change in its context: the registers, their marks, and the control registers. -/
def sameButLanded (c d : Ctx) : Prop :=
  { d with
    files := c.files, regBad := c.regBad, fmt := c.fmt, scl := c.scl, wcol := c.wcol, wfb := c.wfb, age := c.age
    gpred := c.gpred, seed := c.seed } = c

theorem csrLand_atPos (p n : Nat) (v : Word) (s : State) : AtPos p s (csrLand p n v s) := by
  unfold csrLand
  split
  · exact AtPos.updCtx ..
  · exact AtPos.updCore ..
  · exact AtPos.updCtx ..
  · exact AtPos.updCtx ..
  · exact AtPos.updCtx ..
  · exact AtPos.refl ..

theorem landOne_atPos (p : Nat) (e : Landing) (s : State) : AtPos p s (landOne p e s) := by
  unfold landOne
  split
  · exact AtPos.updCtx ..
  · exact AtPos.updCtx ..
  · exact AtPos.updCtx ..
  · exact csrLand_atPos ..

theorem csrLand_ctx (p n : Nat) (v : Word) (s : State) : sameButLanded (getCtx s p) (getCtx (csrLand p n v s) p) := by
  unfold csrLand sameButLanded
  split <;> simp

theorem landOne_ctx (p : Nat) (e : Landing) (s : State) : sameButLanded (getCtx s p) (getCtx (landOne p e s) p) := by
  unfold landOne
  split
  · simp [sameButLanded, regWrite]
  · simp [sameButLanded]
  · simp [sameButLanded]
  · exact csrLand_ctx ..

/-- A control register's landing changes no register. -/
theorem csrLand_regGet (p n : Nat) (v : Word) (s : State) (r : Reg) : regGet (getCtx (csrLand p n v s) p) r = regGet (getCtx s p) r := by
  unfold csrLand
  split <;> simp [regGet]

/-- A result lands in its own register alone. -/
theorem landOne_regGet_ne (p : Nat) (e : Landing) (s : State) (r : Reg) (h : e.dest ≠ .reg r) :
    regGet (getCtx (landOne p e s) p) r = regGet (getCtx s p) r := by
  unfold landOne
  split
  · next q hq =>
    have : r ≠ q := fun x => h (by rw [hq, x])
    simp [regGet, regWrite, filesGet_set_ne _ _ this]
  · simp [regGet]
  · simp [regGet]
  · exact csrLand_regGet ..

/-- What a result leaves in its register. -/
theorem landOne_regGet_self (p : Nat) (e : Landing) (s : State) (r : Reg) (h : e.dest = .reg r) (hr : fixedReg r = false) :
    regGet (getCtx (landOne p e s) p) r = fits r.file ((regGet (getCtx s p) r &&& ~~~e.mask) ||| (e.value &&& e.mask)) := by
  simp only [landOne, h, getCtx_updCtx_self, regWrite, regGet]
  exact filesGet_set_self _ _ _ hr

/-- A result for something else than a control register leaves the core alone; so does one for another than CTL. -/
theorem landOne_core (p : Nat) (e : Landing) (s : State) (h : e.dest ≠ .csr 2) (k : Nat) : getCore (landOne p e s) k = getCore s k := by
  unfold landOne
  split
  · rfl
  · rfl
  · rfl
  · next n hn =>
    have : n ≠ 2 := fun x => h (by rw [hn, x])
    unfold csrLand
    split <;> first | rfl | (exact absurd rfl this)

/-! ### A list of results lands -/

theorem landAll_atPos (p : Nat) (es : List Landing) (s : State) : AtPos p s (es.foldl (fun t e => landOne p e t) s) := by
  induction es generalizing s with
  | nil => exact AtPos.refl ..
  | cons e es ih => exact (landOne_atPos p e s).trans (ih _)

theorem sameButLanded_refl (c : Ctx) : sameButLanded c c := rfl

theorem sameButLanded_trans {a b c : Ctx} (h : sameButLanded a b) (k : sameButLanded b c) : sameButLanded a c := by
  unfold sameButLanded at *
  rw [← h, ← k]

theorem landAll_ctx (p : Nat) (es : List Landing) (s : State) :
    sameButLanded (getCtx s p) (getCtx (es.foldl (fun t e => landOne p e t) s) p) := by
  induction es generalizing s with
  | nil => exact sameButLanded_refl _
  | cons e es ih => exact sameButLanded_trans (landOne_ctx p e s) (ih _)

/-- Something of the context and the core that no result of the list touches is as it was. -/
theorem landAll_keeps {β : Type} (p : Nat) (f : State → β) (es : List Landing) (s : State)
    (h : ∀ e ∈ es, ∀ t, f (landOne p e t) = f t) : f (es.foldl (fun t e => landOne p e t) s) = f s := by
  induction es generalizing s with
  | nil => rfl
  | cons e es ih =>
    rw [List.foldl_cons, ih _ (fun x hx => h x (List.mem_cons_of_mem _ hx)), h e (List.mem_cons_self ..)]

/-- Of the results of a list, the one for a register stands in it. -/
theorem landAll_self (p : Nat) (l1 l2 : List Landing) (e : Landing) (s : State) (r : Reg) (h : e.dest = .reg r)
    (hr : fixedReg r = false) (h1 : ∀ x ∈ l1, x.dest ≠ .reg r) (h2 : ∀ x ∈ l2, x.dest ≠ .reg r) :
    regGet (getCtx ((l1 ++ e :: l2).foldl (fun t e => landOne p e t) s) p) r =
      fits r.file ((regGet (getCtx s p) r &&& ~~~e.mask) ||| (e.value &&& e.mask)) := by
  have keep : ∀ (l : List Landing) (u : State), (∀ x ∈ l, x.dest ≠ .reg r) →
      regGet (getCtx (l.foldl (fun t e => landOne p e t) u) p) r = regGet (getCtx u p) r := fun l u hl =>
    landAll_keeps p (fun t => regGet (getCtx t p) r) l u (fun x hx v => landOne_regGet_ne p x v r (hl x hx))
  rw [List.foldl_append, List.foldl_cons, keep l2 _ h2, landOne_regGet_self p e _ r h hr, keep l1 s h1]

/-! ### The end of a step -/

/-- What a step's landing may change in its context. -/
def sameButStep (c d : Ctx) : Prop :=
  { d with
    files := c.files, regBad := c.regBad, fmt := c.fmt, scl := c.scl, wcol := c.wcol, wfb := c.wfb, age := c.age
    gpred := c.gpred, seed := c.seed, landing := c.landing } = c

theorem sameButStep_of_landed {c d : Ctx} (h : sameButLanded c d) : sameButStep c d := by
  have k := congrArg (fun x : Ctx => { x with landing := c.landing }) h
  exact k

theorem landStep_atPos (p : Nat) (s : State) : AtPos p s (landStep p s) := by
  unfold landStep
  simp only
  split
  · exact ((AtPos.setCtx ..).trans (landAll_atPos ..)).trans (AtPos.updCtx ..)
  · exact (AtPos.setCtx ..).trans (landAll_atPos ..)

/-- What a property of the context that WCOL does not enter becomes by a step's landing. -/
theorem landStep_of {β : Type} (p : Nat) (s : State) (f : Ctx → β) (hf : ∀ c b, f { c with wcol := b } = f c) :
    f (getCtx (landStep p s) p) = f (getCtx ((landStand (landDue (getCtx s p))).foldl (fun t e => landOne p e t)
      (setCtx p { getCtx s p with landing := landKeep (getCtx s p) } s)) p) := by
  unfold landStep
  simp only
  split
  · rw [getCtx_updCtx_self, hf]
  · rfl

theorem landStep_landing (p : Nat) (s : State) : (getCtx (landStep p s) p).landing = landKeep (getCtx s p) := by
  rw [landStep_of p s Ctx.landing (fun _ _ => rfl)]
  have h := congrArg Ctx.landing (landAll_ctx p (landStand (landDue (getCtx s p)))
    (setCtx p { getCtx s p with landing := landKeep (getCtx s p) } s))
  rw [getCtx_setCtx_self] at h
  exact h

theorem landStep_ctx (p : Nat) (s : State) : sameButStep (getCtx s p) (getCtx (landStep p s) p) := by
  unfold sameButStep
  have h := landAll_ctx p (landStand (landDue (getCtx s p))) (setCtx p { getCtx s p with landing := landKeep (getCtx s p) } s)
  rw [getCtx_setCtx_self] at h
  have k := landStep_of p s (fun d => { d with
    files := (getCtx s p).files, regBad := (getCtx s p).regBad, fmt := (getCtx s p).fmt, scl := (getCtx s p).scl
    wcol := (getCtx s p).wcol, wfb := (getCtx s p).wfb, age := (getCtx s p).age, gpred := (getCtx s p).gpred
    seed := (getCtx s p).seed, landing := (getCtx s p).landing }) (fun _ _ => rfl)
  rw [k]
  exact congrArg (fun d : Ctx => { d with landing := (getCtx s p).landing }) h

/-- An entry is among those that stand at the step's end only if it was due. -/
theorem mem_stand {c : Ctx} {e : Landing} (h : e ∈ landStand (landDue c)) : e ∈ c.landing ∧ e.rem ≤ 1 := by
  have h1 := (List.mem_filter.mp h).1
  have h2 := List.mem_filter.mp h1
  exact ⟨h2.1, by simpa using h2.2⟩

/-- Something of the context that no due result touches is as it was. -/
theorem landStep_keeps {β : Type} (p : Nat) (s : State) (f : Ctx → β) (hf : ∀ c b, f { c with wcol := b } = f c)
    (hl : ∀ c l, f { c with landing := l } = f c)
    (h : ∀ e ∈ (getCtx s p).landing, e.rem ≤ 1 → ∀ t, f (getCtx (landOne p e t) p) = f (getCtx t p)) :
    f (getCtx (landStep p s) p) = f (getCtx s p) := by
  rw [landStep_of p s f hf, landAll_keeps p (fun t => f (getCtx t p)) _ _ (fun e he t => h e (mem_stand he).1 (mem_stand he).2 t),
    getCtx_setCtx_self, hl]

/-- A core that no due result touches is as it was. -/
theorem landStep_core (p k : Nat) (s : State) (h : ∀ e ∈ (getCtx s p).landing, e.rem ≤ 1 → e.dest ≠ .csr 2) :
    getCore (landStep p s) k = getCore s k := by
  have a := landAll_keeps p (fun t => getCore t k) (landStand (landDue (getCtx s p)))
    (setCtx p { getCtx s p with landing := landKeep (getCtx s p) } s)
    (fun e he t => landOne_core p e t (h e (mem_stand he).1 (mem_stand he).2) k)
  unfold landStep
  simp only
  split
  · exact a
  · exact a

/-- The one due result for a register stands in it after the step. -/
theorem landStep_self (p : Nat) (s : State) (l1 l2 : List Landing) (e : Landing) (r : Reg)
    (hl : (getCtx s p).landing = l1 ++ e :: l2) (he : e.rem ≤ 1) (hd : e.dest = .reg r) (hr : fixedReg r = false)
    (h1 : ∀ x ∈ l1, x.rem ≤ 1 → x.dest ≠ .reg r) (h2 : ∀ x ∈ l2, x.rem ≤ 1 → x.dest ≠ .reg r) :
    regGet (getCtx (landStep p s) p) r = fits r.file ((regGet (getCtx s p) r &&& ~~~e.mask) ||| (e.value &&& e.mask)) := by
  have alone : ∀ o ∈ landDue (getCtx s p), loses e o = false := by
    intro o ho
    have ho1 := (List.mem_filter.mp ho).1
    have ho2 : o.rem ≤ 1 := by simpa using (List.mem_filter.mp ho).2
    rw [hl] at ho1
    unfold loses
    rcases List.mem_append.mp ho1 with hx | hx
    · have := h1 o hx ho2
      rw [hd]
      simp [Ne.symm this]
    · rcases List.mem_cons.mp hx with rfl | hx
      · simp
      · have := h2 o hx ho2
        rw [hd]
        simp [Ne.symm this]
  have due : landDue (getCtx s p) = l1.filter (fun e => e.rem ≤ 1) ++ e :: l2.filter (fun e => e.rem ≤ 1) := by
    unfold landDue
    rw [hl, List.filter_append, List.filter_cons_of_pos (by simpa using he)]
  have std : landStand (landDue (getCtx s p)) =
      (l1.filter (fun e => e.rem ≤ 1)).filter (fun e => !(landDue (getCtx s p)).any (fun o => loses e o)) ++
        e :: (l2.filter (fun e => e.rem ≤ 1)).filter (fun e => !(landDue (getCtx s p)).any (fun o => loses e o)) := by
    unfold landStand
    conv_lhs => arg 2; rw [due]
    rw [List.filter_append, List.filter_cons_of_pos]
    simpa using alone
  rw [landStep_of p s (fun c => regGet c r) (fun _ _ => rfl), std, landAll_self p _ _ e _ r hd hr, getCtx_setCtx_self]
  · rfl
  · intro x hx
    have := List.mem_filter.mp (List.mem_filter.mp hx).1
    exact h1 x this.1 (by simpa using this.2)
  · intro x hx
    have := List.mem_filter.mp (List.mem_filter.mp hx).1
    exact h2 x this.1 (by simpa using this.2)

end Sys2Proof.Machine
end

