-- ==== Sys2Proof/Laws/Issue.lean ====
section
/-! SUPPORT. What an operation that issues as a group of its own does: whether it issues, and what the step leaves. -/

namespace Sys2Proof.Machine

/-! ### The attempt -/

/-- A group of one operation has no two results on one register from different slots. -/
theorem landErr_one (c : Ctx) (o : OpSem) : landErr (settledOps c [o]) = none := by
  unfold settledOps
  rw [List.filter_singleton]
  cases !(o.slot == 15 && o.reads.any (isPending c)) <;> simp [landErr, lowest]

/-- A group of one operation whose registers agree port by port has no port error. -/
theorem portErr_one (o : OpSem) (h : ∀ a ∈ o.ports, ∀ b ∈ o.ports, a.2 = b.2 → a.1 = b.1) : portErr [o] = none := by
  have : (o.ports.map (fun q => (o.slot, q.1, q.2))).filter (fun a =>
      (o.ports.map (fun q => (o.slot, q.1, q.2))).any (fun b => a.2.2 == b.2.2 && a.2.1 != b.2.1)) = [] := by
    rw [List.filter_eq_nil_iff]
    intro a ha
    obtain ⟨x, hx, rfl⟩ := List.mem_map.mp ha
    simp only [List.any_map, List.any_eq_true, Function.comp_apply, not_exists]
    intro y hy
    simp only [Bool.and_eq_true, beq_iff_eq, bne_iff_ne, ne_eq] at hy
    exact hy.2.2 (h x hx y hy.1 hy.2.1)
  unfold portErr
  simp only [List.flatMap_cons, List.flatMap_nil, List.append_nil]
  rw [this]
  rfl

/-- The words of a group of one operation show no illegal encoding at issue. -/
theorem groupErrs_one (c : Ctx) (o : OpSem) (hp : ∀ a ∈ o.ports, ∀ b ∈ o.ports, a.2 = b.2 → a.1 = b.1)
    (hf : o.isFmt = true → (c.loops.head?.map (·.fmtBit)).getD false = false)
    (hs : o.isScl = true → (c.loops.head?.map (·.scltBit)).getD false = false)
    (hm : o.isMx = true → c.window = 0) : groupErrs c none [o] = [] := by
  have hi : issueErr c none [o] = none := by
    have : (o.isFmt && (c.loops.head?.map (·.fmtBit)).getD false || o.isScl && (c.loops.head?.map (·.scltBit)).getD false
        || o.isMx && (false || c.window != 0)) = false := by
      cases h1 : o.isFmt <;> cases h2 : o.isScl <;> cases h3 : o.isMx <;> simp_all
    unfold issueErr
    simp only
    rw [List.filter_cons_of_neg (by rw [this]; simp)]
    rfl
  simp [groupErrs, portErr_one o hp, landErr_one, hi, requestErr]

/-- What an operation must meet, beside the state of its position, to issue by itself. -/
structure OpFree (s : State) (o : OpSem) : Prop where
  ports : ∀ a ∈ o.ports, ∀ b ∈ o.ports, a.2 = b.2 → a.1 = b.1
  fmt : o.isFmt = true → ((me s).loops.head?.map (·.fmtBit)).getD false = false
  scl : o.isScl = true → ((me s).loops.head?.map (·.scltBit)).getD false = false
  mx : o.isMx = true → (me s).window = 0
  settled : o.on = true → o.isMx = true → (getCore s (coreOf s.cur)).moving = false
  cause : o.on = true → o.cause = none
  blocks : o.on = true → o.blocks = false
  reads : o.on = true → ∀ r ∈ o.reads, isPending (me s) r = false
  ilocks : o.on = true → ∀ r ∈ o.ilocks, isPending (me s) r = false
  landing : o.on = true → ∀ r ∈ o.ilocks, isLanding (me s) r = false
  res : o.on = true → ∀ x ∈ o.res, ∀ r, x.dest = .reg r → isPending (me s) r = false
  room : o.on = true → (me s).landing.length + o.res.length ≤ Config.landingEntries

theorem setCtx_setCtx (p : Nat) (c d : Ctx) (s : State) : setCtx p d (setCtx p c s) = setCtx p d s := by
  unfold setCtx
  simp only [smSet_smSet]

/-- Two changes of one context are one. -/
theorem updCtx_updCtx (p : Nat) (f g : Ctx → Ctx) (s : State) : updCtx p g (updCtx p f s) = updCtx p (fun c => g (f c)) s := by
  unfold updCtx
  rw [setCtx_setCtx, getCtx_setCtx_self]

/-- A group that issues leaves its context Ready, waits for no stack, and takes the wait of a `bar` off it. -/
def readied (s : State) : State := updCtx s.cur (fun c => { c with st := .ready, barWait := none, stalled := false }) s

/-- An operation issues by itself where its position may issue and nothing of its own holds it (R30 to R34, R279). -/
theorem issueSolo_ready (i : Instr) (o : OpSem) (s : State) (wf : i.wf = true) (turn : competes (me s) = true)
    (bar : barBlocks s s.cur = false)
    (steady : windowBlocks (me s) (getCore s (coreOf s.cur)) (s.cur % 2) = false)
    (room : (me s).landing.length ≤ Config.landingEntries) (f : OpFree s o) :
    issueSolo i o s = .next (endGroup s.cur (soloGrp (me s) i o.slot) [o] (commitWrites (runOps s.cur [o] (readied s)))) := by
  have own : [o].filterMap causeOf = [] := by
    cases h : o.on
    · simp [causeOf, h]
    · simp [causeOf, h, f.cause h]
  have pend : opPends (me s) o = false := by
    unfold opPends
    cases h : o.on
    · rfl
    · simp only [Bool.true_and, Bool.or_eq_false_iff, List.any_eq_false, Bool.not_eq_true]
      refine ⟨⟨⟨f.reads h, f.ilocks h⟩, fun x hx => ?_⟩, f.landing h⟩
      split
      · next r hr => exact f.res h x hx r hr
      · rfl
  have need : (me s).landing.length + needed [o] ≤ Config.landingEntries := by
    unfold needed
    cases h : o.on
    · simpa [h] using room
    · simpa [h] using f.room h
  have blk : groupBlocks (me s) (getCore s (coreOf s.cur)) (s.cur % 2) [o] = false := by
    unfold groupBlocks
    have b1 : (o.on && o.blocks) = false := by
      cases h : o.on
      · rfl
      · simp [f.blocks h]
    have b2 : ((getCore s (coreOf s.cur)).moving && (o.on && o.isMx)) = false := by
      cases hx : o.isMx
      · simp
      · cases ho : o.on
        · simp
        · simp [f.settled ho hx]
    simp only [List.any_cons, List.any_nil, Bool.or_false, pend, b1, b2, steady, Bool.false_or, decide_eq_false_iff_not]
    exact Nat.not_lt.mpr need
  have try_ : tryGroup s s.cur ⟨soloGrp (me s) i o.slot, 0, if i.wf then [] else [illegal o.slot], []⟩ [o]
      = .ready (soloGrp (me s) i o.slot) [o] := by
    unfold tryGroup
    have ge : groupErrs (getCtx s s.cur) (soloGrp (me s) i o.slot).op [o] = [] :=
      groupErrs_one (me s) o f.ports f.fmt f.scl f.mx
    have gc : groupCauses (getCtx s s.cur) ⟨soloGrp (me s) i o.slot, 0, if i.wf then [] else [illegal o.slot], []⟩ [o] = [] := by
      unfold groupCauses
      simp only [wf, if_true]
      rw [ge, show [o].filterMap causeOf = [] from own]
      rfl
    simp only
    rw [gc]
    simp only [firstCause, List.foldl_nil, bar, Bool.false_or]
    rw [show groupBlocks (getCtx s s.cur) (getCore s (coreOf s.cur)) (s.cur % 2) [o] = false from blk]
    rfl
  unfold issueSolo
  simp only
  rw [show competes (getCtx s s.cur) = true from turn, if_pos rfl]
  rw [show tryGroup s s.cur ⟨soloGrp (getCtx s s.cur) i o.slot, 0, if i.wf then [] else [illegal o.slot], []⟩ [o]
    = .ready (soloGrp (me s) i o.slot) [o] from try_]
  have go : passBar s.cur (settleAttempt s.cur (.ready (soloGrp (me s) i o.slot) [o]) s) = readied s := by
    unfold passBar settleAttempt readied
    exact updCtx_updCtx ..
  exact congrArg (fun z => Host.Outcome.next (endGroup s.cur (soloGrp (me s) i o.slot) [o] (commitWrites (runOps s.cur [o] z)))) go

end Sys2Proof.Machine
end

