-- ==== Sys2Proof/Laws/Finish.lean ====
section
/-! SUPPORT. What the end of a group's step leaves: the sequencer moves in its own fields, the landing in the registers. -/

namespace Sys2Proof.Machine

/-- What the sequencer may change in its context. -/
def sameButSeq (c d : Ctx) : Prop :=
  { d with
    pc := c.pc, mpc := c.mpc, loops := c.loops, lbuf := c.lbuf, lmarks := c.lmarks, exiting := c.exiting, age := c.age, gpred := c.gpred, atPoint := c.atPoint
    waitIdle := c.waitIdle, yield := c.yield, bodyWalk := c.bodyWalk, idle := c.idle, idleAddr := c.idleAddr
    idleNext := c.idleNext, windowOpen := c.windowOpen } = c

theorem sameButSeq_refl (c : Ctx) : sameButSeq c c := rfl

theorem sameButSeq_trans {a b c : Ctx} (h : sameButSeq a b) (k : sameButSeq b c) : sameButSeq a c := by
  unfold sameButSeq at *
  rw [← h, ← k]

theorem boundary_seq (e : LoopEntry) (es : List LoopEntry) (c : Ctx) : sameButSeq c (boundary e es c) := by
  unfold boundary
  simp only
  split <;> rfl

theorem flowOn_seq (a n : Word) (c : Ctx) : sameButSeq c (flowOn a n c) := by
  unfold flowOn
  split
  · rfl
  · split
    · exact boundary_seq ..
    · rfl

theorem leaveTo_seq (s : State) (p : Nat) (t : Word) (c : Ctx) : sameButSeq c (leaveTo s p t c) := by
  unfold leaveTo
  simp only
  split <;> rfl

theorem sequence_seq (s : State) (p : Nat) (g : Grp) (q : SeqAct) (c : Ctx) : sameButSeq c (sequence s p g q c) := by
  have h := flowOn_seq g.addr g.next c
  unfold sequence
  generalize flowOn g.addr g.next c = d at *
  cases q
  case jump t pops =>
    simp only
    split
    · exact leaveTo_seq ..
    · rfl
  all_goals first | rfl | exact h

theorem capture_seq (g : Grp) (c : Ctx) : sameButSeq c (capture g c) := by
  unfold capture
  split
  · split <;> rfl
  · rfl

theorem walkOn_atPos (p : Nat) (s : State) : AtPos p s (walkOn p s) := by
  unfold walkOn
  simp only
  split
  · exact AtPos.setCtx ..
  · split
    · exact AtPos.refl ..
    · split <;> exact AtPos.updCtx ..

theorem walkOn_seq (p : Nat) (s : State) : sameButSeq (getCtx s p) (getCtx (walkOn p s) p) := by
  unfold walkOn
  simp only
  split
  · rw [getCtx_setCtx_self]
    exact leaveTo_seq ..
  · split
    · rfl
    · split <;> rw [getCtx_updCtx_self] <;> rfl

theorem closeWindow_atPos (p : Nat) (s : State) : AtPos p s (closeWindow p s) := by
  unfold closeWindow
  simp only
  split
  · exact AtPos.setCtx ..
  · exact AtPos.refl ..

theorem closeWindow_seq (p : Nat) (s : State) : sameButSeq (getCtx s p) (getCtx (closeWindow p s) p) := by
  unfold closeWindow
  simp only
  split
  · rw [getCtx_setCtx_self]; rfl
  · rfl

/-- The context as a step's landing meets it: the step is counted. -/
def counted (c : Ctx) : Ctx :=
  { c with
    stepc := c.stepc + 1
    atPoint := false
    window := c.window - 1
    denials := 0
    yield := 0 }

theorem countStep_eq (p : Nat) (s : State) : countStep p s = landStep p (updCtx p counted s) := rfl

/-- The operation does not end its step in a trap. -/
def noTrap (o : OpSem) : Prop := ∀ code num, seqOf [o] ≠ .trap code num

/-- A step ends: beside the sequencer's own fields, the context is as its landing leaves it. -/
theorem finishGroup_seq (p : Nat) (g : Grp) (o : OpSem) (s : State) (h : noTrap o) (hg : g.idle = 0) (ho : g.op = none) :
    sameButSeq (getCtx (countStep p s) p) (getCtx (finishGroup p g [o] s) p) := by
  unfold finishGroup
  simp only [request, ho, hg, Nat.not_lt_zero, if_false, Option.isSome_none]
  have tr : ∀ u, afterTrap p g (seqOf [o]) u = u := by
    intro u
    unfold afterTrap
    split
    · next code num hq => exact absurd hq (h code num)
    · rfl
  rw [tr]
  refine sameButSeq_trans ?_ (closeWindow_seq ..)
  refine sameButSeq_trans ?_ (walkOn_seq ..)
  simp only [getCtx_updCtx_self]
  refine sameButSeq_trans ?_ (sequence_seq ..)
  refine sameButSeq_trans ?_ (capture_seq ..)
  generalize getCtx (countStep p s) p = d
  rfl

theorem finishGroup_atPos (p : Nat) (g : Grp) (o : OpSem) (s : State) (h : noTrap o) (hg : g.idle = 0) (ho : g.op = none) :
    AtPos p s (finishGroup p g [o] s) := by
  unfold finishGroup
  simp only [request, ho, hg, Option.isSome_none]
  have tr : ∀ u, afterTrap p g (seqOf [o]) u = u := by
    intro u
    unfold afterTrap
    split
    · next code num hq => exact absurd hq (h code num)
    · rfl
  rw [tr]
  refine AtPos.trans ?_ (closeWindow_atPos ..)
  refine AtPos.trans ?_ (walkOn_atPos ..)
  simp only [show ¬(1 < 0) by omega, if_false]
  refine AtPos.trans ?_ (AtPos.updCtx ..)
  refine AtPos.trans ?_ (AtPos.updCtx ..)
  rw [countStep_eq]
  exact (AtPos.updCtx ..).trans (landStep_atPos ..)

/-- The cores after a step: only a landing write to CTL reaches one. -/
theorem finishGroup_core (p k : Nat) (g : Grp) (o : OpSem) (s : State) (h : noTrap o) (hg : g.idle = 0) (ho : g.op = none)
    (hc : ∀ e ∈ (getCtx s p).landing, e.rem ≤ 1 → e.dest ≠ .csr 2) : getCore (finishGroup p g [o] s) k = getCore s k := by
  unfold finishGroup
  simp only [request, ho, hg, Option.isSome_none]
  have tr : ∀ u, afterTrap p g (seqOf [o]) u = u := by
    intro u
    unfold afterTrap
    split
    · next code num hq => exact absurd hq (h code num)
    · rfl
  have cw : ∀ u, getCore (closeWindow p u) k = getCore u k := by
    intro u
    unfold closeWindow
    simp only
    split <;> rfl
  have wo : ∀ u, getCore (walkOn p u) k = getCore u k := by
    intro u
    unfold walkOn
    simp only
    split
    · rfl
    · split
      · rfl
      · split <;> rfl
  rw [tr, cw, wo]
  simp only [show ¬(1 < 0) by omega, if_false, getCore_updCtx]
  rw [countStep_eq, landStep_core]
  · rfl
  · intro e he
    exact hc e (by simpa [counted] using he)

/-- A property of the context that neither the sequencer nor the count of steps enters. -/
structure Plain {β : Type} (f : Ctx → β) : Prop where
  seq : ∀ c d, sameButSeq c d → f d = f c
  wcol : ∀ c b, f { c with wcol := b } = f c
  landing : ∀ c l, f { c with landing := l } = f c
  counted : ∀ c, f (counted c) = f c

/-- Such a property, where no due result touches it, is as it was before the step. -/
theorem finishGroup_keeps {β : Type} (p : Nat) (g : Grp) (o : OpSem) (s : State) (h : noTrap o) (hg : g.idle = 0)
    (ho : g.op = none) (f : Ctx → β) (hf : Plain f)
    (due : ∀ e ∈ (getCtx s p).landing, e.rem ≤ 1 → ∀ t, f (getCtx (landOne p e t) p) = f (getCtx t p)) :
    f (getCtx (finishGroup p g [o] s) p) = f (getCtx s p) := by
  rw [hf.seq _ _ (finishGroup_seq p g o s h hg ho), countStep_eq, landStep_keeps p _ f hf.wcol hf.landing]
  · rw [getCtx_updCtx_self, hf.counted]
  · intro e he
    exact due e (by simpa [counted] using he)

/-- The landing buffer after the step. -/
theorem finishGroup_landing (p : Nat) (g : Grp) (o : OpSem) (s : State) (h : noTrap o) (hg : g.idle = 0) (ho : g.op = none) :
    (getCtx (finishGroup p g [o] s) p).landing = landKeep (getCtx s p) := by
  have a := congrArg Ctx.landing (finishGroup_seq p g o s h hg ho)
  have b : (getCtx (finishGroup p g [o] s) p).landing = (getCtx (countStep p s) p).landing := a
  rw [b, countStep_eq, landStep_landing, getCtx_updCtx_self]
  rfl

/-- The one due result for a register stands in it after the step. -/
theorem finishGroup_self (p : Nat) (g : Grp) (o : OpSem) (s : State) (h : noTrap o) (hg : g.idle = 0) (ho : g.op = none)
    (l1 l2 : List Landing) (e : Landing) (r : Reg) (hl : (getCtx s p).landing = l1 ++ e :: l2) (he : e.rem ≤ 1)
    (hd : e.dest = .reg r) (hr : fixedReg r = false) (h1 : ∀ x ∈ l1, x.rem ≤ 1 → x.dest ≠ .reg r)
    (h2 : ∀ x ∈ l2, x.rem ≤ 1 → x.dest ≠ .reg r) :
    regGet (getCtx (finishGroup p g [o] s) p) r =
      fits r.file ((regGet (getCtx s p) r &&& ~~~e.mask) ||| (e.value &&& e.mask)) := by
  have a := finishGroup_seq p g o s h hg ho
  have b : (getCtx (finishGroup p g [o] s) p).files = (getCtx (countStep p s) p).files := by
    have k := congrArg Ctx.files a
    exact k
  unfold regGet at *
  rw [b, countStep_eq]
  have c := landStep_self p (updCtx p counted s) l1 l2 e r (by rw [getCtx_updCtx_self]; exact hl) he hd hr h1 h2
  unfold regGet at c
  rw [c, getCtx_updCtx_self]
  rfl

/-! ### A step whose group has no operation of the sequencer -/

/-- What such a step may change in its context, outside every loop. -/
def sameButPc (c d : Ctx) : Prop :=
  { d with pc := c.pc, bodyWalk := c.bodyWalk, windowOpen := c.windowOpen, exiting := c.exiting } = c

/-- The same inside a loop, whose iteration may end. -/
def sameButFlow (c d : Ctx) : Prop :=
  { d with
    pc := c.pc, loops := c.loops, lbuf := c.lbuf, lmarks := c.lmarks, exiting := c.exiting, age := c.age, gpred := c.gpred
    atPoint := c.atPoint, bodyWalk := c.bodyWalk, windowOpen := c.windowOpen } = c

theorem sameButPc_trans {a b c : Ctx} (h : sameButPc a b) (k : sameButPc b c) : sameButPc a c := by
  unfold sameButPc at *
  rw [← h, ← k]

theorem sameButFlow_trans {a b c : Ctx} (h : sameButFlow a b) (k : sameButFlow b c) : sameButFlow a c := by
  unfold sameButFlow at *
  rw [← h, ← k]

theorem leaveTo_flow (s : State) (p : Nat) (t : Word) (c : Ctx) : sameButFlow c (leaveTo s p t c) := by
  unfold leaveTo
  simp only
  split <;> rfl

theorem walkOn_flow (p : Nat) (s : State) : sameButFlow (getCtx s p) (getCtx (walkOn p s) p) := by
  unfold walkOn
  simp only
  split
  · rw [getCtx_setCtx_self]
    exact leaveTo_flow ..
  · split
    · rfl
    · split <;> rw [getCtx_updCtx_self] <;> rfl

/-- Outside every loop a taken transfer pops nothing. -/
theorem leaveTo_out (s : State) (p : Nat) (t : Word) (c : Ctx) (h : c.loops = []) :
    leaveTo s p t c = { c with pc := t, exiting := false } := by
  unfold leaveTo
  simp only [h, popTo, List.length_nil, Nat.lt_irrefl, if_false, Option.isSome_none]

theorem walkOn_pc (p : Nat) (s : State) (h : (getCtx s p).loops = []) : sameButPc (getCtx s p) (getCtx (walkOn p s) p) := by
  unfold walkOn
  simp only
  split
  · rw [getCtx_setCtx_self, leaveTo_out _ _ _ _ h]
    rfl
  · split
    · rfl
    · split <;> rw [getCtx_updCtx_self] <;> rfl

theorem closeWindow_pc (p : Nat) (s : State) : sameButPc (getCtx s p) (getCtx (closeWindow p s) p) := by
  unfold closeWindow
  simp only
  split
  · rw [getCtx_setCtx_self]; rfl
  · rfl

theorem sameButFlow_of_pc {c d : Ctx} (h : sameButPc c d) : sameButFlow c d := by
  have k := congrArg (fun x : Ctx => { x with
    loops := c.loops, lbuf := c.lbuf, lmarks := c.lmarks, age := c.age, gpred := c.gpred, atPoint := c.atPoint }) h
  exact k

theorem flowOn_flow (a n : Word) (c : Ctx) : sameButFlow c (flowOn a n c) := by
  unfold flowOn
  split
  · rfl
  · split
    · unfold boundary
      simp only
      split <;> rfl
    · rfl

theorem capture_flow (g : Grp) (c : Ctx) : sameButFlow c (capture g c) := by
  unfold capture
  split
  · split <;> rfl
  · rfl

/-- The context before the sequencer's walk and window, in a step without an operation of the sequencer. -/
theorem finishGroup_flow_eq (p : Nat) (g : Grp) (o : OpSem) (s : State) (h : seqOf [o] = .flow) (hg : g.idle = 0)
    (ho : g.op = none) : ∃ b : LoopEntry → LoopEntry,
    finishGroup p g [o] s = closeWindow p (walkOn p (updCtx p (flowOn g.addr g.next)
      (updCtx p (fun c => capture g { c with loops := c.loops.map b }) (countStep p s)))) := by
  refine ⟨fun e => setBitsOf g.addr o.isFmt o.isScl false (locate (countStep p s) p g e), ?_⟩
  unfold finishGroup
  simp only [request, ho, hg, h, Option.isSome_none, afterTrap, List.any_cons, List.any_nil, Bool.or_false]
  rfl

/-- In such a step only the pc and the loops move. -/
theorem finishGroup_flow (p : Nat) (g : Grp) (o : OpSem) (s : State) (h : seqOf [o] = .flow) (hg : g.idle = 0)
    (ho : g.op = none) : sameButFlow (getCtx (countStep p s) p) (getCtx (finishGroup p g [o] s) p) := by
  obtain ⟨b, e⟩ := finishGroup_flow_eq p g o s h hg ho
  rw [e]
  refine sameButFlow_trans ?_ (sameButFlow_of_pc (closeWindow_pc ..))
  refine sameButFlow_trans ?_ (walkOn_flow ..)
  rw [getCtx_updCtx_self, getCtx_updCtx_self]
  refine sameButFlow_trans ?_ (flowOn_flow ..)
  refine sameButFlow_trans ?_ (capture_flow ..)
  generalize getCtx (countStep p s) p = d
  rfl

/-- Outside every loop only the pc moves. -/
theorem finishGroup_pc (p : Nat) (g : Grp) (o : OpSem) (s : State) (h : seqOf [o] = .flow) (hg : g.idle = 0)
    (ho : g.op = none) (hl : (getCtx (countStep p s) p).loops = []) :
    sameButPc (getCtx (countStep p s) p) (getCtx (finishGroup p g [o] s) p) := by
  obtain ⟨b, e⟩ := finishGroup_flow_eq p g o s h hg ho
  have out : ∀ d : Ctx, d.loops = [] →
      flowOn g.addr g.next (capture g { d with loops := d.loops.map b }) = { d with pc := g.next } := by
    intro d hd
    unfold capture flowOn
    simp only [hd, List.map_nil]
  rw [e]
  refine sameButPc_trans ?_ (closeWindow_pc ..)
  refine sameButPc_trans ?_ (walkOn_pc _ _ (by rw [getCtx_updCtx_self, getCtx_updCtx_self, out _ hl]; exact hl))
  rw [getCtx_updCtx_self, getCtx_updCtx_self, out _ hl]
  generalize getCtx (countStep p s) p = d
  rfl

/-- The loops are not the landing's. -/
theorem countStep_loops (p : Nat) (s : State) : (getCtx (countStep p s) p).loops = (getCtx s p).loops := by
  have h := congrArg Ctx.loops (landStep_ctx p (updCtx p counted s))
  rw [getCtx_updCtx_self] at h
  exact h

end Sys2Proof.Machine
end

