-- ==== Sys2Proof/Laws/Solo.lean ====
section
/-! SUPPORT. An operation of registers alone that issues by itself: it answers a next state, its results land, and nothing
else changes. -/

namespace Sys2Proof.Machine

/-- With no write waiting, the end of a cycle changes nothing. -/
theorem commitWrites_nil (s : State) (h : s.endw = []) : commitWrites s = s := by
  unfold commitWrites
  simp only [h, List.filter_nil, List.map_nil, List.foldl_nil]
  cases s
  simp only at h
  rw [h]

/-- The landing-buffer entry of a result. -/
def entryOf (s : State) (o : OpSem) (r : Res) : Landing := ⟨r.dest, r.value, r.mask, r.lat, o.slot, (me s).stepc, r.bad⟩

/-- The state when the operation of a group has put its results in the landing buffer. -/
def loaded (s : State) (o : OpSem) : State := addRes s.cur o (readied s)

theorem getCtx_loaded (s : State) (o : OpSem) : getCtx (loaded s o) s.cur =
    { me s with
      st := .ready
      stalled := false
      barWait := none
      landing := (me s).landing ++ o.res.map (entryOf s o)
      seed := advanceSeed o.draws (me s).seed } := by
  unfold loaded addRes readied
  rw [getCtx_updCtx_self, getCtx_updCtx_self]
  rfl

theorem loaded_atPos (s : State) (o : OpSem) : AtPos s.cur s (loaded s o) := by
  unfold loaded addRes readied
  exact (AtPos.updCtx ..).trans (AtPos.updCtx ..)

/-- A register operation's step: its results wait and the step ends. -/
theorem issueGroup_pure (i : Instr) (o : OpSem) (s : State) (on : o.on = true) (eff : o.effect = id) (clean : s.endw = []) :
    endGroup s.cur (soloGrp (me s) i o.slot) [o] (commitWrites (runOps s.cur [o] (readied s)))
      = finishGroup s.cur (soloGrp (me s) i o.slot) [o] (loaded s o) := by
  have run : runOps s.cur [o] (readied s) = loaded s o := by
    simp [runOps, on, eff, loaded]
  have cl : (loaded s o).endw = [] := by
    have h := congrArg State.endw (loaded_atPos s o).rest
    exact h.trans clean
  unfold endGroup
  rw [run, commitWrites_nil _ cl]
  rw [show (getCtx (loaded s o) s.cur).st = .ready by rw [getCtx_loaded]]
  rfl

/-- No due result for CTL: none among the operation's own either. -/
theorem loaded_due {P : Dest → Prop} (s : State) (o : OpSem) (h : ∀ e ∈ (me s).landing, e.rem ≤ 1 → P e.dest)
    (hr : ∀ r ∈ o.res, r.lat ≤ 1 → P r.dest) : ∀ e ∈ (getCtx (loaded s o) s.cur).landing, e.rem ≤ 1 → P e.dest := by
  intro e he h1
  rw [getCtx_loaded] at he
  rcases List.mem_append.mp he with hx | hx
  · exact h e hx h1
  · obtain ⟨r, hr1, rfl⟩ := List.mem_map.mp hx
    exact hr r hr1 h1

/-- Every result of the operation that is due at once goes to a register. -/
def toRegs (o : OpSem) : Prop := ∀ r ∈ o.res, r.lat ≤ 1 → ∃ q, r.dest = .reg q

theorem mem_regsOf {l : List Res} {r : Res} {q : Reg} (h : r ∈ l) (hq : r.dest = .reg q) : q ∈ regsOf l := by
  refine List.mem_filterMap.mpr ⟨r, h, ?_⟩
  rw [hq]

/-- Fields of a context that neither the sequencer nor a landing enters. -/
theorem plain_regGet (r : Reg) : Plain (fun c => regGet c r) where
  seq c d h := by
    have k := congrArg Ctx.files h
    have e : d.files = c.files := k
    simp only [regGet, e]
  wcol _ _ := rfl
  landing _ _ := rfl
  counted _ := rfl

theorem plain_fmt : Plain Ctx.fmt := ⟨fun c d h => by have k := congrArg Ctx.fmt h; exact k, fun _ _ => rfl, fun _ _ => rfl, fun _ => rfl⟩
theorem plain_scl : Plain Ctx.scl := ⟨fun c d h => by have k := congrArg Ctx.scl h; exact k, fun _ _ => rfl, fun _ _ => rfl, fun _ => rfl⟩
theorem plain_seed : Plain Ctx.seed := ⟨fun c d h => by have k := congrArg Ctx.seed h; exact k, fun _ _ => rfl, fun _ _ => rfl, fun _ => rfl⟩
theorem plain_aside : Plain aside := ⟨fun c d h => by have k := congrArg aside h; exact k, fun _ _ => rfl, fun _ _ => rfl, fun _ => rfl⟩
theorem plain_wfb : Plain Ctx.wfb := ⟨fun c d h => by have k := congrArg Ctx.wfb h; exact k, fun _ _ => rfl, fun _ _ => rfl, fun _ => rfl⟩

/-- A control register's field that only a write to register `m` reaches. -/
theorem csrLand_field {β : Type} (p n m : Nat) (v : Word) (s : State) (f : Ctx → β) (h : n ≠ m)
    (h1 : m = 1 ∨ ∀ c a b, f { c with wcol := a, wfb := b } = f c) (h3 : m = 3 ∨ ∀ c a, f { c with age := a } = f c)
    (h4 : m = 4 ∨ ∀ c a, f { c with gpred := a } = f c) (h5 : m = 5 ∨ ∀ c a, f { c with seed := a } = f c) :
    f (getCtx (csrLand p n v s) p) = f (getCtx s p) := by
  unfold csrLand
  split
  · rcases h1 with e | e
    · exact absurd e.symm h
    · rw [getCtx_updCtx_self]; exact e _ _ _
  · rfl
  · rcases h3 with e | e
    · exact absurd e.symm h
    · rw [getCtx_updCtx_self]; exact e _ _
  · rcases h4 with e | e
    · exact absurd e.symm h
    · rw [getCtx_updCtx_self]; exact e _ _
  · rcases h5 with e | e
    · exact absurd e.symm h
    · rw [getCtx_updCtx_self]; exact e _ _
  · rfl

/-- A result changes a field of its context only where it is for that field. -/
theorem landOne_field {β : Type} (p : Nat) (d : Landing) (s : State) (f : Ctx → β) (P : Dest → Prop) (hd : P d.dest)
    (hr : ∀ r, P (.reg r) → ∀ c v m b, f (regWrite c r v m b) = f c)
    (hf : P .fmt → ∀ c a, f { c with fmt := a } = f c) (hs : P .scl → ∀ c a, f { c with scl := a } = f c)
    (hc : ∀ n, P (.csr n) → ∀ t v, f (getCtx (csrLand p n v t) p) = f (getCtx t p)) :
    f (getCtx (landOne p d s) p) = f (getCtx s p) := by
  unfold landOne
  split
  · next r e => rw [getCtx_updCtx_self]; exact hr r (e ▸ hd) _ _ _ _
  · next e => rw [getCtx_updCtx_self]; exact hf (e ▸ hd) _ _
  · next e => rw [getCtx_updCtx_self]; exact hs (e ▸ hd) _ _
  · next n e => exact hc n (e ▸ hd) _ _

/-- The step is counted: what a landing does not enter is as the count leaves it. -/
theorem finishGroup_counted {β : Type} (p : Nat) (g : Grp) (o : OpSem) (s : State) (h : noTrap o) (hg : g.idle = 0) (ho : g.op = none)
    (f : Ctx → β) (h0 : ∀ c d, sameButSeq c d → f d = f c) (h1 : ∀ c b, f { c with wcol := b } = f c)
    (h2 : ∀ c l, f { c with landing := l } = f c) (h3 : ∀ (e : Landing) t, f (getCtx (landOne p e t) p) = f (getCtx t p)) :
    f (getCtx (finishGroup p g [o] s) p) = f (counted (getCtx s p)) := by
  rw [h0 _ _ (finishGroup_seq p g o s h hg ho), countStep_eq, landStep_keeps p _ f h1 h2 (fun e _ _ => h3 e), getCtx_updCtx_self]

/-- The frame of a step that takes no trap and whose operation has only results for registers, whatever the sequencer does. -/
theorem branch_frame (g : Grp) (o : OpSem) (s : State) (hg : g.idle = 0) (ho : g.op = none) (nt : noTrap o)
    (tr : toRegs o) (dr : o.draws = 0) : BranchFrame s (finishGroup s.cur g [o] (loaded s o)) (regsOf o.res) := by
  have hp := (loaded_atPos s o).trans (finishGroup_atPos s.cur g o (loaded s o) nt hg ho)
  have keep : ∀ {β : Type} (f : Ctx → β), Plain f → ∀ P : Dest → Prop, (∀ r ∈ o.res, r.lat ≤ 1 → P r.dest) →
      (∀ e : Landing, P e.dest → ∀ t, f (getCtx (landOne s.cur e t) s.cur) = f (getCtx t s.cur)) →
      (∀ e ∈ (me s).landing, e.rem ≤ 1 → P e.dest) →
      f (getCtx (finishGroup s.cur g [o] (loaded s o)) s.cur) = f (getCtx (loaded s o) s.cur) := by
    intro β f hf P h1 h2 h3
    refine finishGroup_keeps s.cur g o (loaded s o) nt hg ho f hf (fun e he h t => h2 e ?_ t)
    exact loaded_due s o h3 h1 e he h
  have isReg : ∀ d : Dest, (∀ q, d ≠ .reg q) → ∀ r ∈ o.res, r.lat ≤ 1 → r.dest ≠ d := by
    intro d hd r hr hl e
    obtain ⟨q, hq⟩ := tr r hr hl
    exact hd q (e.symm.trans hq)
  have nd : ∀ d : Dest, ¬Due s d → ∀ e ∈ (me s).landing, e.rem ≤ 1 → e.dest ≠ d := fun d h e he h1 h2 => h ⟨e, he, h1, h2⟩
  have csr : ∀ {β : Type} (f : Ctx → β), (∀ c a b, f { c with wcol := a, wfb := b } = f c) → (∀ c a, f { c with age := a } = f c) →
      (∀ c a, f { c with gpred := a } = f c) → (∀ c a, f { c with seed := a } = f c) →
      ∀ n t v, f (getCtx (csrLand s.cur n v t) s.cur) = f (getCtx t s.cur) := fun f a b c d n t v =>
    csrLand_field s.cur n (n + 1) v t f (by omega) (.inr a) (.inr b) (.inr c) (.inr d)
  refine ⟨⟨hp.rest, fun k => by rw [hp.mem], hp.ctxs, hp.cores, fun h => ?_⟩, fun r hr h => ?_,
    ⟨fun h => ?_, fun h => ?_, fun h => ?_, fun h => ?_⟩, ?_, ?_, ?_⟩
  · rw [finishGroup_core s.cur _ g o (loaded s o) nt hg ho]
    · rfl
    · exact loaded_due (P := (· ≠ .csr 2)) s o (nd _ h) (isReg _ (fun _ => Dest.noConfusion))
  · rw [keep (fun c => regGet c r) (plain_regGet r) (· ≠ .reg r)]
    · rw [getCtx_loaded]; rfl
    · intro x hx _ e
      exact hr (mem_regsOf hx e)
    · exact fun e he t => landOne_regGet_ne s.cur e t r he
    · exact nd _ h
  · rw [keep Ctx.fmt plain_fmt (· ≠ .fmt) (isReg _ (fun _ => Dest.noConfusion)) _ (nd _ h), getCtx_loaded]
    exact fun e he t => landOne_field s.cur e t Ctx.fmt (· ≠ .fmt) he (fun _ _ _ _ _ _ => rfl) (fun x => absurd rfl x) (fun _ _ _ => rfl)
      (fun n _ => csr Ctx.fmt (fun _ _ _ => rfl) (fun _ _ => rfl) (fun _ _ => rfl) (fun _ _ => rfl) n)
  · rw [keep Ctx.scl plain_scl (· ≠ .scl) (isReg _ (fun _ => Dest.noConfusion)) _ (nd _ h), getCtx_loaded]
    exact fun e he t => landOne_field s.cur e t Ctx.scl (· ≠ .scl) he (fun _ _ _ _ _ _ => rfl) (fun _ _ _ => rfl) (fun x => absurd rfl x)
      (fun n _ => csr Ctx.scl (fun _ _ _ => rfl) (fun _ _ => rfl) (fun _ _ => rfl) (fun _ _ => rfl) n)
  · rw [keep Ctx.seed plain_seed (· ≠ .csr 5) (isReg _ (fun _ => Dest.noConfusion)) _ (nd _ h), getCtx_loaded, dr]
    · rfl
    · exact fun e he t => landOne_field s.cur e t Ctx.seed (· ≠ .csr 5) he (fun _ _ _ _ _ _ => rfl) (fun _ _ _ => rfl) (fun _ _ _ => rfl)
        (fun n hn t v => csrLand_field s.cur n 5 v t Ctx.seed (fun x => hn (by rw [x])) (.inr fun _ _ _ => rfl) (.inr fun _ _ => rfl)
          (.inr fun _ _ => rfl) (.inl rfl))
  · rw [keep Ctx.wfb plain_wfb (· ≠ .csr 1) (isReg _ (fun _ => Dest.noConfusion)) _ (nd _ h), getCtx_loaded]
    exact fun e he t => landOne_field s.cur e t Ctx.wfb (· ≠ .csr 1) he (fun _ _ _ _ _ _ => rfl) (fun _ _ _ => rfl) (fun _ _ _ => rfl)
        (fun n hn t v => csrLand_field s.cur n 1 v t Ctx.wfb (fun x => hn (by rw [x])) (.inl rfl) (.inr fun _ _ => rfl)
          (.inr fun _ _ => rfl) (.inr fun _ _ => rfl))
  · unfold SameWork
    rw [keep aside plain_aside (fun _ => True) (fun _ _ _ => trivial)
      (fun e _ t => landOne_field s.cur e t aside (fun _ => True) trivial (fun _ _ _ _ _ _ => rfl) (fun _ _ _ => rfl)
        (fun _ _ _ => rfl) (fun n _ => csr aside (fun _ _ _ => rfl) (fun _ _ => rfl) (fun _ _ => rfl) (fun _ _ => rfl) n))
      (fun _ _ _ => trivial), getCtx_loaded]
    rfl
  · rw [finishGroup_counted s.cur g o (loaded s o) nt hg ho Ctx.stepc (fun c d h => by have k := congrArg Ctx.stepc h; exact k)
      (fun _ _ => rfl) (fun _ _ => rfl)
      (fun e t => landOne_field s.cur e t Ctx.stepc (fun _ => True) trivial (fun _ _ _ _ _ _ => rfl) (fun _ _ _ => rfl)
        (fun _ _ _ => rfl) (fun n _ => csr Ctx.stepc (fun _ _ _ => rfl) (fun _ _ => rfl) (fun _ _ => rfl) (fun _ _ => rfl) n)),
      getCtx_loaded]
    rfl
  · rw [finishGroup_counted s.cur g o (loaded s o) nt hg ho Ctx.denials (fun c d h => by have k := congrArg Ctx.denials h; exact k)
      (fun _ _ => rfl) (fun _ _ => rfl)
      (fun e t => landOne_field s.cur e t Ctx.denials (fun _ => True) trivial (fun _ _ _ _ _ _ => rfl) (fun _ _ _ => rfl)
        (fun _ _ _ => rfl) (fun n _ => csr Ctx.denials (fun _ _ _ => rfl) (fun _ _ => rfl) (fun _ _ => rfl) (fun _ _ => rfl) n))]
    rfl

/-- The frame of a step whose operation has only results for registers. -/
theorem pure_frame (g : Grp) (o : OpSem) (s : State) (hg : g.idle = 0) (ho : g.op = none) (fl : seqOf [o] = .flow)
    (tr : toRegs o) (dr : o.draws = 0) : RegFrame s (finishGroup s.cur g [o] (loaded s o)) (regsOf o.res) := by
  have nt : noTrap o := fun a b => by rw [fl]; exact SeqAct.noConfusion
  have isReg : ∀ d : Dest, (∀ q, d ≠ .reg q) → ∀ r ∈ o.res, r.lat ≤ 1 → r.dest ≠ d := by
    intro d hd r hr hl e
    obtain ⟨q, hq⟩ := tr r hr hl
    exact hd q (e.symm.trans hq)
  have nd : ∀ d : Dest, ¬Due s d → ∀ e ∈ (me s).landing, e.rem ≤ 1 → e.dest ≠ d := fun d h e he h1 h2 => h ⟨e, he, h1, h2⟩
  have csr : ∀ {β : Type} (f : Ctx → β), (∀ c a b, f { c with wcol := a, wfb := b } = f c) → (∀ c a, f { c with age := a } = f c) →
      (∀ c a, f { c with gpred := a } = f c) → (∀ c a, f { c with seed := a } = f c) →
      ∀ n t v, f (getCtx (csrLand s.cur n v t) s.cur) = f (getCtx t s.cur) := fun f a b c d n t v =>
    csrLand_field s.cur n (n + 1) v t f (by omega) (.inr a) (.inr b) (.inr c) (.inr d)
  have loops : (getCtx (countStep s.cur (loaded s o)) s.cur).loops = (me s).loops := by
    rw [countStep_loops, getCtx_loaded]
  have nil : ∀ {β : Type} (f : Ctx → β), (∀ c d, sameButPc c d → f d = f c) → (∀ c b, f { c with wcol := b } = f c) →
      (∀ c l, f { c with landing := l } = f c) → (∀ c, f (counted c) = f c) → (me s).loops = [] → ∀ P : Dest → Prop,
      (∀ r ∈ o.res, r.lat ≤ 1 → P r.dest) →
      (∀ e : Landing, P e.dest → ∀ t, f (getCtx (landOne s.cur e t) s.cur) = f (getCtx t s.cur)) →
      (∀ e ∈ (me s).landing, e.rem ≤ 1 → P e.dest) →
      f (getCtx (finishGroup s.cur g [o] (loaded s o)) s.cur) = f (getCtx (loaded s o) s.cur) := by
    intro β f h0 h1 h2 h3 hl P p1 p2 p3
    rw [h0 _ _ (finishGroup_pc s.cur g o (loaded s o) fl hg ho (loops.trans hl)), countStep_eq, landStep_keeps _ _ f h1 h2]
    · rw [getCtx_updCtx_self, h3]
    · intro e he
      rw [getCtx_updCtx_self] at he
      exact fun h => p2 e (loaded_due s o p3 p1 e he h)
  refine ⟨branch_frame g o s hg ho nt tr dr, ⟨?_, fun hl => ?_, fun h hl => ?_, fun h hl => ?_⟩⟩
  · have k := congrArg Ctx.mpc (finishGroup_flow s.cur g o (loaded s o) fl hg ho)
    have l : (getCtx (finishGroup s.cur g [o] (loaded s o)) s.cur).mpc = (getCtx (countStep s.cur (loaded s o)) s.cur).mpc := k
    rw [l, countStep_eq, landStep_keeps s.cur _ Ctx.mpc (fun _ _ => rfl) (fun _ _ => rfl), getCtx_updCtx_self, getCtx_loaded]
    · rfl
    · exact fun e _ _ t => landOne_field s.cur e t Ctx.mpc (fun _ => True) trivial (fun _ _ _ _ _ _ => rfl) (fun _ _ _ => rfl)
        (fun _ _ _ => rfl) (fun n _ => csr Ctx.mpc (fun _ _ _ => rfl) (fun _ _ => rfl) (fun _ _ => rfl) (fun _ _ => rfl) n)
  · have k := congrArg Ctx.loops (finishGroup_pc s.cur g o (loaded s o) fl hg ho (loops.trans hl))
    have l : (getCtx (finishGroup s.cur g [o] (loaded s o)) s.cur).loops = (getCtx (countStep s.cur (loaded s o)) s.cur).loops := k
    rw [l, loops, hl]
  · rw [nil Ctx.age (fun c d h => by have k := congrArg Ctx.age h; exact k) (fun _ _ => rfl) (fun _ _ => rfl) (fun _ => rfl) hl
      (· ≠ .csr 3) (isReg _ (fun _ => Dest.noConfusion)) _ (nd _ h), getCtx_loaded]
    exact fun e he t => landOne_field s.cur e t Ctx.age (· ≠ .csr 3) he (fun _ _ _ _ _ _ => rfl) (fun _ _ _ => rfl) (fun _ _ _ => rfl)
        (fun n hn t v => csrLand_field s.cur n 3 v t Ctx.age (fun x => hn (by rw [x])) (.inr fun _ _ _ => rfl) (.inl rfl)
          (.inr fun _ _ => rfl) (.inr fun _ _ => rfl))
  · rw [nil Ctx.gpred (fun c d h => by have k := congrArg Ctx.gpred h; exact k) (fun _ _ => rfl) (fun _ _ => rfl) (fun _ => rfl) hl
      (· ≠ .csr 4) (isReg _ (fun _ => Dest.noConfusion)) _ (nd _ h), getCtx_loaded]
    exact fun e he t => landOne_field s.cur e t Ctx.gpred (· ≠ .csr 4) he (fun _ _ _ _ _ _ => rfl) (fun _ _ _ => rfl) (fun _ _ _ => rfl)
        (fun n hn t v => csrLand_field s.cur n 4 v t Ctx.gpred (fun x => hn (by rw [x])) (.inr fun _ _ _ => rfl) (.inr fun _ _ => rfl)
          (.inl rfl) (.inr fun _ _ => rfl))

/-- The operation without its draws, which its effect on the generator stands for. -/
def drawless (o : OpSem) : OpSem := { o with draws := 0 }

theorem seqOf_drawless (o : OpSem) : seqOf [drawless o] = seqOf [o] := by
  unfold seqOf
  simp only [List.find?_cons, List.find?_nil]
  rw [show ((drawless o).on && (drawless o).seq != .flow) = (o.on && o.seq != .flow) from rfl]
  cases (o.on && o.seq != .flow) <;> rfl

theorem finishGroup_drawless (p : Nat) (g : Grp) (o : OpSem) (s : State) :
    finishGroup p g [drawless o] s = finishGroup p g [o] s := by
  unfold finishGroup
  rw [seqOf_drawless]
  rfl

/-- An operation whose effect at issue makes the state `u` answers a next state, in which its results land and beside
which nothing changes. -/
theorem solo_effect (i : Instr) (o : OpSem) (s u : State) (rs : List Reg) (n : Nat) (wf : i.wf = true) (c : CanIssue s rs n)
    (f : OpFree s o) (on : o.on = true) (fl : seqOf [o] = .flow) (tr : toRegs o) (cur : u.cur = s.cur)
    (eff : commitWrites (o.effect (addRes s.cur o (readied s))) = loaded u (drawless o)) :
    ∃ t, issueSolo i o s = .next t ∧ RegFrame u t (regsOf o.res) ∧
      (getCtx t u.cur).landing = landKeep (getCtx (loaded u (drawless o)) u.cur) ∧
      t = finishGroup u.cur (soloGrp (me s) i o.slot) [drawless o] (loaded u (drawless o)) := by
  have fl' : seqOf [drawless o] = .flow := (seqOf_drawless o).trans fl
  refine ⟨_, ?_, pure_frame (soloGrp (me s) i o.slot) (drawless o) u rfl rfl fl' tr rfl,
    finishGroup_landing _ _ _ _ (fun a b => by rw [fl']; exact SeqAct.noConfusion) rfl rfl, rfl⟩
  rw [issueSolo_ready i o s wf c.turn c.bar c.steady (Nat.le_trans (Nat.le_add_right ..) c.room) f]
  have run : runOps s.cur [o] (readied s) = o.effect (addRes s.cur o (readied s)) := by simp [runOps, on]
  unfold endGroup
  rw [run, eff, ← cur]
  rw [show (getCtx (loaded u (drawless o)) u.cur).st = .ready by rw [getCtx_loaded], finishGroup_drawless]
  rfl

/-- A result lands. -/
theorem lands_res (g : Grp) (o : OpSem) (s : State) (hg : g.idle = 0) (ho : g.op = none) (fl : seqOf [o] = .flow)
    (x : Res) (a b : List Res) (hx : o.res = a ++ x :: b) (ha : ∀ y ∈ a ++ b, y.dest ≠ x.dest) :
    Lands s (finishGroup s.cur g [o] (loaded s o)) o.slot x := by
  have nt : noTrap o := fun a b => by rw [fl]; exact SeqAct.noConfusion
  have ld : (getCtx (loaded s o) s.cur).landing = ((me s).landing ++ a.map (entryOf s o)) ++ entryOf s o x :: b.map (entryOf s o) := by
    rw [getCtx_loaded, hx]; simp
  unfold Lands
  split
  · next h =>
    intro r hd due
    split
    · next hr =>
      have k : ∀ c : Ctx, regGet c r = regGet (me s) r := by
        intro c
        obtain ⟨fl, n⟩ := r
        simp only [fixedReg, Bool.and_eq_true, Bool.or_eq_true, beq_iff_eq] at hr
        obtain ⟨h0, h1⟩ := hr
        subst h0
        rcases h1 with ((h1 | h1) | h1) | h1 <;> subst h1 <;> simp [regGet, filesGet, predGet]
      exact k _
    · next hr =>
      have ne : ∀ (y : Res), y.dest ≠ x.dest → (entryOf s o y).dest ≠ .reg r := fun y hy e => hy (e.trans hd.symm)
      rw [finishGroup_self s.cur g o (loaded s o) nt hg ho _ _ (entryOf s o x) r ld h hd (by simpa using hr)]
      · rw [getCtx_loaded]; rfl
      · intro e he h1 h2
        rcases List.mem_append.mp he with k | k
        · exact due ⟨e, k, h1, h2⟩
        · obtain ⟨y, hy, rfl⟩ := List.mem_map.mp k
          exact ne y (ha y (List.mem_append_left _ hy)) h2
      · intro e he
        obtain ⟨y, hy, rfl⟩ := List.mem_map.mp he
        exact fun _ => ne y (ha y (List.mem_append_right _ hy))
  · next h =>
    rw [finishGroup_landing s.cur g o (loaded s o) nt hg ho, landKeep, ld]
    refine List.mem_map.mpr ⟨entryOf s o x, List.mem_filter.mpr ⟨List.mem_append_right _ List.mem_cons_self, ?_⟩, ?_⟩
    · have : 1 < (entryOf s o x).rem := Nat.lt_of_not_le h
      simpa using this
    · rfl

end Sys2Proof.Machine
end

