-- ==== Sys2Proof/Laws/Complete.lean ====
section
/-! SUPPORT. When an operation of the group slots completes: `Completes` from what its meaning says of it. -/

namespace Sys2Proof.Machine

/-- The position's state as the operation's results and draws meet it. -/
theorem loaded_eq (s : State) (o : OpSem) : loaded s o = updCtx s.cur (fun c => { c with
    st := .ready
    barWait := none
    stalled := false
    landing := c.landing ++ o.res.map (fun r => ⟨r.dest, r.value, r.mask, r.lat, o.slot, c.stepc, r.bad⟩)
    seed := advanceSeed o.draws c.seed }) s := by
  unfold loaded addRes readied
  rw [updCtx_updCtx]

theorem loaded_drawn (s : State) (o : OpSem) : loaded (drawn o.draws s) (drawless o) = loaded s o := by
  rw [loaded_eq, loaded_eq]
  unfold drawn
  rw [show (updCtx s.cur (fun c => { c with seed := advanceSeed o.draws c.seed }) s).cur = s.cur from rfl, updCtx_updCtx]
  rfl

/-- An operation completes: its effect at issue makes `u`, and its results land. -/
theorem completes_effect (i : Instr) (o : OpSem) (s u : State) (rs : List Reg) (n : Nat) (ex : exec i s = issueSolo i o s)
    (wf : i.wf = true) (c : CanIssue s rs n) (f : OpFree s o) (on : o.on = true) (fl : o.seq = .flow) (tr : toRegs o)
    (cur : u.cur = s.cur) (eff : commitWrites (o.effect (loaded s o)) = loaded u (drawless o))
    (nd : (o.res.map (·.dest)).Nodup) : Completes i s u o.slot o.res := by
  have fl' : seqOf [o] = .flow := by
    unfold seqOf
    simp only [List.find?_cons, List.find?_nil]
    cases (o.on && o.seq != .flow) <;> simp [fl]
  obtain ⟨t, h, fr, _, ht⟩ := solo_effect i o s u rs n wf c f on fl' tr cur eff
  refine ⟨t, ex.trans h, fr, fun x hx => ?_⟩
  obtain ⟨a, b, hab⟩ := List.append_of_mem hx
  rw [ht]
  refine lands_res _ (drawless o) u rfl rfl ((seqOf_drawless o).trans fl') x a b hab (fun y hy e => ?_)
  rw [hab, List.map_append, List.map_cons, List.nodup_append, List.nodup_cons] at nd
  rcases List.mem_append.mp hy with k | k
  · exact nd.2.2 _ (List.mem_map_of_mem k) _ List.mem_cons_self e
  · exact nd.2.1.1 (e ▸ List.mem_map_of_mem k)

/-- An operation of registers alone completes. -/
theorem completes_draws (i : Instr) (o : OpSem) (s : State) (rs : List Reg) (n : Nat) (ex : exec i s = issueSolo i o s)
    (wf : i.wf = true) (c : CanIssue s rs n) (f : OpFree s o) (on : o.on = true) (fl : o.seq = .flow) (tr : toRegs o)
    (eff : o.effect = id) (nd : (o.res.map (·.dest)).Nodup) : Completes i s (drawn o.draws s) o.slot o.res := by
  refine completes_effect i o s _ rs n ex wf c f on fl tr rfl ?_ nd
  rw [eff, loaded_drawn, id, commitWrites_nil]
  rw [loaded_eq]
  exact c.clean

theorem completes_pure (i : Instr) (o : OpSem) (s : State) (rs : List Reg) (n : Nat) (ex : exec i s = issueSolo i o s)
    (wf : i.wf = true) (c : CanIssue s rs n) (f : OpFree s o) (on : o.on = true) (fl : o.seq = .flow) (tr : toRegs o)
    (eff : o.effect = id) (dr : o.draws = 0) (nd : (o.res.map (·.dest)).Nodup) : Completes i s s o.slot o.res := by
  refine completes_effect i o s s rs n ex wf c f on fl tr rfl ?_ nd
  rw [eff, show drawless o = o by unfold drawless; rw [← dr], id, commitWrites_nil]
  rw [loaded_eq]
  exact c.clean

/-- An operation without checks, conditions or interlocked destinations of its own, whose registers are among `rs`, with at
most `n` results. -/
structure Fits (o : OpSem) (rs : List Reg) (n : Nat) : Prop where
  on : o.on = true
  flow : o.seq = .flow
  ports : ∀ a ∈ o.ports, ∀ b ∈ o.ports, a.2 = b.2 → a.1 = b.1
  fmt : o.isFmt = false
  scl : o.isScl = false
  mx : o.isMx = false
  cause : o.cause = none
  blocks : o.blocks = false
  reads : ∀ r ∈ o.reads, r ∈ rs
  ilocks : o.ilocks = []
  res : ∀ x ∈ o.res, ∀ r, x.dest = .reg r → r ∈ rs
  room : o.res.length ≤ n
  atOnce : toRegs o
  nd : (o.res.map (·.dest)).Nodup

theorem Fits.free {o : OpSem} {rs : List Reg} {n : Nat} (f : Fits o rs n) {s : State} (c : CanIssue s rs n) : OpFree s o where
  ports := f.ports
  fmt h := absurd h (by simp [f.fmt])
  scl h := absurd h (by simp [f.scl])
  mx h := absurd h (by simp [f.mx])
  settled _ h := absurd h (by simp [f.mx])
  cause _ := f.cause
  blocks _ := f.blocks
  reads _ r h := c.free r (f.reads r h)
  ilocks _ r h := absurd h (by simp [f.ilocks])
  landing _ r h := absurd h (by simp [f.ilocks])
  res _ x h r e := c.free r (f.res x h r e)
  room _ := Nat.le_trans (Nat.add_le_add_left f.room _) c.room

theorem Fits.pure {o : OpSem} {rs : List Reg} {n : Nat} (f : Fits o rs n) {s : State} (c : CanIssue s rs n) {i : Instr}
    (ex : exec i s = issueSolo i o s) (wf : i.wf = true) (eff : o.effect = id) (dr : o.draws = 0) : Completes i s s o.slot o.res :=
  completes_pure i o s rs n ex wf c (f.free c) f.on f.flow f.atOnce eff dr f.nd

theorem Fits.draws {o : OpSem} {rs : List Reg} {n : Nat} (f : Fits o rs n) {s : State} (c : CanIssue s rs n) {i : Instr}
    (ex : exec i s = issueSolo i o s) (wf : i.wf = true) (eff : o.effect = id) : Completes i s (drawn o.draws s) o.slot o.res :=
  completes_draws i o s rs n ex wf c (f.free c) f.on f.flow f.atOnce eff f.nd

theorem Fits.effect {o : OpSem} {rs : List Reg} {n : Nat} (f : Fits o rs n) {s u : State} (c : CanIssue s rs n) {i : Instr}
    (ex : exec i s = issueSolo i o s) (wf : i.wf = true) (cur : u.cur = s.cur)
    (eff : commitWrites (o.effect (loaded s o)) = loaded u (drawless o)) : Completes i s u o.slot o.res :=
  completes_effect i o s u rs n ex wf c (f.free c) f.on f.flow f.atOnce cur eff f.nd

/-- An operation of one result. -/
def landOp (s : State) (slot : Nat) (g : BitVec 3) (rs : List Reg) (d : Reg) (v mask : Vec) (lat : Nat) (ports : List (Nat × Nat))
    (n : Nat) (cause : Option Cause) : OpSem :=
  { opLand (me s) slot g rs d v mask lat with
    ports := ports
    draws := n
    cause := cause }

theorem landOp_fits {s : State} {slot : Nat} {g : BitVec 3} {rs : List Reg} {d : Reg} {v mask : Vec} {lat : Nat}
    {ports : List (Nat × Nat)} {n : Nat} {cause : Option Cause} {all : List Reg} (on : guardOn (me s) g = true)
    (hr : ∀ r ∈ rs, r ∈ all) (hd : d ∈ all) (hp : ports.length ≤ 1) (hc : cause = none) :
    Fits (landOp s slot g rs d v mask lat ports n cause) all 1 where
  on := on
  flow := rfl
  ports a ha b hb _ := by
    have ha' : a ∈ ports := ha
    have hb' : b ∈ ports := hb
    match ports, hp, ha', hb' with
    | [x], _, h1, h2 => rw [List.mem_singleton.mp h1, List.mem_singleton.mp h2]
  fmt := rfl
  scl := rfl
  mx := rfl
  cause := hc
  blocks := rfl
  reads := hr
  ilocks := rfl
  res x hx r e := by
    rw [List.mem_singleton.mp hx] at e
    injection e with e
    exact e ▸ hd
  room := Nat.le_refl 1
  atOnce x hx _ := ⟨d, by rw [List.mem_singleton.mp hx]⟩
  nd := List.nodup_singleton _

/-- An operation of one result for a register completes. -/
theorem land_completes {i : Instr} {s : State} {slot : Nat} {g : BitVec 3} {rs : List Reg} {d : Reg} {v mask : Vec} {lat : Nat}
    (ports : List (Nat × Nat)) (cause : Option Cause) {all : List Reg} (c : CanIssue s all 1)
    (on : guardOn (me s) g = true) (ex : exec i s = issueSolo i (landOp s slot g rs d v mask lat ports 0 cause) s)
    (wf : i.wf = true) (hr : ∀ r ∈ rs, r ∈ all) (hd : d ∈ all) (hp : ports.length ≤ 1) (hc : cause = none) :
    Completes i s s slot [⟨.reg d, v, mask, lat, anyBad (me s) rs⟩] :=
  (landOp_fits on hr hd hp hc).pure c ex wf rfl rfl

/-- The same for one that draws. -/
theorem land_draws {i : Instr} {s : State} {slot : Nat} {g : BitVec 3} {rs : List Reg} {d : Reg} {v mask : Vec} {lat : Nat}
    (ports : List (Nat × Nat)) (cause : Option Cause) (n : Nat) {all : List Reg} (c : CanIssue s all 1)
    (on : guardOn (me s) g = true) (ex : exec i s = issueSolo i (landOp s slot g rs d v mask lat ports n cause) s)
    (wf : i.wf = true) (hr : ∀ r ∈ rs, r ∈ all) (hd : d ∈ all) (hp : ports.length ≤ 1) (hc : cause = none) :
    Completes i s (drawn n s) slot [⟨.reg d, v, mask, lat, anyBad (me s) rs⟩] :=
  (landOp_fits on hr hd hp hc).draws c ex wf rfl

end Sys2Proof.Machine
end

