-- ==== Sys2Proof/Laws/Slots.lean ====
section
/-! SUPPORT. The slot operations as `exec` issues them: each by its own meaning, under the guard of its word, with the registers
that its page names. -/

namespace Sys2Proof.Machine

/-- What an operation learns of its group where it is the only one: the address past it. -/
def alone (c : Ctx) (i : Instr) (k : Nat) : Pre := { next := (soloGrp c i k).next }

/-- The meaning of a slot operation, as far as its slot, its guard and the checks of its slot go. -/
structure SlotOp (s : State) (k : Nat) (g : BitVec 3) (o : OpSem) : Prop where
  slot : o.slot = k
  on : o.on = guardOn (me s) g
  fmt : o.isFmt = true → k = 14
  scl : o.isScl = true → k = 14
  mx : o.isMx = true → k = 8

/-- `exec` of a slot operation issues its meaning by itself, in its slot and under a guard. -/
theorem exec_solo (i : Instr) (s : State) (k : Nat) (h : i.slot = some k) :
    ∃ o g, semOf i s.cur (alone (me s) i k) s = some o ∧ SlotOp s k g o ∧ exec i s = issueSolo i o s := by
  cases i
  all_goals first
    | (cases h; done)
    | exact ⟨_, _, rfl, ⟨Option.some.inj h, rfl, fun e => absurd e Bool.false_ne_true, fun e => absurd e Bool.false_ne_true, fun e => absurd e Bool.false_ne_true⟩, rfl⟩
    | (cases Option.some.inj h; exact ⟨_, _, rfl, ⟨rfl, rfl, fun e => absurd e Bool.false_ne_true, fun e => absurd e Bool.false_ne_true, fun _ => rfl⟩, rfl⟩)
    | (cases Option.some.inj h; exact ⟨_, _, rfl, ⟨rfl, rfl, fun _ => rfl, fun _ => rfl, fun e => absurd e Bool.false_ne_true⟩, rfl⟩)
    | skip
  case vmov sl g d a f k t =>
    refine ⟨_, g, rfl, ⟨?_, ?_, ?_, ?_, ?_⟩, rfl⟩ <;> (unfold semVmov; simp only; split) <;>
      first | rfl | exact Option.some.inj h | nofun
  case lwt g r f a m o =>
    refine ⟨_, g, rfl, ⟨?_, ?_, ?_, ?_, ?_⟩, rfl⟩ <;> (unfold semLwt; simp only; repeat' split) <;>
      first | rfl | exact Option.some.inj h | nofun
  case loopQ g l =>
    refine ⟨_, g, rfl, ⟨?_, ?_, ?_, ?_, ?_⟩, rfl⟩ <;> (unfold semLoopQ semLoopP; simp only; split) <;>
      first | rfl | exact Option.some.inj h | nofun
  case lspQ g k l =>
    refine ⟨_, g, rfl, ⟨?_, ?_, ?_, ?_, ?_⟩, rfl⟩ <;> (unfold semLspQ semLoopP; simp only; split) <;>
      first | rfl | exact Option.some.inj h | nofun

/-- The operation's registers are among those that its meaning names. -/
structure Covers (c : Ctx) (i : Instr) (o : OpSem) : Prop where
  reads : ∀ r ∈ (operands c i).reads, r ∈ o.reads
  writes : ∀ r ∈ (operands c i).writes, ∃ x ∈ o.res, x.dest = .reg r
  locked : ∀ r ∈ (operands c i).locked, r ∈ o.ilocks

/-- A post-update writes the address register that it names. -/
theorem post_covers (c : Ctx) (a m : BitVec 4) (r : Reg) (h : r ∈ postWrites a m) :
    ∃ x ∈ postUpdate c a.toNat m.toNat, x.dest = .reg r := by
  unfold postWrites at h
  by_cases hm : m = 0
  · rw [if_pos hm] at h; cases h
  · have : m.toNat ≠ 0 := fun e => hm (BitVec.eq_of_toNat_eq e)
    simp at h
    simp [postUpdate, this, h, wordRes]

/-- The meaning of every slot operation names the operation's registers. -/
theorem operands_covered (i : Instr) (s : State) (k : Nat) (pre : Pre) (o : OpSem) (h : i.slot = some k) (ho : semOf i s.cur pre s = some o) :
    Covers (me s) i o := by
  unfold me
  cases i
  all_goals first
    | (cases h; done)
    | (cases Option.some.inj ho
       refine ⟨fun r hr => hr, fun r hr => ?_, fun r hr => hr⟩
       first
         | (cases hr; done)
         | (rw [List.mem_singleton.mp hr]; exact ⟨_, List.mem_singleton_self _, rfl⟩)
         | exact post_covers _ _ _ r hr
         | (rcases List.mem_cons.mp hr with rfl | hr
            · exact ⟨_, List.mem_cons_self, rfl⟩
            · obtain ⟨x, hx, e⟩ := post_covers (getCtx s s.cur) _ _ r hr
              exact ⟨x, List.mem_cons_of_mem _ hx, e⟩))
    | skip
  case vmov sl g d a f k t =>
    cases Option.some.inj ho
    unfold semVmov
    simp only
    have hf : (f = 3 ∨ f = 4 ∨ f = 5) ↔ fileWidth (fileOfCode f.toNat) = 64 := by clear h ho; revert f; decide
    split
    · next hw =>
      refine ⟨fun r hr => ?_, fun r hr => ?_, fun r hr => hr⟩
      · simp only [operands, hf.mpr hw, if_true] at hr
        exact hr
      · rw [List.mem_singleton.mp hr]; exact ⟨_, List.mem_singleton_self _, rfl⟩
    · next hw =>
      refine ⟨fun r hr => ?_, fun r hr => ?_, fun r hr => hr⟩
      · simp only [operands, mt hf.mp hw, if_false] at hr
        exact hr
      · rw [List.mem_singleton.mp hr]; exact ⟨_, List.mem_singleton_self _, rfl⟩
  case amod g d r q e =>
    cases Option.some.inj ho
    refine ⟨fun r hr => hr, fun r hr => ?_, fun r hr => hr⟩
    have hd : (d = 0) ↔ wReg d.toNat = ⟨.w, 0⟩ := by clear h ho hr; revert d; decide
    simp only [operands, axWrites, axReg, true_and, if_true] at hr
    split at hr
    · simp at hr
    · next h0 =>
      rw [List.mem_singleton.mp hr]
      simp only [semAmod, axOp, mt hd.mpr h0, if_false]
      exact ⟨_, List.mem_singleton_self _, rfl⟩
  case amov g d a sf w =>
    cases Option.some.inj ho
    refine ⟨fun r hr => hr, fun r hr => ?_, fun r hr => hr⟩
    have hd : (w = 1 ∧ d = 0) ↔ axReg d w = ⟨.w, 0⟩ := by clear h ho hr; revert d w; decide
    simp only [operands, axWrites] at hr
    split at hr
    · simp at hr
    · next h0 =>
      rw [List.mem_singleton.mp hr]
      simp only [semAmov, axOp, mt hd.mpr h0, if_false]
      exact ⟨_, List.mem_singleton_self _, rfl⟩
  case smx g r rp u up b m l o t =>
    cases Option.some.inj ho
    refine ⟨fun r hr => ?_, nofun, fun r hr => hr⟩
    simp only [operands, smxReads] at hr
    simp only [semSmx, smxBRows, smxSecond, mopBase, mxBase]
    have hb : b.toNat = 2 ↔ b = 2 := ⟨fun e => BitVec.eq_of_toNat_eq e, fun e => by rw [e]; rfl⟩
    simpa [commons, hb, and_assoc] using hr
  case gam g r f a m sc o n =>
    cases Option.some.inj ho
    refine ⟨fun r hr => ?_, fun r hr => post_covers _ _ _ r hr, fun r hr => hr⟩
    simp only [operands, fileReg] at hr
    simp only [semGam, semWrite, gmBase]
    split at hr <;> split <;> simp_all
  case lwt g r f a m o =>
    cases Option.some.inj ho
    simp only [semLwt]
    repeat' split
    all_goals exact ⟨fun r hr => hr, fun r hr => post_covers _ _ _ r hr, fun r hr => hr⟩
  case gcb g a m t =>
    cases Option.some.inj ho
    by_cases ht : t = 1
    · subst ht; exact ⟨nofun, nofun, nofun⟩
    · have e : operands (getCtx s s.cur) (.gcb g a m t) = { reads := memReads a.toNat m.toNat, writes := postWrites a m } := if_neg ht
      have q : (semGcb g a m t s.cur s).reads = memReads a.toNat m.toNat := if_neg ht
      refine ⟨fun r hr => ?_, fun r hr => ?_, fun r hr => ?_⟩ <;> rw [e] at hr
      exacts [q ▸ hr, post_covers _ _ _ r hr, hr]
  case br g r q o =>
    cases Option.some.inj ho
    refine ⟨fun x hx => ?_, nofun, fun r hr => hr⟩
    simpa [semBr, condBase, hasCond, operands, condReads, commons, imp_iff_not_or] using hx
  case ret g r q =>
    cases Option.some.inj ho
    refine ⟨fun x hx => ?_, nofun, fun r hr => hr⟩
    simpa [semRet, condBase, hasCond, operands, condReads, commons, imp_iff_not_or] using hx
  case call g r q o =>
    cases Option.some.inj ho
    refine ⟨fun x hx => ?_, fun x hx => ?_, fun r hr => hr⟩
    · simpa [semCall, condBase, hasCond, operands, condReads, commons, imp_iff_not_or] using hx
    · simp only [operands] at hx
      split at hx
      · next hc =>
        rw [List.mem_singleton.mp hx]
        simp only [semCall, show condOn (getCtx s s.cur) r q = true from hc, if_true]
        exact ⟨_, List.mem_singleton_self _, rfl⟩
      · simp at hx
  case loopQ g l => exact ⟨nofun, nofun, nofun⟩
  case lspQ g k l => exact ⟨nofun, nofun, nofun⟩
end Sys2Proof.Machine
end

