-- ==== Sys2Proof/Tests/Slice0.lean ====
section
/-! SUPPORT. Tests: ill-formed terms that are refused, words written out from the spec, and states that meet the hypotheses
of each statement. -/

open Sys2Proof Sys2Proof.Machine

set_option maxRecDepth 100000
set_option Elab.async false

/-! ### Well-formedness: a term that each check refuses -/

theorem test_wf_scalar : (Instr.bfx .sa 0 0 0 65 0).wf = false ∧ (Instr.bfi .sb 0 0 0 127 0).wf = false ∧
    (Instr.cpy .sa 0 0 0 2).wf = false ∧ (Instr.cpy .sa 0 0 0 6).wf = false ∧ (Instr.cpyCommon .sa 0 0 0 0 5).wf = false ∧
    (Instr.bfx .sa 0 0 0 64 63).wf = true ∧ (Instr.cpyCommon .sa 0 0 0 0 4).wf = true := by decide

theorem test_wf_vector_types :
    (∀ i ∈ ([.vadd .va 0 0 0 0 0 8, .vsub .va 0 0 0 0 0 9, .vmul .va 0 0 0 0 0 13, .vmad .va 0 0 0 0 0 14, .vmin .va 0 0 0 0 0 15,
      .vmax .va 0 0 0 0 0 8, .vabs .va 0 0 0 0 13, .vand .va 0 0 0 0 0 15, .vor .va 0 0 0 0 0 15, .vxor .va 0 0 0 0 0 15,
      .vshl .va 0 0 0 0 0 8, .vshr .va 0 0 0 0 0 10, .vsel .va 0 0 0 0 0 15, .vcnt .va 0 0 0 15, .vpop .va 0 0 0 0 15,
      .vbcast .va 0 0 0 0 0 15, .vhist .va 0 0 0 0 0, .vhist .va 0 0 0 0 2, .vtopk .va 0 0 0 0 0 13] : List Instr), i.wf = false) := by
  decide

theorem test_wf_vector_fields :
    (∀ i ∈ ([.vcmp .va 0 0 0 0 7 0 0, .vcmp .va 0 0 0 0 0 0 13, .vred .va 0 0 0 6 0 0, .vred .va 0 0 0 0 0 8, .vscan .va 0 0 0 6 0 0,
      .vscan .va 0 0 0 0 0 9, .vcvt .va 0 0 0 0 0 13, .vcvt .va 0 0 0 0 0 15, .vcvt .va 0 0 0 15 0 0, .vmov .va 0 0 0 8 0 0,
      .vmov .va 0 8 0 6 0 0, .vmov .va 0 0 0 0 0 15, .vkop .va 0 0 0 0 6, .vkop .va 0 0 0 1 4] : List Instr), i.wf = false) ∧
    (Instr.vcvt .va 0 0 0 13 0 10).wf = true ∧ (Instr.vkop .va 0 0 0 0 5).wf = true := by decide

theorem test_wf_fixed_slots :
    (∀ i ∈ ([.frcp 0 0 0 0, .frsq 0 0 0 13, .fexp2 0 0 0 9, .flog2 0 0 0 15, .ftanh 0 0 0 8, .fsig 0 0 0 7, .fmov 0 0 0 3,
      .pack 0 0 0 0 0 1, .packAuto 0 0 0 10, .unpk 0 0 0 15, .shuf 0 0 0 0 15, .trns 0 0 0 0 15, .ilv 0 0 0 0 15, .dil 0 0 0 0 15,
      .pscl 0 0 0 0 0 8, .pmov 0 0 0 5, .amod 0 0 0 0 3] : List Instr), i.wf = false) := by decide

theorem test_wf_matrix_and_memory :
    (∀ i ∈ ([.cim 0 0 0 0 0 2 0 0 0 0, .smx 0 0 0 0 0 3 0 0 0 0, .acz 0 0 0 3, .drn 0 0 0 3 0, .ld .la 0 0 3 0 0 0 0,
      .ld .la 0 8 7 0 0 0 0, .st .la 0 0 4 0 0, .st .lb 0 9 6 0 0, .lds .la 0 8 6 0 0 0 0, .sts .la 0 0 0 0 0 1, .sts .la 0 8 7 0 0 0,
      .stq .la 0 8 0 0, .park .la 0 0 0 1 0, .park .la 0 15 6 0 0, .unpark .la 0 8 7 0] : List Instr), i.wf = false) := by decide

theorem test_wf_global :
    (∀ i ∈ ([.gld 0 0 0 0 0 6 0 0, .gld 0 0 0 0 0 0 2 0, .gld 0 0 0 0 0 0 0 3, .gld 0 0 3 0 0 0 0 1, .gld 0 8 6 0 0 0 0 0,
      .gst 0 0 0 0 0 6 0 0, .gst 0 0 0 0 0 0 1 0, .gst 0 0 0 0 0 0 0 3, .gst 0 0 5 0 0 0 0 0, .gst 0 0 4 0 0 0 0 2,
      .gst 0 8 7 0 0 0 0 0, .gam 0 0 0 0 0 0 0 0, .gam 0 0 3 0 0 0 0 7, .gam 0 0 3 0 0 6 0 0, .gam 0 1 3 0 0 0 0 6,
      .ljn 0 0 5 0 0, .lwt 0 0 5 0 0 0, .lwt 0 0 0 0 0 2, .gpf 0 0 0 2, .gcb 0 0 0 3, .gcb 0 1 0 1, .gcb 0 0 2 1] : List Instr), i.wf = false) := by decide

theorem test_wf_control :
    (∀ i ∈ ([.fmtImm 0 1, .fmtImm 0 0x10, .fmtImm 0 0x100, .fmtImm 0 0x3000, .fence 0 3 0, .fence 0 0 6, .fenceX 0 6 3,
      .fenceX 0 0 8, .wait 0 4, .skip 0 0 1] : List Instr), i.wf = false) ∧ (Instr.fmtImm 0 0x2A88).wf = true ∧
      (Instr.skip 255 1 7).wf = true := by decide

/-! ### Words written out from the spec's tables and listings -/

/-- The listing of 04_registers_assembly.md, and of 07, 09, 12, 15 and 17; `lih` and `bfx` from Table 3-5. -/
theorem test_decode_scalar :
    decodeSlot 0 0x54080000 1 = .ok (.li .sa 0 2 1) ∧ decodeSlot 0 0x54040000 0x6000 = .ok (.li .sa 0 1 0x6000) ∧
    decodeSlot 0 0x00042200 0 = .ok (.add .sa 0 1 1 2) ∧ decodeSlot 0 0x04084001 0 = .ok (.addImm .sa 0 2 2 1) ∧
    decodeSlot 0 0x6C142005 0 = .ok (.cpy .sa 0 5 1 5) ∧ decodeSlot 0 0x3418C086 0 = .ok (.shlImm .sa 0 6 6 6) ∧
    decodeSlot 1 0x30184080 0 = .ok (.xorImm .sb 0 6 2 128) ∧ decodeSlot 1 0x58840000 0x80000000 = .ok (.lih .sb 1 1 0x80000000) := by
  decide

/-- The listings of 07, 09, 12 and 17. -/
theorem test_decode_vector :
    decodeSlot 2 0x0C091817 0 = .ok (.vmad .va 0 1 2 3 1 7) ∧ decodeSlot 2 0x20189000 0 = .ok (.vor .va 0 3 1 2 0 0) ∧
    decodeSlot 2 0x5C200000 0 = .ok (.vpop .va 0 4 0 0 0) ∧ decodeSlot 2 0x38108004 0 = .ok (.vred .va 0 2 1 0 0 4) ∧
    decodeSlot 2 0x3435E043 0 = .ok (.vsel .va 0 6 11 12 4 3) ∧ decodeSlot 2 0x3022280A 0 = .ok (.vcmp .va 0 4 4 5 0 0 10) ∧
    decodeSlot 2 0x40730003 0 = .ok (.vhist .va 0 14 6 0 3) ∧ decodeSlot 2 0x3C7E8003 0 = .ok (.vscan .va 0 15 13 0 0 3) ∧
    decodeSlot 3 0x30092181 0 = .ok (.vcmp .vb 0 1 2 4 3 0 1) ∧ decodeSlot 3 0x4C28C002 0 = .ok (.vbcast .vb 0 5 3 0 0 2) := by
  decide

/-- The instruction pages, and the listings of 07 and 12. -/
theorem test_decode_fixed_slots :
    decodeSlot 5 0x00143000 0 = .ok (.frcp 0 1 2 12) ∧ decodeSlot 6 0x0822CA00 0 = .ok (.rmrg 0 2 1 3 5 0) ∧
    decodeSlot 7 0x08080280 0 = .ok (.amod 0 1 10 0 0) ∧ decodeSlot 7 0x00080000 0 = .ok (.aset 0 1 0 0) := by decide

/-- Table 8-7 and the listing of 09. -/
theorem test_decode_matrix :
    decodeSlot 8 0x00102A82 0 = .ok (.cim 0 4 0 5 1 1 0 0 1 0) ∧ decodeSlot 8 0x04103301 0 = .ok (.smx 0 4 0 6 1 2 0 0 0 1) ∧
    decodeSlot 8 0x08100100 0 = .ok (.acz 0 4 0 2) ∧ decodeSlot 8 0x0C100130 0 = .ok (.drn 0 4 0 2 3) ∧
    decodeSlot 8 0x10002801 0 = .ok (.wpre 0 5 0 1) ∧ decodeSlot 8 0x10002A01 0 = .ok (.wpre 0 5 1 1) ∧
    decodeSlot 8 0x14002800 0 = .ok (.wpin 0 5 0) ∧ decodeSlot 8 0x20242800 0 = .ok (.wprb 0 9 5 0) := by decide

/-- The listings of 04, 09, 12, 13, 14 and 17. -/
theorem test_decode_memory :
    decodeSlot 9 0x0C2D1000 0 = .ok (.sts .la 0 5 5 1 0 0) ∧ decodeSlot 10 0x0C342200 0 = .ok (.sts .lb 0 6 4 2 2 0) ∧
    decodeSlot 11 0x04203152 0 = .ok (.gst 0 4 0 3 1 5 0 2) ∧ decodeSlot 11 0x04081051 0 = .ok (.gst 0 1 0 1 0 5 0 1) ∧
    decodeSlot 11 0x040B2028 0 = .ok (.gst 0 1 3 2 0 2 2 0) ∧ decodeSlot 11 0x001B1024 0 = .ok (.gld 0 3 3 1 0 2 1 0) ∧
    decodeSlot 11 0x002D2024 0 = .ok (.gld 0 5 5 2 0 2 1 0) ∧ decodeSlot 11 0x080B1060 0 = .ok (.gam 0 1 3 1 0 3 0 0) ∧
    decodeSlot 11 0x0C104300 0 = .ok (.ljn 0 2 0 4 3) ∧ decodeSlot 11 0x10202004 0 = .ok (.lwt 0 4 0 2 0 1) := by decide

/-- 10_memory_translation.md, 17_program_expert_launch.md. -/
theorem test_decode_translation_and_engine :
    decodeSlot 12 0x00288001 0 = .ok (.xlt 0 10 2 1) ∧ decodeSlot 12 0x04288000 0 = .ok (.xlp 0 10 2 0) ∧
    decodeSlot 12 0x0801000F 0 = .ok (.xinv 0 4 15) ∧ decodeSlot 13 0x08102A02 0 = .ok (.rstr 0 4 0 5 1 2) ∧
    decodeSlot 13 0x00090040 0 = .ok (.xfer 0 2 1 1 0) ∧ decodeSlot 13 0x0C183A00 0 = .ok (.send 0 6 0 7 1) ∧
    decodeSlot 13 0x0C183A0A 0 = .ok (.sendQueue 0 6 0 7 1 2) ∧ decodeSlot 13 0x10184200 0 = .ok (.recv 0 6 0 8 1) ∧
    decodeSlot 13 0x14100000 0 = .ok (.dlc 0 4 0) ∧ decodeSlot 13 0x14500001 0 = .ok (.dlcApportioned 0 20 0) := by decide

/-- The listings of 05, 06, 12, 14, 15 and 17, and the instruction pages. -/
theorem test_decode_control :
    decodeSlot 14 0x00002A88 0 = .ok (.fmtImm 0 0x2A88) ∧ decodeSlot 14 0x18200013 0 = .ok (.csrr 0 8 0x13) ∧
    decodeSlot 14 0x18100100 0 = .ok (.csrr 0 4 0x100) ∧ decodeSlot 15 0x00140005 0 = .ok (.br 0 5 0 5) ∧
    decodeSlot 15 0x0000FFFB 0 = .ok (.br 0 0 0 0xFFFB) ∧ decodeSlot 15 0x0C000A08 0 = .ok (.loop 0 5 8) ∧
    decodeSlot 15 0x0C20080A 0 = .ok (.loopReg 0 4 0 10) ∧ decodeSlot 15 0x0C401400 0 = .ok (.loopQ 0 10) ∧
    decodeSlot 15 0x10240220 0 = .ok (.lspReg 0 1 1 1 0) ∧ decodeSlot 15 0x18000A00 0 = .ok (.fence 0 1 2) ∧
    decodeSlot 15 0x18008203 0 = .ok (.fenceX 0 2 3) ∧ decodeSlot 15 0x34000000 0 = .ok (.done 0) := by decide

/-- 03_encoding.md and 19_links_power_resilience.md. -/
theorem test_decode_idle : decodeSkip 0x00010000 = .ok (.skip 0 0 0) ∧ decodeSkip 0x04010000 = .ok (.skip 4 0 0) ∧
    decodeSkip 0x042D0000 = .ok (.skip 4 1 3) := by decide

/-- Reserved opcodes, set zero bits and values outside their sets are refused by name. -/
theorem test_decode_refuses : decodeSlot 0 (63 * 2 ^ 26) 0 = .error .unassignedOpcode ∧
    decodeSlot 0 0x00042201 0 = .error .fixedField ∧ decodeSlot 2 0x0000000F 0 = .error .fieldValue ∧
    decodeSlot 16 0 0 = .error .noSlot := by decide

theorem test_words_decode : Obligations.WordsDecode := by unfold Obligations.WordsDecode; decide

/-- The host's reading of a table word: `gst` is read as the slot class GM. -/
theorem test_table_word : decodeTableWord 32 0x04203152 = some (.gst 0 4 0 3 1 5 0 2) ∧
    decodeTableWord 64 0x0000600054040000 = some (.li .sa 0 1 0x6000) ∧ decodeTableWord 8 0 ≠ none := by decide
/-! ### States that meet the hypotheses -/

/-- A position that issues whatever it is given: nothing of it is pending or landing. -/
def tQuiet (s : State) : Bool :=
  competes (me s) && !barBlocks s s.cur && !(getCore s (coreOf s.cur)).moving && (me s).pend.isEmpty && (me s).landing.isEmpty
    && s.endw.isEmpty

theorem steady {c : Ctx} {k : Core} {n : Nat} (h : k.moving = false) : windowBlocks c k n = false := by
  unfold Core.moving at h
  unfold windowBlocks
  have e : k.moves = [] := by simpa using h
  rw [e]
  simp

theorem ready {s : State} (h : tQuiet s = true) (rs : List Reg) (n : Nat) (hn : n ≤ 64) : CanIssue s rs n := by
  simp only [tQuiet, Bool.and_eq_true, Bool.not_eq_true', List.isEmpty_iff] at h
  obtain ⟨⟨⟨⟨⟨h1, h2⟩, h3⟩, h4⟩, h5⟩, h6⟩ := h
  exact ⟨h1, h2, steady h3, fun r _ => by unfold isPending; rw [h4]; rfl,
    by rw [h5]; unfold Config.landingEntries; simpa using hn, h6⟩

theorem readyMx {s : State} (h : tQuiet s = true) (w : (me s).window = 0) (f : remaking s s.cur = false) (rs : List Reg) (n : Nat)
    (hn : n ≤ 64) : CanIssueMx s rs n := by
  have q := h
  simp only [tQuiet, Bool.and_eq_true, Bool.not_eq_true'] at h
  exact ⟨ready q rs n hn, w, h.1.1.1.2, f⟩

/-- No other device holds a page. -/
theorem tAtHome {s : State} (h : s.grants = []) (a n : Nat) : AtHome s a n := fun k _ => by unfold pageGranted; rw [h]; rfl

/-- A page of 64 KiB at its own number, of the placement `w`. -/
def tPage (v : Nat) (w : Word) : Extent := ⟨v, 1, v * 65536, w, 0x1F, 15, false⟩

def tPlain : Word := 0x04003C0000000000
def tMaxU : Word := 0x3FFFFC0044000000
def tFar : Word := 0x4C00000000000000

def tLaunch : Launch where
  seq := 1
  record := BitVec.ofNat 4096 (4 * 2 ^ 80 + 2 ^ 88 + 0x5000 * 2 ^ 704)
  apportioned := false
  groups := 0
  assign := []
  asn := 3
  origin := 0
  st := .running
  cause := 0
  preds := []
  nclus := 1
  bound := 1
  waves := [(0, 0)]
  fgroup := 0
  ending := false
  replays := 0
  restartable := true
  poison := false
  raised := false
  ptsFloor := 0
  slot := 0

/-- A context at 0x10000: page 1 is plain, page 2 a lattice of maxu cells, page 3 in the far tier. -/
def tCtx : Ctx := {
  st := .ready, pc := 0x10000, lseq := 1, asn := 3, area := some 0x200000
  files := { c := [(1, 0x100000000), (2, 1), (3, 0x10000)], a := [(1, 0x10000), (2, 0x20000), (3, 0x30000)], x := [(1, 5)] }
  extents := [tPage 1 tPlain, tPage 2 tMaxU, tPage 3 tFar] }

/-- The package open, with one context bound at position 0. -/
def tState (c : Ctx) : State := {
  State.reset with bustat := 5, ctxs := [(0, c)], launches := [tLaunch], nextSeq := 2, roots := [(3, 0x100000)],
                   chans := [(0, { enabled := true, queue := [⟨1, false⟩], room := 5 })] }

abbrev tS : State := tState tCtx

/-- A store in the side log. -/
def tSide : SideEntry := ⟨0, .store, 2, 0x10000, 8, 5, false, 0, 0, none, false, 0, none⟩

theorem tS_ready (rs : List Reg) (n : Nat) (hn : n ≤ 64) : CanIssue tS rs n := ready (by decide +kernel) rs n hn

theorem tS_guard : guardOn (me tS) 0 = true := by decide +kernel

/-! Scalar, vector and fixed slots: registers at the edges of their files. -/

theorem test_witness_ScalarRegisterResults :
    CanIssue tS [sReg (me tS) .sb 31, sReg (me tS) .sb 0, sReg (me tS) .sb 16, sReg (me tS) .sb 15] 1 ∧ guardOn (me tS) 0 = true :=
  ⟨tS_ready _ _ (by decide), tS_guard⟩

theorem test_witness_ScalarImmediateResults : CanIssue tS [sReg (me tS) .sa 31, sReg (me tS) .sa 0] 1 ∧ guardOn (me tS) 0 = true ∧
    (64 : BitVec 7).toNat ≤ 64 := ⟨tS_ready _ _ (by decide), tS_guard, by decide⟩

theorem test_witness_ScalarImmediateResults_copies : guardOn (me tS) 0 = true ∧
    (∀ f ∈ ([3, 4, 5] : List (BitVec 3)), CanIssue tS [sReg (me tS) .sb 31, physReg (me tS) (fileOfCode f.toNat) 31] 1) ∧
    (∀ f ∈ ([3, 4] : List (BitVec 3)), CanIssue tS [commonReg 31, physReg (me tS) (fileOfCode f.toNat) 0] 1) :=
  ⟨tS_guard, fun _ _ => tS_ready _ _ (by decide), fun _ _ => tS_ready _ _ (by decide)⟩

/-- Codes 7 and 12 are arithmetic types, 14 is a type without arithmetic, 7 is an integer type; FMT.RND is 0. -/
theorem test_witness_VectorElementResults :
    CanIssue tS ([vReg (me tS) .vb 15, vReg (me tS) .vb 0, vReg (me tS) .vb 7] ++ kReads .vb 7) 1 ∧ guardOn (me tS) 0 = true ∧
    isArith 7 = true ∧ isArith 12 = true ∧ isFloat (12 : BitVec 4).toNat = true ∧ fmtRnd (me tS).fmt ≠ 3 ∧
    (14 : BitVec 4) ≠ 15 ∧ isInt 7 = true := ⟨tS_ready _ _ (by decide), tS_guard, by decide +kernel⟩

/-- The type at the ends of its range, the signs of its patterns; of floats −0 below +0, below an infinity, NaN on either side. -/
theorem test_witness_ElementArithmetic : (7 : Nat) ≤ 7 ∧ 0xFFFF < 2 ^ typeWidth 7 ∧ ((12, 8, 23, 127) ∈ floatFormats ∧ 10 ≤ 12) ∧
    Below (decFloat 12 0x80000000) (decFloat 12 0) ∧ Below (decFloat 12 0xFF800000) (decFloat 12 0x7F7FFFFF) ∧
    decFloat 12 0 ≠ .nan ∧ decFloat 12 0x7F800001 = .nan :=
  ⟨by decide, by decide, by decide, Or.inr (by decide), rfl, by decide, by decide⟩

/-- Of each format the infinity or NaN, the largest finite and a number that is not zero. -/
theorem test_witness_ConversionResults_patterns : (∀ f ∈ floatFormats, f.1 ≠ 8 → let inf := (2 ^ f.2.1 - 1) * 2 ^ f.2.2.1;
      inf + 1 < 2 ^ (1 + f.2.1 + f.2.2.1) ∧ (inf + 1) % 2 ^ (f.2.1 + f.2.2.1) = inf + 1 ∧ inf % 2 ^ (f.2.1 + f.2.2.1) = inf) ∧
    ((8, 4, 3, 7) ∈ floatFormats ∧ 0xFF < 2 ^ (1 + 4 + 3) ∧ 0xFF % 2 ^ (4 + 3) = 0x7F ∧ 0x7E % 2 ^ (4 + 3) ≤ 0x7E) ∧
    (∀ s ∈ ([8, 9, 10, 11] : List Nat), isFloat s = true ∧ s ≠ 12) ∧ isFloat 12 = true ∧ (6 : Nat) ≤ 6 ∧ (3 : Nat) < 512 ∧
    ((255 : Nat) % 256 = 255 ∧ (254 : Nat) % 256 ≠ 255) := by decide

/-- R101, Table 6-2: the largest finite and the smallest subnormal of e4m3 as magnitudes. -/
theorem test_magnitude : magnitude 3 7 0x7E = 448 ∧ magnitude 3 7 1 = 2 ^ (-9 : ℤ) := by
  unfold magnitude; norm_num

/-- The examples of R116: 6.0, -0.75 and infinity as f32. -/
theorem test_witness_ConversionResults : (12 : Nat) ≤ 12 ∧ convertBits 12 14 false rneMode 0x40C00000 = 0x81 ∧
    convertBits 12 14 false rneMode 0xBF400000 = 0x7E ∧ convertBits 12 14 false rneMode 0x7F800000 = 0xFF := by decide +kernel

theorem test_witness_VectorMoveResults : guardOn (me tS) 0 = true ∧
    (∀ f ∈ ([0, 2, 3, 5, 6, 7] : List (BitVec 4)), CanIssue tS ([vReg (me tS) .vc 15, vReg (me tS) .vc 0, vReg (me tS) .vc 7,
      kReg .vc 7, commonReg 31, physReg (me tS) (fileOfCode f.toNat) 7] ++ kReads .vc 7 ++ kReads .vc 1 ++ kReads .vc 0) 1) ∧
    isArith 12 = true ∧ (6 : BitVec 4).toNat ≤ 6 ∧ (14 : BitVec 4) ≠ 15 ∧ (7 : BitVec 4).toNat = 7 ∧ (7 : BitVec 4).toNat < 8 :=
  ⟨tS_guard, fun _ _ => tS_ready _ _ (by decide), by decide⟩

theorem test_witness_VectorReductionResults :
    CanIssue tS ([vReg (me tS) .va 15, vReg (me tS) .va 0] ++ kReads .va 7) 1 ∧ guardOn (me tS) 0 = true ∧ isArith 11 = true ∧
    (5 : BitVec 4).toNat ≤ 5 ∧ fmtRnd (me tS).fmt ≠ 3 := ⟨tS_ready _ _ (by decide), tS_guard, by decide +kernel⟩

/-- From outlier 4-bit elements to bf16, and from f32 to 4 bits. -/
theorem test_witness_VectorConversion :
    (10 : BitVec 4) ≠ 15 ∧ (10 : BitVec 4) ≠ 13 ∧ (13 : BitVec 4) ≠ 15 ∧ fmtRnd (me tS).fmt ≠ 3 ∧ (0 : BitVec 4) ≠ 13 ∧
    CanIssue tS ([vReg (me tS) .va 0, vReg (me tS) .va 1] ++ kReads .va 0) 1 ∧ guardOn (me tS) 0 = true :=
  ⟨by decide, by decide, by decide, by decide +kernel, by decide, tS_ready _ _ (by decide), tS_guard⟩

/-- Queue 3, the last of a context that has half of them, holds one row. -/
def tQueue : State := { tS with cores := [(0, { queues := [(3, [⟨9, false⟩])] })] }

theorem test_witness_QueuePop : (14 : BitVec 4) ≠ 15 ∧ queueOf (me tQueue) tQueue.cur (3 : BitVec 3).toNat = some 3 ∧
    queueRows tQueue tQueue.cur 3 = ⟨9, false⟩ :: [] ∧ CanIssue tQueue ([vReg (me tQueue) .vb 15] ++ kReads .vb 7) 0 ∧
    guardOn (me tQueue) 0 = true ∧ isLanding (me tQueue) (vReg (me tQueue) .vb 15) = false :=
  ⟨by decide, by decide +kernel, by decide +kernel, ready (by decide +kernel) _ _ (by decide), by decide +kernel⟩

theorem test_witness_SpecialFunctions : (∀ f ∈ ([0, 2, 6, 7] : List (BitVec 3)),
    CanIssue tS [fReg 7, fReg 0, physReg (me tS) (fileOfCode f.toNat) 7] 1) ∧ guardOn (me tS) 0 = true :=
  ⟨fun _ _ => tS_ready _ _ (by decide), tS_guard⟩

theorem test_witness_PermuteResults : (∀ f ∈ ([0, 2, 6, 7] : List (BitVec 3)),
    CanIssue tS [zReg 7, zReg 0, zReg 1, commonReg 31, physReg (me tS) (fileOfCode f.toNat) 1] 1) ∧ guardOn (me tS) 0 = true ∧
    (14 : BitVec 4) ≠ 15 := ⟨fun _ _ => tS_ready _ _ (by decide), tS_guard, by decide⟩

theorem test_witness_PackResults : fmtRnd (me tS).fmt ≠ 3 ∧ CanIssue tS [zReg 7, zReg 0, commonReg 31] 1 ∧
    guardOn (me tS) 0 = true ∧ (9 : BitVec 4) ≠ 15 ∧ isArith 12 = true :=
  ⟨by decide +kernel, tS_ready _ _ (by decide), tS_guard, by decide⟩

/-- A NaN, an infinity, a zero, the least subnormal and one; of two elements the larger is 3. -/
theorem test_witness_SpecialFunctions_values : decFloat 10 0x7FC0 = .nan ∧ decFloat 10 0xFF80 = .inf true ∧ (∃ e, decFloat 10 0x8000 = .fin true 0 e) ∧
    (∃ e, decFloat 12 0x80000001 = .fin true 1 e) ∧ ∃ e, decFloat 10 0x3F80 = .fin false 128 e ∧ numVal (.fin false 128 e) = 1 :=
  ⟨by decide +kernel, by decide +kernel, ⟨-133, by decide +kernel⟩, ⟨-149, by decide +kernel⟩, -7, by decide +kernel, by norm_num [numVal]⟩

theorem test_witness_PackResults_scales : let xs : List Machine.Num := [.fin false 3 0, .fin true 1 0];
    (∀ x ∈ xs, ∃ a m e, x = .fin a m e) ∧ (∃ x ∈ xs, |numVal x| = 3) ∧ (∀ x ∈ xs, |numVal x| ≤ 3) ∧ (2 : ℚ) ^ (1 : Int) ≤ 3 ∧
    (3 : ℚ) < 2 ^ (1 + 1 : Int) := by
  simp [numVal]
  norm_num

/-- A write of w0 is among the forms. -/
theorem test_witness_AddressResults : CanIssue tS [commonReg 31, aReg 0, wReg 0, wReg 15, axReg 15 1, axReg 0 1] 1 ∧
    guardOn (me tS) 0 = true ∧ (2 : BitVec 4).toNat ≤ 2 := ⟨tS_ready _ _ (by decide), tS_guard, by decide⟩

/-- A modifier of each mode; of the bit-reversed one the widest fields. -/
theorem test_witness_AddressResults_modes : (∀ m ∈ ([0, 1, 2, 3] : List (BitVec 2)), (m ++ (0 : BitVec 62) : Word).extractLsb' 62 2 = m) ∧
    ((0x8000000100000820 : Word).extractLsb' 62 2 = 2 ∧ ((0x8000000100000820 : Word).extractLsb' 0 6).toNat ≤ 32 ∧
      ((0x8000000100000820 : Word).extractLsb' 8 4).toNat ≤ 8) := by decide

/-- The walks of Table 20-3. -/
theorem test_modifier_walks : (List.range 5).map (fun n => (modStep · 0x4000001000000030)^[n] 96) = [96, 112, 128, 96, 112] ∧
    (List.range 9).map (fun n => (modStep · 0x8000000100000303)^[n] 0x1000) =
      [0x1000, 0x1020, 0x1010, 0x1030, 0x1008, 0x1028, 0x1018, 0x1038, 0x1000] := by decide +kernel

/-! Matrix slot: the region's last row is the allocation's last, its operand va15; the tile is page 1. -/

/-- c4 is such a descriptor, FMT holds the types. -/
def tMx (f : BitVec 16) (a : SMap Arr) : State := { tState { tCtx with
    fmt := f, files := { c := [(3, 0x10000), (4, 255 * 2 ^ 32 + 2 ^ 45 + 15), (31, 2 ^ 63)] } } with cores := [(0, { arrays := a })] }

def tTag : Tag := ⟨3, 1, 0, false⟩

/-- A copy that holds page `v`, pinned. -/
def tArr (v : Nat) : Arr := ⟨.valid, ⟨3, v, 0, false⟩, true, 0, v * 65536, tPlain, 0, 0, none⟩

/-- The arrays of page 1's home set all hold pinned copies of other tiles. -/
def tTaken (b : Bool) : State :=
  updCore 0 (fun k => { k with wfault := b }) (tMx 0 [(4, tArr 9), (5, tArr 13), (6, tArr 17), (7, tArr 21)])

def tSixteen (a : SMap Arr) : State := updCtx 0 (fun c => { c with mops := List.replicate 16 (mopBase c .cim) }) (tMx 0 a)

/-- What every clause of MatrixAcceptance asks of the state, at c4 and c3. -/
def tAccepts (s : State) : Prop :=
  let c := me s
  let D := regWord c (commonReg 4)
  let V := regWord c (commonReg 3)
  (c.mops.length < 16 ∧ D.getLsbD 63 = false ∧ descArow D + descRows D ≤ accRows c ∧ c.sup = false ∧ guardOn c 0 = true) ∧
    ((metaOf s s.cur 0).cause = none ∧ (metaOf s s.cur 0).waits = false) ∧ fullCluster s s.cur = true ∧ vsrcFull c = false ∧ descVsrc D = true ∧ V.getLsbD 63 = false

theorem test_witness_MatrixAcceptance_acz_drn : (∀ rs, CanIssueMx (tMx 0 []) rs 0) ∧ tAccepts (tMx 0 []) ∧ (2 : BitVec 2).toNat ≤ 2 ∧
    drainType (fmtD (me (tMx 0 [])).fmt) = true ∧ fmtRnd (me (tMx 0 [])).fmt ≠ 3 ∧
    (queueOf (me (tMx 0 [])) 0 (3 : BitVec 3).toNat).isSome = true :=
  ⟨fun rs => readyMx (by decide +kernel) (by decide +kernel) (by decide +kernel) rs 0 (by decide), by unfold tAccepts; decide +kernel, by decide +kernel⟩

/-- The rows that an operation of the descriptors c4 and c3 reads. -/
def tRowsOf (s : State) (k : MKind) : List Nat :=
  mopRows { mopBase (me s) k with desc := regWord (me s) (commonReg 4), descB := regWord (me s) (commonReg 3) }

theorem test_witness_MatrixAcceptance_smx : (∀ rs, CanIssueMx (tMx 0xAA []) rs 0) ∧ tAccepts (tMx 0xAA []) ∧
    tRowsOf (tMx 0xAA []) .smx ≠ [] ∧ (∀ i ∈ tRowsOf (tMx 0xAA []) .smx, coreLive (tMx 0xAA []) (holderOf 0 i) = true) ∧
    smxFmtOk (me (tMx 0xAA [])).fmt = true ∧ smxFmtOk (me (tMx 0x98 [])).fmt = true ∧ tAccepts (tMx 0x98 []) :=
  ⟨fun rs => readyMx (by decide +kernel) (by decide +kernel) (by decide +kernel) rs 0 (by decide), by unfold tAccepts; decide +kernel, by decide +kernel,
    by decide +kernel, by decide +kernel, by decide +kernel, by unfold tAccepts; decide +kernel⟩

/-- A copy, a free array of the home set, neither. -/
theorem test_witness_MatrixAcceptance_cim :
    (∀ s ∈ ([tMx 0 [(4, tArr 1)], tMx 0 [], tTaken false, tTaken true] : List State), (∀ rs, CanIssueMx s rs 0) ∧ tAccepts s ∧
      (∀ i ∈ tRowsOf s .cim, coreLive s (holderOf s.cur i) = true) ∧
      tileCheck s s.cur (regWord (me s) (commonReg 3)) = .ok (0x10000, tPlain) ∧ plRepl tPlain ≠ 1 ∧ fmtA (me s).fmt = 0 ∧
      fmtW (me s).fmt = 0) ∧
    lookupTile (tMx 0 [(4, tArr 1)]) 0 tTag = some (4, false) ∧ lookupTile (tMx 0 []) 0 tTag = some (4, true) ∧
    (∀ b, lookupTile (tTaken b) 0 tTag = none ∧ (getCore (tTaken b) 0).wfault = b) ∧
    tagOf (me (tTaken false)) (me (tTaken false)).fmt (regWord (me (tTaken false)) (commonReg 3)) = tTag := by
  refine ⟨?_, by decide +kernel⟩
  intro s hs
  simp only [List.mem_cons, List.not_mem_nil, or_false] at hs
  rcases hs with rfl | rfl | rfl | rfl <;>
    exact ⟨fun rs => readyMx (by decide +kernel) (by decide +kernel) (by decide +kernel) rs 0 (by decide), by unfold tAccepts; decide +kernel, by decide +kernel, rfl,
      by decide +kernel⟩

/-- Sixteen operations are outstanding; a descriptor has bit 63 set; DFMT is a type that does not drain, RND the reserved mode. -/
theorem test_witness_MatrixAcceptance_stops :
    (let c := me (tSixteen []); competes c = true ∧ c.window = 0 ∧ guardOn c 0 = true ∧ 16 ≤ c.mops.length) ∧
    (∀ s ∈ ([tMx 0x0D00 [], tMx 0x3000 [], tMx 0 []] : List State), competes (me s) = true ∧ (me s).window = 0 ∧
      guardOn (me s) 0 = true ∧ (me s).mops.length < 16 ∧ isPending (me s) (commonReg 31) = false) ∧
    drainType (fmtD (me (tMx 0x0D00 [])).fmt) = false ∧ fmtRnd (me (tMx 0x3000 [])).fmt = 3 ∧
    descBad (me (tMx 0 [])) (regWord (me (tMx 0 [])) (commonReg 31)) = true := by decide +kernel

/-- The tile is assigned to a `cim`, or to none. -/
def tCim : State := { updCtx 0 (fun c => { c with mops := [{ mopBase c .cim with tag := tTag, arr := some 4 }] })
  (tMx 0 [(4, tArr 1)]) with order := 1 }

theorem test_witness_TileResidency : (∀ s ∈ ([tMx 0 [(4, tArr 1)], tCim] : List State), (∀ rs, CanIssueMx s rs 1) ∧
      guardOn (me s) 0 = true ∧ (me s).mops.length < 16 ∧ tileCheck s s.cur (regWord (me s) (commonReg 3)) = .ok (0x10000, tPlain) ∧
      plRepl tPlain ≠ 1 ∧ fmtW (me s).fmt = 0 ∧ (me s).sup = false) ∧
    tileAssigned (tMx 0 [(4, tArr 1)]) 0 tTag 0 = false ∧ tileAssigned tCim 0 tTag tCim.order = true := by
  refine ⟨?_, by decide +kernel, by decide +kernel⟩
  intro s hs
  simp only [List.mem_cons, List.not_mem_nil, or_false] at hs
  rcases hs with rfl | rfl <;>
    exact ⟨fun rs => readyMx (by decide +kernel) (by decide +kernel) (by decide +kernel) rs 1 (by decide), by decide +kernel, by decide +kernel, rfl,
      by decide +kernel⟩

/-- A `wpre` of two copies, or a `wpin`, that stands in the list while the arrays are as given. -/
def tResides (k : MKind) (n : Nat) (as : SMap Arr) : State := {
  tState { tCtx with mops := [{ mopBase tCtx k with tag := tTag, n := n, started := true }] } with cores := [(0, { arrays := as })] }

def tListed (s : State) : Bool := match (getCtx s 0).mops[0]? with
  | some m => (m.kind == .wpre || m.kind == .wpin) && !m.lost && !m.bad && m.tag == tTag && !dropsSoon s 0 m.tag m.num
  | none => false
def tHolds (s : State) (st : ArrState) (a : Nat) : Bool := (getArr s 0 a).tag == tTag && (getArr s 0 a).st == st

/-- Array 15 fills; two copies; one, with no set left to take; none; one of two, with a set left. -/
theorem test_witness_TileResidency_leaves :
    (let s := tResides .wpin 1 [(15, { tArr 1 with st := .filling })]; tListed s = true ∧ tHolds s .filling 15 = true) ∧
    (let s := tResides .wpre 2 [(0, tArr 1), (15, tArr 1)];
      tListed s = true ∧ (∀ a < 16, tHolds s .filling a = false) ∧ ∀ a ∈ [0, 15], tHolds s .valid a = true) ∧
    (let s := tResides .wpre 4 ((List.range 16).map (fun a => (a, if a = 0 then tArr 1 else tArr 9)));
      tListed s = true ∧ (∀ a < 16, tHolds s .filling a = false) ∧ ∀ n < 4, preSet s 0 tTag n = none) ∧
    (let s := tResides .wpin 1 []; tListed s = true ∧ ∀ a < 16, tHolds s .filling a = false ∧ tHolds s .valid a = false) ∧
    (let s := tResides .wpre 2 [(15, tArr 1)];
      tListed s = true ∧ (∀ a < 16, tHolds s .filling a = false) ∧ tHolds s .valid 15 = true ∧ preSet s 0 tTag 2 ≠ none) := by
  decide +kernel

/-- Array 15 has the only Valid copy. -/
theorem test_witness_TileResidency_stays (as : List Nat) (h : as.Nodup)
    (ha : ∀ x ∈ as, x < 16 ∧ (getArr (tResides .wpre 2 [(15, tArr 1)]) 0 x).tag = tTag ∧ (getArr (tResides .wpre 2 [(15, tArr 1)]) 0 x).st = .valid) :
    as.length < 2 := by
  have one : ∀ x < 16, (getArr (tResides .wpre 2 [(15, tArr 1)]) 0 x).tag = tTag ∧
      (getArr (tResides .wpre 2 [(15, tArr 1)]) 0 x).st = .valid → x = 15 := by decide +kernel
  have all : ∀ x ∈ as, x ∈ [15] := fun x hx => by simp [one x (ha x hx).1 (ha x hx).2]
  have := (List.subperm_of_subset h all).length_le
  simp only [List.length_singleton] at this
  omega

/-! Scratchpad slots: a0 is 0, a15 the last row's last bytes; the last granule of the row is empty in one state. -/

def tScr : State := tState { tCtx with files := { a := [(15, 0x7FFFFF)], x := [(1, 5)] } }
def tScrEmpty : State := { tScr with empties := [(granKey (scratchKey 0 0x7FFFF0), true)] }

theorem test_witness_ScratchLoads : (∀ s ∈ ([tScr, tScrEmpty] : List State), (∀ rs, CanIssue s rs 2) ∧ guardOn (me s) 0 = true ∧
      acquiring s s.cur = false ∧ regOk 7 7 = true ∧ regOk 3 15 = true ∧ isVecFile 7 = true ∧
      ∀ n ∈ ([256, 8] : List Nat), coreLive s (holderOf s.cur (scrOff (me s) 15 / n * n)) = true ∧
        banksReady s s.cur (bankIds s.cur (scrOff (me s) 15 / n * n) n) = true) ∧
    gransFull tScr 0 0x7FFF00 256 = true ∧ gransFull tScr 0 0x7FFFF8 8 = true ∧ gransFull tScrEmpty 0 0x7FFFF8 8 = false := by
  refine ⟨?_, by decide +kernel⟩
  intro s hs
  simp only [List.mem_cons, List.not_mem_nil, or_false] at hs
  rcases hs with rfl | rfl <;>
    exact ⟨fun rs => ready (by decide +kernel) rs 2 (by decide), by decide +kernel⟩

/-- A row waits in queue 3. -/
def tScrQueue : State := { tScr with cores := [(0, { queues := [(3, [⟨9, true⟩])] })] }

theorem test_witness_ScratchStores : (∀ rs, CanIssue tScrQueue rs 1) ∧ guardOn (me tScrQueue) 0 = true ∧ acquiring tScrQueue 0 = false ∧
    (Instr.st .lb 0 7 7 15 0).wf = true ∧ (Instr.sts .lb 0 15 5 15 0 3).wf = true ∧ (Instr.stq .lb 0 3 15 0).wf = true ∧
    queueOf (me tScrQueue) 0 (3 : BitVec 4).toNat = some 3 ∧ queueRows tScrQueue 0 3 = ⟨9, true⟩ :: [] ∧
    ∀ n ∈ ([256, 8] : List Nat), coreLive tScrQueue (holderOf 0 (scrOff (me tScrQueue) 15 / n * n)) = true ∧
      banksReady tScrQueue 0 (bankIds 0 (scrOff (me tScrQueue) 15 / n * n) n) = true ∧
      rowHeld (me tScrQueue) (scrOff (me tScrQueue) 15 / n * n / 256) = false :=
  ⟨fun rs => ready (by decide +kernel) rs 1 (by decide), by decide +kernel⟩

/-- `park` of a c register through a port, of a v register without one. -/
theorem test_witness_GranulesAndSpills : (∀ rs, CanIssue tScr rs 1) ∧ guardOn (me tScr) 0 = true ∧ acquiring tScr 0 = false ∧
    (∀ n ∈ ([256, 16] : List Nat), coreLive tScr (holderOf 0 (scrOff (me tScr) 15 / n * n)) = true ∧
      banksReady tScr 0 (bankIds 0 (scrOff (me tScr) 15 / n * n) n) = true ∧ gransFull tScr 0 (scrOff (me tScr) 15 / n * n) n = true) ∧
    regOk 5 15 = true ∧ regOk 7 7 = true := ⟨fun rs => ready (by decide +kernel) rs 1 (by decide), by decide +kernel⟩

/-! Global memory: a1 is plain page 1, a2 the lattice page, a3 the far page. -/

theorem test_witness_GlobalLoads : (∀ rs, CanIssue tS rs 1) ∧ guardOn (me tS) 0 = true ∧ (Instr.gld 0 7 7 1 0 5 1 2).wf = true ∧
    translate tS 0 (gmAddr (me tS) 1 256) .read = .ok (tPage 1 tPlain) ∧ acquiring tS 0 = false ∧
    sideMeets tS 0 (gmAddr (me tS) 1 256) 256 = false ∧ farSpan tS 0 (tPage 1 tPlain) (gmAddr (me tS) 1 256) 256 = false ∧
    isLanding (me tS) (physReg (me tS) (fileOfCode 7) 7) = false :=
  ⟨fun rs => tS_ready rs 1 (by decide), by decide +kernel⟩

/-- What every clause of GlobalWrites asks. -/
theorem test_witness_GlobalWrites : (∀ rs, CanIssue tS rs 1) ∧ guardOn (me tS) 0 = true ∧ acquiring tS 0 = false ∧ sideOf tS 0 = [] ∧
    releasing tS 0 = false ∧ plRepl tPlain ≠ 2 ∧ needsOwner tPlain = false ∧ plRepl tMaxU ≠ 2 ∧ needsOwner tMaxU = false :=
  ⟨fun rs => tS_ready rs 1 (by decide), by decide +kernel⟩

theorem test_witness_GlobalWrites_store : (Instr.gst 0 7 7 1 0 5 2 2).wf = true ∧
    translate tS 0 (gmAddr (me tS) 1 256) .write = .ok (tPage 1 tPlain) ∧ plLtype tPlain = 0 ∧
    farSpan tS 0 (tPage 1 tPlain) (gmAddr (me tS) 1 256) 256 = false := by decide +kernel

/-- Page 5 is absent; the side log has place for the four lines of a store of 256 bytes. -/
def tGap : State := { tState { tCtx with files := { a := [(5, 0x50000)] }, extents := [{ tPage 5 tPlain with absent := true }] } with
  cores := [(0, { slog := List.replicate 60 tSide })] }

theorem test_witness_GlobalWrites_absent : (∀ rs, CanIssue tGap rs 1) ∧ guardOn (me tGap) 0 = true ∧ acquiring tGap 0 = false ∧
    (Instr.gst 0 7 7 5 0 5 0 2).wf = true ∧ translate tGap 0 (gmAddr (me tGap) 5 256) .write = .absent { tPage 5 tPlain with absent := true } ∧
    (getCore tGap 0).slog.length + 4 ≤ 64 := ⟨fun rs => ready (by decide +kernel) rs 1 (by decide), by decide +kernel⟩

/-- The value, 5, rises above the cell's. -/
theorem test_witness_GlobalWrites_cells :
    let key := (placeOf tS tMaxU 0 (physAddr (tPage 2 tMaxU) (gmAddr (me tS) 2 8))).1
    (Instr.gst 0 1 3 2 0 0 0 0).wf = true ∧ translate tS 0 (gmAddr (me tS) 2 8) .write = .ok (tPage 2 tMaxU) ∧ plLtype tMaxU ≠ 0 ∧
    farAt tS 0 (tPage 2 tMaxU) (gmAddr (me tS) 2 8) = false ∧ cellSize (plLtype tMaxU) = 8 ∧
    anyBad (me tS) ([physReg (me tS) .x 1] ++ memReads 2 0) = false ∧ (me tS).reqs.isEmpty = true ∧
    ∀ x ∈ cellsIn tMaxU key 8, cellStops tS tMaxU x = false ∧ latLeq (plLtype tMaxU) (cellGet tS tMaxU x)
      (partOf (regGet (me tS) (physReg (me tS) .x 1)).toNat (x - key) (cellSize (plLtype tMaxU))) = true := by decide +kernel

/-- A compare-and-swap of the last pair, a join. -/
theorem test_witness_GlobalWrites_gam_ljn : (Instr.gam 0 14 4 1 0 5 3 6).wf = true ∧
    translate tS 0 (gmAddr (me tS) 1 8) .write = .ok (tPage 1 tPlain) ∧ farAt tS 0 (tPage 1 tPlain) (gmAddr (me tS) 1 8) = false ∧
    isLanding (me tS) (physReg (me tS) .y 14) = false ∧ (Instr.ljn 0 15 4 2 0).wf = true ∧ translate tS 0 (gmAddr (me tS) 2 8) .join = .ok (tPage 2 tMaxU) := by decide +kernel

/-- A join of a vector's 64 bytes: a cell of type gcnt. -/
def tGcnt : Word := 0x3FFFFC005C000000
def tSG : State := tState { tCtx with extents := [tPage 2 tGcnt] }

theorem test_witness_GlobalWrites_vector : (∀ rs, CanIssue tSG rs 1) ∧ guardOn (me tSG) 0 = true ∧ (Instr.ljn 0 15 2 2 0).wf = true ∧
    translate tSG 0 (gmAddr (me tSG) 2 8) .join = .ok (tPage 2 tGcnt) ∧ cellSize (plLtype tGcnt) = 64 ∧
    farAt tSG 0 (tPage 2 tGcnt) (gmAddr (me tSG) 2 8) = false ∧ anyBad (me tSG) ([physReg (me tSG) .vc 15] ++ memReads 2 0) = false :=
  ⟨fun rs => ready (by decide +kernel) rs 1 (by decide), by decide +kernel⟩

/-- What a prefetch of a line of page `v` asks. -/
def tAsks (v : Nat) (w : Word) : Prop :=
  let va := gmAddr (me tS) v 64
  quietExtent tS 0 va = some (tPage v w) ∧ grantsAt tS 0 (tPage v w) va .read = true ∧ timed w = true

/-- Page 4, which may not be read. -/
def tHidden : Extent := { tPage 4 tPlain with kinds := 0 }
def tHid : State := tState { tCtx with files := { a := [(4, 0x40000)] }, extents := [tHidden] }

/-- `lwt` passes: the register holds 0 and the cell 0.  The prefetches: without a page, to a line of page 1, to one of the
lattice page, to a far line, to a line that may not be read, which they do not ask for. -/
theorem test_witness_WaitsAndPrefetches : (∀ rs, CanIssue tS rs 1 ∧ CanIssue tHid rs 1) ∧ guardOn (me tS) 0 = true ∧
    ((4 : BitVec 3).toNat ≤ 4 ∧ (1 : BitVec 2).toNat ≤ 1 ∧ acquiring tS 0 = false ∧
      isLanding (me tS) (physReg (me tS) .y 15) = false ∧ translate tS 0 (gmAddr (me tS) 2 8) .wait = .ok (tPage 2 tMaxU) ∧ plLtype tMaxU ≠ 0 ∧
      cellStops tS tMaxU (cellOf tMaxU (placeOf tS tMaxU 0 (physAddr (tPage 2 tMaxU) (gmAddr (me tS) 2 8))).1) = false ∧
      sideMeets tS 0 (gmAddr (me tS) 2 8) 8 = false ∧
      latPasses (plLtype tMaxU) false (cellGet tS tMaxU (cellOf tMaxU (placeOf tS tMaxU 0 (physAddr (tPage 2 tMaxU) (gmAddr (me tS) 2 8))).1))
        (regGet (me tS) (physReg (me tS) .y 15)).toNat = true) ∧
    quietExtent tS 0 (gmAddr (me tS) 0 64) = none ∧
    (tAsks 1 tPlain ∧ plLtype tPlain = 0) ∧ (tAsks 2 tMaxU ∧ plLtype tMaxU ≠ 0) ∧ (tAsks 3 tFar ∧ plTier tFar ≠ 0) ∧
    (guardOn (me tHid) 0 = true ∧ quietExtent tHid 0 (gmAddr (me tHid) 4 64) = some tHidden ∧
      grantsAt tHid 0 tHidden (gmAddr (me tHid) 4 64) .read = false) := by
  unfold tAsks
  exact ⟨fun rs => ⟨tS_ready rs 1 (by decide), ready (by decide +kernel) rs 1 (by decide)⟩, by decide +kernel⟩

/-- The invalidation in supervisor mode, of 16,384 pages. -/
def tSup : State := tState { tCtx with sup := true }

theorem test_witness_TranslationOperations : (∀ rs, CanIssue tSup rs 0 ∧ CanIssue tS rs 0) ∧ guardOn (me tSup) 0 = true ∧
    (me tSup).sup = true ∧ (me tSup).xinvOut = [] ∧ isLanding (me tS) (commonReg 31) = false ∧ remaking tS tS.cur = false :=
  ⟨fun rs => ⟨ready (by decide +kernel) rs 0 (by decide), tS_ready rs 0 (by decide)⟩, by decide +kernel⟩

/-! Transfers, links, device launch: the card of one 16-byte run stands at scratchpad offset 0 and at 0x10000. -/

def tCard : BitVec 1024 := BitVec.ofNat 1024 (0x7FFFF0 + 0x7FFFE0 * 2 ^ 64 + 16 * 2 ^ 128)

/-- A page table of one table at each level, whose entry for page 1 is plain, and for page 2 the lattice page. -/
def tTable (m : List Host.Cell) : List Host.Cell :=
  [(0x100000, 0x102001), (0x102000, 0x104001), (0x104000, 0x106001), (0x106010, 0x1001F), (0x106018, tPlain.toNat),
    (0x106020, 0x2001F), (0x106028, tMaxU.toNat)].foldl (fun z e => wrNat z e.1 8 e.2) m

def tMove : State := { tState { tCtx with files := { c := [(3, 0x10000), (4, tPlain)] } } with
  mem := tTable (wrBytes (wrBytes [] 0x10000 (bytesLE 128 tCard.toNat)) (scratchKey 0 0) (bytesLE 128 tCard.toNat)) }

theorem test_witness_TransferOperations : (∀ rs, CanIssue tMove rs 0) ∧ guardOn (me tMove) 0 = true ∧ cardBad tCard = false ∧
    rangesDead tMove 0 13 1 (cardRanges tCard false) = none ∧ rangesDead tMove 0 13 2 (cardRanges tCard true) = none ∧
    cardSplits tMove 0 tCard = false ∧ ((me tMove).xfers.filter (fun x => !x.restripe)).length < 16 ∧
    remaking tMove tMove.cur = false ∧ banksReady tMove 0 (rangeBanks 0 (cardRanges tCard false ++ cardRanges tCard true)) = true ∧
    (me tMove).xfers.all (fun x => x.restripe || x.tag != 63) = true :=
  ⟨fun rs => ready (by decide +kernel) rs 0 (by decide), by decide +kernel⟩

theorem test_witness_TransferOperations_card : (regWord (me tMove) (commonReg 0) &&& ~~~15).toNat % 2 ^ 23 = 0 ∧
    BitVec.ofNat 1024 (rdNat tMove.mem (scratchKey 0 0) 128) = tCard ∧ rangesDead tMove 0 13 1 [(0, 128)] = none ∧
    gransFull tMove 0 0 128 = true ∧ (bankIds 0 0 128).all (fun id => !(id / 128 == coreOf 0 && bankLocked tMove id)) = true := by
  decide +kernel

theorem test_witness_TransferOperations_global : (globalCard tMove 0 0x10000).2.1 = tCard ∧ (globalCard tMove 0 0x10000).1 = none ∧
    regWord (me tMove) (commonReg 3) &&& ~~~15 = 0x10000 ∧ cardWaits tMove 0 0x10000 = false := by decide +kernel

theorem test_witness_TransferOperations_restripe : stripeBad tMove (me tMove).sup
    (walkTable tMove (getCtx tMove (extOwner tMove 0)).asn (0x10000 + BitVec.ofNat 64 (2 ^ 16 * 0))) (tPlain &&& ~~~0x800) = false ∧
    walkBars tMove (getCtx tMove (extOwner tMove 0)).asn (0x10000 + BitVec.ofNat 64 (2 ^ 16 * 0)) false = [] := by
  decide +kernel

/-- Channel 255 has room for five rows and holds one; queue 3 has five rows. -/
def tLink : State := { tState { tCtx with files := { c := [(5, 255), (6, 4 * 2 ^ 23 + 0x7FFF00), (7, 5), (8, 0x7FFF00)] } } with
  chans := [(255, { enabled := true, queue := [⟨1, false⟩], room := 5 })]
  cores := [(0, { queues := [(3, List.replicate 5 ⟨9, false⟩)] })] }

theorem test_witness_LinkOperations : (∀ rs, CanIssue tLink rs 0) ∧ guardOn (me tLink) 0 = true ∧ (getChan tLink 255).enabled = true ∧
    (255 : Word).toNat < 256 ∧ portsDown tLink = false ∧ remaking tLink tLink.cur = false ∧
    (let D := regWord (me tLink) (commonReg 6);
      D.toNat < 2 ^ 31 ∧ linkRows D = (getChan tLink 255).room ∧ (linkOffs D).all (rowOpen tLink 0) = true ∧
      rangesDead tLink 0 13 1 ((linkOffs D).map (fun o => (o, 256))) = none) ∧
    (let N := regWord (me tLink) (commonReg 7);
      0 < N.toNat ∧ N.toNat ≤ 64 ∧ N.toNat ≤ (getChan tLink 255).room ∧ queueOf (me tLink) 0 (3 : BitVec 3).toNat = some 3 ∧
      N.toNat ≤ (queueRows tLink 0 3).length) ∧
    (let D := regWord (me tLink) (commonReg 8);
      D.toNat < 2 ^ 31 ∧ rangesDead tLink 0 13 2 ((linkOffs D).map (fun o => (o, 256))) = none ∧
      linkRows D ≤ (getChan tLink 255).queue.length ∧ banksReady tLink 0 (rangeBanks 0 ((linkOffs D).map (fun o => (o, 256)))) = true) :=
  ⟨fun rs => ready (by decide +kernel) rs 0 (by decide), by decide +kernel⟩

/-- A journal is in force; both forms read from offset 0. -/
def tDlc : State := { tS with journal := some (0x40000, 6, 0x50000, 1) }

theorem test_witness_DeviceLaunch : (∀ rs, CanIssue tDlc rs 0) ∧ guardOn (me tDlc) 0 = true ∧ fenceWaits tDlc 0 = false ∧ remaking tDlc tDlc.cur = false ∧
    pathBusy tDlc 0 0xF = false ∧ entryFree tDlc tDlc.nextSeq = true ∧
    ∀ b ∈ ([false, true] : List Bool), rangesDead tDlc 0 13 1 [(0, (dlcBytes tDlc 0 0 b + 255) / 256 * 256)] = none ∧
      gransFull tDlc 0 0 ((dlcBytes tDlc 0 0 b + 255) / 256 * 256) = true ∧
      (bankIds 0 0 ((dlcBytes tDlc 0 0 b + 255) / 256 * 256)).all (fun id => !(id / 128 == coreOf 0 && bankLocked tDlc id)) = true :=
  ⟨fun rs => ready (by decide +kernel) rs 0 (by decide), by decide +kernel⟩

/-! Control slot: inside a loop whose iteration has set neither format. -/

def tLoop (b : Nat) : LoopEntry := ⟨false, 0, b, 0, 0x10000, 2, false, false, false, 0x10008, 0x10000, 1, 0x10008, false, false, false⟩
def tIn : State := tState { tCtx with loops := [tLoop 3] }

theorem test_witness_FormatWrites : (∀ rs, CanIssue tIn rs 1) ∧ guardOn (me tIn) 0 = true ∧ imageOk 0x2A88 = true ∧
    (∀ e, (me tIn).loops.head? = some e → e.fmtBit = false) ∧ (∀ e, (me tIn).loops.head? = some e → e.scltBit = false) := by
  refine ⟨fun rs => ready (by decide +kernel) rs 1 (by decide), by decide +kernel, by decide +kernel, ?_, ?_⟩ <;>
    (intro e h; have k : (me tIn).loops.head? = some (tLoop 3) := rfl; rw [k] at h; cases h; rfl)

theorem test_witness_BarrierOperations : (∀ rs, CanIssue tS rs 0) ∧ guardOn (me tS) 0 = true ∧ releasing tS 0 = false ∧
    smGet 0 (getCluster tS 0).arr (2047 : BitVec 11).toNat = 0 := ⟨fun rs => tS_ready rs 0 (by decide), by decide +kernel⟩

/-- The count queue has its last place left. -/
def tCq (u : Bool) : State := { tState { tCtx with sup := u } with cores := [(0, { cq := List.replicate 63 0 })] }

theorem test_witness_CoreControl : (∀ u rs, CanIssue (tCq u) rs 1) ∧ (∀ u, guardOn (me (tCq u)) 0 = true) ∧
    (∀ u, (getCore (tCq u) 0).cq.length < 64) ∧ (∀ u, (me (tCq u)).xfers.all (fun x => !runsLeftIn 0 0xFF x) = true) ∧
    (me (tCq true)).sup = true ∧ ¬(1 = (2 : BitVec 12) ∨ 0x100 ≤ (1 : BitVec 12).toNat ∧ (1 : BitVec 12).toNat ≤ 0x107) ∧
    ∀ n ∈ ([7, 0xB, 0xF, 0x15, 0x17, 0x1E, 0x1F, 0x22, 0xFF, 0x108, 0xFFF] : List (BitVec 12)),
      ¬(n.toNat ≤ 0xA ∧ n ≠ 7 ∨ 0x10 ≤ n.toNat ∧ n.toNat ≤ 0x14 ∨ 0x18 ≤ n.toNat ∧ n.toNat ≤ 0x1D ∨ n = 0x20 ∨ n = 0x21 ∨
        0x100 ≤ n.toNat ∧ n.toNat ≤ 0x107) :=
  ⟨fun u rs => ready (by cases u <;> decide +kernel) rs 1 (by decide), by decide +kernel⟩

/-! Branch slot, `skip`, and what holds of every group. -/

theorem test_witness_Branches : (∀ rs, CanIssue tS rs 1) ∧ guardOn (me tS) 0 = true ∧ (me tS).bodyWalk = none ∧
    (me tS).exiting = false ∧ ¬((0 = (0 : BitVec 5) ∧ 1 = (0 : BitVec 2)) ∨ regWord (me tS) (commonReg 0) ≠ 0) ∧ regWord (me tS) (commonReg 1) ≠ 0 :=
  ⟨fun rs => tS_ready rs 1 (by decide), by decide +kernel⟩

/-- Five loops are open, and the count queue's head is zero or not; the body of the loop is a `skip`. -/
def tFive (v : BitVec 32) : State := { tState { tCtx with loops := List.replicate 5 (tLoop 3) } with
  cores := [(0, { cq := [v] })], mem := wrBytes [] 0x10008 (bytesLE 4 0x04010000) }

theorem test_witness_LoopEntries : ∀ v ∈ ([0, 1] : List (BitVec 32)), (∀ rs, CanIssue (tFive v) rs 0) ∧ guardOn (me (tFive v)) 0 = true ∧
    (me (tFive v)).loops.length < 6 ∧ (me (tFive v)).bodyWalk = none ∧ (me (tFive v)).exiting = false ∧ (getCore (tFive v) 0).cq = v :: [] ∧
    (walkFrom (tFive v) 0 1 0x10008).toOption = some 0x1000C := by
  intro v hv
  simp only [List.mem_cons, List.not_mem_nil, or_false] at hv
  rcases hv with rfl | rfl <;> exact ⟨fun rs => ready (by decide +kernel) rs 0 (by decide), by decide +kernel⟩

theorem tS_handler (l : Launch) (h : findLaunch tS (me tS).lseq = some l) : recField l.record 88 8 ≠ 0 := by
  have k : findLaunch tS (me tS).lseq = some tLaunch := by decide +kernel
  rw [k] at h
  cases h
  decide +kernel

theorem test_witness_TrapInstructions : CanIssue tS [] 0 ∧ guardOn (me tS) 0 = true ∧ (me tS).serves = none ∧
    ∀ l, findLaunch tS (me tS).lseq = some l → recField l.record 88 8 ≠ 0 :=
  ⟨tS_ready _ _ (by decide), by decide +kernel, by decide +kernel, tS_handler⟩

theorem test_witness_FencesAndWaits : CanIssue tS [] 0 ∧ guardOn (me tS) 0 = true ∧ sideOf tS 0 = [] ∧ (me tS).xinvOut = [] ∧
    (me tS).reqs = [] ∧ openLoads (me tS) = [] ∧ (me tS).xfers = [] ∧ (me tS).pend = [] ∧ (me tS).mops = [] ∧ pathCount 0x11 = 2 ∧ pathBusy tS 0 0x1F = false :=
  ⟨tS_ready _ _ (by decide), by decide +kernel⟩

/-- Position 0 is a handler for position 1, whose context waits trapped. -/
def tHandler : State := { tState { tCtx with sup := true, serves := some 1 } with
  ctxs := [(0, { tCtx with sup := true, serves := some 1 }), (1, { tCtx with st := .trapped, resumeAt := some 0x10008 })] }

theorem test_witness_Ends : (CanIssue tS [] 0 ∧ guardOn (me tS) 0 = true ∧ (me tS).mops = [] ∧ (me tS).xfers = [] ∧ sideOf tS 0 = []) ∧
    CanIssue tHandler [] 0 ∧ guardOn (me tHandler) 0 = true ∧ (me tHandler).sup = true ∧ (me tHandler).serves = some 1 ∧
    sideOf tHandler 0 = [] ∧ (me tHandler).xinvOut = [] ∧ openLoads (me tHandler) = [] ∧ (me tHandler).mops = [] ∧ (me tHandler).xfers = [] ∧ (me tHandler).reqs = [] :=
  ⟨⟨tS_ready _ _ (by decide), by decide +kernel⟩, ready (by decide +kernel) _ _ (by decide), by decide +kernel⟩

/-- The deepest loop but one is open. -/
theorem test_witness_FixedRegisters : CanIssue (tFive 1) [] 0 ∧ (me (tFive 1)).loops.length < 6 ∧ (me (tFive 1)).bodyWalk = none ∧
    (me (tFive 1)).exiting = false ∧ (1 : BitVec 9) ≠ 0 ∧ 8 ≤ typeWidth 12 := ⟨ready (by decide +kernel) _ _ (by decide), by decide +kernel⟩

theorem test_witness_IdleGroups : CanIssue tS [] 0 ∧ (me tS).loops = [] ∧ (me tS).bodyWalk = none ∧ CanIssue tIn [] 0 ∧
    (∀ e, (me tIn).loops.head? = some e → e.opBit = false) ∧ (255 : BitVec 8) ≠ 0 := by
  refine ⟨tS_ready _ _ (by decide), rfl, rfl, ready (by decide +kernel) _ _ (by decide), fun e h => ?_, by decide⟩
  have k : (me tIn).loops.head? = some (tLoop 3) := rfl
  rw [k] at h
  cases h
  rfl

/-- Idle steps are left: three of a `skip`, its last, or those of a `wait 0`; the other position is empty. -/
def tIdle (n : Nat) (w : Bool) : State := tState { tCtx with idle := n, waitIdle := w, idleAddr := 0x10000, idleNext := 0x10004 }

theorem test_witness_IdleGroups_later : ∀ e ∈ ([(3, false), (1, false), (0, true)] : List (Nat × Bool)), let s := tIdle e.1 e.2;
    (∀ rs, CanIssue s rs 0) ∧ s.cur = 2 * 0 + 0 ∧ s.bustat = 5 ∧ coreLive s 0 = true ∧ midGroup (me s) = true ∧ (me s).exiting = false ∧
    (me s).bodyWalk = none ∧ gateShut s 0 = false ∧ competes (getCtx s 1) = false ∧ (getCtx s 1).yield = 0 ∧ (me s).waitIdle = e.2 ∧
    (me s).loops = [] := by
  intro e he
  simp only [List.mem_cons, List.not_mem_nil, or_false] at he
  rcases he with rfl | rfl | rfl <;> exact ⟨fun rs => ready (by decide +kernel) rs 0 (by decide), by decide +kernel⟩

/-- Guard 1 reads GPRED bit 1, which is clear: an operation of each kind of slot, the matrix and the control slot among them, with
ports that agree. -/
theorem test_witness_GuardFalse : (∀ e ∈ ([(.add .sa 1 1 2 3, 0), (.acz 1 4 0 2, 8), (.fmtReg 1 0 31, 14), (.br 1 5 1 0, 15)] : List (Instr × Nat)),
      e.1.slot = some e.2 ∧ e.1.wf = true ∧ guardOn (me tS) (guardField e.1) = false) ∧
    (CanIssue tS [] 0 ∧ (me tS).window = 0 ∧ (me tS).loops = [] ∧ (me tS).bodyWalk = none) ∧
    PortsOk (.add .sa 1 1 2 3) tS ∧ PortsOk (.acz 1 4 0 2) tS ∧ PortsOk (.fmtReg 1 0 31) tS ∧ PortsOk (.br 1 5 1 0) tS := by
  refine ⟨by decide +kernel, ⟨tS_ready _ _ (by decide), by decide +kernel⟩, ?_, ?_, ?_, ?_⟩ <;>
    (intro pre o h; cases Option.some.inj h; decide +kernel)

def tPends (r : Reg) : State := tState { tCtx with pend := [⟨r, fullMask, 0, 1, 0, false, []⟩] }

theorem test_witness_PendingBlocks :
    (∀ r ∈ ([⟨.x, 31⟩, ⟨.vb, 15⟩, ⟨.a, 0⟩] : List Reg), competes (me (tPends r)) = true ∧ guardOn (me (tPends r)) 0 = true) ∧
    isPending (me (tPends ⟨.x, 31⟩)) (sReg (me (tPends ⟨.x, 31⟩)) .sa 31) = true ∧
    isPending (me (tPends ⟨.vb, 15⟩)) (vReg (me (tPends ⟨.vb, 15⟩)) .vb 15) = true ∧
    isPending (me (tPends ⟨.a, 0⟩)) (aReg 0) = true := by decide +kernel

/-- Queue 3 holds a row, and a result for the destination of its pop is in the landing buffer. -/
def tHeldPop : State := { tState { tCtx with landing := [⟨.reg ⟨.vb, 15⟩, 1, fullMask, 3, 2, 0, false⟩] } with
  cores := [(0, { queues := [(3, [⟨9, false⟩])] })] }

/-- A pending register that is read, one that is written by exposed latency, one by interlock, and an interlocked one in the landing
buffer, none of them in a group with a cause. -/
theorem test_witness_PendingBlocks_any : ∀ e ∈ ([(tPends ⟨.x, 31⟩, .add .sa 0 1 31 2, 0), (tPends ⟨.a, 0⟩, .aset 0 0 1 0, 7),
      (tPends ⟨.z, 7⟩, .gld 0 7 7 1 0 0 0 2, 11), (tHeldPop, .vpop .vb 0 15 3 0 14, 3)] : List (State × Instr × Nat)),
    let s := e.1; let i := e.2.1; let grp := soloGrp (me s) i e.2.2; let o := operands (me s) i
    competes (me s) = true ∧ i.slot = some e.2.2 ∧ i.wf = true ∧ guardOn (me s) (guardField i) = true ∧
    ((∃ r ∈ o.reads ++ o.writes ++ o.locked, isPending (me s) r = true) ∨ ∃ r ∈ o.locked, isLanding (me s) r = true) ∧
    (semOf i s.cur { next := grp.next } s).map (fun o => firstCause (groupCauses (me s) ⟨grp, 0, [], []⟩ [o])) = some none := by
  decide +kernel

theorem test_witness_PendingBlocks_landing : competes (me tHeldPop) = true ∧ guardOn (me tHeldPop) 0 = true ∧ (14 : BitVec 4) ≠ 15 ∧
    queueOf (me tHeldPop) tHeldPop.cur (3 : BitVec 3).toNat = some 3 ∧ queueRows tHeldPop tHeldPop.cur 3 = ⟨9, false⟩ :: [] ∧
    isLanding (me tHeldPop) (vReg (me tHeldPop) .vb 15) = true ∧ (me tHeldPop).pend = [] := by decide +kernel

/-- Six loops are open. -/
def tSix : State := { tState { tCtx with loops := List.replicate 6 (tLoop 3), files := { c := [(1, 1)] } } with cores := [(0, { cq := [1] })] }

theorem test_witness_InstructionFaults : competes (me tSix) = true ∧ guardOn (me tSix) 0 = true ∧ (me tSix).sup = false ∧
    6 ≤ (me tSix).loops.length ∧ (1 : BitVec 9) ≠ 0 ∧ (regWord (me tSix) (commonReg 1)).toNat % 2 ^ 32 ≠ 0 ∧
    0x100 ≤ (0x107 : BitVec 12).toNat ∧ (0x107 : BitVec 12).toNat ≤ 0x107 ∧ (getCore tSix 0).cq = 1 :: [] ∧ (1 : BitVec 32) ≠ 0 ∧
    ((Instr.cim 0 0 0 0 0 2 0 0 0 0).slot = some 8 ∧ (Instr.cim 0 0 0 0 0 2 0 0 0 0).wf = false ∧ (metaOf tSix 0 0).cause = none) ∧
    (Instr.skip 0 0 1).wf = false ∧
    ∀ i ∈ ([.bfx .sa 0 1 1 65 0, .cpyCommon .sb 0 1 1 0 5, .vadd .va 0 1 1 1 0 8, .vshl .va 0 1 1 1 0 8, .vcvt .va 0 1 1 15 0 0,
      .frcp 0 0 0 9, .pscl 0 0 0 1 0 13, .amod 0 1 1 0 3, .acz 0 1 0 3, .st .la 0 1 5 1 0, .ljn 0 1 5 1 0, .fence 0 3 0] : List Instr),
      i.wf = false := by decide +kernel

/-- The landing buffer is full. -/
def tFull : State := tState { tCtx with landing := List.replicate 64 ⟨.reg ⟨.x, 1⟩, 1, fullMask, 2, 0, 0, false⟩ }

/-- The launch names no handler. -/
def tBareLaunch : Launch := { tLaunch with record := BitVec.ofNat 4096 (4 * 2 ^ 80 + 2 ^ 88) }
def tBare : State := { tFull with launches := [tBareLaunch] }

theorem test_witness_TakingException : (∀ s ∈ ([tFull, tBare] : List State), (getCtx s 0).serves = none ∧
      (getCtx s 0).landing.length ≤ 64 ∧ (getCtx s 0).area = some 0x200000) ∧ (∀ s ∈ ([tFull, tBare] : List State), AtHome s 0x200000 64) ∧ 0x3F < 0x40 ∧ 0xFFFF < 2 ^ 16 ∧
    (findLaunch tBare (getCtx tBare 0).lseq = some tBareLaunch ∧ recField tBareLaunch.record 88 8 = 0 ∧ tBareLaunch.ending = false) ∧
    ((getCtx tHandler 0).serves = some 1 ∧ findLaunch tHandler (getCtx tHandler 1).lseq = some tLaunch ∧ tLaunch.ending = false) ∧
    ∀ l, findLaunch tFull (getCtx tFull 0).lseq = some l → recField l.record 88 8 ≠ 0 := by
  refine ⟨?_, fun s hs => ?_, ?_, ?_, ?_, ?_, tS_handler⟩
  case refine_2 =>
    simp only [List.mem_cons, List.not_mem_nil, or_false] at hs
    rcases hs with rfl | rfl <;> exact tAtHome rfl _ _
  all_goals decide +kernel

/-- Three results for one place land together, two of slot 0 and one of slot 2. -/
def tMet (z : Dest) : State := tState { tCtx with landing := [⟨z, 3, fullMask, 1, 0, 0, false⟩, ⟨z, 9, fullMask, 1, 2, 0, false⟩,
  ⟨z, 7, fullMask, 1, 0, 1, false⟩] }
def tStands (z : Dest) : Landing := ⟨z, 7, fullMask, 1, 0, 1, false⟩

theorem test_witness_LandingBuffer : (∀ z ∈ ([.reg ⟨.x, 31⟩, .fmt, .scl, .csr 1, .csr 2, .csr 3, .csr 4, .csr 5] : List Dest),
      let due := (getCtx (tMet z) 0).landing
      (∀ x ∈ due, x.rem ≤ 1) ∧ tStands z ∈ due ∧
      (∀ x ∈ due, x.dest = z → x = tStands z ∨ 0 < x.slot ∨ (0 = x.slot ∧ x.born < 1)) ∧
      ∃ x ∈ due, ∃ y ∈ due, x.dest = y.dest ∧ x.slot ≠ y.slot) ∧
    fixedReg ⟨.x, 31⟩ = false ∧ (getCtx tS 0).landing = [] ∧ 6 ∉ [1, 2, 3, 4, 5] := by decide +kernel

/-- One write of STATUS lands alone. -/
def tStatus : State := tState { tCtx with wcol := true, landing := [⟨.csr 1, 1, fullMask, 1, 14, 0, false⟩] }

theorem test_witness_LandingBuffer_alone : (getCtx tStatus 0).landing = [⟨.csr 1, 1, fullMask, 1, 14, 0, false⟩] := rfl

/-! Decoding, reset, the step. -/

theorem test_witness_LegalWordIsItsEncoding : (15 : Nat) < 16 ∧ 0x5C800000 < 2 ^ 32 ∧ decodeSlot 0 0x54040000 0x6000 = .ok (.li .sa 0 1 0x6000) ∧
    decodeSlot 15 0x34000000 0 = .ok (.done 0) := by decide

theorem test_sound_reset : Sound State.reset := ⟨by unfold MemOk; decide, rfl⟩

theorem test_witness_StepKeepsSound : Sound State.reset ∧ ∃ t, step State.reset = .next t := ⟨test_sound_reset, _, rfl⟩

theorem test_witness_OnlyPowerStops : (let s := { State.reset with power := false }; s.power = false ∧ nextEvent s ≠ .powerOn) ∧
    (let s := { State.reset with power := false, agenda := [.powerOn] }; s.power = false ∧ nextEvent s = .powerOn) ∧
    State.reset.power = true := by decide +kernel

/-- `add x1, x1, x2` of the listing in 04, and `skip 5`, at 0x10000; the package is about to issue. -/
def tCode (bs : List Byte) : State := { tS with mem := wrBytes [] 0x10000 bs, agenda := [.groupIssue 0] }
def tAdd : State := tCode (bytesLE 4 0x00010001 ++ bytesLE 4 0x00042200)
def tSkip : State := tCode (bytesLE 4 0x04010000)

/-- The same at position 1. -/
def tOdd : State := { tAdd with ctxs := [(1, tCtx)] }

theorem test_witness_GroupFetch : (Instr.add .sa 0 1 1 2).wf = true ∧ (Instr.add .sa 0 1 1 2).slot = some 0 ∧
    (let pc := (me tAdd).pc
      let n := 4 + 4 * (encode (.add .sa 0 1 1 2)).length
      bufferAt (me tAdd) pc = none ∧ pc.toNat % 4 = 0 ∧ pc.toNat % 64 + n ≤ 64 ∧
      (codePlace tAdd 0 pc).toOption = some (tPlain, 0x10000, 0) ∧ readWaits tAdd tPlain (dieOf 0) 0 0x10000 = false ∧
      smGet none (getCore tAdd 0).icache (0x10000 / 64) = none ∧
      rdBytes tAdd.mem 0x10000 n = bytesLE 4 (2 ^ 16 + 2 ^ 0) ++ (encode (.add .sa 0 1 1 2)).flatMap (fun w => bytesLE 4 w.toNat)) := by
  decide +kernel

/-- What a fetch gives. -/
def tFetched (s : State) (p : Nat) : Fetched := match fetchGroup s p (getCtx s p).pc with
  | .ok f => f
  | .error _ => ⟨⟨0, 0, 0, none, [], 0⟩, 0, [], []⟩

/-- Position `q` of core 0 has the turn. -/
def tTurn (s : State) (q : Nat) : Prop :=
  let c := getCtx s q
  let a := installFills 0 { s with agenda := [] }
  (s.power = true ∧ s.agenda = [.groupIssue 0] ∧ s.bustat = 5 ∧ coreLive s 0 = true ∧ s.endw = []) ∧
  (competes c = true ∧ c.bodyWalk = none ∧ c.exiting = false ∧ c.idle = 0 ∧ c.waitIdle = false ∧ c.yield = 0) ∧
  (gateShut a q = false ∧ reached a q c.pc = c.pc ∧ competes (getCtx s (1 - q)) = false ∧ (getCtx s (1 - q)).yield = 0) ∧
  fetchGroup a q c.pc = .ok (tFetched a q) ∧ (tFetched a q).errs = []

theorem tFetches {s : State} {p : Nat} (h : (fetchGroup s p (getCtx s p).pc).toOption.isSome = true) :
    fetchGroup s p (getCtx s p).pc = .ok (tFetched s p) := by
  unfold tFetched
  revert h
  cases fetchGroup s p (getCtx s p).pc
  · exact nofun
  · exact fun _ => rfl

theorem test_witness_StepRunsDecoded : tTurn tAdd 0 ∧ tTurn tSkip 0 ∧ tTurn tOdd 1 := by
  refine ⟨⟨?_, ?_, ?_, tFetches ?_, ?_⟩, ⟨?_, ?_, ?_, tFetches ?_, ?_⟩, ⟨?_, ?_, ?_, tFetches ?_, ?_⟩⟩ <;> decide +kernel

theorem test_witness_StepRunsDecoded_groups : (tFetched tAdd 0).grp = soloGrp (getCtx tAdd 0) (.add .sa 0 1 1 2) 0 ∧
    (tFetched tOdd 1).grp = soloGrp (getCtx tOdd 1) (.add .sa 0 1 1 2) 0 ∧
    (tFetched tSkip 0).grp = skipGrp (getCtx tSkip 0) 4 0 0 ∧ (Instr.skip 4 0 0).wf = true := by decide +kernel


/-! Groups of several operations, and two contexts at the junction. -/

/-- A group of one word for each of the slots `l`. -/
def tGroup (l : List (Nat × Instr)) : List Byte :=
  bytesLE 4 (2 ^ 16 + (l.map (fun x => 2 ^ x.1)).sum) ++ l.flatMap (fun x => (encode x.2).flatMap (fun w => bytesLE 4 w.toNat))

def tAddA : Nat × Instr := (0, .add .sa 0 1 1 2)
def tAddB : Nat × Instr := (1, .add .sb 0 1 1 2)
def tPops : List (Nat × Instr) := [(2, .vpop .va 0 15 3 0 12), (3, .vpop .vb 0 0 3 0 7)]

/-- Two additions; a pop of either vector slot, the queue holding two rows; a `tret` outside supervisor mode. -/
def tBoth : State := tCode (tGroup [tAddA, tAddB])
def tPopTwo : State := { tCode (tGroup tPops) with cores := [(0, { queues := [(3, [⟨7, true⟩, ⟨8, false⟩, ⟨9, false⟩])] })] }
def tTret : State := tCode (tGroup [(15, .tret 0)])

/-- Position 0 stands at an addition in SA, position 1 at the same one, or at one in SB. -/
def tJoin (b : Bool) (c d : Ctx) : State := { tS with
  mem := wrBytes (wrBytes [] 0x10000 (tGroup [tAddA])) 0x10040 (tGroup [tAddB]), agenda := [.groupIssue 0]
  ctxs := [(0, c), (1, { d with pc := if b then 0x10000 else 0x10040 })] }

/-- What `AtGroup` asks, of the group that the fetch gives. -/
def tTurnAt (s : State) (p : Nat) : Prop :=
  competes (getCtx s p) = true ∧ (getCtx s p).bodyWalk = none ∧ (getCtx s p).exiting = false ∧ (getCtx s p).idle = 0 ∧
  (getCtx s p).waitIdle = false ∧ gateShut s p = false ∧ reached s p (getCtx s p).pc = (getCtx s p).pc ∧
  (fetchGroup s p (getCtx s p).pc).toOption.isSome = true ∧ (∀ x ∈ (tFetched s p).grp.ops, x.2.slot = some x.1 ∧ x.1 < 16) ∧
  ((tFetched s p).grp.ops.map (·.1)).Nodup

theorem tAtGroup {s : State} {p : Nat} (h : tTurnAt s p) : AtGroup s p (tFetched s p) :=
  have ⟨a, b, c, d, e, f, g, i, j, k⟩ := h
  ⟨a, b, c, d, e, f, g, tFetches i, j, k⟩

/-- The state in which the group of position `p` alone is tried, and in which those of both are. -/
def tGone (s : State) : State := installFills 0 { s with agenda := [] }
def tTried (s : State) (p : Nat) : State := fillCode p (tFetched (tGone s) p).lines { tGone s with cur := p }
def tTriedTwo (s : State) : State := fillCode 1 (tFetched (tGone s) 1).lines (tTried s 0)
def tOpsOf (u s : State) (p : Nat) : List OpSem :=
  groupOps u p (tFetched (tGone s) p).grp.next (slotOrder (tFetched (tGone s) p).grp.ops)

def tMay (u s : State) (p : Nat) : Prop :=
  firstCause (groupCauses (getCtx u p) (tFetched (tGone s) p) (tOpsOf u s p)) = none ∧ barBlocks u p = false ∧
  groupBlocks (getCtx u p) (getCore u (coreOf p)) (p % 2) (tOpsOf u s p) = false

theorem tMayIssue {u s : State} {p : Nat} (h : tMay u s p) : MayIssue u p (tFetched (tGone s) p) (tOpsOf u s p) := ⟨h.1, h.2.1, h.2.2⟩

theorem test_witness_GroupsAndJunction : ∀ s ∈ ([tBoth, tPopTwo, tTret] : List State),
    (s.power = true ∧ s.agenda = [.groupIssue 0] ∧ s.bustat = 5 ∧ coreLive s 0 = true ∧ s.endw = []) ∧
    AtGroup (tGone s) 0 (tFetched (tGone s) 0) ∧ competes (getCtx s 1) = false ∧ (getCtx s 1).yield = 0 ∧
    (getCtx (tTried s 0) 0).yield = 0 := by
  intro s hs
  simp only [List.mem_cons, List.not_mem_nil, or_false] at hs
  rcases hs with rfl | rfl | rfl <;> exact ⟨by decide +kernel, tAtGroup (by unfold tTurnAt; decide +kernel), by decide +kernel⟩

/-- The group may issue, has a cause, or blocks: its register is pending. -/
theorem test_witness_GroupsAndJunction_ways :
    MayIssue (tTried tBoth 0) 0 (tFetched (tGone tBoth) 0) (tOpsOf (tTried tBoth 0) tBoth 0) ∧ (getCtx (tTried tBoth 0) 0).loops = [] ∧
    (tFetched (tGone tBoth) 0).grp.idle ≤ 1 ∧
    (firstCause (groupCauses (getCtx (tTried tTret 0) 0) (tFetched (tGone tTret) 0) (tOpsOf (tTried tTret 0) tTret 0))).isSome = true ∧
    (let s := { tBoth with ctxs := [(0, { tCtx with pend := [⟨⟨.y, 2⟩, fullMask, 0, 1, 0, false, []⟩] })] };
      firstCause (groupCauses (getCtx (tTried s 0) 0) (tFetched (tGone s) 0) (tOpsOf (tTried s 0) s 0)) = none ∧
      groupBlocks (getCtx (tTried s 0) 0) (getCore (tTried s 0) 0) 0 (tOpsOf (tTried s 0) s 0) = true) :=
  ⟨tMayIssue (by unfold tMay; decide +kernel), by decide +kernel⟩

/-- The operations of a group of additions have no effect beside their results. -/
theorem tAdds_plain (u : State) (p : Nat) (n : Word) (l : List (Nat × Instr)) (h : l = [tAddA] ∨ l = [tAddB] ∨ l = [tAddA, tAddB])
    (o : OpSem) (ho : o ∈ groupOps u p n (slotOrder l)) : o.effect = id ∧ o.seq = .flow := by
  have e : groupOps u p n (slotOrder l) ⊆ [semAdd .sa 0 1 1 2 p u, semAdd .sb 0 1 1 2 p u] := by
    rcases h with rfl | rfl | rfl
    · rw [show groupOps u p n (slotOrder [tAddA]) = [semAdd .sa 0 1 1 2 p u] from rfl]; simp
    · rw [show groupOps u p n (slotOrder [tAddB]) = [semAdd .sb 0 1 1 2 p u] from rfl]; simp
    · rw [show groupOps u p n (slotOrder [tAddA, tAddB]) = [semAdd .sa 0 1 1 2 p u, semAdd .sb 0 1 1 2 p u] from rfl]; simp
  have k := e ho
  simp only [List.mem_cons, List.not_mem_nil, or_false] at k
  rcases k with rfl | rfl <;> exact ⟨rfl, rfl⟩

theorem test_witness_GroupsAndJunction_plain : ∀ o ∈ tOpsOf (tTried tBoth 0) tBoth 0, o.effect = id ∧ o.seq = .flow :=
  fun o h => tAdds_plain _ _ _ _ (.inr (.inr (by decide +kernel))) o h

theorem test_witness_GroupsAndJunction_pops : (tFetched (tGone tPopTwo) 0).grp.ops = tPops ∧ (12 : BitVec 4) ≠ 15 ∧ (7 : BitVec 4) ≠ 15 ∧
    MayIssue (tTried tPopTwo 0) 0 (tFetched (tGone tPopTwo) 0) (tOpsOf (tTried tPopTwo 0) tPopTwo 0) ∧
    queueOf (getCtx (tTried tPopTwo 0) 0) 0 3 = some 3 ∧ queueRows (tTried tPopTwo 0) 0 3 = [⟨7, true⟩, ⟨8, false⟩, ⟨9, false⟩] :=
  ⟨by decide +kernel, by decide, by decide, tMayIssue (by unfold tMay; decide +kernel), by decide +kernel⟩

/-- Two groups of one slot, which context 0, the latency class or fifteen denials decide; two that merge. -/
theorem test_witness_GroupsAndJunction_two : ∀ e ∈ ([(true, 0, false), (true, 15, false), (true, 14, true), (false, 0, false)] :
      List (Bool × Nat × Bool)), let s := tJoin e.1 tCtx { tCtx with denials := e.2.1, latency := e.2.2 };
    (s.power = true ∧ s.agenda = [.groupIssue 0] ∧ s.bustat = 5 ∧ coreLive s 0 = true ∧ s.endw = []) ∧
    AtGroup (tGone s) 0 (tFetched (tGone s) 0) ∧ AtGroup (tGone s) 1 (tFetched (tGone s) 1) ∧
    (getCtx (tTriedTwo s) 0).yield = 0 ∧ (getCtx (tTriedTwo s) 1).yield = 0 ∧ tMay (tTriedTwo s) s 0 ∧ tMay (tTriedTwo s) s 1 ∧
    (tFetched (tGone s) 0).grp.ops = [tAddA] ∧ (tFetched (tGone s) 1).grp.ops = (if e.1 then [tAddA] else [tAddB]) ∧
    (tOpsOf (tTriedTwo s) s 0).map (·.slot) = [0] ∧ (tOpsOf (tTriedTwo s) s 1).map (·.slot) = [if e.1 then 0 else 1] := by
  intro e he
  simp only [List.mem_cons, List.not_mem_nil, or_false] at he
  rcases he with rfl | rfl | rfl | rfl <;>
    exact ⟨by decide +kernel, tAtGroup (by unfold tTurnAt; decide +kernel), tAtGroup (by unfold tTurnAt; decide +kernel), by unfold tMay; decide +kernel⟩

/-- The other context's register is pending. -/
theorem test_witness_GroupsAndJunction_waits : ∀ b : Bool, let d : Ctx := { tCtx with pend := [⟨⟨.x, 2⟩, fullMask, 0, 1, 0, false, []⟩] };
    let s := if b then tJoin true tCtx d else tJoin true d tCtx;
    AtGroup (tGone s) 0 (tFetched (tGone s) 0) ∧ AtGroup (tGone s) 1 (tFetched (tGone s) 1) ∧ tMay (tTriedTwo s) s (if b then 0 else 1) ∧
    (let p := if b then 1 else 0;
      firstCause (groupCauses (getCtx (tTriedTwo s) p) (tFetched (tGone s) p) (tOpsOf (tTriedTwo s) s p)) = none ∧
      groupBlocks (getCtx (tTriedTwo s) p) (getCore (tTriedTwo s) 0) p (tOpsOf (tTriedTwo s) s p) = true) := by
  intro b
  cases b <;> exact ⟨tAtGroup (by unfold tTurnAt; decide +kernel), tAtGroup (by unfold tTurnAt; decide +kernel), by unfold tMay; decide +kernel⟩

/-! Bodies and boundaries of loops. -/

/-- An entry whose body is one group at 0x10000, still to be met, and one whose body is met whole. -/
def tUnmet : LoopEntry := { tLoop 3 with start := 0x10000, scan := 0x10000, last := 0x10000, here := 0x10000, len := 1, left := 1 }
def tWhole (lsp : Bool) (i : Nat) : LoopEntry := { tLoop 3 with
  lsp := lsp, index := i, bound := 4, stages := if lsp then 2 else 0, start := 0xFFC0, scan := 0x10008, last := 0x10000, here := 0x10000, left := 0 }

theorem tWhole_ends (s : State) (b : Bool) (i : Nat) : BodyEnds s 0 (tWhole b i) 0x10008 := by
  refine ⟨rfl, fun m n x y h k hx hy => ?_⟩
  have k : n = 0 := Nat.le_zero.1 k
  subst k
  have h : m = 0 := Nat.le_zero.1 h
  subst h
  cases hx
  cases hy
  exact Nat.le_refl _

theorem tUnmet_ends : BodyEnds tAdd 0 tUnmet 0x10008 := by
  have one : walkFrom tAdd 0 1 0x10000 = .ok 0x10008 := by
    have k : (walkFrom tAdd 0 1 0x10000).toOption = some 0x10008 := by decide +kernel
    revert k
    cases walkFrom tAdd 0 1 0x10000
    · exact nofun
    · exact fun k => congrArg _ (Option.some.inj k)
  refine ⟨one, fun m n x y h k hx hy => ?_⟩
  have k : n ≤ 1 := k
  have hm : m = 0 ∨ m = 1 := by omega
  have hn : n = 0 ∨ n = 1 := by omega
  have zero : walkFrom tAdd 0 0 0x10000 = .ok 0x10000 := rfl
  have hx : walkFrom tAdd 0 m 0x10000 = .ok x := hx
  have hy : walkFrom tAdd 0 n 0x10000 = .ok y := hy
  rcases hm with rfl | rfl <;> rcases hn with rfl | rfl
  · rw [zero] at hx hy; cases hx; cases hy; decide
  · rw [zero] at hx; rw [one] at hy; cases hx; cases hy; decide
  · omega
  · rw [one] at hx hy; cases hx; cases hy; decide

/-- The target 0x10004 lies in the body still to be met and outside one met before it. -/
theorem test_witness_Branches_bodies : (∀ x ∈ [{ tWhole false 0 with start := 0x10005 }], (0x10004 : Word).toNat < x.start.toNat) ∧
    (∀ x ∈ [tWhole true 0], BodyEnds tAdd 0 x 0x10008 ∧ (0x10008 : Word).toNat ≤ (0x10008 : Word).toNat) ∧
    tUnmet.start.toNat ≤ (0x10004 : Word).toNat ∧ BodyEnds tAdd 0 tUnmet 0x10008 ∧ (0x10004 : Word).toNat < (0x10008 : Word).toNat :=
  ⟨by decide, fun x h => by cases List.mem_singleton.1 h; exact ⟨tWhole_ends _ _ _, Nat.le_refl _⟩, by decide, tUnmet_ends, by decide⟩

/-- The group at 0x10000 is the last of the innermost body, of an `lsp` of three items and two stages or of a `loop`, before its last
iteration or in it. -/
def tEdge (lsp : Bool) (i : Nat) : State := tState { tCtx with loops := [tWhole lsp i, tLoop 3], age := 15, gpred := 0x0B }

theorem test_witness_LoopEntries_boundary : ∀ e ∈ ([(true, 0), (true, 3), (false, 3)] : List (Bool × Nat)),
    let s := tEdge e.1 e.2; let m := tWhole e.1 e.2; let i : Instr := .add .sa 2 1 1 2;
    CanIssue s [] 0 ∧ PortsOk i s ∧ (i.slot = some 0 ∧ i.wf = true ∧ guardOn (me s) (guardField i) = false) ∧
    ((me s).loops = m :: [tLoop 3] ∧ m.left = 0 ∧ m.last = (me s).pc ∧ m.start.toNat ≤ (me s).pc.toNat ∧ (me s).pc.toNat < m.scan.toNat) ∧
    (me s).bodyWalk = none ∧ (me s).exiting = false ∧ ¬Due s (.csr 3) ∧ ¬Due s (.csr 4) ∧ (e.1 = true → 1 ≤ m.stages ∧ m.bound = 3 + m.stages - 1) := by
  intro e he
  simp only [List.mem_cons, List.not_mem_nil, or_false] at he
  rcases he with rfl | rfl | rfl <;>
    exact ⟨ready (by decide +kernel) _ _ (by decide), (by intro pre o h; cases Option.some.inj h; decide +kernel), by decide +kernel, by decide +kernel,
      by decide +kernel, by decide +kernel, nofun, nofun, by decide +kernel⟩

theorem test_witness_TrapInstructions_next : (me tS).loops = [] ∧ (me tS).bodyWalk = none ∧ (me tS).exiting = false ∧
    reached tS 0 ((me tS).pc + 8) = (me tS).pc + 8 := by decide +kernel
/-! Events: power, heat, the host, other devices.  Units are the last of their kind. -/

/-- A core and a channel are retired; every core is; every channel is. -/
def tBringUp (b : BitVec 3) : State := { State.reset with bustat := b, retTable := [0x3F0301, 0x1F0F02] }
def tNoCore (b : BitVec 3) : State := { tBringUp b with
  retTable := (List.range 256).map (fun n => BitVec.ofNat 64 (1 + 256 * (n / 64) + 65536 * (n % 64))) }
def tNoChan (b : BitVec 3) : State := { tBringUp b with
  retTable := (List.range 512).map (fun n => BitVec.ofNat 64 (2 + 256 * (n / 32) + 65536 * (n % 32))) }

def tNames (e : Word) (kind size n : Nat) : Prop :=
  e.toNat % 256 = kind ∧ e.toNat / 256 % 256 * size + e.toNat / 65536 % 256 = n
def tRetires (s : State) (kind size n : Nat) : Prop := ∃ e ∈ s.retTable, tNames e kind size n

theorem tNames_of {kind size i n : Nat} (h : kind < 256) (hn : n < 512) (hs : 8 ≤ size) (h64 : size ≤ 64) (hi : i = n) :
    tNames (BitVec.ofNat 64 (kind + 256 * (i / size) + 65536 * (i % size))) kind size n := by
  subst hi
  have hd : i / size ≤ 63 := Nat.le_trans (Nat.div_le_div_left hs (by decide)) (by omega)
  have hm : i % size < size := Nat.mod_lt _ (by omega)
  have he := Nat.div_add_mod i size
  unfold tNames
  rw [BitVec.toNat_ofNat, Nat.mod_eq_of_lt (by omega : kind + 256 * (i / size) + 65536 * (i % size) < 2 ^ 64)]
  generalize i / size = d at *
  generalize i % size = m at *
  have e1 : (kind + 256 * d + 65536 * m) % 256 = kind := by omega
  have e2 : (kind + 256 * d + 65536 * m) / 256 % 256 = d := by omega
  have e3 : (kind + 256 * d + 65536 * m) / 65536 % 256 = m := by omega
  rw [e1, e2, e3, Nat.mul_comm d size]
  exact ⟨rfl, he⟩

theorem tBringUp_free (kind size n : Nat) (h1 : ¬(kind = 1 ∧ 3 * size + 63 = n)) (h2 : ¬(kind = 2 ∧ 15 * size + 31 = n)) (b : BitVec 3) :
    ¬tRetires (tBringUp b) kind size n := by
  rintro ⟨v, hv, h, k⟩
  have m : (tBringUp b).retTable = [0x3F0301, 0x1F0F02] := rfl
  rw [m, List.mem_cons, List.mem_singleton] at hv
  rcases hv with rfl | rfl
  · exact h1 ⟨h.symm, k⟩
  · exact h2 ⟨h.symm, k⟩

theorem test_witness_PowerAndBringUp : { State.reset with power := false }.power = false ∧ State.reset.power = true ∧
    (∀ b ∈ ([1, 2, 3, 4] : List (BitVec 3)), (tBringUp b).bustat = b ∧ 1 ≤ (tBringUp b).bustat.toNat ∧ (tBringUp b).bustat.toNat ≤ 4) ∧
    (4 : BitVec 8).toNat ≤ 4 := by decide +kernel

/-- Enough units are left, beside a lane found dead in training. -/
theorem test_witness_PowerAndBringUp_enough : ∀ b, entryFits (tBringUp b) 0x070F03 = true ∧
    (∃ n < 256, ¬(tRetires (tBringUp b) 1 64 n ∨ tNames 0x070F03 1 64 n) ∧ n ∉ (tBringUp b).failCores) ∧
    ∃ n < 512, ¬(tRetires (tBringUp b) 2 32 n ∨ tNames 0x070F03 2 32 n) := by
  intro b
  refine ⟨by decide +kernel +revert, ⟨0, by decide, ?_, List.not_mem_nil⟩, 0, by decide, ?_⟩ <;>
    (rintro (h | ⟨h, -⟩)
     · exact tBringUp_free _ _ _ (by decide) (by decide) b h
     · exact absurd h (by decide))

/-- No core, or no channel, is left. -/
theorem test_witness_PowerAndBringUp_none (b : BitVec 3) : (∀ n < 256, tRetires (tNoCore b) 1 64 n) ∧
    (∀ n < 512, tRetires (tNoChan b) 2 32 n) ∧ ∃ n < 256, ¬tRetires (tNoChan b) 1 64 n ∧ n ∉ (tNoChan b).failCores := by
  refine ⟨fun n h => ⟨_, List.mem_map.2 ⟨n, List.mem_range.2 h, rfl⟩, ?_⟩, fun n h => ⟨_, List.mem_map.2 ⟨n, List.mem_range.2 h, rfl⟩, ?_⟩,
    0, by decide, ?_, List.not_mem_nil⟩
  · exact tNames_of (by decide) (by omega) (by decide) (by decide) rfl
  · exact tNames_of (by decide) h (by decide) (by decide) rfl
  · rintro ⟨v, hv, k, -⟩
    obtain ⟨m, hm, rfl⟩ := List.mem_map.1 hv
    have hm := List.mem_range.1 hm
    rw [BitVec.toNat_ofNat] at k
    omega

def tHeat : State := { tS with holds := [15], cores := [(255, { moves := [1] })] }

theorem test_witness_ThermalAndPoints : (15 : Nat) < 16 ∧ 15 ∈ tHeat.holds ∧ (255 : Nat) < 256 ∧ (3 : Nat) < 4 ∧
    (getCore tHeat 255).moves ≠ [] ∧ (getCore tHeat 254).moves = [] := by decide +kernel

/-- Page 2^36 - 1 is granted to device 7; the retirement table lacks one entry of being full. -/
def tHost : State := { tS with grants := [(2 ^ 36 - 1, .owned 7)], retTable := (List.range 1023).map (fun i => BitVec.ofNat 64 i) }

theorem test_witness_HostAndPeers : tHost.bustat = 5 ∧ tHost.power = true ∧ { tHost with power := false }.power = false ∧
    tHost.retTable.length < 1024 ∧
    (∀ e ∈ ([(1, 0x3F0301, 4, 64), (2, 0x1F0F02, 16, 32), (3, 0x070F03, 16, 8)] : List (Nat × Word × Nat × Nat)),
      e.2.1.toNat < 2 ^ 24 ∧ e.2.1.toNat % 256 = e.1 ∧ e.2.1.toNat / 256 % 256 < e.2.2.1 ∧ e.2.1.toNat / 65536 % 256 < e.2.2.2) ∧
    4096 ≤ (4096 : Word).toNat ∧ (4096 : Word).toNat ≤ 4096 ∧ (16 : Word).toNat ≤ 16 ∧ 2 ^ 52 ≤ 2 ^ 52 := by decide +kernel

/-- The last line below 2^52 - 2^16, clean and unshared. -/
theorem test_witness_HostAndPeers_aperture :
    let pa := 2 ^ 52 - 2 ^ 17 + 63
    let w := placeOf tHost tPlain (tHost.hcfg.toNat % 4) pa
    pa % 64 + 1 ≤ 64 ∧ pa < 2 ^ 52 ∧ plLtype tPlain = 0 ∧ plTier tPlain ≤ 1 ∧ plCache tPlain ≠ 2 ∧
    smGet Grant.none tHost.grants (w.1 % 2 ^ 52 / 2 ^ 16) = .none ∧ stackWaits tHost tPlain (tHost.hcfg.toNat % 4) w.2 w.1 = false ∧
    lineLost tHost tPlain (keyDie w.1) (w.1 % 2 ^ 52) = false := by decide +kernel

/-- Device 1023 asks for the last page but one, for its last eight bytes, and for the page of device 7. -/
theorem test_witness_HostAndPeers_peers :
    let page := 2 ^ 36 - 2
    let off := 2 ^ 16 - 8
    let a := page * 2 ^ 16 + off
    let z := placeOf tHost tPlain 0 a
    (portsDown tHost = false ∧ (1023 : Nat) < 1024 ∧ page < 2 ^ 36 ∧ smGet Grant.none tHost.grants page = .none) ∧
    (off < 2 ^ 16 ∧ plTier tPlain < 2 ∧ plLtype tPlain = 0 ∧ plRepl tPlain ≠ 2 ∧ stackWaits tHost tPlain 0 z.2 z.1 = false ∧
      lineLost tHost tPlain (keyDie z.1) (z.1 % 2 ^ 52) = false) ∧
    (0 < 8 ∧ a % 64 + 8 ≤ 64 ∧ a % 8 = 0 ∧ restripingFrame tHost page = false ∧
      (gamNew 6 (BitVec.ofNat 64 (rdNat tHost.mem z.1 8)) 0 7).isSome = true) ∧
    smGet Grant.none tHost.grants (2 ^ 36 - 1) = .owned 7 ∧
    16 * 2 ^ 36 - 1 < 16 * 2 ^ 36 ∧ restripingFrame tHost (16 * 2 ^ 36 - 1) = false := by decide +kernel

/-- No lane of the ports is left; a recall at open ports meets no held command. -/
theorem test_witness_HostAndPeers_recalls : portsDown { tHost with deadLanes := List.range 128 } = true ∧ portsDown tHost = false ∧
    tHost.cmds = [] ∧ 16 * 2 ^ 36 ≤ 16 * 2 ^ 36 := by decide +kernel

/-- A restripe has marked page 2, which no device holds. -/
theorem test_witness_HostAndPeers_marked :
    let x : Xfer := {
      restripe := true, tag := 0, gaddr := 0x10000, card := 0, first := 0x20000, count := 1, place := tPlain, next := 0, marked := true
      old := tPlain, pa := 0x20000, leaf := 0x106010, locks := [], held := none, dropped := false, landed := false, buf := []
      bufBad := false, own := [], num := 0 }
    let s := { tState { tCtx with xfers := [x] } with grants := [] }
    restripingFrame s 2 = true ∧ smGet Grant.none s.grants 2 = .none := by decide +kernel

/-- Launch 1 has read poisoned data; it is restartable or not, and has been replayed `n` times. -/
def tPoison (b : Bool) (n : Nat) : Launch := { tLaunch with poison := true, restartable := b, replays := n }

def tUndo : WLog := ⟨1024, tPlain, 1, 7, true⟩
/-- Launch 1 is to be rolled back, with a journal in force, and die 3's log holds one write of it. -/
def tBack (b : Bool) : State := { tS with
  launches := [{ tLaunch with raised := true, restartable := b }], ctxs := [], dies := [(3, { wlog := [tUndo] })]
  journal := some (0x40000, 6, 0x50000, 1) }

theorem test_witness_ErrorsAndFailures : 2 ^ 64 - 1 < 2 ^ 64 ∧ 511 < 512 ∧ errorFiles[12]? = some .w ∧
    coreLive tS 255 = true ∧ (15 : Nat) < 16 ∧ (31 : Nat) < 32 ∧ 32 * 15 + 31 ∉ tS.deadChans ∧
    32 * 15 + 31 ∉ tS.failChans ∧ 8 * 15 + 7 ∉ tS.deadLanes ∧ 8 * 15 + 7 ∉ tS.failLanes ∧
    (∀ b, ∀ n ∈ [1, 2], findLaunch { tS with launches := [tPoison b n] } 1 = some (tPoison b n)) ∧ tLaunch.raised = false ∧
    tLaunch.ending = false := by decide +kernel

/-- No byte of the launch's entry lies in the logged line. -/
theorem tBack_entry (b : Bool) (k : Nat) (h : inEntry (tBack b) 1 k) : k < 64 * tUndo.line ∨ 64 * tUndo.line + 64 ≤ k := by
  obtain ⟨r, off, n, hr, h1, h2, h3⟩ := h
  have e : ringOf (tBack b) = some ⟨0x40000, 64, 0x50000, 1⟩ := rfl
  rw [e] at hr
  cases hr
  have hl : tUndo.line = 1024 := rfl
  simp only [memKey] at h2 h3
  omega

theorem test_witness_ErrorsAndFailures_rollback (b : Bool) : (findLaunch (tBack b) 1 = some { tLaunch with raised := true, restartable := b } ∧
      tLaunch.ending = false ∧ (∀ z ∈ (tBack b).ctxs, z.2.lseq ≠ 1) ∧ (getDie (tBack b) 3).wlog = [tUndo] ∧ tUndo.seq = 1 ∧
      lineLost (tBack b) tUndo.place (keyDie (64 * tUndo.line)) (64 * tUndo.line % 2 ^ 52) = false ∧ plRepl tUndo.place ≠ 2 ∧
      grantHolds (tBack b) tUndo.place (64 * tUndo.line) true = false ∧ readWaits (tBack b) tUndo.place 3 3 (64 * tUndo.line) = false) ∧
    (∀ x, x ≠ 3 → (getDie (tBack b) x).wlog = []) ∧ ringOf (tBack b) = some ⟨0x40000, 64, 0x50000, 1⟩ ∧ AtHome (tBack b) (0x40000 + 64) 64 := by
  refine ⟨by decide +kernel +revert, fun x hx => ?_, rfl, tAtHome rfl _ _⟩
  unfold getDie tBack smGet
  simp [Ne.symm hx]

/-! Events: commands, launches, binding, pre-emption, causes. -/

def tCmd (n : Nat) : BitVec 512 := BitVec.ofNat 512 n
def tOpen : State := { tDlc with launches := [], ctxs := [] }

/-- The ring of 64 entries is full: launch 1 still has the entry that launch 65 would take. -/
def tFullRing : State := { tDlc with nextSeq := 65 }

theorem test_witness_HostCommands : State.reset.bustat ≠ 5 ∧ cmdReserved (tCmd 5) = true ∧ tOpen.bustat = 5 ∧ tOpen.launches = [] ∧
    (let f := cmdField (tCmd (1 + 64 * 2 ^ 64));
      cmdReserved (tCmd (1 + 64 * 2 ^ 64)) = false ∧ f 0 1 = 1 ∧ f 8 8 % 64 = 0 ∧ f 8 8 < 2 ^ 52 ∧ entryFree tOpen tOpen.nextSeq = true ∧
      tOpen.cmds = [] ∧ cmdBars (tCmd (1 + 64 * 2 ^ 64)) tOpen = []) ∧
    (let f := cmdField (tCmd (2 + 0xFFFF * 2 ^ 128));
      cmdReserved (tCmd (2 + 0xFFFF * 2 ^ 128)) = false ∧ f 0 1 = 2 ∧ ∀ d < 4, popBits 64 (f (16 + 8 * d) 8) ≤ 16) ∧
    (let f := cmdField (tCmd (3 + 2 ^ 80 + 16 * 2 ^ 128 + 2 ^ 209));
      cmdReserved (tCmd (3 + 2 ^ 80 + 16 * 2 ^ 128 + 2 ^ 209)) = false ∧ f 0 1 = 3 ∧ f 8 8 % 65536 = 0 ∧ f 8 8 < 2 ^ 52 ∧ 6 ≤ f 16 1 ∧
      f 16 1 ≤ 16 ∧ f 24 8 % 65536 = 0 ∧ f 24 8 < 2 ^ 52) ∧
    (let f := cmdField (tCmd (4 + 255 * 2 ^ 128 + 1023 * 2 ^ 144 + 2 ^ 168));
      cmdReserved (tCmd (4 + 255 * 2 ^ 128 + 1023 * 2 ^ 144 + 2 ^ 168)) = false ∧ f 0 1 = 4 ∧ f 18 2 < 1024 ∧ f 21 1 ≤ 1) := by
  decide +kernel

theorem test_witness_HostCommands_home (a n : Nat) : AtHome tOpen a n ∧ AtHome State.reset a n := ⟨tAtHome rfl _ _, tAtHome rfl _ _⟩

/-- A command of each kind that is refused: a record off its 64 bytes or above 2^52, a full ring; seventeen clusters; a ring
off its page, one of 5 or 17, an area off its page, launches in flight; a device of 1,024, an ENABLE of 2. -/
theorem test_witness_HostCommands_refused :
    (∀ n ∈ [1 + 65 * 2 ^ 64, 1 + 2 ^ 116], cmdField (tCmd n) 0 1 = 1 ∧ (cmdField (tCmd n) 8 8 % 64 ≠ 0 ∨ 2 ^ 52 ≤ cmdField (tCmd n) 8 8)) ∧
    entryFree tFullRing tFullRing.nextSeq = false ∧
    (cmdField (tCmd (2 + 0x1FFFF * 2 ^ 320)) 0 1 = 2 ∧ 16 < popBits 64 (cmdField (tCmd (2 + 0x1FFFF * 2 ^ 320)) (16 + 8 * 3) 8)) ∧
    (∀ n ∈ [3 + 2 ^ 79 + 6 * 2 ^ 128, 3 + 5 * 2 ^ 128, 3 + 17 * 2 ^ 128, 3 + 6 * 2 ^ 128 + 2 ^ 207, 3 + 6 * 2 ^ 128 + 2 ^ 244],
      let f := cmdField (tCmd n)
      f 0 1 = 3 ∧ (f 8 8 % 65536 ≠ 0 ∨ f 16 1 < 6 ∨ 16 < f 16 1 ∨ f 24 8 % 65536 ≠ 0 ∨ 2 ^ 52 ≤ f 24 8)) ∧ tDlc.launches ≠ [] ∧
    (∀ n ∈ [4 + 1024 * 2 ^ 144, 4 + 2 * 2 ^ 168], let f := cmdField (tCmd n); f 0 1 = 4 ∧ (1024 ≤ f 18 2 ∨ 2 ≤ f 21 1)) := by
  decide +kernel

/-- A launch whose record is the last 64 bytes of page 1 and goes on into page 2; a journal of 65,536 entries from page 2. -/
def tAskLaunch : BitVec 512 := tCmd (1 + 0x1FFC0 * 2 ^ 64)
def tAskRing : BitVec 512 := tCmd (3 + 0x20000 * 2 ^ 64 + 16 * 2 ^ 128)
def tGrant (page : Nat) (g : Grant) : State := { tOpen with grants := [(page, g)] }

theorem test_witness_HostCommands_held :
    (∀ g ∈ [1, 2], let s := tGrant g (.owned 7); let f := cmdField tAskLaunch;
      s.cmds = [] ∧ s.bustat = 5 ∧ cmdReserved tAskLaunch = false ∧ f 0 1 = 1 ∧ f 8 8 % 64 = 0 ∧ f 8 8 < 2 ^ 52 ∧
      entryFree s s.nextSeq = true ∧ (g = f 8 8 / 2 ^ 16 ∨ g = (f 8 8 + 511) / 2 ^ 16) ∧ pageGranted s g false = true) ∧
    (∀ e ∈ ([(2, .shared [1023]), (65, .owned 7)] : List (Nat × Grant)), let s := tGrant e.1 e.2; let f := cmdField tAskRing;
      s.cmds = [] ∧ s.bustat = 5 ∧ cmdReserved tAskRing = false ∧ f 0 1 = 3 ∧ f 8 8 % 65536 = 0 ∧ f 8 8 < 2 ^ 52 ∧ 6 ≤ f 16 1 ∧ f 16 1 ≤ 16 ∧
      f 24 8 % 65536 = 0 ∧ f 24 8 < 2 ^ 52 ∧ s.launches = [] ∧ f 8 8 / 2 ^ 16 ≤ e.1 ∧ 2 ^ 16 * e.1 < f 8 8 + 64 * 2 ^ f 16 1 ∧
      pageGranted s e.1 true = true) ∧
    (let s := { tGrant 1 (.owned 7) with cmds := [tAskLaunch] };
      s.cmds = tAskLaunch :: [] ∧ cmdRefused tAskLaunch s = false ∧ cmdBars tAskLaunch s ≠ []) := by decide +kernel

/-- A record of one cluster of four cores with one context each, whose launch has the number 1. -/
def tRec : BitVec 4096 := BitVec.ofNat 4096 (2 ^ 64 + 4 * 2 ^ 80 + 2 ^ 88 + 0x5000 * 2 ^ 704)
def tWith (l : Launch) (cs : SMap Ctx) : State := { tDlc with launches := [l], ctxs := cs, savecnt := 8, savebase := 0x200000 }
def tAcc : Launch := { tLaunch with record := tRec, st := .accepted, bound := 0, waves := [], preds := [(9, some true)] }
def tDisp : Launch := { tAcc with st := .dispatched, nclus := 1 }

theorem test_witness_LaunchLife :
    (findLaunch (tWith tAcc []) 1 = some tAcc ∧ tAcc.st = .accepted ∧ (∀ q ∈ tAcc.preds, q.2 = some true) ∧ tAcc.apportioned = false ∧
      recFlag tAcc.record 0 = false ∧ recFlag tAcc.record 1 = false ∧ recNclus tAcc.record ≠ 0 ∧
      dispatchBars (tWith tAcc []) tAcc = [] ∧ deviceBars (tWith tAcc []) [tAcc.slot / 2 ^ 16] = []) ∧
    (∃ q ∈ { tAcc with preds := [(9, some false)] }.preds, q.2 = some false) ∧
    (mayBind (tWith tDisp []) tDisp = true ∧ recFlag tDisp.record 2 = false ∧ recCtxs tDisp.record = 1 ∧
      coresFor (tWith tDisp []) tDisp 63 = some [252, 253, 254, 255] ∧ rangeBars (tWith tDisp []) tDisp.asn (recRanges tDisp.record) = [] ∧
      recCores tDisp.record * recCtxs tDisp.record ≤ (freeAreas (tWith tDisp [])).length) ∧
    (tLaunch.st ≠ .accepted ∧ tLaunch.ending = false ∧ tLaunch.poison = false ∧ tLaunch.raised = false ∧ tLaunch.nclus ≤ tLaunch.bound ∧
      ctxsOf (tWith tLaunch []) 1 = [] ∧ launchBusy (tWith tLaunch []) 1 = false) ∧
    (let s := tWith { tLaunch with ending := true } [(510, { st := .restoring }), (511, { st := .draining })];
      ctxsOf s 1 = [] ∧ (getCtx s 510).st = .restoring ∧ (getCtx s 510).needHandler = false ∧ (getCtx s 510).hold = none ∧
      (getCtx s 511).st = .draining ∧ writesLeft (getCtx s 511) = false) := by
  refine ⟨?_, ⟨(9, some false), List.mem_cons_self, rfl⟩, ?_⟩ <;> decide +kernel

/-- A range of pages 1 and 2, both mapped, that an extent table of eight entries holds whole, and of page 3, which is not. -/
theorem test_witness_LaunchLife_ranges : let s := { tS with mem := tTable [] }; let rs : List Range := [⟨0x10000, 0x30000, 7⟩];
    (∀ v ∈ [1, 2], (∃ r ∈ rs, r.base / 2 ^ 16 ≤ v ∧ v < r.base / 2 ^ 16 + r.len / 2 ^ 16) ∧
      (walkTable s 3 (sextW 48 (v % 2 ^ 32 * 2 ^ 16))).kind = .leaf) ∧
    (walkTable s 3 (sextW 48 (3 * 2 ^ 16))).kind = .absent ∧ (tableOf s 3 8 rs).length < 8 := by decide +kernel

/-- Clusters of one context and of two, the second with parameters from an expert's block. -/
theorem test_witness_LaunchLife_bind : ∀ n ∈ [1, 2],
    let l := { tDisp with record := BitVec.ofNat 4096 (2 ^ 64 + 4 * 2 ^ 80 + n * 2 ^ 88 + 0x5000 * 2 ^ 704), apportioned := n == 2, assign := [(5, 3, 2)] }
    let s := tWith l []
    mayBind s l = true ∧ recFlag l.record 2 = false ∧ recCtxs l.record = n ∧ coresFor s l 63 = some [252, 253, 254, 255] ∧
    recCores l.record * recCtxs l.record ≤ (freeAreas s).length ∧ rangeBars s l.asn (recRanges l.record) = [] := by decide +kernel

/-- An apportioned launch whose block, in the launch's slot, names one expert of one token, and a context that drains with a
write left. -/
def tBlk : Launch := { tAcc with apportioned := true, slot := 0x60000 }
def tBlock : State := { tWith tBlk [(511, { st := .draining, reqs := [reqAt tS 0 .store 0 (tPage 1 tPlain) 0x10000 8] })] with
  mem := wrNat (wrNat [] 0x60200 6 (1 + 2 ^ 16 + 2 ^ 32)) 0x60340 4 (32 * 2 ^ 16) }

theorem test_witness_LaunchLife_block : findLaunch tBlock 1 = some tBlk ∧ tBlk.st = .accepted ∧ (∀ q ∈ tBlk.preds, q.2 = some true) ∧
    tBlk.apportioned = true ∧ recFlag tBlk.record 1 = false ∧ dispatchBars tBlock tBlk = [] ∧ deviceBars tBlock [tBlk.slot / 2 ^ 16] = [] ∧
    (let head := rdBytes tBlock.mem (memKey 0 tBlk.slot) 832;
      blockAssign (head ++ rdBytes tBlock.mem (memKey 0 (tBlk.slot + 832)) (16 * blkWord head 516 2)) = [(0, 0, 1)]) ∧
    (getCtx tBlock 511).st = .draining ∧ writesLeft (getCtx tBlock 511) = true := by decide +kernel

/-- Position 511 is bound as the context says, position 510 as `d` does. -/
def tTop (c d : Ctx) : State := { tWith tLaunch [(510, d), (511, c)] with saved := [] }

theorem test_witness_PreemptionAndHandlers :
    (let s := tTop tCtx { tCtx with st := .trapped, needHandler := true };
      (getCtx s 511).st = .ready ∧ (getCtx s 511).sup = false ∧ inHandlerWay s 511 = true) ∧
    (let s := tTop { tCtx with st := .trapped, hold := some (plainCause 0x10 11) } { tCtx with st := .trapped, needHandler := true };
      onHold (getCtx s 511) = true ∧ (getCtx s 511).sup = false ∧ inHandlerWay s 511 = true) ∧
    (let s := tTop { tCtx with st := .trapped, hold := some (plainCause 0x10 11), preempt := true } {};
      (getCtx s 511).preempt = true ∧ onHold (getCtx s 511) = true) ∧
    (let s := tTop { tCtx with preempt := true } {};
      (getCtx s 511).st = .ready ∧ (getCtx s 511).preempt = true ∧ (getCtx s 511).loops = []) ∧
    (let s := tTop { tCtx with st := .saving } {}; (getCtx s 511).st = .saving ∧ saveReady s 511 = true ∧
      (getCtx s 511).area = some 0x200000 ∧ 0x200000 % 2 ^ 20 = 0 ∧ s.grants = []) ∧
    (let s := tTop { tCtx with preempt := true, loops := [tLoop 3] } {};
      (getCtx s 511).st = .ready ∧ (getCtx s 511).preempt = true ∧ (getCtx s 511).loops ≠ [] ∧ (getCtx s 511).atPoint = false ∧
      findLaunch s (getCtx s 511).lseq = some tLaunch ∧ tLaunch.ending = false) ∧
    (let s := tTop { tCtx with preempt := true, st := .trapped, needHandler := true } {};
      (getCtx s 511).st = .trapped ∧ (getCtx s 511).preempt = true ∧ onHold (getCtx s 511) = false ∧
      findLaunch s (getCtx s 511).lseq = some tLaunch) ∧
    (let s := tTop { tCtx with st := .trapped, needHandler := true } {};
      (getCtx s 511).st = .trapped ∧ (getCtx s 511).needHandler = true ∧ findLaunch s (getCtx s 511).lseq = some tLaunch ∧
      (freeAreas s).head? = some 0x300000 ∧ (getCtx s (otherPos 511)).st = .free ∧ coreLive s (coreOf 511) = true) := by
  decide +kernel

/-- Of the accumulator rows kept, row 0 alone is not zero. -/
def tSaved : Saved := ⟨512, 255, [(0, 7)], [], [], []⟩

theorem test_witness_PreemptionAndHandlers_resume :
    let s := { tWith tLaunch [(512, { tCtx with st := .saving })] with saved := [tSaved] };
    s.saved.find? (fun x => x.key == 512) = some tSaved ∧ coreOf 511 = tSaved.core ∧ 512 ≤ 512 ∧ mayResume s (getCtx s 512) 511 = true ∧
    deviceBars s (areaPages (getCtx s 512)) = [] ∧ 255 < accRows (getCtx s 512) ∧ ∀ e ∈ tSaved.acc, e.1 ≠ 255 := by
  decide +kernel

/-- A context whose next group lies outside every range, and one that waits at a cause of its earlier work. -/
def tOut : State := tState { tCtx with pc := 0x90000 }
def tLate : Cause := { plainCause 0xFFFF 31 with info := 0x7FFFFFFFFFFFFFFF }

theorem test_witness_CausesAndTranslation : (let c := getCtx tOut 0;
      competes c = true ∧ c.bodyWalk = none ∧ c.exiting = false ∧ c.idle = 0 ∧ c.waitIdle = false ∧ reached tOut 0 c.pc = c.pc) ∧
    gateShut tOut 0 = false := by decide +kernel

theorem test_witness_CausesAndTranslation_fetch : ∃ e, fetchGroup tOut 0 (getCtx tOut 0).pc = .error (.cause e) ∧ e.rank = 1 := ⟨_, rfl, rfl⟩

theorem test_witness_CausesAndTranslation_late : let c := getCtx (tState { tCtx with after := [plainCause 1 0, tLate] }) 0;
    c.st = .ready ∧ c.idle = 0 ∧ c.waitIdle = false ∧ c.after[1]? = some tLate ∧ tLate.info.getLsbD 63 = false ∧ tLate.code < 2 ^ 16 ∧
    tLate.slot < 32 ∧ c.serves = none := by decide +kernel

/-- The named handler that the causes ask for is the one of `tS`. -/
theorem test_witness_CausesAndTranslation_named (c : Ctx) (h : c.lseq = 1) : ∀ l, findLaunch (tState c) (getCtx (tState c) 0).lseq = some l →
    recField l.record 88 8 ≠ 0 := by
  have k : getCtx (tState c) 0 = c := rfl
  intro l hl
  rw [k, h] at hl
  exact tS_handler l hl

def tHeld (n : Nat) : Cause := { plainCause n 11 with addr := 0x10000 }
def tHold (n : Nat) : State := { tState { tCtx with st := .trapped, hold := some (tHeld n) } with mem := tTable [] }

theorem test_witness_CausesAndTranslation_resolve : (∀ n ∈ ([0x10, 0x11, 0x12, 0x14] : List Nat),
      (getCtx (tHold n) 0).hold = some (tHeld n) ∧ (getCtx (tHold n) 0).st = .trapped ∧ (tHeld n).code = n ∧
      (getCtx (tHold n) 0).serves = none) ∧ (walkFor (tHold 0x10) 0 0x10000).kind = .leaf ∧
    (∀ w, walkWaits (tHold 0x10) 0 0x10000 w = []) ∧ walkBars (tHold 0x14) (getCtx (tHold 0x14) (extOwner (tHold 0x14) 0)).asn 0x10000 true = [] := by decide +kernel

/-- A walk with destinations c31 and c0: of page 1, and of page 9, which is absent. -/
def tWalk (v : Word) : Walk := ⟨false, true, 0x10000, v, 7, none, 0⟩
def tWalks (v : Word) : State := { tState { tCtx with
    walks := [tWalk v], pend := [⟨commonReg 31, fullMask, 7, 1, 0, false, []⟩, ⟨commonReg 0, fullMask, 8, 1, 0, false, []⟩] } with
  mem := tTable [] }

/-- What both walks ask. -/
def tWalksOk (v : Word) : Prop :=
  let c := getCtx (tWalks v) 0
  c.walks[0]? = some (tWalk v) ∧ (tWalk v).held = none ∧ (tWalk v).probe = false ∧ c.landing = [] ∧ walkTurn (tWalks v) 0 (tWalk v) = true ∧
  walkBars (tWalks v) (getCtx (tWalks v) (extOwner (tWalks v) 0)).asn v true = [] ∧
  c.pend.find? (fun q => q.id == 7) = some ⟨commonReg 31, fullMask, 7, 1, 0, false, []⟩ ∧
  c.pend.find? (fun q => q.id == 8) = some ⟨commonReg 0, fullMask, 8, 1, 0, false, []⟩ ∧
  (∀ q ∈ c.pend, q.id = 7 → q = ⟨commonReg 31, fullMask, 7, 1, 0, false, []⟩) ∧
  (∀ q ∈ c.pend, q.id = 8 → q = ⟨commonReg 0, fullMask, 8, 1, 0, false, []⟩)

theorem test_witness_CausesAndTranslation_walk : tWalksOk 0x10000 ∧ tWalksOk 0x90000 ∧
    (let r := walkTable (tWalks 0x10000) (getCtx (tWalks 0x10000) (extOwner (tWalks 0x10000) 0)).asn 0x10000;
      r.kind = .leaf ∧ leafGrants r.frame 3 false = true) ∧
    (walkTable (tWalks 0x90000) (getCtx (tWalks 0x90000) (extOwner (tWalks 0x90000) 0)).asn 0x90000).kind = .absent :=
  ⟨by unfold tWalksOk; decide +kernel, by unfold tWalksOk; decide +kernel, by decide +kernel⟩

def tLog : State := { tState { tCtx with xinvOut := [(1, 16384)] } with cores := [(0, { slog := [tSide], filter := 2 })] }

theorem test_witness_CausesAndTranslation_log : (getCtx tLog 0).xinvOut = (1, 16384) :: [] ∧ (getCore tLog 0).slog = tSide :: [] ∧
    coreOf tSide.pos = 0 ∧ tSide.cause = none ∧ tSide.kind = .store ∧ plLtype (tPage 1 tPlain).place = 0 ∧
    (match replayOf tLog tSide with
      | .go x => decide (x = tPage 1 tPlain)
      | _ => false) = true := by decide +kernel

/-! Events: the matrix engine, the memory path, transfers, lattices, links. -/

def tAcz (b : Bool) : MOp := { mopBase tCtx .acz with started := b, desc := 255 * 2 ^ 32 }
def tMop (m : MOp) (n : Nat) : State := { tState { tCtx with mops := [m] } with
  cores := [(0, { queues := [(3, List.replicate n ⟨9, false⟩)] })] }
def tDrn : MOp := { mopBase tCtx .drn with started := true, q := 3, waited := 4096 }

theorem test_witness_MatrixEngine_ops :
    ((getCtx (tMop (tAcz false) 0) 0).mops[0]? = some (tAcz false) ∧ (tAcz false).arr = none ∧ (tAcz false).fallback = false ∧
      (tAcz false).cl = false ∧ mopReady (tMop (tAcz false) 0) 0 0 = true ∧ engineRuns (tMop (tAcz false) 0) 0 = true) ∧
    ((getCtx (tMop (tAcz true) 0) 0).mops[0]? = some (tAcz true) ∧ (tAcz true).kind = .acz ∧ (tAcz true).started = true ∧ (tAcz true).lost = false) ∧
    (∀ n ∈ ([63, 64] : List Nat), (getCtx (tMop tDrn n) 0).mops[0]? = some tDrn ∧ tDrn.kind = .drn ∧ tDrn.started = true ∧
      tDrn.overflow = 0 ∧ 4096 ≤ tDrn.waited ∧ queueOf (getCtx (tMop tDrn n) 0) 0 tDrn.q = some 3 ∧ (queueRows (tMop tDrn n) 0 3).length = n ∧
      (getCtx (tMop tDrn n) 0).st = .ready ∧ engineRuns (tMop tDrn n) 0 = true) := by decide +kernel

/-- A `cim`, an `smx` and an `acz` of 256 rows, each in its last column block. -/
theorem test_witness_MatrixEngine_elements : 255 < descRows (0x7F800000 : Word) ∧
    (∀ e ∈ ([(.cim, 1), (.smx, 2), (.acz, 2)] : List (MKind × Nat)), ({ mopBase tCtx e.1 with cb := e.2 } : MOp).kind = e.1) ∧
    ({ mopBase tCtx .cim with skip := 8 } : MOp).skip.getLsbD 3 = true ∧ (mopBase tCtx .smx).skip.getLsbD 7 = false := by decide +kernel

/-- Array 15 fills from memory, array 14 from array 4, whose tile a `wpre` wants in two copies. -/
def tFill : State := { tState { tCtx with mops := [{ mopBase tCtx .wpre with tag := tTag, n := 2, started := true }] } with
  cores := [(0, { arrays := [(4, { tArr 1 with pin := false }), (14, { tArr 9 with st := .filling, source := some 4 }),
    (15, { tArr 9 with st := .filling })] })] }

/-- The image lies in a peer page of COH 3, whose lines no L2 keeps, the first of them poisoned or not. -/
def tImage (bad : SMap Bool) : State := { tFill with
  cores := [(0, { arrays := [(15, { tArr 9 with st := .filling, place := 0x8000000003000000 })] })], lineBad := bad }

/-- An image on live channels with no mark reads clean. -/
theorem tClean (s : State) (core a : Nat) (h1 : s.failChans = []) (h2 : s.lineBad = []) : arrImageBad s core a = false := by
  unfold arrImageBad keysBad keyBad lineLost
  rw [h1, h2]
  simp only [smGet]
  rw [List.any_eq_false]
  intro i _
  split <;> simp

def tAsk (s : State) : Bool := (imageAsk 0 (getArr s 0 15).place (getArr s 0 15).key (getArr s 0 15).tag.wfmt s).2

theorem test_witness_MatrixEngine_arrays : (∀ s ∈ ([tFill, tImage [], tImage [(9 * 1024, true)]] : List State),
      (getArr s 0 15).st = .filling ∧ (getArr s 0 15).source = none ∧ plCache (getArr s 0 15).place ≠ 2) ∧
    tAsk tFill = false ∧ tAsk (tImage []) = true ∧ tAsk (tImage [(9 * 1024, true)]) = true ∧
    arrImageBad (tImage [(9 * 1024, true)]) 0 15 = true ∧
    (getArr tFill 0 14).st = .filling ∧ (getArr tFill 0 14).source = some 4 ∧ (replicaOf tFill 0 4).isSome = true := by decide +kernel

theorem test_witness_MatrixEngine_clean : arrImageBad (tImage []) 0 15 = false := tClean (tImage []) 0 15 rfl rfl

def tReq (k : GKind) (d : Bool) : GReq := { reqAt tS 0 k 0 (tPage 1 tPlain) 0x1FFC0 64 with done := d }
/-- One access to the last line of page 1, which is in its home L2. -/
def tAccess (k : GKind) (d : Bool) : State := { tState { tCtx with reqs := [tReq k d] } with
  dies := [(0, { l2 := [(0x1FFC0 / 64, ⟨true, none, false, 0xFFFFFF, 0xFFFFFF⟩)] })], cores := [(0, { pts := 0xFFFFFF })] }

theorem test_witness_MemoryEngine_accesses :
    (∀ k ∈ ([.load, .store] : List GKind), let s := tAccess k false; let r := tReq k false;
      ((getCtx s 0).reqs[0]? = some r ∧ r.kind = k ∧ r.done = false ∧ r.lost = false ∧
        loadWaits (earlier (getCtx s 0) 0 r) r = false ∧ storeWaits (earlier (getCtx s 0) 0 r) r = false) ∧
      (plLtype r.place = 0 ∧ timed r.place = true ∧ plCache r.place ≠ 2 ∧ plRepl r.place ≠ 2 ∧
        smGet Grant.none s.grants (r.key % 2 ^ 52 / 2 ^ 16) = .none ∧ farWaits s r.place r.home r.key = false) ∧
      (l2Get s r.home (r.key / 64)).here = true ∧ (lcGet s 0 (r.key / 64)).here = false ∧
      lineLost s r.place (keyDie r.key) (r.key % 2 ^ 52) = false) ∧
    (getCtx (tAccess .store true) 0).reqs[0]? = some (tReq .store true) ∧ (tReq .store true).done = true ∧
    ackWaits [] (tReq .store true) = false ∧ timed (tReq .store true).place = true := by decide +kernel

/-- A `gam` of the last doubleword of page 1, which holds 5: an add, and compares that succeed and fail. -/
def tGam (op n : Nat) : GReq := { reqAt tS 0 .gam 0 (tPage 1 tPlain) 0x1FFF8 8 with op := op, data := BitVec.ofNat 512 n, arg := 9 }

theorem test_witness_MemoryEngine_gam : ∀ e ∈ ([(0, 3), (6, 5), (6, 6)] : List (Nat × Nat)), let r := tGam e.1 e.2;
    let s := { tAccess .gam false with ctxs := [(0, { tCtx with reqs := [r] })], mem := wrNat [] 0x1FFF8 8 5 };
    (getCtx s 0).reqs[0]? = some r ∧ r.kind = .gam ∧ r.done = false ∧ storeWaits [] r = false ∧ plLtype r.place = 0 ∧ timed r.place = true ∧
    smGet Grant.none s.grants (r.key % 2 ^ 52 / 2 ^ 16) = .none ∧ farWaits s r.place r.home r.key = false ∧
    (l2Get s r.home (r.key / 64)).here = true ∧ plCache r.place ≠ 2 ∧ r.lost = false ∧ plRepl r.place ≠ 2 ∧
    restriping s r.place r.key = false ∧ r.key % 8 = 0 ∧ r.size = 8 ∧ r.lane = 0 ∧
    lineLost s r.place (keyDie r.key) (r.key % 2 ^ 52) = false ∧ ackWaits [] r = false ∧
    (gamNew r.op (BitVec.ofNat 64 (rdNat s.mem r.key 8)) (r.data.setWidth 64) r.arg).isSome = (e != (6, 6)) := by decide +kernel

/-- A join of each type, and a `lwt` of either form, at the last cell of page 2. -/
def tCellReq (k : GKind) (T op : Nat) : GReq :=
  { reqAt tS 0 k 0 (tPage 2 ((tMaxU &&& ~~~(0x3C000000 : Word)) ||| BitVec.ofNat 64 (T * 2 ^ 26))) (0x30000 - BitVec.ofNat 64 (cellSize T))
      (cellSize T) with data := BitVec.ofNat 512 (2 ^ 511 + 7), op := op }

theorem test_witness_MemoryEngine_cells : ∀ T ∈ [1, 2, 3, 4, 5, 6, 7],
    (let r := tCellReq .ljn T 0; let s := tState { tCtx with reqs := [r] };
      (getCtx s 0).reqs[0]? = some r ∧ r.kind = .ljn ∧ r.done = false ∧ storeWaits [] r = false ∧ r.lost = false ∧ plLtype r.place = T ∧
      r.size = cellSize T ∧ restriping s r.place r.key = false ∧ cellWaits s r.place r.key = false ∧ cellLost s r.place r.key = false ∧
      cellMarked s r.key = false ∧ smGet false s.lineBad (r.key / 64) = false) ∧
    (∀ op ∈ [0, 1], let r := tCellReq .lwt T op; let s := tState { tCtx with reqs := [r] };
      (getCtx s 0).reqs[0]? = some r ∧ r.kind = .lwt ∧ loadWaits [] r = false ∧ r.lost = false ∧ r.size = cellSize T ∧
      cellOf r.place r.key = r.key ∧ cellStops s r.place r.key = false ∧ cellLost s r.place r.key = false) := by decide +kernel

/-- Two stores of the context to one line, the later of them performed first. -/
def tAcks : State := tState { tCtx with reqs := [tReq .store false, tReq .store true] }

theorem test_witness_MemoryEngine_acks : (getCtx tAcks 0).reqs[1]? = some (tReq .store true) ∧ (tReq .store true).done = true ∧
    ackWaits ((getCtx tAcks 0).reqs.take 1) (tReq .store true) = true := by decide +kernel

def tBurst (b : Bool) : Burst := ⟨0, 63, 5, 15, 31, false, b, .block false⟩
def tHbm (b : Bool) : State := { tState { tCtx with pend := [⟨⟨.z, 7⟩, fullMask, 0, 0, 9, true, []⟩] } with
  dies := [(3, { l2 := [(9, ⟨true, none, false, 4, 5⟩)] })], bursts := [tBurst b], cores := [(0, { pts := 0xFFFFFF })] }

theorem test_witness_MemoryEngine : (getCtx (tHbm false) 0).pend[0]? = some ⟨⟨.z, 7⟩, fullMask, 0, 0, 9, true, []⟩ ∧
    isLanding (getCtx (tHbm false) 0) ⟨.z, 7⟩ = false ∧ fixedReg ⟨.z, 7⟩ = false ∧ (l2Get (tHbm false) 3 9).here = true ∧
    chanLive (tHbm false) 15 31 = true ∧ (tHbm false).bursts = tBurst false :: [] ∧ coreLive (tHbm false) 63 = true ∧
    (tHbm true).bursts[0]? = some (tBurst true) ∧ (getDie (tHbm true) 0).l2.length + 4 ≤ 2 ^ 20 ∧
    (ptsSpan (tHbm false)).isSome = true := by decide +kernel

/-- A transfer of `card` before run `n` of its one; a restripe of page 1, marked or not. -/
def tXferOf (card : Nat) (n : Nat) : Xfer := {
  restripe := false, tag := 63, gaddr := 0x10000, card := BitVec.ofNat 1024 card, first := 0, count := 1, place := 0, next := n, old := 0, pa := 0, leaf := 0
  marked := false, locks := [], held := none, dropped := false, landed := false, buf := [], bufBad := false, own := [], num := 0 }
/-- A run of zeros; a run of two granules. -/
def tXfer (n : Nat) : Xfer := tXferOf (0x7FFFE0 * 2 ^ 64 + 16 * 2 ^ 128 + 4 * 2 ^ 168) n
def tPair : Xfer := tXferOf (0x7FFFE0 + 0x7FFF00 * 2 ^ 64 + 32 * 2 ^ 128) 0
/-- The marked page keeps what it held when it was marked. -/
def tStripe (b : Bool) : Xfer := { tXferOf 0 0 with
  restripe := true, tag := 0, first := 0x10000, place := tPlain, marked := b, old := tPlain, pa := 0x10000, leaf := 0x106010 }
def tXs (x : Xfer) : State := { tState { tCtx with xfers := [x] } with
  mem := tTable [], empties := [(granKey (scratchKey 0 0x7FFFF0), true)] }

theorem test_witness_TransfersLatticesLinks_xfers :
    (∀ x ∈ [tXfer 0, tPair], (getCtx (tXs x) 0).xfers[0]? = some x ∧ x.restripe = false ∧ x.dropped = false ∧
      x.held = none ∧ x.next < x.count ∧ x.buf = []) ∧
    (cardZero (tXfer 0).card = true ∧ cardDstG (tXfer 0).card = false ∧ openFor (tXs (tXfer 0)) 0 (tXfer 0) 0x7FFFE0 16 = true ∧
      (runDst (tXfer 0).card 0).toNat % 2 ^ 23 = 0x7FFFE0 ∧ cardRun (tXfer 0).card = 16) ∧
    (cardZero tPair.card = false ∧ cardSrcG tPair.card = false ∧ cardRun tPair.card = 32 ∧
      ((granOffs ((runSrc tPair.card 0).toNat % 2 ^ 23) 32).takeWhile (granOpen (tXs tPair) 0 tPair)).length = 1) ∧
    ((getCtx (tXs (tXfer 1)) 0).xfers[0]? = some (tXfer 1) ∧ (tXfer 1).count ≤ (tXfer 1).next) := by decide +kernel

theorem test_witness_TransfersLatticesLinks_stripes :
    (∀ b, (getCtx (tXs (tStripe b)) 0).xfers[0]? = some (tStripe b) ∧ (tStripe b).restripe = true ∧ (tStripe b).dropped = false ∧
      (tStripe b).held = none ∧ (tStripe b).next < (tStripe b).count ∧ (tStripe b).marked = b) ∧
    (let s := tXs (tStripe false); let e := walkTable s (getCtx s 0).asn 0x10000;
      stripeBad s false { e with place := e.place &&& ~~~0x800 } tPlain = false ∧
      restriping s (e.place &&& ~~~0x800) (frameAddr e.frame) = false ∧ walkBars s (getCtx s 0).asn 0x10000 true = [] ∧ moveWaits s (e.place &&& ~~~0x800) tPlain (frameAddr e.frame) = false) ∧
    (∀ b, ∀ z ∈ (tXs (tStripe b)).bursts, z.use ≠ .copy (tStripe b).num) ∧ AtHome (tXs (tStripe false)) 0x106018 8 ∧
    (let s := tXs (tStripe true); let x := tStripe true;
      pageGranted s (x.leaf / 2 ^ 16) true = false ∧ AtHome s (x.leaf + 8) 8) :=
  ⟨by decide +kernel, by decide +kernel, nofun, tAtHome rfl _ _, by decide +kernel, tAtHome rfl _ _⟩

/-- The page is marked by another context's restripe; the other copy of a failed line cannot be read. -/
theorem test_witness_TransfersLatticesLinks_marked :
    (let s := { tXs (tStripe false) with ctxs := [(0, { tCtx with xfers := [tStripe false] }), (2, { tCtx with xfers := [tStripe true] })] };
      let e := walkTable s (getCtx s 0).asn 0x10000
      restriping s (e.place &&& ~~~0x800) (frameAddr e.frame) = true ∧ walkBars s (getCtx s 0).asn 0x10000 true = []) ∧
    (let s := { tXs (tStripe true) with lineBad := [(placeKey tPlain ((copiesAt tPlain).headD 0) 0x10000 / 64, true)] };
      keysBad s (tStripe true).old (placeKey (tStripe true).old ((copiesAt (tStripe true).old).headD 0) (tStripe true).pa) 1024 = true) := by
  decide +kernel

/-- The last cell of die 3's replica of page 2 is dirty toward die 2, which rebuilds another cell; a value of the last one is on
its way to die 0, whose next cell is marked for rebuild. -/
def tCell (d : Nat) : Nat := memKey (1 + d) 0x2FFF8
def tExch (b : Bool) : Exch := ⟨3, tCell 0, tMaxU, 5, b⟩
def tLattice (b : Bool) (hs : List Nat) : State := { tS with
  dirty := [(4 * tCell 3 + 2, tMaxU)], exch := [tExch b], holds := hs
  rebuild := [(memKey 1 0x2FFF0, some (0, tMaxU, 7)), (memKey 3 0x2FFE0, some (2, tMaxU, 0))] }

theorem test_witness_TransfersLatticesLinks_lattice : let s := tLattice false [];
    ((tCell 3, tMaxU) ∈ dueCells (spoilAll s) 3 ∧ cellLost (spoilAll s) tMaxU (tCell 3) = false ∧
      (memKey 4 0x2FFE0, tMaxU) ∈ rebuildCells (spoilAll s) 3) ∧
    (s.exch[0]? = some (tExch false) ∧ (tExch false).bad = false ∧ cellWaits s tMaxU (tExch false).cell = false ∧
      cellLost s tMaxU (tExch false).cell = false ∧ cellMarked s (tExch false).cell = false ∧
      smGet false s.lineBad ((tExch false).cell / 64) = false) ∧
    smGet none s.rebuild (memKey 1 0x2FFF0) = some (0, tMaxU, 7) ∧ (∀ z ∈ s.exch, z.cell ≠ memKey 1 0x2FFF0) ∧
    cellLost s tMaxU (memKey 1 0x2FFF0) = false := by decide +kernel

/-- Stack 1's channel 0 holds the cell that is marked for rebuild: its failure unmarks it; a device gives back a page that a
write of this device waits for. -/
theorem test_witness_ErrorsAndFailures_rebuild : let s := tLattice false [];
    (memKey 1 0x2FFF0, some (0, tMaxU, 7)) ∈ s.rebuild ∧ coreLive s 0 = true ∧ 32 * 1 + 0 ∉ s.deadChans ∧ 32 * 1 + 0 ∉ s.failChans ∧
    cellLost { s with failChans := [32] } tMaxU (memKey 1 0x2FFF0) = true ∧
    (∃ e ∈ ({ tHost with waiting := [(2 ^ 52 - 2 ^ 16, [7])] } : State).waiting, e.1 / 2 ^ 16 = 2 ^ 36 - 1) := by decide +kernel

/-- The value on its way is marked; the stacks of the cell are held. -/
theorem test_witness_TransfersLatticesLinks_exchange :
    ((tLattice true []).exch[0]? = some (tExch true) ∧ (tExch true).bad = true ∧ cellWaits (tLattice true []) tMaxU (tExch true).cell = false) ∧
    (let s := tLattice false (List.range 16);
      s.exch[0]? = some (tExch false) ∧ cellWaits s (tExch false).place (tExch false).cell = true) := by decide +kernel

/-- A send has a row left on channel 255, a `recv` its last one. -/
def tSendOp : LinkOp := ⟨true, 255, 32767, 1, [], false, [], 1⟩
def tRecvOp : LinkOp := ⟨false, 255, 32767, 1, [⟨9, true⟩], true, [], 0⟩
def tRows : State := { tState { tCtx with links := [tRecvOp, tSendOp] } with
  chans := [(255, { enabled := true, queue := List.replicate 255 ⟨1, false⟩ })] }

theorem test_witness_TransfersLatticesLinks_links : (255 : Nat) < 256 ∧ portsDown tRows = false ∧ (getChan tRows 255).queue.length < 256 ∧
    (getCtx tRows 0).links[0]? = some tRecvOp ∧ tRecvOp.send = false ∧ tRecvOp.queue = ⟨9, true⟩ :: [] ∧
    (bankIds 0 (tRecvOp.row % 32768 * 256) 256).all (fun b => !lockedAgainst tRows 0 tRecvOp.num tRecvOp.locks b) = true ∧
    senderOn tRows 255 = some (0, 1) ∧ (getCtx tRows 0).links[1]? = some tSendOp ∧ sendOpen tRows 0 tSendOp = true := by decide +kernel

/-! ### Worked values of the spec -/

/-- 06_arithmetic.md: SEED = 1 draws 0xB6DB, and 1 + 3 × 2^-10 becomes bf16 0x3F81. -/
theorem test_stochastic_draw : advanceSeed 1 1 = 0x1B6DB ∧ (modes 2 1 [true]).map (·.draw) = [0xB6DB] ∧
    convertBits 12 10 false ⟨2, 0xB6DB⟩ 0x3F806000 = 0x3F81 ∧ convertBits 12 10 false ⟨0, 0⟩ 0x3F806000 = 0x3F80 := by decide +kernel

/-- Table 6-7: the update of 1.0 by four blocks is 6.0. -/
theorem test_chain_update : chainUpdate 0x3F800000 [0x4B800000, 0x40400000, 0xCB800000, 0x40400000] false = 0x40C00000 := by
  decide +kernel

/-- R370: block 0 holds 6.0 and 0x3DCD; its code is 0x79, its elements 0x7C and 0x4D; `unpk` gives 6.0 and 0x3DD0 back. -/
theorem test_pack_auto : sharedScale 8 [decFloat 10 0x40C0, decFloat 10 0x3DCD, decFloat 10 0] = 0x79 ∧
    packElem 8 0x79 true ⟨0, 0⟩ 0x40C0 = 0x7C ∧ packElem 8 0x79 true ⟨0, 0⟩ 0x3DCD = 0x4D ∧
    ((unpkNum 8 false (BitVec.ofNat 2048 (0x4D7C + 0x79 * 2 ^ 1024))).take 3).map (encFloat 10 rneMode) = [0x40C0, 0x3DD0, 0] := by
  decide +kernel

/-- R412: the three best of 1.0, 5.0, NaN, 5.0, -2.0. -/
theorem test_topk : topOf 12 3 [(0, 0x3F800000), (1, 0x40A00000), (2, 0x7FC00000), (3, 0x40A00000), (4, 0xC0000000)] =
    [(1, 0x40A00000), (3, 0x40A00000), (0, 0x3F800000)] := by decide +kernel

/-- R76: va8 at AGE 3 and va9 at AGE 4 are physical register 13. -/
theorem test_rotation : physNum 3 .va 8 = 13 ∧ physNum 4 .va 9 = 13 := by decide +kernel

/-- 18_traps_preemption.md: the TREC0 of the refused store, and of the fetch fault. -/
theorem test_trec0 : (trapRecord tCtx { plainCause 0x30 11 with access := 2 } 0 0).head? = some 0x800B0030 ∧
    (trapRecord tCtx (fetchCause 0x11 0x20000 0) 0 0).head? = some 0xC0100011 := by decide +kernel

/-- The position after an instruction that answers a next state. -/
def tAfter (i : Instr) (s : State) : Option Ctx := match exec i s with
  | .next t => some (me t)
  | _ => none

/-- R33: a `vpop` blocks while a result for its destination is in the landing buffer. -/
theorem test_vpop_blocks : (tAfter (.vpop .vb 0 15 3 0 14) tHeldPop).map (fun c => (c.st, c.pend, c.stepc)) = some (.blocked, [], 0) := by
  decide +kernel

/-- R360: `lih` of 0x12345678 over 0xFFFFFFFF9ABCDEF0, and `li`. -/
theorem test_li_lih :
    (tAfter (.lih .sa 0 1 0x12345678) (tState { tCtx with files := { x := [(1, 0xFFFFFFFF9ABCDEF0)] } })).map (fun c => regWord c ⟨.x, 1⟩) =
      some 0x123456789ABCDEF0 ∧
    (tAfter (.li .sa 0 1 0x9ABCDEF0) tS).map (fun c => regWord c ⟨.x, 1⟩) = some 0xFFFFFFFF9ABCDEF0 := by decide +kernel

/-- R321, R420: a wrap, and an immediate that is sign-extended; R63: w0 stays zero. -/
theorem test_scalar_results :
    (tAfter (.addImm .sa 0 1 1 0x1FFA) tS).map (fun c => regWord c ⟨.x, 1⟩) = some 0xFFFFFFFFFFFFFFFF ∧
    (tAfter (.sub .sa 0 2 3 1) tS).map (fun c => regWord c ⟨.x, 2⟩) = some 0xFFFFFFFFFFFFFFFB ∧
    (tAfter (.amod 0 0 1 0 2) tS).map (fun c => regWord c ⟨.w, 0⟩) = some 0 := by decide +kernel

/-- R280, R281: a `trap` records cause 0x0D with its code and goes on past its group, after its step is counted. -/
theorem test_trap : (tAfter (.trap 0 0x21) tS).map (fun c => (c.st, c.trec.take 2, c.stepc, c.trec[7]?)) =
    some (.trapped, [0x21000F000D, 0x10000], 1, some 0x10008) := by decide +kernel

/-- R391, R359: `sts` of x1 = 5 stores eight bytes, and `lds` brings them with latency 4. -/
theorem test_sts_lds : (match exec (.sts .la 0 1 3 0 0 0) tS with
    | .next t => rdBytes t.mem (scratchKey 0 0) 8 == bytesLE 8 5
        && (tAfter (.lds .la 0 2 3 0 0 0 0) t).map (fun c => c.landing.map (fun e => (e.dest, e.value, e.rem))) == some [(.reg ⟨.x, 2⟩, 5, 3)]
    | _ => false) = true := by decide +kernel

/-- R329: a taken branch of -5 words, an untaken one. -/
theorem test_branch : (tAfter (.br 0 0 0 0xFFFB) tS).map (·.pc) = some 0xFFEC ∧ (tAfter (.br 0 0 1 0xFFFB) tS).map (·.pc) = some 0x10008 := by
  decide +kernel

/-- R27: the first step after an instruction is placed runs it. -/
theorem test_step_placed : (match step (State.reset.withFetchWord 64 0x0000600054040000) with
    | .next t => regWord (getCtx t 0) ⟨.x, 1⟩ == 0x6000 && (getCtx t 0).stepc == 1
    | _ => false) = true := by decide +kernel
end

section
/-! SUPPORT. A step with power always answers a next state: what `exec` answers, by the kinds of instruction. -/

namespace Sys2Proof.Machine

/-- An operation by itself answers a next state: its group issues, or its attempt is settled, or it had no turn. -/
theorem issueSolo_next (i : Instr) (o : OpSem) (s : State) : ∃ t, issueSolo i o s = .next t := by
  unfold issueSolo
  dsimp only
  split
  · split
    · exact ⟨_, rfl⟩
    · exact ⟨_, rfl⟩
  · exact ⟨_, rfl⟩

/-- So does `skip`, which issues as an operation does but has no slot. -/
theorem execSkip_next (n : BitVec 8) (v : BitVec 1) (o : BitVec 3) (s : State) : ∃ t, execSkip n v o s = .next t := by
  unfold execSkip
  dsimp only
  split
  · split
    · exact ⟨_, rfl⟩
    · exact ⟨_, rfl⟩
  · exact ⟨_, rfl⟩

/-- An instruction without a slot is `skip` or an event, which is the next state by its own definition. -/
theorem exec_noSlot_next (i : Instr) (s : State) (h : i.slot = none) : ∃ t, exec i s = .next t := by
  cases i
  case skip n v o => exact execSkip_next n v o s
  all_goals cases h <;> exact ⟨_, rfl⟩

/-- No instruction and no event is refused, and none faults (log 4). -/
theorem exec_next (i : Instr) (s : State) : ∃ t, exec i s = .next t := by
  cases h : i.slot with
  | none => exact exec_noSlot_next i s h
  | some k =>
    obtain ⟨o, g, -, -, ex⟩ := exec_solo i s k h
    exact ex ▸ issueSolo_next i o s

/-- Power-on is the one event that gives power. -/
theorem givesPower_iff (i : Instr) : givesPower i = true ↔ i = .powerOn := by
  unfold givesPower
  split <;> simp_all

/-- What stops a step: no power, and another next event than power-on (R19). -/
theorem stopped_iff (s : State) : stopped s = true ↔ s.power = false ∧ nextEvent s ≠ .powerOn := by
  simp [stopped, ← givesPower_iff]

/-- A step that is not stopped is the next event, once it has left the agenda. -/
theorem step_of_running (s : State) (h : ¬(s.power = false ∧ nextEvent s ≠ .powerOn)) : step s = exec (nextEvent s) (advance s) :=
  if_neg (mt (stopped_iff s).1 h)

/-- After power-on the package has power. -/
theorem doPowerOn_power (s : State) : (doPowerOn s).power = true := by
  unfold doPowerOn
  split
  · assumption
  · rfl

/-- Settles O46: what stops a step is `stopped_iff`, and whatever runs answers a next state (`exec_next`). -/
theorem onlyPowerStops : Obligations.OnlyPowerStops := by
  unfold Obligations.OnlyPowerStops
  refine fun s => ⟨fun off other => ?_, fun off on => ?_, fun power => ?_⟩
  · exact if_pos ((stopped_iff s).2 ⟨off, other⟩)
  · rw [step_of_running s (fun h => h.2 on), on]
    exact ⟨_, rfl, doPowerOn_power _⟩
  · rw [step_of_running s (fun h => absurd h.1 (by simp [power]))]
    obtain ⟨t, ht⟩ := exec_next (nextEvent s) (advance s)
    exact ⟨t, ht, trivial⟩

end Sys2Proof.Machine
end

section
/-! SUPPORT. Power and bring-up: what memory is left, which units the retirement tables leave, and what each event makes of the
state. -/

namespace Sys2Proof.Machine

/-! ### Sparse tables -/

/-- A key that no kept entry bears reads as the default. -/
theorem smGet_filter_out {α : Type} (d : α) (m : SMap α) (keep : Nat → Bool) (k : Nat) (h : keep k = false) :
    smGet d (m.filter (fun e => keep e.1)) k = d := by
  induction m with
  | nil => rfl
  | cons e m ih =>
    rw [List.filter_cons]
    split
    · next he => rw [smGet, if_neg (fun (q : e.1 = k) => Bool.false_ne_true (h.symm.trans (q ▸ he))), ih]
    · exact ih

/-- What holds of the default and of every changed value holds of what a changed table reads as. -/
theorem smGet_smMap_of {α : Type} [DecidableEq α] (P : α → Prop) (d : α) (f : Nat → α → α) (m : SMap α) (k : Nat) (hd : P d)
    (hf : ∀ j v, P (f j v)) : P (smGet d (smMap d f m) k) := by
  induction m with
  | nil => exact hd
  | cons e m ih =>
    rw [smMap, List.map_cons, List.filter_cons]
    split
    · rw [smGet]
      split
      · exact hf e.1 e.2
      · exact ih
    · exact ih

/-! ### Power (R19, R303) -/

/-- A byte of the package reads as zero in a package that lost its power. -/
theorem blankPackage_empty (on : Bool) (s : State) (k : Nat) (h : k < 5 * 2 ^ 52 ∨ 2 ^ 63 ≤ k) :
    rdByte (blankPackage on s).mem k = 0 :=
  smGet_filter_out Memory.blank s.mem outside k (by simp only [outside, Bool.and_eq_false_iff, decide_eq_false_iff_not]; omega)

theorem doPowerOn_of_off {s : State} (off : s.power = false) : doPowerOn s = blankPackage true s := by simp [doPowerOn, off]

theorem doPowerRemoval_of_on {s : State} (on : s.power = true) : doPowerRemoval s = blankPackage false s := by
  simp [doPowerRemoval, on]

/-! ### The retirement tables (R312, R313) -/

/-- An entry of the tables names unit `n` of a kind of which `size` units share an index. -/
def Names (e : Word) (kind size n : Nat) : Prop :=
  e.toNat % 256 = kind ∧ e.toNat / 256 % 256 * size + e.toNat / 65536 % 256 = n

/-- The tables retire the unit. -/
def Retires (t : List Word) (kind size n : Nat) : Prop := ∃ e ∈ t, Names e kind size n

/-- The units that the model takes out of service are those that the tables name. -/
theorem mem_retired (t : List Word) (kind size n : Nat) : n ∈ retired t kind size ↔ Retires t kind size n := by
  simp [retired, Retires, Names, bitsOf, and_assoc]

/-- An appended entry retires the units that it names beside those retired before. -/
theorem retires_append (t : List Word) (v : Word) (kind size n : Nat) :
    Retires (t ++ [v]) kind size n ↔ Retires t kind size n ∨ Names v kind size n := by
  simp [Retires, or_and_right, exists_or]

/-! ### The units that are left -/

/-- The dead cores, channels and lanes are those that `r` retires. -/
def DeadAre (s : State) (r : Nat → Nat → Nat → Prop) : Prop :=
  (∀ n, n ∈ s.deadCores ↔ r 1 64 n) ∧ (∀ n, n ∈ s.deadChans ↔ r 2 32 n) ∧ ∀ n, n ∈ s.deadLanes ↔ r 3 8 n

/-- `r` leaves a core that has not failed. -/
def CoreLeft (failed : List Nat) (r : Nat → Nat → Nat → Prop) : Prop := ∃ n < 256, ¬r 1 64 n ∧ n ∉ failed

/-- `r` leaves a channel. -/
def ChanLeft (r : Nat → Nat → Nat → Prop) : Prop := ∃ n < 512, ¬r 2 32 n

section
variable {s : State} {r : Nat → Nat → Nat → Prop}

/-- Applied tables make dead what they retire. -/
theorem applyTables_dead (s : State) (hr : ∀ kind size n, Retires s.retTable kind size n ↔ r kind size n) :
    DeadAre (applyTables s) r :=
  ⟨fun n => (mem_retired _ 1 64 n).trans (hr 1 64 n), fun n => (mem_retired _ 2 32 n).trans (hr 2 32 n),
    fun n => (mem_retired _ 3 8 n).trans (hr 3 8 n)⟩

/-- No core is live where none is left. -/
theorem liveCores_isEmpty (d : DeadAre s r) : (liveCores s).isEmpty = true ↔ ¬CoreLeft s.failCores r := by
  obtain ⟨cores, -, -⟩ := d
  simp [liveCores, coreLive, CoreLeft, ← cores]

/-- Some channel is live where one is left. -/
theorem someChannel_iff (d : DeadAre s r) : someChannel s = true ↔ ChanLeft r := by
  obtain ⟨-, chans, -⟩ := d
  simp [someChannel, ChanLeft, ← chans]

/-! ### The check of the tables (R303: state 1) -/

theorem doRetirement_unreadable (st : s.bustat = 1) : doRetirement false s = bringFail 1 s := by simp [doRetirement, st]

/-- In state 1 readable tables apply, and a core and a channel must be left. -/
theorem doRetirement_readable (st : s.bustat = 1) : doRetirement true s =
    if (liveCores (applyTables s)).isEmpty then bringFail 2 (applyTables s)
    else if !someChannel (applyTables s) then bringFail 3 (applyTables s)
    else numberCores { applyTables s with bustat := 2 } :=
  (if_neg (by simp [st])).trans (if_neg (by simp))

section
variable (st : s.bustat = 1) (hr : ∀ kind size n, Retires s.retTable kind size n ↔ r kind size n)
include st hr

theorem doRetirement_left (core : CoreLeft s.failCores r) (chan : ChanLeft r) :
    doRetirement true s = numberCores { applyTables s with bustat := 2 } := by
  have d := applyTables_dead s hr
  rw [doRetirement_readable st, if_neg (fun e => (liveCores_isEmpty d).1 e core), (someChannel_iff d).2 chan]
  rfl

theorem doRetirement_noCore (core : ¬CoreLeft s.failCores r) : doRetirement true s = bringFail 2 (applyTables s) := by
  rw [doRetirement_readable st, if_pos ((liveCores_isEmpty (applyTables_dead s hr)).2 core)]

theorem doRetirement_noChan (core : CoreLeft s.failCores r) (chan : ¬ChanLeft r) :
    doRetirement true s = bringFail 3 (applyTables s) := by
  have d := applyTables_dead s hr
  rw [doRetirement_readable st, if_neg (fun e => (liveCores_isEmpty d).1 e core),
    Bool.eq_false_iff.2 (mt (someChannel_iff d).1 chan)]
  rfl
end

/-! ### Training (R303: state 2) -/

/-- No core and no die has a stamp other than zero, and no cache a copy (R202). -/
def Unstamped (s : State) : Prop :=
  (∀ k, (getCore s k).pts = 0 ∧ (getCore s k).lcache = []) ∧ ∀ d, (getDie s d).mts = 0 ∧ (getDie s d).l2 = []

theorem zeroStamps_unstamped (s : State) : Unstamped (zeroStamps s) := by
  constructor
  · exact fun k => smGet_smMap_of (fun c : Core => c.pts = 0 ∧ c.lcache = []) {}
      (fun _ c => { c with pts := 0, lcache := [], fills := [] }) s.cores k ⟨rfl, rfl⟩ (fun _ _ => ⟨rfl, rfl⟩)
  · exact fun k => smGet_smMap_of (fun d : Die => d.mts = 0 ∧ d.l2 = []) {}
      (fun _ d => { d with mts := 0, l2 := [] }) s.dies k ⟨rfl, rfl⟩ (fun _ _ => ⟨rfl, rfl⟩)

/-- The package in training, once the units found dead are in its tables: the tables apply, and every stamp is zero. -/
def trained (s : State) : State := zeroStamps (applyTables s)

theorem trained_dead (s : State) (hr : ∀ kind size n, Retires s.retTable kind size n ↔ r kind size n) : DeadAre (trained s) r :=
  applyTables_dead s hr

theorem appendDead_of_fits {v : Word} (fits : entryFits s v = true) : appendDead s v = { s with retTable := s.retTable ++ [v] } :=
  if_pos fits

variable {dead : List Word} {u : State}

/-- In state 2 a core and a channel must be left when the units found dead are in the tables. -/
theorem doTraining_eq (st : s.bustat = 2) (hu : dead.foldl appendDead s = u) : doTraining dead s =
    if (liveCores (trained u)).isEmpty then bringFail 2 (trained u)
    else if someChannel (trained u) then numberCores { trained u with bustat := 3 } else bringFail 4 (trained u) := by
  rw [← hu]
  exact if_neg (by simp [st])

section
variable (st : s.bustat = 2) (hu : dead.foldl appendDead s = u) (hr : ∀ kind size n, Retires u.retTable kind size n ↔ r kind size n)
  (core : CoreLeft u.failCores r)
include st hu hr core

theorem doTraining_left (chan : ChanLeft r) : doTraining dead s = numberCores { trained u with bustat := 3 } := by
  have d := trained_dead u hr
  rw [doTraining_eq st hu, if_neg (fun e => (liveCores_isEmpty d).1 e core), if_pos ((someChannel_iff d).2 chan)]

theorem doTraining_noChan (chan : ¬ChanLeft r) : doTraining dead s = bringFail 4 (trained u) := by
  have d := trained_dead u hr
  rw [doTraining_eq st hu, if_neg (fun e => (liveCores_isEmpty d).1 e core), if_neg (mt (someChannel_iff d).1 chan)]

/-- Training ends in state 3 with every stamp zero, the units of the tables dead, and the live cores numbered. -/
theorem bringupTraining_left (chan : ChanLeft r) : NextWith (exec (.bringupTraining dead) s) (fun t => t.bustat = 3 ∧
    Unstamped t ∧ DeadAre t r ∧ t.logical = liveCores t ∧ t.retTable = u.retTable) :=
  ⟨_, congrArg Host.Outcome.next (doTraining_left st hu hr core chan), rfl, zeroStamps_unstamped (applyTables u),
    trained_dead u hr, rfl, rfl⟩
end

/-! ### The scratchpads, the opening, and a failure (R167, R303) -/

/-- In state 3 the memory keeps only what lies below the scratchpads, and no granule is empty or marked. -/
theorem doCapability_eq (st : s.bustat = 3) : doCapability s = { s with
    bustat := 4
    mem := s.mem.filter (fun e => e.1 < 2 ^ 63)
    empties := []
    granBad := [] } :=
  if_neg (by simp [st])

theorem doCapability_scratch (st : s.bustat = 3) (k : Nat) (h : 2 ^ 63 ≤ k) : rdByte (doCapability s).mem k = 0 := by
  rw [doCapability_eq st]
  exact smGet_filter_out Memory.blank s.mem (fun a => a < 2 ^ 63) k (decide_eq_false (Nat.not_lt.2 h))

theorem doOpen_eq (st : s.bustat = 4) : doOpen s = { s with bustat := 5 } := if_neg (by simp [st])
end

/-! ### The obligation -/

/-- Settles O50: each clause is the law of its event above; the tables with a unit found dead retire as `retires_append` says. -/
theorem powerAndBringUp : Obligations.PowerAndBringUp := by
  unfold Obligations.PowerAndBringUp
  intro s reason v names retires dead empty numbered units unstamped enough
  have table : ∀ kind size n, Retires s.retTable kind size n ↔ retires kind size n := fun _ _ _ => Iff.rfl
  have noChan (all : ∀ n < 512, retires 2 32 n) : ¬ChanLeft retires := fun ⟨n, hn, live⟩ => live (all n hn)
  have noCore (all : ∀ n < 256, retires 1 64 n) : ¬CoreLeft s.failCores retires := fun ⟨n, hn, live, _⟩ => live (all n hn)
  refine ⟨fun off => ?_, fun on => ?_, fun st => ⟨?_, fun ⟨core, chan⟩ => ?_, fun all => ?_, fun core all => ?_⟩,
    fun st => ⟨fun ⟨core, chan⟩ => ?_, fun fits ⟨core, chan⟩ => ?_, fun core all => ?_⟩, fun st => ?_, fun st => ?_,
    fun above below least most => ?_⟩
  · exact ⟨_, congrArg Host.Outcome.next (doPowerOn_of_off off), rfl, rfl, rfl, rfl, rfl, rfl, rfl, blankPackage_empty true s⟩
  · exact ⟨_, congrArg Host.Outcome.next (doPowerRemoval_of_on on), rfl, rfl, rfl, rfl, blankPackage_empty false s⟩
  · exact ⟨_, congrArg Host.Outcome.next (doRetirement_unreadable st), rfl, rfl⟩
  · exact ⟨_, congrArg Host.Outcome.next (doRetirement_left st table core chan), rfl, applyTables_dead s table, rfl⟩
  · exact ⟨_, congrArg Host.Outcome.next (doRetirement_noCore st table (noCore all)), rfl, rfl⟩
  · exact ⟨_, congrArg Host.Outcome.next (doRetirement_noChan st table core (noChan all)), rfl, rfl⟩
  · exact bringupTraining_left (dead := []) st rfl table core chan
  · exact bringupTraining_left (dead := [v]) st (appendDead_of_fits fits) (retires_append s.retTable v) core chan
  · exact ⟨_, congrArg Host.Outcome.next (doTraining_noChan (dead := []) st rfl table core (noChan all)), rfl, rfl⟩
  · refine ⟨_, rfl, ?_, ?_, ?_, doCapability_scratch st⟩ <;> rw [doCapability_eq st]
  · exact ⟨_, congrArg Host.Outcome.next (doOpen_eq st), rfl⟩
  · exact ⟨_, congrArg Host.Outcome.next (if_pos ⟨above, below, least, most⟩), rfl⟩

end Sys2Proof.Machine
end

section
/-! SUPPORT. What every operation and every event leaves of the memory's canonical form and of the writes that wait for the end
of a cycle: most touch neither, the others write bytes one by one, and the end of a cycle makes what waits (R35). -/

namespace Sys2Proof.Machine

/-- `t` has the memory of `s`, and the writes that wait in it for the end of a cycle. -/
@[reducible] def Quiet (s t : State) : Prop := t.mem = s.mem ∧ t.endw = s.endw

@[simp] theorem ite_mem (b : Prop) [Decidable b] (s t : State) : (if b then s else t).mem = if b then s.mem else t.mem := apply_ite ..

@[simp] theorem ite_endw (b : Prop) [Decidable b] (s t : State) :
    (if b then s else t).endw = if b then s.endw else t.endw := apply_ite ..

@[simp] theorem foldl_mem {α : Type} {f : State → α → State} (l : List α) (s : State) (h : ∀ t x, (f t x).mem = t.mem) :
    (l.foldl f s).mem = s.mem := by
  induction l generalizing s with
  | nil => rfl
  | cons x l ih => exact (ih _).trans (h _ _)

@[simp] theorem foldl_endw {α : Type} {f : State → α → State} (l : List α) (s : State) (h : ∀ t x, (f t x).endw = t.endw) :
    (l.foldl f s).endw = s.endw := by
  induction l generalizing s with
  | nil => rfl
  | cons x l ih => exact (ih _).trans (h _ _)

theorem Quiet.foldl {α : Type} {f : State → α → State} (l : List α) (s : State) (h : ∀ t x, Quiet t (f t x)) : Quiet s (l.foldl f s) :=
  ⟨foldl_mem l s fun t x => (h t x).1, foldl_endw l s fun t x => (h t x).2⟩

theorem Quiet.trans {s t u : State} (h : Quiet s t) (k : Quiet t u) : Quiet s u := ⟨k.1.trans h.1, k.2.trans h.2⟩

theorem Quiet.foldPair {α β : Type} {f : State × β → α → State × β} (l : List α) (z : State × β) (h : ∀ z x, Quiet z.1 (f z x).1) :
    Quiet z.1 (l.foldl f z).1 := by
  induction l generalizing z with
  | nil => exact ⟨rfl, rfl⟩
  | cons x l ih => exact (h _ _).trans (ih _)

/-! ### Operations that touch neither the memory nor the waiting writes -/

/-! #### Shared operations -/

theorem setCtx_quiet (p : Nat) (c : Ctx) (s : State) : Quiet s (setCtx p c s) := ⟨rfl, rfl⟩
theorem updCtx_quiet (p : Nat) (f : Ctx → Ctx) (s : State) : Quiet s (updCtx p f s) := ⟨rfl, rfl⟩
theorem setCore_quiet (k : Nat) (c : Core) (s : State) : Quiet s (setCore k c s) := ⟨rfl, rfl⟩
theorem updCore_quiet (k : Nat) (f : Core → Core) (s : State) : Quiet s (updCore k f s) := ⟨rfl, rfl⟩
theorem updCluster_quiet (k : Nat) (f : Cluster → Cluster) (s : State) : Quiet s (updCluster k f s) := ⟨rfl, rfl⟩
theorem updDie_quiet (d : Nat) (f : Die → Die) (s : State) : Quiet s (updDie d f s) := ⟨rfl, rfl⟩
theorem updLaunch_quiet (seq : Nat) (f : Launch → Launch) (s : State) : Quiet s (updLaunch seq f s) := ⟨rfl, rfl⟩
@[simp] theorem addPend_quiet (p : Nat) (r : Reg) (mask : Vec) (id parts : Nat) (v : Vec) (bad : Bool) (s : State) :
    Quiet s (addPend p r mask id parts v bad s) := ⟨rfl, rfl⟩
@[simp] theorem takeId_quiet (p : Nat) (s : State) : Quiet s (takeId p s) := ⟨rfl, rfl⟩
@[simp] theorem csrLand_quiet (p n : Nat) (v : Word) (s : State) : Quiet s (csrLand p n v s) := by
  unfold csrLand
  split <;> simp [Quiet]
@[simp] theorem landOne_quiet (p : Nat) (e : Landing) (s : State) : Quiet s (landOne p e s) := by
  unfold landOne
  split <;> simp [Quiet]
@[simp] theorem landStep_quiet (p : Nat) (s : State) : Quiet s (landStep p s) := by simp [Quiet, landStep]
@[simp] theorem landSteps_quiet (p n : Nat) (s : State) : Quiet s (landSteps p n s) := by
  induction n generalizing s with
  | zero => exact ⟨rfl, rfl⟩
  | succ n ih => simp [Quiet, landSteps, ih]
@[simp] theorem staleWhere_quiet (p : Arr → Bool) (s : State) : Quiet s (staleWhere p s) := ⟨rfl, rfl⟩
@[simp] theorem bumpLines_quiet (lo hi : Nat) (s : State) : Quiet s (bumpLines lo hi s) := ⟨rfl, rfl⟩
@[simp] theorem deviceTouch_quiet (pa n : Nat) (s : State) : Quiet s (deviceTouch pa n s) := ⟨rfl, rfl⟩
@[simp] theorem askRecall_quiet (page : Nat) (s : State) : Quiet s (askRecall page s) := by simp [Quiet, askRecall]
@[simp] theorem freeBanks_quiet (p : Nat) (s : State) : Quiet s (freeBanks p s) := ⟨rfl, rfl⟩
@[simp] theorem freeHeld_quiet (key : Nat) (s : State) : Quiet s (freeHeld key s) := ⟨rfl, rfl⟩
@[simp] theorem repoint_quiet (side core : Nat) (s : State) : Quiet s (repoint side core s) := by simp [Quiet, repoint]
@[simp] theorem afterFree_quiet (p : Nat) (s : State) : Quiet s (afterFree p s) := by simp [Quiet, afterFree]
@[simp] theorem dissolve_quiet (p : Nat) (s : State) : Quiet s (dissolve p s) := ⟨rfl, rfl⟩
@[simp] theorem dissolveAll_quiet (p : Nat) (s : State) : Quiet s (dissolveAll p s) := ⟨rfl, rfl⟩
@[simp] theorem landMop_quiet (core : Nat) (m : MOp) (s : State) : Quiet s (landMop core m s) := ⟨rfl, rfl⟩
@[simp] theorem finishStarted_quiet (p : Nat) (s : State) : Quiet s (finishStarted p s) := by simp [Quiet, finishStarted]
@[simp] theorem vacate_quiet (p : Nat) (s : State) : Quiet s (vacate p s) := by simp [Quiet, vacate]
@[simp] theorem kill_quiet (p : Nat) (s : State) : Quiet s (kill p s) := by simp [Quiet, kill]
@[simp] theorem clearReplay_quiet (q : Nat) (s : State) : Quiet s (clearReplay q s) := by simp [Quiet, clearReplay]
@[simp] theorem trapReturn_quiet (q : Nat) (s : State) : Quiet s (trapReturn q s) := by simp [Quiet, trapReturn]

/-! #### Extents -/

@[simp] theorem touchExtent_quiet (p : Nat) (va : Word) (s : State) : Quiet s (touchExtent p va s) := by
  unfold touchExtent
  simp only
  split <;> simp [Quiet]
@[simp] theorem installExtent_quiet (o : Nat) (e : Extent) (s : State) : Quiet s (installExtent o e s) := ⟨rfl, rfl⟩

/-! #### The way to memory -/

@[simp] theorem l2Set_quiet (d line : Nat) (x : L2Line) (s : State) : Quiet s (l2Set d line x s) := ⟨rfl, rfl⟩
@[simp] theorem bulkBurst_quiet (d block : Nat) (chan : Option (Nat × Nat)) (use : BurstUse) (s : State) :
    Quiet s (bulkBurst d block chan use s) := by
  unfold bulkBurst
  split <;> simp [Quiet]
@[simp] theorem leaveL2_quiet (d line : Nat) (keep : Bool) (s : State) : Quiet s (leaveL2 d line keep s) := by simp [Quiet, leaveL2]
@[simp] theorem roomL2_quiet (d line : Nat) (s : State) : Quiet s (roomL2 d line s) := by
  unfold roomL2
  split <;> simp [Quiet]
@[simp] theorem enterL2_quiet (d line : Nat) (chan : Option (Nat × Nat)) (low : Bool) (s : State) :
    Quiet s (enterL2 d line chan low s) := by simp [Quiet, enterL2]
@[simp] theorem takeLine_quiet (w : Word) (d key : Nat) (s : State) : Quiet s (takeLine w d key s) := by simp [Quiet, takeLine]
@[simp] theorem dropUnkept_quiet (w : Word) (home line : Nat) (s : State) :
    Quiet s (dropUnkept w home line s) := by simp [Quiet, dropUnkept]
@[simp] theorem dropWritten_quiet (w : Word) (home line : Nat) (s : State) :
    Quiet s (dropWritten w home line s) := by simp [Quiet, dropWritten]
@[simp] theorem wantLine_quiet (core home : Nat) (w : Word) (key : Nat) (bulk : Bool) (s : State) :
    Quiet s (wantLine core home w key bulk s) := by
  unfold wantLine
  split <;> simp [Quiet]
@[simp] theorem reachLine_quiet (core home : Nat) (w : Word) (key : Nat) (bulk : Bool) (s : State) :
    Quiet s (reachLine core home w key bulk s).1 := by
  unfold reachLine
  split
  · simp [Quiet]
  · split <;> simp [Quiet]
@[simp] theorem readRecall_quiet (w : Word) (key : Nat) (s : State) : Quiet s (readRecall w key s) := by simp [Quiet, readRecall]
@[simp] theorem lineAsk_quiet (core d : Nat) (w : Word) (key : Nat) (write : Bool) (s : State) :
    Quiet s (lineAsk core d w key write s).1 := by
  unfold lineAsk
  simp only
  repeat' split
  all_goals simp [Quiet]
@[simp] theorem linesAsk_quiet (core d : Nat) (w : Word) (key n : Nat) (s : State) : Quiet s (linesAsk core d w key n s).1 :=
  Quiet.foldPair _ (s, true) (fun _ _ => lineAsk_quiet ..)
@[simp] theorem linesDrop_quiet (d : Nat) (w : Word) (key n : Nat) (s : State) :
    Quiet s (linesDrop d w key n s) := by simp [Quiet, linesDrop]

/-! #### Fetching -/

@[simp] theorem fillCode_quiet (p : Nat) (ls : List (Word × Nat × BitVec 512)) (s : State) :
    Quiet s (fillCode p ls s) := by simp [Quiet, fillCode]

/-! #### Issue -/

@[simp] theorem addRes_quiet (p : Nat) (o : OpSem) (s : State) : Quiet s (addRes p o s) := ⟨rfl, rfl⟩
@[simp] theorem parkWrite_quiet (w : EndWrite) (s : State) : Quiet s (parkWrite w s) := ⟨rfl, rfl⟩
@[simp] theorem walkOn_quiet (p : Nat) (s : State) : Quiet s (walkOn p s) := by
  unfold walkOn
  simp only
  repeat' split
  all_goals simp [Quiet]
@[simp] theorem request_quiet (p : Nat) (op : Option (BitVec 3)) (s : State) : Quiet s (request p op s) := by
  unfold request
  split <;> simp [Quiet]
@[simp] theorem countStep_quiet (p : Nat) (s : State) : Quiet s (countStep p s) := by simp [Quiet, countStep]
@[simp] theorem closeWindow_quiet (p : Nat) (s : State) : Quiet s (closeWindow p s) := by simp [Quiet, closeWindow]
@[simp] theorem finishStep_quiet (p : Nat) (s : State) : Quiet s (finishStep p s) := by simp [Quiet, finishStep]
@[simp] theorem passBar_quiet (p : Nat) (s : State) : Quiet s (passBar p s) := ⟨rfl, rfl⟩

/-! #### Queues -/

@[simp] theorem popRow_quiet (p n : Nat) (s : State) : Quiet s (popRow p n s) := by
  unfold popRow
  split <;> simp [Quiet]

/-! #### The scratchpad -/

@[simp] theorem takeBanks_quiet (p : Nat) (ids : List Nat) (s : State) : Quiet s (takeBanks p ids s) := ⟨rfl, rfl⟩
@[simp] theorem poisonRead_quiet (p : Nat) (bad : Bool) (s : State) : Quiet s (poisonRead p bad s) := by simp [Quiet, poisonRead]

/-! #### The matrix engine -/

@[simp] theorem setArr_quiet (core a : Nat) (x : Arr) (s : State) : Quiet s (setArr core a x s) := ⟨rfl, rfl⟩
@[simp] theorem startFill_quiet (core a : Nat) (t : Tag) (key : Nat) (place : Word) (table : BitVec 128) (source : Option Nat)
    (s : State) :
    Quiet s (startFill core a t key place table source s) := ⟨rfl, rfl⟩
@[simp] theorem accept_quiet (p : Nat) (m : MOp) (s : State) : Quiet s (accept p m s) := ⟨rfl, rfl⟩
@[simp] theorem acceptCim_quiet (p : Nat) (m : MOp) (s : State) : Quiet s (acceptCim p m s) := by
  unfold acceptCim
  simp only
  split <;> simp [Quiet]
@[simp] theorem metaStep_quiet (p : Nat) (m : BitVec 1) (s : State) : Quiet s (metaStep p m s) := by
  unfold metaStep
  simp only
  repeat' split
  all_goals simp [Quiet]
@[simp] theorem makeResident_quiet (p : Nat) (t : Tag) (key : Nat) (place : Word) (table : BitVec 128) (s : State) :
    Quiet s (makeResident p t key place table s) := by
  unfold makeResident
  split <;> simp [Quiet]
@[simp] theorem pinCopies_quiet (core : Nat) (t : Tag) (s : State) : Quiet s (pinCopies core t s) := by simp [Quiet, pinCopies]
@[simp] theorem resideMop_quiet (core : Nat) (m : MOp) (s : State) : Quiet s (resideMop core m s) := by simp [Quiet, resideMop]
@[simp] theorem setPins_quiet (core : Nat) (t : Tag) (b : Bool) (as : List Nat) (s : State) :
    Quiet s (setPins core t b as s) := by simp [Quiet, setPins]
@[simp] theorem dropTile_quiet (core : Nat) (t : Tag) (s : State) : Quiet s (dropTile core t s) := by simp [Quiet, dropTile]
@[simp] theorem refill_quiet (core a : Nat) (t : Tag) (m : MOp) (s : State) : Quiet s (refill core a t m s) := by simp [Quiet, refill]
@[simp] theorem actWinv_quiet (core : Nat) (t : Tag) (s : State) : Quiet s (actWinv core t s) := by
  unfold actWinv
  refine (dropTile_quiet core t s).trans ((Quiet.foldl _ _ fun z a => ?_).trans (Quiet.foldl _ _ fun z m => ?_))
  · split <;> simp [Quiet]
  · split <;> simp [Quiet]
@[simp] theorem imageAsk_quiet (core : Nat) (place : Word) (key wfmt : Nat) (s : State) :
    Quiet s (imageAsk core place key wfmt s).1 := by simp [Quiet, imageAsk]
@[simp] theorem startOne_quiet (p k : Nat) (s : State) : Quiet s (startOne p k s) := by
  unfold startOne
  split
  · simp [Quiet]
  · split <;> simp [Quiet]
@[simp] theorem retargetMop_quiet (p k : Nat) (s : State) : Quiet s (retargetMop p k s) := by
  unfold retargetMop
  split
  · simp [Quiet]
  · split <;> simp [Quiet]
@[simp] theorem doMatrixStart_quiet (p k : Nat) (s : State) : Quiet s (doMatrixStart p k s) := by
  unfold doMatrixStart
  repeat' split
  all_goals simp [Quiet]
@[simp] theorem doReplicaStart_quiet (core src : Nat) (s : State) : Quiet s (doReplicaStart core src s) := by
  unfold doReplicaStart
  split <;> simp [Quiet]
@[simp] theorem endFill_quiet (core a : Nat) (s : State) : Quiet s (endFill core a s) := ⟨rfl, rfl⟩
@[simp] theorem poisonFill_quiet (core : Nat) (t : Tag) (s : State) : Quiet s (poisonFill core t s) := by simp [Quiet, poisonFill]
@[simp] theorem doTileFill_quiet (core a : Nat) (s : State) : Quiet s (doTileFill core a s) := by simp [Quiet, doTileFill]
@[simp] theorem doReplicaEnd_quiet (core a : Nat) (s : State) : Quiet s (doReplicaEnd core a s) := by simp [Quiet, doReplicaEnd]
@[simp] theorem dropMop_quiet (p k : Nat) (s : State) : Quiet s (dropMop p k s) := ⟨rfl, rfl⟩
@[simp] theorem doMatrixComplete_quiet (p k : Nat) (s : State) : Quiet s (doMatrixComplete p k s) := by
  unfold doMatrixComplete
  repeat' split
  all_goals simp [Quiet]
@[simp] theorem doDrainPush_quiet (p k : Nat) (s : State) : Quiet s (doDrainPush p k s) := by
  unfold doDrainPush
  simp only
  repeat' split
  all_goals simp [Quiet]
@[simp] theorem countWaits_quiet (p n : Nat) (s : State) : Quiet s (countWaits p n s) := by simp [Quiet, countWaits]
@[simp] theorem doQueueOverflow_quiet (p k : Nat) (s : State) : Quiet s (doQueueOverflow p k s) := by
  unfold doQueueOverflow
  split <;> simp [Quiet]

/-! #### Lattices -/

@[simp] theorem soil_quiet (w : Word) (cell : Nat) (ds : List Nat) (s : State) : Quiet s (soil w cell ds s) := ⟨rfl, rfl⟩
@[simp] theorem cleanse_quiet (cell : Nat) (s : State) : Quiet s (cleanse cell s) := ⟨rfl, rfl⟩
@[simp] theorem poisonDie_quiet (d : Nat) (s : State) : Quiet s (poisonDie d s) := ⟨rfl, rfl⟩
@[simp] theorem spoilCell_quiet (w : Word) (cell : Nat) (s : State) : Quiet s (spoilCell w cell s) := by simp [Quiet, spoilCell]
@[simp] theorem spoilLine_quiet (w : Word) (line : Nat) (s : State) : Quiet s (spoilLine w line s) := by simp [Quiet, spoilLine]
@[simp] theorem dropMark_quiet (cell : Nat) (s : State) : Quiet s (dropMark cell s) := ⟨rfl, rfl⟩
@[simp] theorem spoilAll_quiet (s : State) : Quiet s (spoilAll s) := by
  refine Quiet.foldl _ _ fun t e => ?_
  split
  · split <;> simp [Quiet]
  · exact ⟨rfl, rfl⟩
@[simp] theorem spoilRead_quiet (w : Word) (cells : List Nat) (s : State) : Quiet s (spoilRead w cells s) := by simp [Quiet, spoilRead]
@[simp] theorem doExchangePhase_quiet (s : State) : Quiet s (doExchangePhase s) := by simp [Quiet, doExchangePhase]
@[simp] theorem reportError_quiet (s : State) : Quiet s (reportError s) := ⟨rfl, rfl⟩

/-! #### Global memory -/

@[simp] theorem lcSet_quiet (core line : Nat) (x : LcLine) (s : State) : Quiet s (lcSet core line x s) := ⟨rfl, rfl⟩
@[simp] theorem lcDrop_quiet (core line : Nat) (s : State) : Quiet s (lcDrop core line s) := ⟨rfl, rfl⟩
@[simp] theorem lcClear_quiet (core : Nat) (s : State) : Quiet s (lcClear core s) := ⟨rfl, rfl⟩
@[simp] theorem jumpPts_quiet (core : Nat) (t : Stamp) (s : State) : Quiet s (jumpPts core t s) := ⟨rfl, rfl⟩
@[simp] theorem dropCopies_quiet (s : State) : Quiet s (dropCopies s) := ⟨rfl, rfl⟩
@[simp] theorem staleTiles_quiet (line : Nat) (s : State) : Quiet s (staleTiles line s) := ⟨rfl, rfl⟩
@[simp] theorem stalePages_quiet (asn page n : Nat) (s : State) : Quiet s (stalePages asn page n s) := ⟨rfl, rfl⟩
@[simp] theorem unrestart_quiet (seq : Nat) (s : State) : Quiet s (unrestart seq s) := ⟨rfl, rfl⟩
@[simp] theorem logWrite_quiet (seq : Option Nat) (w : Word) (home line : Nat) (s : State) : Quiet s (logWrite seq w home line s) := by
  unfold logWrite
  split
  · simp [Quiet]
  · split <;> simp [Quiet]
@[simp] theorem dropReq_quiet (p k : Nat) (s : State) : Quiet s (dropReq p k s) := ⟨rfl, rfl⟩
@[simp] theorem deliver_quiet (p k : Nat) (r : GReq) (line : BitVec 512) (bad : Bool) (s : State) :
    Quiet s (deliver p k r line bad s) := by simp [Quiet, deliver]
@[simp] theorem acquired_quiet (acq : Bool) (s : State) : Quiet s (acquired acq s) := by simp [Quiet, acquired]
@[simp] theorem latticeLoad_quiet (p k : Nat) (r : GReq) (s : State) : Quiet s (latticeLoad p k r s) := by simp [Quiet, latticeLoad]
@[simp] theorem serveLoad_quiet (p k : Nat) (r : GReq) (s : State) : Quiet s (serveLoad p k r s) := by simp [Quiet, serveLoad]
@[simp] theorem retarget_quiet (p k : Nat) (r : GReq) (s : State) : Quiet s (retarget p k r s) := by
  unfold retarget
  simp only
  split <;> simp [Quiet]
@[simp] theorem prefetchHome_quiet (p k : Nat) (r : GReq) (s : State) : Quiet s (prefetchHome p k r s) := by simp [Quiet, prefetchHome]
@[simp] theorem doLoadPerform_quiet (p k : Nat) (s : State) : Quiet s (doLoadPerform p k s) := by
  unfold doLoadPerform
  simp only
  split <;> simp [Quiet]
@[simp] theorem markDone_quiet (p k : Nat) (r : GReq) (t : Stamp) (s : State) : Quiet s (markDone p k r t s) := ⟨rfl, rfl⟩
@[simp] theorem doStoreAck_quiet (p k : Nat) (s : State) : Quiet s (doStoreAck p k s) := by
  unfold doStoreAck
  split <;> simp [Quiet]
@[simp] theorem doDataArrival_quiet (p k : Nat) (s : State) : Quiet s (doDataArrival p k s) := by
  unfold doDataArrival
  simp only
  split <;> simp [Quiet]
@[simp] theorem dropSide_quiet (core i : Nat) (s : State) : Quiet s (dropSide core i s) := ⟨rfl, rfl⟩
@[simp] theorem addReqs_quiet (p : Nat) (rs : List GReq) (s : State) : Quiet s (addReqs p rs s) := ⟨rfl, rfl⟩
@[simp] theorem doCalendarSlot_quiet (stack chan slot : Nat) (s : State) : Quiet s (doCalendarSlot stack chan slot s) := by
  unfold doCalendarSlot
  repeat' split
  all_goals simp [Quiet]
@[simp] theorem doDataReturn_quiet (k : Nat) (s : State) : Quiet s (doDataReturn k s) := by
  unfold doDataReturn
  split <;> simp [Quiet]
@[simp] theorem doL2Eviction_quiet (die line : Nat) (s : State) : Quiet s (doL2Eviction die line s) := by simp [Quiet, doL2Eviction]
@[simp] theorem doPtsTick_quiet (s : State) : Quiet s (doPtsTick s) :=
  Quiet.foldl _ { s with ticks := (s.ticks + 1) % 2 ^ 20 } fun _ _ => updCore_quiet ..
@[simp] theorem doWindowRaise_quiet (s : State) : Quiet s (doWindowRaise s) := by
  unfold doWindowRaise
  split <;> simp [Quiet]
@[simp] theorem raiseKept_quiet (fl : Stamp) (s : State) : Quiet s (raiseKept fl s) := ⟨rfl, rfl⟩
@[simp] theorem doSweep_quiet (die : Nat) (s : State) : Quiet s (doSweep die s) := by
  unfold doSweep
  split <;> simp [Quiet]
@[simp] theorem doExpiryDrop_quiet (core : Nat) (s : State) : Quiet s (doExpiryDrop core s) := ⟨rfl, rfl⟩

/-! #### Translation -/

@[simp] theorem askRecalls_quiet (ps : List Nat) (s : State) : Quiet s (askRecalls ps s) := by simp [Quiet, askRecalls]
@[simp] theorem installLeaf_quiet (o : Nat) (va : Word) (e : WalkEnd) (s : State) : Quiet s (installLeaf o va e s) := ⟨rfl, rfl⟩
@[simp] theorem endWalk_quiet (p k : Nat) (w : Walk) (frame place : Word) (s : State) :
    Quiet s (endWalk p k w frame place s) := ⟨rfl, rfl⟩
@[simp] theorem holdWalk_quiet (p k : Nat) (w : Walk) (e : Cause) (s : State) : Quiet s (holdWalk p k w e s) := ⟨rfl, rfl⟩
@[simp] theorem invalidate_quiet (asn v n : Nat) (s : State) : Quiet s (invalidate asn v n s) := ⟨rfl, rfl⟩
@[simp] theorem doXinvComplete_quiet (p : Nat) (s : State) : Quiet s (doXinvComplete p s) := by
  unfold doXinvComplete
  split <;> simp [Quiet]

/-! #### Transfers, restripes and links -/

@[simp] theorem setGrans_quiet (ks : List Nat) (empty : Bool) (s : State) : Quiet s (setGrans ks empty s) := ⟨rfl, rfl⟩
@[simp] theorem writeAsk_quiet (p : Nat) (ps : List (Word × Nat)) (s : State) : Quiet s (writeAsk p ps s).1 := by
  refine Quiet.foldPair ps (s, true) fun z q => ?_
  split
  · dsimp only
    split
    · exact ⟨rfl, rfl⟩
    · exact lineAsk_quiet ..
  · exact ⟨rfl, rfl⟩
@[simp] theorem setXfer_quiet (p k : Nat) (x : Xfer) (s : State) : Quiet s (setXfer p k x s) := ⟨rfl, rfl⟩
@[simp] theorem holdXfer_quiet (p k : Nat) (x : Xfer) (e : Cause) (s : State) :
    Quiet s (holdXfer p k x e s) := by simp [Quiet, holdXfer]
@[simp] theorem doXferComplete_quiet (p k : Nat) (s : State) : Quiet s (doXferComplete p k s) := by
  unfold doXferComplete
  split <;> simp [Quiet]
@[simp] theorem moveLine_quiet (old new : Word) (pa : Nat) (s : State) : Quiet s (moveLine old new pa s) := by
  have left (hs : List (Nat × Nat)) : Quiet s (hs.foldl (fun t h => updDie h.1 (fun d => { d with
      l2 := smErase d.l2 h.2
      msc := smErase d.msc h.2 }) t) s) := Quiet.foldl _ _ fun _ _ => updDie_quiet ..
  unfold moveLine
  dsimp only
  split
  · exact left _
  · exact (left _).trans (Quiet.foldl _ _ fun t h => by simp [Quiet])
@[simp] theorem moveTiles_quiet (old new : Word) (pa : Nat) (s : State) : Quiet s (moveTiles old new pa s) := ⟨rfl, rfl⟩
@[simp] theorem reportCopy_quiet (s : State) : Quiet s (reportCopy s) := ⟨rfl, rfl⟩
@[simp] theorem moveEntry_quiet (new : Word) (s : State) (e : WLog) : Quiet s (moveEntry new s e) := by
  unfold moveEntry
  split <;> simp [Quiet]
@[simp] theorem moveLog_quiet (old new : Word) (pa : Nat) (s : State) : Quiet s (moveLog old new pa s) := by simp [Quiet, moveLog]
@[simp] theorem copyBursts_quiet (old new : Word) (pa num : Nat) (s : State) :
    Quiet s (copyBursts old new pa num s) := by simp [Quiet, copyBursts]
@[simp] theorem moveRecall_quiet (old : Word) (pa : Nat) (s : State) : Quiet s (moveRecall old pa s) := by simp [Quiet, moveRecall]
@[simp] theorem updChan_quiet (ch : Nat) (f : Chan → Chan) (s : State) : Quiet s (updChan ch f s) := ⟨rfl, rfl⟩
@[simp] theorem doRowReceive_quiet (ch : Nat) (row : Vec) (bad : Bool) (s : State) :
    Quiet s (doRowReceive ch row bad s) := by simp [Quiet, doRowReceive]
@[simp] theorem doRemoteRoom_quiet (ch n : Nat) (s : State) : Quiet s (doRemoteRoom ch n s) := by
  unfold doRemoteRoom
  repeat' split
  all_goals simp [Quiet]

/-! #### Barriers -/

@[simp] theorem barComplete_quiet (cl b : Nat) (s : State) : Quiet s (barComplete cl b s) := by
  unfold barComplete
  simp only
  split <;> simp [Quiet]
@[simp] theorem barArrive_quiet (p b : Nat) (s : State) : Quiet s (barArrive p b s) := by simp [Quiet, barArrive]
@[simp] theorem unstalled_quiet (p : Nat) (s : State) : Quiet s (unstalled p s) := ⟨rfl, rfl⟩

/-! #### Fences and code -/

@[simp] theorem raiseTo_quiet (core : Nat) (o : Option Stamp) (s : State) : Quiet s (raiseTo core o s) := by
  unfold raiseTo
  split <;> simp [Quiet]
@[simp] theorem fenceRaise_quiet (p : Nat) (m : BitVec 5) (s : State) : Quiet s (fenceRaise p m s) := by simp [Quiet, fenceRaise]
@[simp] theorem dropCode_quiet (p : Nat) (s : State) : Quiet s (dropCode p s) := ⟨rfl, rfl⟩

/-! #### Launches -/

@[simp] theorem toBack_quiet (seq : Nat) (s : State) : Quiet s (toBack seq s) := ⟨rfl, rfl⟩

/-! #### Binding, saving and resuming -/

@[simp] theorem claimBanks_quiet (p m : Nat) (s : State) : Quiet s (claimBanks p m s) := ⟨rfl, rfl⟩
@[simp] theorem filterCtx_quiet (p : Nat) (s : State) : Quiet s (filterCtx p s) := ⟨rfl, rfl⟩
@[simp] theorem seat_quiet (p : Nat) (c : Ctx) (s : State) : Quiet s (seat p c s) := by simp [Quiet, seat]
@[simp] theorem pushCounts_quiet (l : Launch) (n k : Nat) (s : State) : Quiet s (pushCounts l n k s) := by
  unfold pushCounts
  split <;> simp [Quiet]
@[simp] theorem bindCore_quiet (l : Launch) (n q k : Nat) (s : State) : Quiet s (bindCore l n q k s) := by simp [Quiet, bindCore]
@[simp] theorem doPreemptionRequest_quiet (p : Nat) (s : State) :
    Quiet s (doPreemptionRequest p s) := by simp [Quiet, doPreemptionRequest]
@[simp] theorem doPreemptSave_quiet (p : Nat) (s : State) : Quiet s (doPreemptSave p s) := by simp [Quiet, doPreemptSave]
@[simp] theorem reaccept_quiet (p : Nat) (s : State) : Quiet s (reaccept p s) := by
  refine Quiet.foldl _ _ fun t i => ?_
  split
  · exact ⟨rfl, rfl⟩
  · dsimp only
    repeat' split
    all_goals simp [Quiet]
@[simp] theorem doResume_quiet (key p : Nat) (s : State) : Quiet s (doResume key p s) := by
  unfold doResume
  split <;> simp [Quiet]
@[simp] theorem doHandlerBind_quiet (q : Nat) (s : State) : Quiet s (doHandlerBind q s) := by
  unfold doHandlerBind
  simp only
  split <;> simp [Quiet]
@[simp] theorem doDrainComplete_quiet (p : Nat) (s : State) : Quiet s (doDrainComplete p s) := by simp [Quiet, doDrainComplete]

/-! #### The junction -/

@[simp] theorem toGroup_quiet (p : Nat) (s : State) : Quiet s (toGroup p s) := by simp [Quiet, toGroup]
@[simp] theorem fillFor_quiet (p : Nat) (f : Fetching) (s : State) : Quiet s (fillFor p f s) := by
  unfold fillFor
  split <;> simp [Quiet]
@[simp] theorem passes_quiet (p : Nat) (a : Attempt) (s : State) : Quiet s (passes p a s) := by
  unfold passes
  split <;> simp [Quiet]
@[simp] theorem settleTurn_quiet (p : Nat) (ready took other : Bool) (s : State) :
    Quiet s (settleTurn p ready took other s) := by simp [Quiet, settleTurn]
@[simp] theorem tick_quiet (core n : Nat) (s : State) : Quiet s (tick core n s) := by simp [Quiet, tick]
@[simp] theorem installFills_quiet (core : Nat) (s : State) : Quiet s (installFills core s) := by simp [Quiet, installFills]

/-! #### What the scheduler resolves -/

@[simp] theorem releaseHold_quiet (p : Nat) (s : State) : Quiet s (releaseHold p s) := ⟨rfl, rfl⟩
@[simp] theorem resolveWalk_quiet (p : Nat) (s : State) (k : Nat) : Quiet s (resolveWalk p s k) := by
  unfold resolveWalk
  split
  · simp [Quiet]
  · split <;> simp [Quiet]
@[simp] theorem sideFault_quiet (p i : Nat) (e : SideEntry) (h : Cause) (s : State) : Quiet s (sideFault p i e h s) := ⟨rfl, rfl⟩
@[simp] theorem refuseWork_quiet (p : Nat) (s : State) : Quiet s (refuseWork p s) := by
  unfold refuseWork
  simp only
  repeat' split
  all_goals simp [Quiet]

/-! #### Errors and failures -/

@[simp] theorem raiseEvent_quiet (i : Nat) (s : State) : Quiet s (raiseEvent i s) := ⟨rfl, rfl⟩
@[simp] theorem dropEmpty_quiet (seq : Nat) (s : State) : Quiet s (dropEmpty seq s) := ⟨rfl, rfl⟩
@[simp] theorem dropLost_quiet (s : State) : Quiet s (dropLost s) := by
  refine Quiet.foldl _ _ fun t e => ?_
  split
  · split <;> simp [Quiet]
  · exact ⟨rfl, rfl⟩
@[simp] theorem doChannelFailure_quiet (stack chan : Nat) (s : State) :
    Quiet s (doChannelFailure stack chan s) := by simp [Quiet, doChannelFailure]
@[simp] theorem doLaneFailure_quiet (port lane : Nat) (s : State) :
    Quiet s (doLaneFailure port lane s) := by simp [Quiet, doLaneFailure]
@[simp] theorem doFlitRetry_quiet (_port : Nat) (s : State) : Quiet s (doFlitRetry _port s) := ⟨rfl, rfl⟩
@[simp] theorem spoilKey_quiet (key : Nat) (s : State) : Quiet s (spoilKey key s) := by simp [Quiet, spoilKey]
@[simp] theorem spoilUnit_quiet (p f n : Nat) (s : State) : Quiet s (spoilUnit p f n s) := by
  unfold spoilUnit
  split <;> simp [Quiet]
@[simp] theorem doPatrolScrub_quiet (key : Nat) (bad : Bool) (s : State) :
    Quiet s (doPatrolScrub key bad s) := by simp [Quiet, doPatrolScrub]

/-! #### The host and other devices -/

@[simp] theorem doEventClear_quiet (v : Word) (s : State) : Quiet s (doEventClear v s) := by simp [Quiet, doEventClear]
@[simp] theorem doRetadd_quiet (v : Word) (s : State) : Quiet s (doRetadd v s) := by simp [Quiet, doRetadd]
theorem whileQuiet_quiet {s t : State} (h : Quiet s t) : Quiet s (whileQuiet s t) := by
  unfold whileQuiet
  split
  · exact h
  · exact ⟨rfl, rfl⟩
@[simp] theorem doConfigWrite_quiet (off size : Nat) (v : Word) (s : State) : Quiet s (doConfigWrite off size v s) := by
  unfold doConfigWrite
  split
  · exact ⟨rfl, rfl⟩
  · split
    · exact doEventClear_quiet ..
    · exact whileQuiet_quiet ⟨rfl, rfl⟩
    · exact whileQuiet_quiet (by simp [Quiet])
    · exact whileQuiet_quiet (by simp [Quiet])
    · exact ⟨rfl, rfl⟩
    · exact doRetadd_quiet ..
    · exact ⟨rfl, rfl⟩
@[simp] theorem hostRecalls_quiet (s : State) (w : Word) (write : Bool) (ps : List (Nat × Nat)) :
    Quiet s (hostRecalls s w write ps) := by simp [Quiet, hostRecalls]
@[simp] theorem doHostRead_quiet (pa n : Nat) (w : Word) (s : State) : Quiet s (doHostRead pa n w s) := by simp [Quiet, doHostRead]
@[simp] theorem dropPage_quiet (page : Nat) (s : State) : Quiet s (dropPage page s) := ⟨rfl, rfl⟩
@[simp] theorem raisePts_quiet (t : Stamp) (s : State) : Quiet s (raisePts t s) := by simp [Quiet, raisePts]
@[simp] theorem recallTiles_quiet (page : Nat) (s : State) : Quiet s (recallTiles page s) := ⟨rfl, rfl⟩
@[simp] theorem recallHeld_quiet (page : Nat) (s : State) : Quiet s (recallHeld page s) := by
  unfold recallHeld
  simp only
  split <;> simp [Quiet]

/-! #### Power and heat -/

@[simp] theorem doHoldEntry_quiet (stack : Nat) (s : State) : Quiet s (doHoldEntry stack s) := by simp [Quiet, doHoldEntry]
@[simp] theorem doHoldExit_quiet (stack : Nat) (s : State) : Quiet s (doHoldExit stack s) := ⟨rfl, rfl⟩
@[simp] theorem doHoldLong_quiet (stack : Nat) (s : State) : Quiet s (doHoldLong stack s) := by simp [Quiet, doHoldLong]
@[simp] theorem doThreshold_quiet (core level : Nat) (s : State) : Quiet s (doThreshold core level s) := by simp [Quiet, doThreshold]
@[simp] theorem doTrip_quiet (die : Nat) (s : State) : Quiet s (doTrip die s) := by simp [Quiet, doTrip]
@[simp] theorem doOpEnd_quiet (core : Nat) (s : State) : Quiet s (doOpEnd core s) := by simp [Quiet, doOpEnd]
@[simp] theorem doSplit_quiet (core level : Nat) (s : State) : Quiet s (doSplit core level s) := by simp [Quiet, doSplit]
@[simp] theorem doBallast_quiet (die : Nat) (s : State) : Quiet s (doBallast die s) := by simp [Quiet, doBallast]
@[simp] theorem applyTables_quiet (s : State) : Quiet s (applyTables s) := ⟨rfl, rfl⟩
@[simp] theorem numberCores_quiet (s : State) : Quiet s (numberCores s) := ⟨rfl, rfl⟩
@[simp] theorem bringFail_quiet (reason : BitVec 8) (s : State) : Quiet s (bringFail reason s) := ⟨rfl, rfl⟩
@[simp] theorem doRetirement_quiet (readable : Bool) (s : State) : Quiet s (doRetirement readable s) := by simp [Quiet, doRetirement]
@[simp] theorem appendDead_quiet (s : State) (v : Word) : Quiet s (appendDead s v) := by simp [Quiet, appendDead]
@[simp] theorem zeroStamps_quiet (s : State) : Quiet s (zeroStamps s) := ⟨rfl, rfl⟩
@[simp] theorem doTraining_quiet (dead : List Word) (s : State) : Quiet s (doTraining dead s) := by simp [Quiet, doTraining]
@[simp] theorem doOpen_quiet (s : State) : Quiet s (doOpen s) := by simp [Quiet, doOpen]
@[simp] theorem doBringFailed_quiet (reason : BitVec 8) (s : State) : Quiet s (doBringFailed reason s) := by simp [Quiet, doBringFailed]

/-! ### Operations that write memory -/

/-- `t` has the writes that wait in `s`, and its memory is canonical where that of `s` is. -/
@[reducible] def KeepsForm (s t : State) : Prop := t.endw = s.endw ∧ (Memory.wf s.mem = true → Memory.wf t.mem = true)

theorem Quiet.form {s t : State} (h : Quiet s t) : KeepsForm s t := ⟨h.2, fun w => h.1 ▸ w⟩

theorem KeepsForm.trans {s t u : State} (h : KeepsForm s t) (k : KeepsForm t u) : KeepsForm s u := ⟨k.1.trans h.1, k.2 ∘ h.2⟩

theorem KeepsForm.then {s t u : State} (h : KeepsForm s t) (k : Quiet t u) : KeepsForm s u := h.trans k.form

theorem KeepsForm.ite {c : Prop} [Decidable c] {s a b : State} (h : KeepsForm s a) (k : KeepsForm s b) :
    KeepsForm s (if c then a else b) := by
  split
  · exact h
  · exact k

theorem KeepsForm.foldl {α : Type} {f : State → α → State} (l : List α) (s : State) (h : ∀ t x, KeepsForm t (f t x)) :
    KeepsForm s (l.foldl f s) := by
  induction l generalizing s with
  | nil => exact ⟨rfl, id⟩
  | cons x l ih => exact (h _ _).trans (ih _)

@[simp] theorem foldl_wf {α : Type} {f : State → α → State} (l : List α) (s : State) (h : ∀ t x, KeepsForm t (f t x))
    (w : Memory.wf s.mem = true) : Memory.wf (l.foldl f s).mem = true := (KeepsForm.foldl l s h).2 w

@[simp] theorem wf_ite (b : Prop) [Decidable b] (m n : List Host.Cell) :
    Memory.wf (if b then m else n) = if b then Memory.wf m else Memory.wf n := apply_ite ..

@[simp] theorem wf_filter (m : List Host.Cell) (p : Host.Cell → Bool) (w : Memory.wf m = true) : Memory.wf (m.filter p) = true :=
  smWfFrom_filter _ _ _ _ w

/-- Writes made one after the other keep the canonical form. -/
theorem foldl_cells_wf {α : Type} (f : List Host.Cell → α → List Host.Cell) (l : List α) (m : List Host.Cell)
    (h : ∀ m x, Memory.wf m = true → Memory.wf (f m x) = true) (w : Memory.wf m = true) : Memory.wf (l.foldl f m) = true := by
  induction l generalizing m with
  | nil => exact w
  | cons x l ih => exact ih _ (h _ _ w)

/-- Other tables of the state are no part of either. -/
theorem numbered_quiet (s : State) (n : Nat) : Quiet s { s with nextSeq := n } := ⟨rfl, rfl⟩
theorem listed_quiet (s : State) (l : List Launch) (f : SMap (Option Bool)) : Quiet s { s with launches := l, finals := f } :=
  ⟨rfl, rfl⟩
theorem setMem_form (m : List Host.Cell) (s : State) (h : Memory.wf s.mem = true → Memory.wf m = true) :
    KeepsForm s (setMem m s) := ⟨rfl, h⟩
theorem otherTables_quiet (s : State) (xs : SMap Ctx) (cs : SMap Core) : Quiet s { s with ctxs := xs, cores := cs } := ⟨rfl, rfl⟩

/-! #### Shared operations -/

@[simp] theorem deviceStore_form (pa : Nat) (bs : List Byte) (s : State) :
    KeepsForm s (deviceStore pa bs s) := by simp +contextual [KeepsForm, deviceStore, wrBytes_wf]
@[simp] theorem devicePart_form (s : State) (e : Nat × List Byte) :
    KeepsForm s (devicePart s e) := by simp +contextual [KeepsForm, devicePart]
@[simp] theorem deviceWrite_form (pa : Nat) (bs : List Byte) (s : State) :
    KeepsForm s (deviceWrite pa bs s) := by simp +contextual [KeepsForm, deviceWrite]
@[simp] theorem flushWaiting_form (page : Nat) (s : State) :
    KeepsForm s (flushWaiting page s) := by simp +contextual [KeepsForm, flushWaiting]
@[simp] theorem deviceZero_form (pa n : Nat) (s : State) :
    KeepsForm s (deviceZero pa n s) := by
  unfold deviceZero
  refine KeepsForm.foldl _ _ fun t i => ?_
  refine KeepsForm.ite (devicePart_form ..) ?_
  simp +contextual [KeepsForm]
@[simp] theorem journalPut_form (seq off n v : Nat) (s : State) : KeepsForm s (journalPut seq off n v s) := by
  unfold journalPut
  split <;> simp +contextual [KeepsForm]
@[simp] theorem faultLaunch_form (seq cause : Nat) (gaddr : Word) (s : State) :
    KeepsForm s (faultLaunch seq cause gaddr s) := by simp +contextual [KeepsForm, faultLaunch]
@[simp] theorem endLaunch_form (seq cause : Nat) (gaddr : Word) (s : State) :
    KeepsForm s (endLaunch seq cause gaddr s) := by simp +contextual [KeepsForm, endLaunch]
@[simp] theorem writeRecord_form (area : Option Nat) (ws : List Word) (s : State) : KeepsForm s (writeRecord area ws s) := by
  unfold writeRecord
  split <;> simp +contextual [KeepsForm]
@[simp] theorem drainTrapped_form (q : Nat) (s : State) :
    KeepsForm s (drainTrapped q s) := by simp +contextual [KeepsForm, drainTrapped]
@[simp] theorem handlerless_form (p : Nat) (s : State) : KeepsForm s (handlerless p s) := by
  unfold handlerless
  simp only
  split <;> simp +contextual [KeepsForm]
@[simp] theorem trapWith_form (p : Nat) (e : Cause) (gaddr info : Word) (resume : Option Word) (s : State) :
    KeepsForm s (trapWith p e gaddr info resume s) := by simp +contextual [KeepsForm, trapWith]
@[simp] theorem trapEntry_form (p : Nat) (e : Cause) (gaddr info : Word) (resume : Option Word) (s : State) :
    KeepsForm s (trapEntry p e gaddr info resume s) := by
  unfold trapEntry
  simp only
  split <;> simp +contextual [KeepsForm]

/-! #### Issue -/

@[simp] theorem settleAttempt_form (p : Nat) (a : Attempt) (s : State) : KeepsForm s (settleAttempt p a s) := by
  unfold settleAttempt
  split <;> simp +contextual [KeepsForm]
@[simp] theorem endWrite_form (ws : List EndWrite) (s : State) (w : EndWrite) :
    KeepsForm s (endWrite ws s w) := by simp +contextual [KeepsForm, endWrite, wrByte_wf, foldl_cells_wf]
@[simp] theorem afterTrap_form (p : Nat) (g : Grp) (q : SeqAct) (s : State) : KeepsForm s (afterTrap p g q s) := by
  unfold afterTrap
  split <;> simp +contextual [KeepsForm]
@[simp] theorem finishGroup_form (p : Nat) (g : Grp) (ops : List OpSem) (s : State) : KeepsForm s (finishGroup p g ops s) := by
  unfold finishGroup
  refine .trans ?_ (afterTrap_form ..)
  simp [KeepsForm]
@[simp] theorem endGroup_form (p : Nat) (g : Grp) (ops : List OpSem) (s : State) : KeepsForm s (endGroup p g ops s) := by
  unfold endGroup
  split
  · exact ⟨rfl, id⟩
  · exact finishGroup_form ..

/-! #### Lattices -/

@[simp] theorem cellJoin_form (w : Word) (cell v : Nat) (src : Option Nat) (s : State) : KeepsForm s (cellJoin w cell v src s) := by
  unfold cellJoin
  simp only
  repeat' split
  all_goals simp +contextual [KeepsForm, wrNat_wf]
@[simp] theorem cellsJoin_form (w : Word) (key n v : Nat) (s : State) :
    KeepsForm s (cellsJoin w key n v s) := by simp +contextual [KeepsForm, cellsJoin]
@[simp] theorem rawWrite_form (w : Word) (key : Nat) (bs : List Byte) (s : State) :
    KeepsForm s (rawWrite w key bs s) := by simp +contextual [KeepsForm, rawWrite, wrBytes_wf]
@[simp] theorem doExchangeApply_form (k : Nat) (s : State) : KeepsForm s (doExchangeApply k s) := by
  unfold doExchangeApply
  split <;> simp +contextual [KeepsForm]
@[simp] theorem doRebuildEnd_form (die cell : Nat) (s : State) : KeepsForm s (doRebuildEnd die cell s) := by
  unfold doRebuildEnd
  simp only
  repeat' split
  all_goals simp +contextual [KeepsForm, wrNat_wf]

/-! #### Global memory -/

@[simp] theorem putLine_form (w : Word) (key size v : Nat) (bad : Bool) (s : State) :
    KeepsForm s (putLine w key size v bad s) := by simp +contextual [KeepsForm, putLine, wrNat_wf]
@[simp] theorem writeHome_form (seq : Option Nat) (w : Word) (home key size v : Nat) (bad : Bool) (s : State) :
    KeepsForm s (writeHome seq w home key size v bad s) := by simp +contextual [KeepsForm, writeHome]
@[simp] theorem writeStamped_form (seq : Option Nat) (w : Word) (home key size v : Nat) (bad : Bool) (p : Stamp) (s : State) :
    KeepsForm s (writeStamped seq w home key size v bad p s) := by simp +contextual [KeepsForm, writeStamped]
@[simp] theorem performAt_form (p k : Nat) (r : GReq) (stamped : Bool) (s : State) : KeepsForm s (performAt p k r stamped s) := by
  unfold performAt
  simp only
  repeat' split
  all_goals simp +contextual [KeepsForm]
@[simp] theorem doStorePerform_form (p k : Nat) (s : State) : KeepsForm s (doStorePerform p k s) := by
  unfold doStorePerform
  dsimp only
  cases (getCtx s p).reqs[k]? with
  | none => exact ⟨rfl, id⟩
  | some r =>
    have none := (⟨rfl, id⟩ : KeepsForm s s)
    refine .ite none <| .ite (retarget_quiet ..).form <| .ite none <| .ite none <| .ite ?_ <| .ite (askRecall_quiet ..).form <|
      .ite none <| .ite none <| .ite (performAt_form ..) <| .ite (reachLine_quiet ..).form <| .ite ?_ ?_
    · exact (cellJoin_form ..).then (dropReq_quiet ..)
    · exact (reachLine_quiet ..).form.then (serveLoad_quiet ..)
    · exact ((reachLine_quiet ..).form.trans (performAt_form ..)).then (Quiet.foldl _ _ fun _ _ => dropWritten_quiet ..)
@[simp] theorem replayLattice_form (core i : Nat) (e : SideEntry) (r : GReq) (s : State) :
    KeepsForm s (replayLattice core i e r s) := by simp +contextual [KeepsForm, replayLattice]
@[simp] theorem doSideReplay_form (core : Nat) (s : State) : KeepsForm s (doSideReplay core s) := by
  unfold doSideReplay
  simp only
  repeat' split
  all_goals simp +contextual [KeepsForm]

/-! #### Translation -/

@[simp] theorem walkMark_form (e : WalkEnd) (a d : Bool) (s : State) :
    KeepsForm s (walkMark e a d s) := by simp +contextual [KeepsForm, walkMark]
@[simp] theorem walkOwn_form (p : Nat) (e : WalkEnd) (write : Bool) (s : State) :
    KeepsForm s (walkOwn p e write s) := by simp +contextual [KeepsForm, walkOwn]
@[simp] theorem doWalkComplete_form (p k : Nat) (s : State) : KeepsForm s (doWalkComplete p k s) := by
  unfold doWalkComplete
  dsimp only
  cases (getCtx s p).walks[k]? with
  | none => exact ⟨rfl, id⟩
  | some w =>
    refine .ite ⟨rfl, id⟩ <| .ite (askRecalls_quiet ..).form <| .ite (endWalk_quiet ..).form ?_
    split
    · exact (holdWalk_quiet ..).form
    · exact (holdWalk_quiet ..).form
    · exact .ite (((walkOwn_form ..).then (installLeaf_quiet ..)).then (endWalk_quiet ..)) (holdWalk_quiet ..).form

/-! #### Transfers, restripes and links -/

@[simp] theorem writePiece_form (p : Nat) (a : Word) (bs : List Byte) (bad : Bool) (s : State) :
    KeepsForm s (writePiece p a bs bad s) := by
  unfold writePiece
  split <;> simp +contextual [KeepsForm]
@[simp] theorem writePieces_form (p : Nat) (bad : Bool) (ps : List (Word × Nat)) (bs : List Byte) (s : State) :
    KeepsForm s (writePieces p bad ps bs s) := by
  induction ps generalizing bs s with
  | nil => exact ⟨rfl, id⟩
  | cons q ps ih => exact (writePiece_form ..).trans (ih ..)
@[simp] theorem landScratch_form (p : Nat) (x : Xfer) (bs : List Byte) (bad : Bool) (s : State) :
    KeepsForm s (landScratch p x bs bad s) := by simp +contextual [KeepsForm, landScratch, wrBytes_wf, foldl_cells_wf]
@[simp] theorem readPieces_quiet (p : Nat) (ps : List (Word × Nat)) (g : Got) : Quiet g.st (readPieces p ps g).st := by
  induction ps generalizing g with
  | nil => exact ⟨rfl, rfl⟩
  | cons q ps ih =>
    unfold readPieces
    split
    · exact ⟨rfl, rfl⟩
    · exact ⟨rfl, rfl⟩
    · dsimp only
      repeat' split
      all_goals simp [Quiet, ih]

@[simp] theorem landRun_form (p k : Nat) (x : Xfer) (s : State) : KeepsForm s (landRun p k x s) := by
  unfold landRun
  simp only
  repeat' split
  all_goals simp +contextual [KeepsForm]
@[simp] theorem runSource_quiet (s : State) (p : Nat) (x : Xfer) : Quiet s (runSource s p x).st := by
  unfold runSource
  dsimp only
  split
  · exact ⟨rfl, rfl⟩
  · split
    · exact readPieces_quiet ..
    · exact ⟨rfl, rfl⟩

@[simp] theorem doRunLand_form (p k : Nat) (s : State) : KeepsForm s (doRunLand p k s) := by
  unfold doRunLand
  split
  · exact ⟨rfl, id⟩
  · split
    · exact ⟨rfl, id⟩
    · dsimp only
      split
      · exact Quiet.form (by simp [Quiet])
      · split <;> simp +contextual [KeepsForm]
@[simp] theorem putPlace_form (leaf : Nat) (w : Word) (s : State) :
    KeepsForm s (putPlace leaf w s) := by simp +contextual [KeepsForm, putPlace]
@[simp] theorem copyPage_form (old new : Word) (pa : Nat) (s : State) : KeepsForm s (copyPage old new pa s) := by
  unfold copyPage
  split
  · exact ⟨rfl, id⟩
  · exact KeepsForm.foldl _ _ fun t d => KeepsForm.foldl _ _ fun z i => putLine_form ..
@[simp] theorem commitPage_form (leaf pa : Nat) (old new : Word) (s : State) : KeepsForm s (commitPage leaf pa old new s) := by
  unfold commitPage
  split
  · exact (putPlace_form ..).then (reportCopy_quiet _)
  · have copied := (copyPage_form old new pa s).then
      (Quiet.foldl (f := fun t i => moveLine old new (pa + 64 * i) t) (List.range 1024) _ fun _ _ => moveLine_quiet ..)
    have placed := (copied.then (moveLog_quiet old new pa _)).trans (putPlace_form leaf new _)
    exact placed.then ((otherTables_quiet ..).trans (moveTiles_quiet ..))
@[simp] theorem doPageCommit_form (p k : Nat) (s : State) : KeepsForm s (doPageCommit p k s) := by
  unfold doPageCommit
  simp only
  split <;> simp +contextual [KeepsForm]
@[simp] theorem doRowLand_form (p k : Nat) (s : State) : KeepsForm s (doRowLand p k s) := by
  unfold doRowLand
  simp only
  repeat' split
  all_goals simp +contextual [KeepsForm, wrNat_wf]

/-! #### Launches -/

@[simp] theorem journalLaunch_form (l : Launch) (s : State) : KeepsForm s (journalLaunch l s) :=
  (((journalPut_form ..).trans (journalPut_form ..)).trans (journalPut_form ..)).trans (journalPut_form ..)
@[simp] theorem journalNew_form (seq src origin cause : Nat) (st : LState) (s : State) :
    KeepsForm s (journalNew seq src origin cause st s) := by
  unfold journalNew
  split <;> simp +contextual [KeepsForm]
@[simp] theorem finishLaunch_form (seq : Nat) (ok : Bool) (cause : Nat) (s : State) : KeepsForm s (finishLaunch seq ok cause s) := by
  unfold finishLaunch
  split <;> simp +contextual [KeepsForm]
/-- The answer to a launch is one of two tables of the state. -/
theorem answered_form {s t : State} (h : KeepsForm s t) (c : Prop) [Decidable c] (f : SMap (Option Bool)) (l : List Launch) :
    KeepsForm s (if c then { t with finals := f } else { t with launches := l }) :=
  KeepsForm.ite (h.then (listed_quiet ..)) (h.then (listed_quiet ..))
@[simp] theorem acceptLaunch_form (r : BitVec 4096) (bs : List Byte) (block : Bool) (asn src origin : Nat) (pts : Stamp) (s : State) :
    KeepsForm s (acceptLaunch r bs block asn src origin pts s) := by
  have head : ∀ n pa seq cause st, KeepsForm s (journalNew seq src origin cause st (deviceWrite pa bs { s with nextSeq := n })) :=
    fun n pa seq cause st => (numbered_quiet s n).form.trans ((deviceWrite_form ..).trans (journalNew_form ..))
  exact answered_form (head _ _ _ _ _) _ _ _
@[simp] theorem clearRing_form (base n : Nat) (s : State) :
    KeepsForm s (clearRing base n s) :=
  (deviceZero_form ..).trans (setMem_form _ _ (foldl_cells_wf _ _ _ fun _ _ w => wrByte_wf _ _ _ w))
@[simp] theorem cmdEffect_form (cmd : BitVec 512) (s : State) : KeepsForm s (cmdEffect cmd s) := by
  unfold cmdEffect
  split
  · exact acceptLaunch_form ..
  · exact (Quiet.foldl _ { s with nextSeq := s.nextSeq + 1 } fun _ _ => updDie_quiet ..).form
  · exact clearRing_form ..
  · exact Quiet.form (by simp [Quiet])
@[simp] theorem takeCommand_form (cmd : BitVec 512) (s : State) :
    KeepsForm s (takeCommand cmd s) := by simp +contextual [KeepsForm, takeCommand]
@[simp] theorem takeCommands_form (cs : List (BitVec 512)) (s : State) : KeepsForm s (takeCommands cs s) := by
  induction cs generalizing s with
  | nil => exact ⟨rfl, id⟩
  | cons c cs ih =>
    unfold takeCommands
    split
    · exact Quiet.form (by simp [Quiet])
    · exact (takeCommand_form ..).trans (ih _)
@[simp] theorem runCommand_form (cmd : BitVec 512) (s : State) :
    KeepsForm s (runCommand cmd s) := by simp +contextual [KeepsForm, runCommand]
@[simp] theorem doCmdLaunch_form (cmd : BitVec 512) (s : State) :
    KeepsForm s (doCmdLaunch cmd s) := by simp +contextual [KeepsForm, doCmdLaunch]
@[simp] theorem doCmdReserveSets_form (cmd : BitVec 512) (s : State) :
    KeepsForm s (doCmdReserveSets cmd s) := by simp +contextual [KeepsForm, doCmdReserveSets]
@[simp] theorem doCmdJournal_form (cmd : BitVec 512) (s : State) :
    KeepsForm s (doCmdJournal cmd s) := by simp +contextual [KeepsForm, doCmdJournal]
@[simp] theorem doCmdLinkChannel_form (cmd : BitVec 512) (s : State) :
    KeepsForm s (doCmdLinkChannel cmd s) := by simp +contextual [KeepsForm, doCmdLinkChannel]
@[simp] theorem mileRead_form (l : Launch) (s : State) : KeepsForm s (mileRead l s) := by
  unfold mileRead
  split <;> simp +contextual [KeepsForm]
@[simp] theorem dispatchWith_form (l : Launch) (n : Nat) (assign : List (Nat × Nat × Nat)) (s : State) :
    KeepsForm s (dispatchWith l n assign s) := by simp +contextual [KeepsForm, dispatchWith]
@[simp] theorem cutRows_form (slot : Nat) (old new : List (Nat × Nat × Nat)) (s : State) :
    KeepsForm s (cutRows slot old new s) := by simp +contextual [KeepsForm, cutRows]
@[simp] theorem dispatchBlock_form (l : Launch) (s : State) : KeepsForm s (dispatchBlock l s) := by
  unfold dispatchBlock
  dsimp only
  split
  · exact Quiet.form (by simp [Quiet])
  · exact ((cutRows_form ..).trans (journalPut_form ..)).trans (dispatchWith_form ..)
@[simp] theorem dispatchIndirect_form (l : Launch) (s : State) : KeepsForm s (dispatchIndirect l s) := by
  unfold dispatchIndirect
  split <;> simp +contextual [KeepsForm]
@[simp] theorem doDispatch_form (seq : Nat) (s : State) : KeepsForm s (doDispatch seq s) := by
  unfold doDispatch
  simp only
  repeat' split
  all_goals simp +contextual [KeepsForm]
@[simp] theorem doPredFaulted_form (seq : Nat) (s : State) : KeepsForm s (doPredFaulted seq s) := by
  unfold doPredFaulted
  split <;> simp +contextual [KeepsForm]
@[simp] theorem doLaunchComplete_form (seq : Nat) (s : State) : KeepsForm s (doLaunchComplete seq s) := by
  unfold doLaunchComplete
  split <;> simp +contextual [KeepsForm]
@[simp] theorem doLaunchFaulted_form (seq : Nat) (s : State) : KeepsForm s (doLaunchFaulted seq s) := by
  unfold doLaunchFaulted
  split <;> simp +contextual [KeepsForm]

/-! #### Binding, saving and resuming -/

@[simp] theorem markRange_form (asn kinds fuel v n : Nat) (s : State) : KeepsForm s (markRange asn kinds fuel v n s) := by
  induction fuel generalizing v n s with
  | zero => exact ⟨rfl, id⟩
  | succ fuel ih =>
    unfold markRange
    split
    · exact ⟨rfl, id⟩
    · refine .trans ?_ (ih ..)
      split
      · exact walkMark_form ..
      · exact ⟨rfl, id⟩
@[simp] theorem markRanges_form (asn : Nat) (rs : List Range) (s : State) :
    KeepsForm s (markRanges asn rs s) := by simp +contextual [KeepsForm, markRanges]
@[simp] theorem bindOne_form (seq cl : Nat) (ks : List Nat) (s : State) : KeepsForm s (bindOne seq cl ks s) := by
  unfold bindOne
  split
  · exact ⟨rfl, id⟩
  · refine KeepsForm.trans ?_ (journalLaunch_form ..)
    exact (markRanges_form _ _ (updCluster _ _ s)).trans (Quiet.foldl _ _ fun t e => bindCore_quiet ..).form
@[simp] theorem doBindCluster_form (seq cl : Nat) (s : State) : KeepsForm s (doBindCluster seq cl s) := by
  unfold doBindCluster
  repeat' split
  all_goals simp +contextual [KeepsForm]
@[simp] theorem doRestoreComplete_form (p : Nat) (s : State) :
    KeepsForm s (doRestoreComplete p s) := by simp +contextual [KeepsForm, doRestoreComplete]
@[simp] theorem doPreemptionOverdue_form (p : Nat) (s : State) :
    KeepsForm s (doPreemptionOverdue p s) := by simp +contextual [KeepsForm, doPreemptionOverdue]
@[simp] theorem writeArea_form (p : Nat) (s : State) : KeepsForm s (writeArea p s) := by
  unfold writeArea
  split
  · exact ⟨rfl, id⟩
  · exact KeepsForm.foldl _ { s with fresh := s.fresh + 1 } fun t e => deviceWrite_form ..
@[simp] theorem doSaveComplete_form (p : Nat) (s : State) :
    KeepsForm s (doSaveComplete p s) := by simp +contextual [KeepsForm, doSaveComplete]

/-! #### The junction -/

@[simp] theorem finishOne_form (p : Nat) (a : Attempt) (s : State) : KeepsForm s (finishOne p a s) := by
  unfold finishOne
  split <;> simp +contextual [KeepsForm]
@[simp] theorem doFetchFault_form (p : Nat) (s : State) : KeepsForm s (doFetchFault p s) := by
  unfold doFetchFault
  simp only
  split <;> simp +contextual [KeepsForm]

/-! #### What the scheduler resolves -/

@[simp] theorem doDeferredCause_form (p k : Nat) (s : State) : KeepsForm s (doDeferredCause p k s) := by
  unfold doDeferredCause
  simp only
  repeat' split
  all_goals simp +contextual [KeepsForm]
@[simp] theorem turnCause_form (p : Nat) (e : Cause) (s : State) : KeepsForm s (turnCause p e s) := by
  unfold turnCause
  simp only
  split <;> simp +contextual [KeepsForm]
/-- What the scheduler leaves of a page it looks for keeps the form, found or not. -/
theorem mapPage_form {p : Nat} {e : Cause} {s t : State} {b : Bool} (h : mapPage p e s = some (b, t)) : KeepsForm s t := by
  unfold mapPage at h
  dsimp only at h
  split at h
  · cases h; exact (askRecalls_quiet ..).form
  · split at h
    · cases h; exact (walkMark_form ..).trans (installLeaf_quiet ..).form
    · split at h
      · cases h; exact (installExtent_quiet ..).form
      · cases h; exact ⟨rfl, id⟩
    · cases h

@[simp] theorem resolveHold_form (p : Nat) (e : Cause) (s : State) : KeepsForm s (resolveHold p e s) := by
  unfold resolveHold
  split
  · exact Quiet.form (by simp [Quiet])
  · split
    · exact ⟨rfl, id⟩
    · split
      · next h => exact (mapPage_form h).trans (releaseHold_quiet ..).form
      · next h => exact mapPage_form h
      · exact turnCause_form ..
@[simp] theorem resolveXfer_form (p : Nat) (s : State) (k : Nat) : KeepsForm s (resolveXfer p s k) := by
  unfold resolveXfer
  split
  · exact ⟨rfl, id⟩
  · split
    · exact ⟨rfl, id⟩
    · split
      · next h => exact (mapPage_form h).trans (setXfer_quiet ..).form
      · next h => exact mapPage_form h
      · exact (holdXfer_quiet ..).form
@[simp] theorem resolveSide_form (p : Nat) (s : State) (i : Nat) : KeepsForm s (resolveSide p s i) := by
  unfold resolveSide
  split
  · exact ⟨rfl, id⟩
  · split
    · exact ⟨rfl, id⟩
    · split
      · dsimp only
        split
        · exact (askRecalls_quiet ..).form
        · split
          · exact (walkMark_form ..).trans (installLeaf_quiet ..).form
          · exact ⟨rfl, id⟩
          · exact (sideFault_quiet ..).form
      · exact ⟨rfl, id⟩
@[simp] theorem mapAgain_form (p : Nat) (va : Word) (write : Bool) (s : State) : KeepsForm s (mapAgain p va write s) := by
  unfold mapAgain
  dsimp only
  split
  · exact ⟨rfl, id⟩
  · split
    · exact (askRecalls_quiet ..).form
    · split
      · exact ⟨rfl, id⟩
      · exact (walkMark_form ..).trans (installLeaf_quiet ..).form
@[simp] theorem resolveLost_form (p : Nat) (s : State) (k : Nat) : KeepsForm s (resolveLost p s k) := by
  unfold resolveLost
  split <;> simp +contextual [KeepsForm]
@[simp] theorem resolveMop_form (p : Nat) (s : State) (k : Nat) : KeepsForm s (resolveMop p s k) := by
  unfold resolveMop
  split <;> simp +contextual [KeepsForm]
@[simp] theorem resolveWork_form (p : Nat) (s : State) : KeepsForm s (resolveWork p s) :=
  ((((KeepsForm.foldl _ _ fun _ _ => resolveXfer_form ..).trans
    (Quiet.foldl _ _ fun _ _ => resolveWalk_quiet ..).form).trans
    (KeepsForm.foldl _ _ fun _ _ => resolveSide_form ..)).trans
    (KeepsForm.foldl _ _ fun _ _ => resolveLost_form ..)).trans
    (KeepsForm.foldl _ _ fun _ _ => resolveMop_form ..)
@[simp] theorem doResolve_form (p : Nat) (ok : Bool) (s : State) : KeepsForm s (doResolve p ok s) := by
  unfold doResolve
  split <;> simp +contextual [KeepsForm]
@[simp] theorem ownLeaf_form (p : Nat) (va : Word) (s : State) : KeepsForm s (ownLeaf p va s) := by
  unfold ownLeaf
  dsimp only
  split
  · exact ⟨rfl, id⟩
  · split
    · exact (walkMark_form ..).then (installLeaf_quiet ..)
    · exact ((walkMark_form ..).trans (putPlace_form ..)).then (otherTables_quiet _ _ _)
@[simp] theorem refuseLost_form (p k : Nat) (r : GReq) (s : State) : KeepsForm s (refuseLost p k r s) := by
  unfold refuseLost
  simp only
  split <;> simp +contextual [KeepsForm]
@[simp] theorem refuseOwner_form (p : Nat) (s : State) : KeepsForm s (refuseOwner p s) := by
  unfold refuseOwner
  simp only
  repeat' split
  all_goals simp +contextual [KeepsForm]
@[simp] theorem doOwnershipUpgrade_form (p : Nat) (ok : Bool) (s : State) : KeepsForm s (doOwnershipUpgrade p ok s) := by
  unfold doOwnershipUpgrade
  split <;> simp +contextual [KeepsForm]

/-! #### Errors and failures -/

@[simp] theorem strike_form (s : State) (l : Launch) : KeepsForm s (strike s l) := by simp +contextual [KeepsForm, strike]
@[simp] theorem doErrorEvent_form (seq : Nat) (s : State) : KeepsForm s (doErrorEvent seq s) := by
  unfold doErrorEvent
  split <;> simp +contextual [KeepsForm]
@[simp] theorem clearStripe_form (s : State) (x : Xfer) : KeepsForm s (clearStripe s x) := by simp +contextual [KeepsForm, clearStripe]
@[simp] theorem stopLaunch_form (seq : Nat) (s : State) : KeepsForm s (stopLaunch seq s) :=
  (Quiet.foldl _ _ fun _ _ => kill_quiet ..).form.trans
    (KeepsForm.foldl _ _ fun t _ => (KeepsForm.foldl _ t fun _ _ => clearStripe_form ..).trans (updCtx_quiet ..).form)
@[simp] theorem undoAt_form (e : WLog) (s : State) (h : Nat × Nat) :
    KeepsForm s (undoAt e s h) := by simp +contextual [KeepsForm, undoAt]
@[simp] theorem undoEntry_form (d : Nat) (e : WLog) (s : State) :
    KeepsForm s (undoEntry d e s) := by simp +contextual [KeepsForm, undoEntry]
@[simp] theorem undoDie_form (seq : Nat) (s : State) (d : Nat) : KeepsForm s (undoDie seq s d) :=
  (KeepsForm.foldl _ _ fun _ _ => undoEntry_form ..).trans (updDie_quiet ..).form
@[simp] theorem relaunch_form (l : Launch) (floor : Stamp) (s : State) :
    KeepsForm s (relaunch l floor s) := by simp +contextual [KeepsForm, relaunch]
@[simp] theorem doRollback_form (seq : Nat) (s : State) : KeepsForm s (doRollback seq s) := by
  have stop : KeepsForm s (dropEmpty seq (stopLaunch seq s)) := (stopLaunch_form seq s).trans (dropEmpty_quiet ..).form
  unfold doRollback
  split
  · exact ⟨rfl, id⟩
  · split
    · exact ⟨rfl, id⟩
    · split
      · exact endLaunch_form ..
      · dsimp only
        split
        · exact stop
        · split
          · exact stop.trans (askRecalls_quiet ..).form
          · split
            · exact stop
            · exact (stop.trans (KeepsForm.foldl _ _ fun _ _ => undoDie_form ..)).trans (relaunch_form ..)
@[simp] theorem doCoreFailure_form (core : Nat) (s : State) : KeepsForm s (doCoreFailure core s) := by
  unfold doCoreFailure
  split
  · exact ⟨rfl, id⟩
  · refine KeepsForm.trans ?_ (updCore_quiet ..).form
    refine KeepsForm.trans ?_ (Quiet.foldl _ _ fun _ _ => kill_quiet ..).form
    refine KeepsForm.trans ?_ (KeepsForm.foldl _ _ fun _ _ => strike_form ..)
    exact Quiet.form (by simp [Quiet])

/-! #### The host and other devices -/

@[simp] theorem hostJoin_form (w : Word) (key : Nat) (bs : List Byte) (s : State) :
    KeepsForm s (hostJoin w key bs s) := by simp +contextual [KeepsForm, hostJoin]
@[simp] theorem hostRaw_form (w : Word) (key : Nat) (bs : List Byte) (s : State) :
    KeepsForm s (hostRaw w key bs s) := by simp +contextual [KeepsForm, hostRaw]
@[simp] theorem hostPiece_form (w : Word) (pa : Nat) (bs : List Byte) (s : State) :
    KeepsForm s (hostPiece w pa bs s) := by simp +contextual [KeepsForm, hostPiece]
@[simp] theorem hostWrites_form (w : Word) (ps : List (Nat × Nat)) (bs : List Byte) (s : State) :
    KeepsForm s (hostWrites w ps bs s) := by
  induction ps generalizing bs s with
  | nil => exact ⟨rfl, id⟩
  | cons q ps ih => exact (hostPiece_form ..).trans (ih ..)
@[simp] theorem doHostWrite_form (pa : Nat) (w : Word) (data : List Byte) (s : State) :
    KeepsForm s (doHostWrite pa w data s) := by simp +contextual [KeepsForm, doHostWrite]
@[simp] theorem peerAccess_form (pa kind : Nat) (w : Word) (data : List Byte) (s : State) :
    KeepsForm s (peerAccess pa kind w data s) := by
  unfold peerAccess
  simp only
  repeat' split
  all_goals simp +contextual [KeepsForm]
@[simp] theorem doPeerRequest_form (dev page kind : Nat) (w : Word) (off : Nat) (data : List Byte) (s : State) :
    KeepsForm s (doPeerRequest dev page kind w off data s) := by
  unfold doPeerRequest
  split
  · simp +contextual [KeepsForm]
  · split <;> simp +contextual [KeepsForm]
@[simp] theorem doRecall_form (page : Nat) (s : State) : KeepsForm s (doRecall page s) := by simp +contextual [KeepsForm, doRecall]

/-! ### The effects of the operations of a group -/

/-- An effect that keeps the memory canonical. -/
def Harmless (f : State → State) : Prop := ∀ s, Memory.wf s.mem = true → Memory.wf (f s).mem = true

theorem KeepsForm.harmless {f : State → State} (h : ∀ s, KeepsForm s (f s)) : Harmless f := fun s => (h s).2

theorem Quiet.harmless {f : State → State} (h : ∀ s, Quiet s (f s)) : Harmless f := KeepsForm.harmless fun s => (h s).form

theorem Harmless.comp {f g : State → State} (hg : Harmless g) (hf : Harmless f) : Harmless (fun s => g (f s)) := fun s h => hg _ (hf s h)
/-- Nothing is written before the end of the cycle. -/
theorem pushWrite_harmless (w : EndWrite) : Harmless (pushWrite w) := fun _ h => h

section
variable {p : Nat} {pre : Pre} {s : State}

theorem semVmov_harmless {sl g d a f k t} : Harmless (semVmov sl g d a f k t p s).effect := by
  simp only [semVmov]
  split <;> exact fun _ h => h

theorem semVpop_harmless {sl g d q k t} : Harmless (semVpop sl g d q k t p pre s).effect :=
  Quiet.harmless fun t => by simp [Quiet, semVpop]

theorem semLoad_harmless {sl g r f a m w k n} : Harmless (semLoad sl g r f a m w k n p s).effect := by
  have read : Harmless fun t => poisonRead p (gransBad s p (scrOff (getCtx s p) a / n * n) n)
      (takeBanks p (bankIds p (scrOff (getCtx s p) a / n * n) n) t) := Quiet.harmless fun t => by simp [Quiet]
  intro t h
  simp only [semLoad]
  split
  · exact (pushWrite_harmless _).comp read t h
  · exact read t h

theorem semStore_harmless {sl g a m n v rs bad} : Harmless (semStore sl g a m n v rs bad p s).effect :=
  (pushWrite_harmless _).comp (Quiet.harmless fun _ => takeBanks_quiet ..)

theorem semStq_harmless {sl g q a m} : Harmless (semStq sl g q a m p pre s).effect :=
  semStore_harmless.comp (Quiet.harmless fun _ => popRow_quiet ..)

theorem semGran_harmless {sl g a m w set} : Harmless (semGran sl g a m w set p s).effect := by
  cases set with
  | none => exact Quiet.harmless fun _ => takeBanks_quiet ..
  | some e => exact (pushWrite_harmless _).comp (Quiet.harmless fun _ => takeBanks_quiet ..)

theorem semCim_harmless {g r rp tr tp b m l o t} : Harmless (semCim g r rp tr tp b m l o t p s).effect :=
  Quiet.harmless fun _ => ((acceptCim_quiet ..).trans (touchExtent_quiet ..)).trans (metaStep_quiet ..)

theorem semSmx_harmless {g r rp tr tp b m l o t} : Harmless (semSmx g r rp tr tp b m l o t p s).effect :=
  Quiet.harmless fun _ => (accept_quiet ..).trans (metaStep_quiet ..)

theorem semTile_harmless {g tr tp report} {f : Tag → Nat → Word → State → State} (h : ∀ t k w, Harmless (f t k w)) :
    Harmless (semTile g tr tp report f p s).effect := by
  intro t w
  simp only [semTile, (touchExtent_quiet _ _ _).1]
  exact h _ _ _ t w

theorem semWpre_harmless {g tr tp n} : Harmless (semWpre g tr tp n p s).effect :=
  semTile_harmless fun _ _ _ => Quiet.harmless fun _ => (makeResident_quiet ..).trans (accept_quiet ..)

theorem semWpin_harmless {g tr tp} : Harmless (semWpin g tr tp p s).effect := by
  unfold semWpin
  refine semTile_harmless fun t k w => Quiet.harmless fun z => ?_
  refine Quiet.trans ?_ (accept_quiet ..)
  exact (makeResident_quiet ..).trans (pinCopies_quiet ..)

theorem semWunp_harmless {g tr tp} : Harmless (semWunp g tr tp p s).effect :=
  semTile_harmless fun _ _ _ => Quiet.harmless fun _ => setPins_quiet ..

theorem semWinv_harmless {g tr tp} : Harmless (semWinv g tr tp p s).effect :=
  semTile_harmless fun _ _ _ => Quiet.harmless fun _ => by simp [Quiet]

theorem semWprb_harmless {g d tr tp} : Harmless (semWprb g d tr tp p s).effect :=
  semTile_harmless (report := true) (g := g) (tr := tr) (tp := tp) (f := fun _ _ _ s0 => s0) fun _ _ _ _ h => h

theorem semGld_harmless {g r f a m sc o z} : Harmless (semGld g r f a m sc o z p s).effect :=
  Quiet.harmless fun t => by
    simp only [semGld]
    split
    · exact ⟨rfl, rfl⟩
    · simp [Quiet]

theorem semWrite_harmless {g a m kind size vec v rs d op arg rel acq sc} :
    Harmless (semWrite g a m kind size vec v rs d op arg rel acq sc p s).effect := by
  refine KeepsForm.harmless fun t => ?_
  cases d <;> simp only [semWrite]
  case none =>
    split
    · exact ⟨rfl, id⟩
    · exact (updCore_quiet ..).form
    · exact .ite ((cellsJoin_form ..).then (touchExtent_quiet ..)) ((addReqs_quiet ..).trans (touchExtent_quiet ..)).form
  case some q =>
    have pended (bad : Bool) : Quiet t (addPend p q fullMask (getCtx t p).nextId 1 0 bad (takeId p t)) :=
      (takeId_quiet ..).trans (addPend_quiet ..)
    split
    · exact ⟨rfl, id⟩
    · exact ((pended _).trans (updCore_quiet ..)).form
    · exact .ite (((pended _).form.trans (cellsJoin_form ..)).then (touchExtent_quiet ..))
        (((pended _).trans (addReqs_quiet ..)).trans (touchExtent_quiet ..)).form

theorem semLwt_harmless {g r f a m o} : Harmless (semLwt g r f a m o p s).effect := by
  simp only [semLwt]
  split
  · split
    · exact fun _ h => h
    · exact Quiet.harmless fun t => by simp [Quiet]
  · exact fun _ h => h

theorem semGpf_harmless {g a m t} : Harmless (semGpf g a m t p s).effect :=
  Quiet.harmless fun z => by
    simp only [semGpf]
    split
    · exact ⟨rfl, rfl⟩
    · simp [Quiet]

theorem semGcb_harmless {g a m t} : Harmless (semGcb g a m t p s).effect :=
  Quiet.harmless fun z => by
    simp only [semGcb]
    split
    · exact lcClear_quiet ..
    · split <;> simp [Quiet]

theorem semWalk_harmless {probe g d a w} : Harmless (semWalk probe g d a w p s).effect :=
  Quiet.harmless fun t => by simp [Quiet, semWalk]

theorem semXfer_harmless {g r rp v t} : Harmless (semXfer g r rp v t p s).effect :=
  Quiet.harmless fun t => by simp [Quiet, semXfer]

theorem semSend_harmless {g r rp w wp} : Harmless (semSend g r rp w wp p s).effect :=
  Quiet.harmless fun t => by simp [Quiet, semSend]

theorem semSendQueue_harmless {g r rp w wp q} : Harmless (semSendQueue g r rp w wp q p pre s).effect :=
  Quiet.harmless fun t => by simp [Quiet, semSendQueue]

theorem semRecv_harmless {g r rp w wp} : Harmless (semRecv g r rp w wp p s).effect :=
  Quiet.harmless fun t => by simp [Quiet, semRecv]

theorem semArrive_harmless {wait g b} : Harmless (semArrive wait g b p s).effect :=
  Quiet.harmless fun t => by simp [Quiet, semArrive]

theorem semLoopP_harmless {g stages len} : Harmless (semLoopP p s g stages len).effect := by
  unfold semLoopP
  dsimp only
  split
  · exact fun _ h => h
  · exact Quiet.harmless fun _ => updCore_quiet ..

theorem semDone_harmless {g} : Harmless (semDone g p s).effect :=
  KeepsForm.harmless fun t => by
    have drains : Quiet t (updCtx p (fun z => { z with st := .draining }) (dissolveAll p t)) := by simp [Quiet]
    simp only [semDone]
    split
    · exact drains.form.trans (drainTrapped_form ..)
    · exact drains.form

theorem semTret_harmless {g} : Harmless (semTret g p s).effect :=
  Quiet.harmless fun t => by
    simp only [semTret]
    split <;> simp [Quiet]

theorem semDlcOf_harmless {block g r rp} : Harmless (semDlcOf block g r rp p s).effect :=
  KeepsForm.harmless fun t => (fenceRaise_quiet p 0xF t).form.trans (acceptLaunch_form ..)

/-- Whatever operation it is, its effect at issue keeps the memory canonical. -/
theorem semOf_harmless (i : Instr) (p : Nat) (pre : Pre) (s : State) (o : OpSem) (ho : semOf i p pre s = some o) : Harmless o.effect := by
  cases i
  case vmov => cases ho; exact semVmov_harmless
  case vpop => cases ho; exact semVpop_harmless
  case ld | lds => cases ho; exact semLoad_harmless
  case st | sts => cases ho; exact semStore_harmless
  case stq => cases ho; exact semStq_harmless
  case fset | fclr | fwait => cases ho; exact semGran_harmless
  case park => cases ho; exact pushWrite_harmless _
  case cim => cases ho; exact semCim_harmless
  case smx => cases ho; exact semSmx_harmless
  case acz | drn => cases ho; exact Quiet.harmless fun _ => accept_quiet ..
  case wpre => cases ho; exact semWpre_harmless
  case wpin => cases ho; exact semWpin_harmless
  case wunp => cases ho; exact semWunp_harmless
  case winv => cases ho; exact semWinv_harmless
  case wprb => cases ho; exact semWprb_harmless
  case gld => cases ho; exact semGld_harmless
  case gst | gam | ljn => cases ho; exact semWrite_harmless
  case lwt => cases ho; exact semLwt_harmless
  case gpf => cases ho; exact semGpf_harmless
  case gcb => cases ho; exact semGcb_harmless
  case xlt | xlp => cases ho; exact semWalk_harmless
  case xinv | rstr => cases ho; exact Quiet.harmless fun _ => updCtx_quiet ..
  case xfer => cases ho; exact semXfer_harmless
  case send => cases ho; exact semSend_harmless
  case sendQueue => cases ho; exact semSendQueue_harmless
  case recv => cases ho; exact semRecv_harmless
  case bar | barArrive => cases ho; exact semArrive_harmless
  case barc => cases ho; exact Quiet.harmless fun _ => updCluster_quiet ..
  case cqp | rel => cases ho; exact Quiet.harmless fun _ => updCore_quiet ..
  case loopQ | lspQ => cases ho; exact semLoopP_harmless
  case fence => cases ho; exact Quiet.harmless fun _ => acquired_quiet ..
  case fenceX => cases ho; exact Quiet.harmless fun _ => fenceRaise_quiet ..
  case ifence => cases ho; exact Quiet.harmless fun _ => dropCode_quiet ..
  case tret => cases ho; exact semTret_harmless
  case done => cases ho; exact semDone_harmless
  case dlc | dlcApportioned => cases ho; exact semDlcOf_harmless
  all_goals first
    | (cases ho; done)
    | (cases ho; exact fun _ h => h)
end

/-! ### Groups -/
theorem runOps_wf (p : Nat) (ops : List OpSem) (s : State) (w : Memory.wf s.mem = true) (h : ∀ o ∈ ops, Harmless o.effect) :
    Memory.wf (runOps p ops s).mem = true := by
  induction ops generalizing s with
  | nil => exact w
  | cons o ops ih =>
    refine ih _ ?_ fun x hx => h x (List.mem_cons_of_mem _ hx)
    dsimp only
    split
    · exact h o List.mem_cons_self _ w
    · exact w

theorem runMerged_wf (xs : List (Nat × OpSem)) (s : State) (w : Memory.wf s.mem = true) (h : ∀ x ∈ xs, Harmless x.2.effect) :
    Memory.wf (runMerged xs s).mem = true := by
  induction xs generalizing s with
  | nil => exact w
  | cons o ops ih =>
    refine ih _ ?_ fun x hx => h x (List.mem_cons_of_mem _ hx)
    dsimp only
    split
    · exact h o List.mem_cons_self _ w
    · exact w

/-- The writes of the cycle are made: the memory stays canonical, and none is left. -/
theorem commitWrites_sound {s : State} (w : Memory.wf s.mem = true) : Sound (commitWrites s) := by
  have made : KeepsForm s (s.endw.foldl (endWrite s.endw) s) := KeepsForm.foldl _ _ fun _ _ => endWrite_form ..
  refine ⟨?_, rfl⟩
  have marked (l : List Nat) (t : State) : Quiet t (l.foldl (fun t p => updCtx p (fun c => { c with wcol := true }) t) t) :=
    Quiet.foldl _ _ fun _ _ => updCtx_quiet ..
  exact (marked _ _).form.2 (made.2 w)

theorem KeepsForm.sound {s t : State} (h : KeepsForm s t) (k : Sound s) : Sound t := ⟨h.2 k.mem, h.1.trans k.clean⟩

theorem Quiet.sound {s t : State} (h : Quiet s t) (k : Sound s) : Sound t := h.form.sound k

theorem issueGroup_sound {p : Nat} {g : Grp} {ops : List OpSem} {s : State} (w : Memory.wf s.mem = true)
    (h : ∀ o ∈ ops, Harmless o.effect) : Sound (issueGroup p g ops s) :=
  (endGroup_form ..).sound (commitWrites_sound (runOps_wf _ _ _ w h))

/-- An attempt whose operations are harmless. -/
def Attempt.Harmless (a : Attempt) : Prop := ∀ o ∈ opsOf a, Machine.Harmless o.effect

/-- What an attempt issues are the operations it was given. -/
theorem tryGroup_ready {s : State} {p : Nat} {f : Fetched} {ops o : List OpSem} {g : Grp} (h : tryGroup s p f ops = .ready g o) :
    o = ops := by
  unfold tryGroup at h
  dsimp only at h
  split at h
  · cases h
  · split at h <;> cases h
    rfl

theorem issueSolo_sound {i : Instr} {o : OpSem} {s t : State} (h : issueSolo i o s = .next t) (k : Sound s) (ho : Harmless o.effect) :
    Sound t := by
  unfold issueSolo at h
  dsimp only at h
  split at h
  · have settled := (settleAttempt_form s.cur
      (tryGroup s s.cur ⟨soloGrp (getCtx s s.cur) i o.slot, 0, if i.wf then [] else [illegal o.slot], []⟩ [o]) s).sound k
    split at h
    · next a =>
      cases h
      rw [tryGroup_ready a]
      exact issueGroup_sound settled.mem (by simpa using ho)
    · cases h; exact settled
  · cases h; exact k

theorem execSkip_sound {n : BitVec 8} {v : BitVec 1} {o : BitVec 3} {s t : State} (h : execSkip n v o s = .next t) (k : Sound s) :
    Sound t := by
  unfold execSkip at h
  dsimp only at h
  split at h
  · have settled := (settleAttempt_form s.cur
      (tryGroup s s.cur ⟨skipGrp (getCtx s s.cur) n v o, 0, if (Instr.skip n v o).wf then [] else [illegal 16], []⟩ []) s).sound k
    split at h
    · next a =>
      cases h
      rw [tryGroup_ready a]
      exact issueGroup_sound settled.mem (by simp)
    · cases h; exact settled
  · cases h; exact k

/-! ### An issue cycle -/
theorem evalOps_harmless (s : State) (p : Nat) (pre : Pre) (l : List (Nat × Instr)) : ∀ o ∈ evalOps s p pre l, Harmless o.effect := by
  induction l generalizing pre with
  | nil => simp [evalOps]
  | cons x xs ih =>
    unfold evalOps
    split
    · exact ih pre
    · next o e =>
      intro q hq
      rcases List.mem_cons.mp hq with rfl | hq
      · exact semOf_harmless _ _ _ _ _ e
      · exact ih _ q hq

theorem attempt_harmless (s : State) (p : Nat) (f : Fetching) : (attempt s p f).Harmless := by
  intro o ho
  unfold attempt at ho
  cases f with
  | got f =>
    dsimp only at ho
    cases h : tryGroup s p f (groupOps s p f.grp.next (slotOrder f.grp.ops)) with
    | ready g ops =>
      rw [h] at ho
      rw [show opsOf (.ready g ops) = ops from rfl, tryGroup_ready h] at ho
      exact evalOps_harmless _ _ _ _ o ho
    | _ => rw [h] at ho; cases ho
  | idle =>
    dsimp only at ho
    split at ho <;> cases ho
  | _ => cases ho

theorem stillFor_harmless {s : State} {p : Nat} {a : Attempt} (h : a.Harmless) : (stillFor s p a).Harmless := by
  unfold stillFor
  split
  · exact h
  · exact fun _ ho => nomatch ho

theorem issued_harmless {b : Bool} {a : Attempt} (h : a.Harmless) : (issued b a).Harmless := by
  unfold issued
  split
  · exact h
  · exact fun _ ho => nomatch ho

theorem mergedOps_harmless {p : Nat} {a b : Attempt} (ha : a.Harmless) (hb : b.Harmless) :
    ∀ x ∈ mergedOps p (opsOf a) (opsOf b), Harmless x.2.effect := by
  intro x hx
  simp only [mergedOps, List.mem_flatMap, List.mem_filter, List.mem_append, List.mem_map] at hx
  obtain ⟨k, -, h, -⟩ := hx
  rcases h with ⟨o, ho, rfl⟩ | ⟨o, ho, rfl⟩
  · exact ha o ho
  · exact hb o ho

theorem issueCycle_sound {core : Nat} {a b : Attempt} {s : State} (k : Sound s) (ha : a.Harmless) (hb : b.Harmless) :
    Sound (issueCycle core a b s) := by
  unfold issueCycle
  dsimp only
  refine (tick_quiet ..).sound ((finishOne_form ..).sound ((finishOne_form ..).sound (commitWrites_sound ?_)))
  refine runMerged_wf _ _ ?_ (mergedOps_harmless (issued_harmless ha) (issued_harmless hb))
  have passed : Quiet s (passes (2 * core + 1) (issued (choose s (2 * core) a b).2 b)
      (passes (2 * core) (issued (choose s (2 * core) a b).1 a) (settleTurn (2 * core + 1) (hasIssue b)
        (choose s (2 * core) a b).2 (choose s (2 * core) a b).1
        (settleTurn (2 * core) (hasIssue a) (choose s (2 * core) a b).1 (choose s (2 * core) a b).2 s)))) := by simp [Quiet]
  exact passed.form.2 k.mem

theorem doGroupIssue_sound {core : Nat} {s : State} (k : Sound s) : Sound (doGroupIssue core s) := by
  unfold doGroupIssue
  split
  · exact k
  · dsimp only
    refine issueCycle_sound ?_ (stillFor_harmless (attempt_harmless _ _ _)) (stillFor_harmless (attempt_harmless _ _ _))
    refine (settleAttempt_form ..).sound ((settleAttempt_form ..).sound ?_)
    refine Quiet.sound (s := s) ?_ k
    simp [Quiet]

/-! ### Power -/
theorem blankPackage_sound {on : Bool} {s : State} (k : Sound s) : Sound (blankPackage on s) :=
  ⟨wf_filter s.mem _ k.mem, rfl⟩

theorem doCapability_form (s : State) : KeepsForm s (doCapability s) := by
  unfold doCapability
  split
  · exact ⟨rfl, id⟩
  · exact ⟨rfl, wf_filter _ _⟩

/-- Every event keeps both. -/
theorem exec_noSlot_sound {i : Instr} {s t : State} (hs : i.slot = none) (h : exec i s = .next t) (k : Sound s) : Sound t := by
  cases i
  case skip n v o => exact execSkip_sound h k
  case groupIssue => cases h; exact doGroupIssue_sound k
  case powerOn =>
    cases h
    unfold doPowerOn
    split
    · exact k
    · exact blankPackage_sound k
  case powerRemoval =>
    cases h
    unfold doPowerRemoval
    split
    · exact blankPackage_sound k
    · exact k
  case bringupCapability => cases h; exact (doCapability_form s).sound k
  all_goals first
    | (cases hs; done)
    | (cases h; refine KeepsForm.sound ?_ k; simp +contextual [KeepsForm])

theorem exec_sound {i : Instr} {s t : State} (h : exec i s = .next t) (k : Sound s) : Sound t := by
  cases hs : i.slot with
  | none => exact exec_noSlot_sound hs h k
  | some n =>
    obtain ⟨o, g, ho, -, ex⟩ := exec_solo i s n hs
    exact issueSolo_sound (ex ▸ h) k (semOf_harmless _ _ _ _ _ ho)

theorem advance_quiet (s : State) : Quiet s (advance s) := by
  unfold advance
  split
  · exact ⟨rfl, rfl⟩
  · split <;> exact ⟨rfl, rfl⟩

/-- Settles O45: every operation and every event keeps the memory canonical and leaves no write of a group (`exec_sound`). -/
theorem stepKeepsSound : Obligations.StepKeepsSound := by
  unfold Obligations.StepKeepsSound
  intro s t k h
  unfold step at h
  split at h
  · cases h
  · exact exec_sound h ((advance_quiet s).sound k)

end Sys2Proof.Machine
end

section
/-! SUPPORT. The landing buffer at the end of a step: which results stand, and what each leaves where it goes (R28, R36, R78 to
R80, R109). -/

namespace Sys2Proof.Machine

variable {p : Nat} {s : State} {e : Landing}

/-- The result `x` of the context lands at the end of the coming step. -/
def DueIn (c : Ctx) (x : Landing) : Prop := x ∈ c.landing ∧ x.rem ≤ 1

/-- Of the results due for its destination, `e` stands: it is the only one, or of the lowest slot, or the latest of that slot. -/
def Stands (c : Ctx) (e : Landing) : Prop :=
  DueIn c e ∧ ∀ x, DueIn c x → x.dest = e.dest → x = e ∨ e.slot < x.slot ∨ (e.slot = x.slot ∧ x.born < e.born)

/-- Two results of different operations are due for one destination. -/
def Meet (c : Ctx) : Prop := ∃ x y, DueIn c x ∧ DueIn c y ∧ x.dest = y.dest ∧ (x.slot ≠ y.slot ∨ x.born ≠ y.born)

theorem mem_landDue {c : Ctx} {x : Landing} : x ∈ landDue c ↔ DueIn c x := by simp [landDue, DueIn]

theorem loses_iff {e o : Landing} :
    loses e o = true ↔ e.dest = o.dest ∧ (o.slot < e.slot ∨ (o.slot = e.slot ∧ e.born < o.born)) := by simp [loses]

theorem mem_landStand {c : Ctx} {x : Landing} :
    x ∈ landStand (landDue c) ↔ DueIn c x ∧ ∀ o, DueIn c o → loses x o = false := by
  simp [landStand, mem_landDue]

theorem Stands.mem {c : Ctx} (h : Stands c e) : e ∈ landStand (landDue c) := by
  obtain ⟨due, first⟩ := h
  refine mem_landStand.2 ⟨due, fun o ho => Bool.eq_false_iff.2 fun l => ?_⟩
  obtain ⟨hd, lower⟩ := loses_iff.1 l
  rcases first o ho hd.symm with rfl | _ | _ <;> omega

/-- What stands for a destination is the one result that `Stands` names. -/
theorem Stands.only {c : Ctx} (h : Stands c e) : ∀ x ∈ landStand (landDue c), x.dest = e.dest → x = e := by
  intro x hx hd
  obtain ⟨due, free⟩ := mem_landStand.1 hx
  have keeps := free e h.1
  rcases h.2 x due hd with rfl | lower
  · rfl
  · rw [loses_iff.2 ⟨hd, lower⟩] at keeps
    cases keeps

/-- Some due result does not stand exactly where two meet. -/
theorem stand_shorter_iff (c : Ctx) : (landStand (landDue c)).length < (landDue c).length ↔ Meet c := by
  unfold landStand
  rw [List.length_filter_lt_length_iff_exists]
  simp only [Bool.not_eq_true', Bool.not_eq_false, List.any_eq_true, mem_landDue, loses_iff]
  constructor
  · rintro ⟨x, hx, o, ho, hd, lower⟩
    exact ⟨x, o, hx, ho, hd, by omega⟩
  · rintro ⟨x, y, hx, hy, hd, differ⟩
    by_cases first : y.slot < x.slot ∨ (y.slot = x.slot ∧ x.born < y.born)
    · exact ⟨x, hx, y, hy, hd, first⟩
    · exact ⟨y, hy, x, hx, hd.symm, by omega⟩

/-- Where one result of a list, however often it is listed, is the only one for what `f` reads, its change is made. -/
theorem landAll_stands {β : Type} (f : State → β) (g : β → β) (once : ∀ b, g (g b) = g b) (l : List Landing)
    (hit : ∀ t, f (landOne p e t) = g (f t)) (miss : ∀ x : Landing, x.dest ≠ e.dest → ∀ t, f (landOne p x t) = f t)
    (only : ∀ x ∈ l, x.dest = e.dest → x = e) (s : State) :
    f (l.foldl (fun t x => landOne p x t) s) = if e ∈ l then g (f s) else f s := by
  induction l generalizing s with
  | nil => rfl
  | cons x l ih =>
    rw [List.foldl_cons, ih fun y hy => only y (List.mem_cons_of_mem _ hy)]
    by_cases hd : x.dest = e.dest
    · rw [only x List.mem_cons_self hd, hit, once, ite_self, if_pos List.mem_cons_self]
    · rw [miss x hd]
      exact if_congr (by simp [show e ≠ x from fun h => hd (by rw [h])]) rfl rfl

/-- The bits written once more are written. -/
theorem fits_again (fl : File) (v mask old : Vec) :
    fits fl ((fits fl ((old &&& ~~~mask) ||| (v &&& mask)) &&& ~~~mask) ||| (v &&& mask)) =
      fits fl ((old &&& ~~~mask) ||| (v &&& mask)) := by
  ext i hi
  simp only [fits, BitVec.getElem_setWidth, BitVec.getLsbD_setWidth, BitVec.getLsbD_or, BitVec.getLsbD_and, BitVec.getLsbD_not]
  by_cases hw : i < fileWidth fl
  · cases mask.getLsbD i <;> simp [hi, hw]
  · simp [hw]

/-! ### What each destination takes, and that nothing else of the step reaches it -/

/-- A field of the context that the one standing result changes by `g`, and no other destination's. -/
theorem landStep_stands {β : Type} (f : Ctx → β) (g : β → β) (h : Stands (getCtx s p) e) (once : ∀ b, g (g b) = g b)
    (hit : ∀ t, f (getCtx (landOne p e t) p) = g (f (getCtx t p)))
    (miss : ∀ x : Landing, x.dest ≠ e.dest → ∀ t, f (getCtx (landOne p x t) p) = f (getCtx t p))
    (wcol : ∀ c b, f { c with wcol := b } = f c) (landing : ∀ c l, f { c with landing := l } = f c) :
    f (getCtx (landStep p s) p) = g (f (getCtx s p)) := by
  rw [landStep_of p s f wcol, landAll_stands (fun t => f (getCtx t p)) g once _ hit miss h.only, if_pos h.mem,
    getCtx_setCtx_self, landing]

/-- One that no due result is for is as it was. -/
theorem landStep_idle {β : Type} (f : Ctx → β) (d : Dest) (h : ∀ x, DueIn (getCtx s p) x → x.dest ≠ d)
    (miss : ∀ x : Landing, x.dest ≠ d → ∀ t, f (getCtx (landOne p x t) p) = f (getCtx t p))
    (wcol : ∀ c b, f { c with wcol := b } = f c) (landing : ∀ c l, f { c with landing := l } = f c) :
    f (getCtx (landStep p s) p) = f (getCtx s p) :=
  landStep_keeps p s f wcol landing fun x hx hr => miss x (h x ⟨hx, hr⟩)

section
variable {x : Landing} {t : State}

theorem landOne_fmt_ne (h : x.dest ≠ .fmt) : (getCtx (landOne p x t) p).fmt = (getCtx t p).fmt := by
  unfold landOne csrLand
  split <;> (try split) <;> simp_all [regWrite]
theorem landOne_scl_ne (h : x.dest ≠ .scl) : (getCtx (landOne p x t) p).scl = (getCtx t p).scl := by
  unfold landOne csrLand
  split <;> (try split) <;> simp_all [regWrite]
theorem landOne_wfb_ne (h : x.dest ≠ .csr 1) : (getCtx (landOne p x t) p).wfb = (getCtx t p).wfb := by
  unfold landOne csrLand
  split <;> (try split) <;> simp_all [regWrite]
theorem landOne_wcol_ne (h : x.dest ≠ .csr 1) : (getCtx (landOne p x t) p).wcol = (getCtx t p).wcol := by
  unfold landOne csrLand
  split <;> (try split) <;> simp_all [regWrite]
theorem landOne_age_ne (h : x.dest ≠ .csr 3) : (getCtx (landOne p x t) p).age = (getCtx t p).age := by
  unfold landOne csrLand
  split <;> (try split) <;> simp_all [regWrite]
theorem landOne_gpred_ne (h : x.dest ≠ .csr 4) : (getCtx (landOne p x t) p).gpred = (getCtx t p).gpred := by
  unfold landOne csrLand
  split <;> (try split) <;> simp_all [regWrite]
theorem landOne_seed_ne (h : x.dest ≠ .csr 5) : (getCtx (landOne p x t) p).seed = (getCtx t p).seed := by
  unfold landOne csrLand
  split <;> (try split) <;> simp_all [regWrite]
end

/-! ### The sticky bit of collisions, and the core -/

theorem landStep_wcol (p : Nat) (s : State) : (getCtx (landStep p s) p).wcol =
    (decide ((landStand (landDue (getCtx s p))).length < (landDue (getCtx s p)).length) ||
      (getCtx ((landStand (landDue (getCtx s p))).foldl (fun t x => landOne p x t)
        (setCtx p { getCtx s p with landing := landKeep (getCtx s p) } s)) p).wcol) := by
  unfold landStep
  dsimp only
  split
  · next h => rw [getCtx_updCtx_self, decide_eq_true h]; rfl
  · next h => rw [decide_eq_false h]; rfl

theorem landStep_getCore (p k : Nat) (s : State) : getCore (landStep p s) k =
    getCore ((landStand (landDue (getCtx s p))).foldl (fun t x => landOne p x t)
      (setCtx p { getCtx s p with landing := landKeep (getCtx s p) } s)) k := by
  unfold landStep
  dsimp only
  split <;> rfl

/-- A core with the value that a `csrw` to CTL writes. -/
def withCtl (w : Word) (k : Core) : Core :=
  { k with wfault := w.getLsbD 0, lease := if (w >>> 8).setWidth 8 = (0 : BitVec 8) then k.lease else (w >>> 8).setWidth 8 }

theorem withCtl_again (w : Word) (k : Core) : withCtl w (withCtl w k) = withCtl w k := by
  unfold withCtl
  dsimp only
  split <;> rfl

/-- What STATUS leaves of WCOL: a collision sets it after what a write to it clears. -/
theorem landStep_status (h : Stands (getCtx s p) e) (hd : e.dest = .csr 1) (nm : ¬Meet (getCtx s p)) :
    (getCtx (landStep p s) p).wcol = ((getCtx s p).wcol && !(e.value.setWidth 64).getLsbD 0) := by
  rw [landStep_wcol, decide_eq_false (mt (stand_shorter_iff _).1 nm), Bool.false_or,
    landAll_stands (fun t => (getCtx t p).wcol) (fun b => b && !(e.value.setWidth 64).getLsbD 0) (by simp) _
      (fun t => by simp [landOne, hd, csrLand]) (fun x hx t => landOne_wcol_ne (hd ▸ hx)) h.only, if_pos h.mem, getCtx_setCtx_self]

/-- Settles O40: the clause of each destination is `landStep_stands` with what `landOne` makes of that destination. -/
theorem landingBuffer : Obligations.LandingBuffer := by
  unfold Obligations.LandingBuffer
  intro s p e r n v
  dsimp only
  refine ⟨landStep_landing p s, fun (h : Stands (getCtx s p) e) => ⟨fun hd hr => ?_, fun hd => ?_, fun hd => ?_,
    fun hd => ⟨?_, landStep_status h hd⟩, fun hd => ?_, fun hd => ?_, fun hd => ?_, fun hd => ?_⟩,
    fun (h : Meet (getCtx s p)) => ?_, fun h => ?_, fun h => ?_, fun h => ?_, fun h => ⟨?_, fun (nm : ¬Meet (getCtx s p)) => ?_⟩,
    fun h => ?_, fun h => ?_, fun h => ?_, fun h => ?_, fun h => ?_,
    (landStep_atPos p s).rest, (landStep_atPos p s).ctxs, (landStep_atPos p s).cores, landStep_ctx p s⟩
  · exact landStep_stands (fun c => regGet c r) (fun old => fits r.file ((old &&& ~~~e.mask) ||| (e.value &&& e.mask))) h
      (fits_again _ _ _) (fun t => landOne_regGet_self p e t r hd hr)
      (fun x hx t => landOne_regGet_ne p x t r (hd ▸ hx)) (fun _ _ => rfl) (fun _ _ => rfl)
  · exact landStep_stands Ctx.fmt (fun _ => e.value.setWidth 16) h (fun _ => rfl) (fun t => by simp [landOne, hd])
      (fun x hx t => landOne_fmt_ne (hd ▸ hx)) (fun _ _ => rfl) (fun _ _ => rfl)
  · exact landStep_stands Ctx.scl (fun _ => e.value.setWidth 128) h (fun _ => rfl) (fun t => by simp [landOne, hd])
      (fun x hx t => landOne_scl_ne (hd ▸ hx)) (fun _ _ => rfl) (fun _ _ => rfl)
  · exact landStep_stands Ctx.wfb (fun b => b && !(e.value.setWidth 64).getLsbD 1) h (by simp)
      (fun t => by simp [landOne, hd, csrLand]) (fun x hx t => landOne_wfb_ne (hd ▸ hx)) (fun _ _ => rfl) (fun _ _ => rfl)
  · rw [landStep_getCore, landAll_stands (fun t => getCore t (coreOf p)) (withCtl (e.value.setWidth 64)) (withCtl_again _) _
      (fun t => by simp [landOne, hd, csrLand, withCtl]) (fun x hx t => landOne_core p x t (hd ▸ hx) _) h.only, if_pos h.mem]
    rfl
  · exact landStep_stands Ctx.age (fun _ => (e.value.setWidth 64).setWidth 4) h (fun _ => rfl)
      (fun t => by simp [landOne, hd, csrLand]) (fun x hx t => landOne_age_ne (hd ▸ hx)) (fun _ _ => rfl) (fun _ _ => rfl)
  · exact landStep_stands Ctx.gpred (fun _ => (e.value.setWidth 64).setWidth 8 ||| 1) h (fun _ => rfl)
      (fun t => by simp [landOne, hd, csrLand]) (fun x hx t => landOne_gpred_ne (hd ▸ hx)) (fun _ _ => rfl) (fun _ _ => rfl)
  · exact landStep_stands Ctx.seed
      (fun _ => if (e.value.setWidth 64).setWidth 32 = (0 : BitVec 32) then 1 else (e.value.setWidth 64).setWidth 32)
      h (fun _ => rfl) (fun t => by simp [landOne, hd, csrLand]) (fun x hx t => landOne_seed_ne (hd ▸ hx)) (fun _ _ => rfl)
      (fun _ _ => rfl)
  · rw [landStep_wcol, decide_eq_true ((stand_shorter_iff _).2 h), Bool.true_or]
  · exact landStep_idle (fun c => regGet c r) (.reg r) h (fun x hx t => landOne_regGet_ne p x t r hx) (fun _ _ => rfl) (fun _ _ => rfl)
  · exact landStep_idle Ctx.fmt .fmt h (fun _ hx _ => landOne_fmt_ne hx) (fun _ _ => rfl) (fun _ _ => rfl)
  · exact landStep_idle Ctx.scl .scl h (fun _ hx _ => landOne_scl_ne hx) (fun _ _ => rfl) (fun _ _ => rfl)
  · exact landStep_idle Ctx.wfb (.csr 1) h (fun _ hx _ => landOne_wfb_ne hx) (fun _ _ => rfl) (fun _ _ => rfl)
  · rw [landStep_wcol, decide_eq_false (mt (stand_shorter_iff _).1 nm), Bool.false_or,
      landAll_keeps p (fun t => (getCtx t p).wcol) _ _ (fun x hx t => landOne_wcol_ne (h x (mem_stand hx))), getCtx_setCtx_self]
  · exact landStep_core p _ s fun x hx hr => h x ⟨hx, hr⟩
  · exact landStep_idle Ctx.age (.csr 3) h (fun _ hx _ => landOne_age_ne hx) (fun _ _ => rfl) (fun _ _ => rfl)
  · exact landStep_idle Ctx.gpred (.csr 4) h (fun _ hx _ => landOne_gpred_ne hx) (fun _ _ => rfl) (fun _ _ => rfl)
  · exact landStep_idle Ctx.seed (.csr 5) h (fun _ hx _ => landOne_seed_ne hx) (fun _ _ => rfl) (fun _ _ => rfl)
  · unfold csrLand
    split
    case h_6 => rfl
    all_goals simp at h

end Sys2Proof.Machine
end

section
/-! SUPPORT. Registers that hold an operation (R33). -/

namespace Sys2Proof.Machine

/-- What the fields of a word add to it. -/
def wdSum (n : Nat) (fs : List (Nat × Nat)) : Nat := fs.foldl (fun acc f => acc + f.1 * 2 ^ f.2) n

theorem wdSum_cons (n v p : Nat) (fs : List (Nat × Nat)) : wdSum n ((v, p) :: fs) = wdSum (n + v * 2 ^ p) fs := by
  rw [wdSum, List.foldl_cons, wdSum]

theorem wdSum_nil (n : Nat) : wdSum n [] = n := by rw [wdSum, List.foldl_nil]

theorem wdSum_add (fs : List (Nat × Nat)) (a b : Nat) : wdSum (a + b) fs = a + wdSum b fs := by
  induction fs generalizing b with
  | nil => rfl
  | cons f fs ih => rw [wdSum_cons, wdSum_cons, Nat.add_assoc, ih]

/-- Fields laid below bit 23 leave the guard's bits 23 to 25 as they stand. -/
theorem wd_guard (m : Nat) (g : BitVec 3) (fs : List (Nat × Nat)) (low : wdSum (m % 2 ^ 26) fs < 2 ^ 23) :
    (wd m ((g.toNat, 23) :: fs)).extractLsb' 23 3 = g := by
  have word : wd m ((g.toNat, 23) :: fs) = BitVec.ofNat 32 (wdSum (m + g.toNat * 2 ^ 23) fs) := rfl
  have split : m + g.toNat * 2 ^ 23 = (2 ^ 26 * (m / 2 ^ 26) + g.toNat * 2 ^ 23) + m % 2 ^ 26 := by omega
  apply BitVec.eq_of_toNat_eq
  rw [word, split, wdSum_add, BitVec.extractLsb'_toNat, BitVec.toNat_ofNat, Nat.shiftRight_eq_div_pow]
  omega

theorem guardField_word {i : Instr} {m : Nat} {g : BitVec 3} {fs : List (Nat × Nat)} {ws : List (BitVec 32)}
    (h : encode i = wd m ((g.toNat, 23) :: fs) :: ws) (low : wdSum (m % 2 ^ 26) fs < 2 ^ 23) : guardField i = g := by
  rw [guardField, h]
  exact wd_guard m g fs low

theorem on_of_guardField {o : OpSem} {c : Ctx} {i : Instr} {g : BitVec 3} (h : guardField i = g) (on : o.on = guardOn c g) :
    o.on = guardOn c (guardField i) := by rw [h, on]

/-- A slot operation issues under the guard in its word. -/
theorem semOf_on {i : Instr} {s : State} {k : Nat} {pre : Pre} {o : OpSem} (h : i.slot = some k)
    (ho : semOf i s.cur pre s = some o) :
    o.on = guardOn (me s) (guardField i) := by
  cases i
  all_goals first
    | (cases h; done)
    | (cases Option.some.inj ho
       refine on_of_guardField (guardField_word rfl ?_) ?_
       · simp only [wdSum_cons, wdSum_nil]
         omega)
  case vmov.refl.refine_2 => unfold semVmov; dsimp only; split <;> rfl
  case lwt.refl.refine_2 => unfold semLwt; dsimp only; (repeat' split) <;> rfl
  case loopQ.refl.refine_2 => unfold semLoopQ semLoopP; dsimp only; split <;> rfl
  case lspQ.refl.refine_2 => unfold semLspQ semLoopP; dsimp only; split <;> rfl
  all_goals rfl

/-- An operation of a pending register, or of one in the landing buffer that it writes by interlock, holds its group. -/
theorem opPends_of_pends {c : Ctx} {i : Instr} {o : OpSem} (cover : Covers c i o) (on : o.on = true) (h : Pends c i) :
    opPends c o = true := by
  have some : ∀ {l : List Reg} {P : Reg → Bool} {r : Reg}, r ∈ l → P r = true → l.any P = true := fun hr hp =>
    List.any_eq_true.2 ⟨_, hr, hp⟩
  unfold opPends
  rw [on, Bool.true_and]
  rcases h with ⟨r, hr, pend⟩ | ⟨r, hr, land⟩
  · rcases List.mem_append.1 hr with hr | hr
    · rcases List.mem_append.1 hr with hr | hr
      · simp [some (cover.reads r hr) pend]
      · obtain ⟨x, hx, hd⟩ := cover.writes r hr
        simp only [Bool.or_eq_true, List.any_eq_true]
        exact .inl (.inr ⟨x, hx, by rw [hd]; exact pend⟩)
    · simp [some (cover.locked r hr) pend]
  · simp [some (cover.locked r hr) land]

variable {s : State} {i : Instr} {k : Nat} {o : OpSem}

/-- The operation at its turn, no cause coming first, is held by its registers: its context is Blocked. -/
theorem exec_pends (turn : competes (me s) = true) (slot : i.slot = some k) (wf : i.wf = true)
    (on : guardOn (me s) (guardField i) = true) (h : Pends (me s) i)
    (sem : semOf i s.cur { next := (soloGrp (me s) i k).next } s = some o)
    (clear : firstCause (groupCauses (me s) ⟨soloGrp (me s) i k, 0, [], []⟩ [o]) = none) :
    exec i s = .next (o.recalls.foldl (fun t page => askRecall page t)
      (updCtx s.cur (fun z => { z with st := .blocked, stalled := o.held }) s)) := by
  obtain ⟨o', g, ho', so, ex⟩ := exec_solo i s k slot
  cases Option.some.inj (ho'.symm.trans sem)
  have on' : o.on = true := (semOf_on slot sem).trans on
  have held : opPends (me s) o = true := opPends_of_pends (operands_covered i s k _ o slot sem) on' h
  have blocks : groupBlocks (me s) (getCore s (coreOf s.cur)) (s.cur % 2) [o] = true := by simp [groupBlocks, held]
  have att : tryGroup s s.cur ⟨soloGrp (me s) i k, 0, [], []⟩ [o] = .block o.recalls o.held := by
    unfold tryGroup
    dsimp only
    rw [show getCtx s s.cur = me s from rfl, clear]
    dsimp only
    rw [blocks, Bool.or_true]
    simp [on']
  rw [ex]
  unfold issueSolo
  dsimp only
  rw [show getCtx s s.cur = me s from rfl, turn, wf, so.slot, if_pos rfl, if_pos rfl, att]
  rfl

/-- An operation with no check of its own shows no cause. -/
theorem groupCauses_plain (c : Ctx) (g : Grp) (o : OpSem) (hg : g.op = none)
    (ports : ∀ a ∈ o.ports, ∀ b ∈ o.ports, a.2 = b.2 → a.1 = b.1) (fmt : o.isFmt = false) (scl : o.isScl = false)
    (mx : o.isMx = false) (cause : o.cause = none) : groupCauses c ⟨g, 0, [], []⟩ [o] = [] := by
  have errs := groupErrs_one c o ports (by simp [fmt]) (by simp [scl]) (by simp [mx])
  cases h : o.on <;> simp [groupCauses, hg, errs, causeOf, h, cause]

/-- One that also waits for no recall leaves its context Blocked and changes nothing else. -/
theorem exec_stalls (turn : competes (me s) = true) (slot : i.slot = some k) (wf : i.wf = true)
    (on : guardOn (me s) (guardField i) = true) (h : Pends (me s) i)
    (sem : semOf i s.cur { next := (soloGrp (me s) i k).next } s = some o)
    (ports : ∀ a ∈ o.ports, ∀ b ∈ o.ports, a.2 = b.2 → a.1 = b.1) (fmt : o.isFmt = false) (scl : o.isScl = false)
    (mx : o.isMx = false) (cause : o.cause = none) (recalls : o.recalls = []) (held : o.held = false) :
    exec i s = .next (updCtx s.cur (fun c => { c with st := .blocked, stalled := false }) s) := by
  have clear : firstCause (groupCauses (me s) ⟨soloGrp (me s) i k, 0, [], []⟩ [o]) = none := by
    rw [groupCauses_plain _ _ o rfl ports fmt scl mx cause]
    rfl
  rw [exec_pends turn slot wf on h sem clear, recalls, held]
  rfl

theorem pends_of_read {c : Ctx} {i : Instr} {r : Reg} (hr : r ∈ (operands c i).reads) (h : isPending c r = true) : Pends c i :=
  .inl ⟨r, by simp [hr], h⟩

theorem pends_of_write {c : Ctx} {i : Instr} {r : Reg} (hr : r ∈ (operands c i).writes) (h : isPending c r = true) : Pends c i :=
  .inl ⟨r, by simp [hr], h⟩

/-- A pop with a row at hand takes the oldest. -/
theorem popCheck_row {s : State} {p slot q n : Nat} {r : QRow} {rs : List QRow} (hq : queueOf (getCtx s p) p q = some n)
    (hr : queueRows s p n = r :: rs) : popCheck s p slot q 0 1 = (some r, none, false) := by
  unfold popCheck
  dsimp only
  rw [hq]
  dsimp only
  rw [hr]
  rfl

/-- Settles O36: a pending register of the operation makes `opPends` true, which blocks the group where no cause comes first. -/
theorem pendingBlocks : Obligations.PendingBlocks := by
  unfold Obligations.PendingBlocks
  refine ⟨fun s i k o => fun turn slot wf on h sem clear => exec_pends turn slot wf on h sem clear, ?_⟩
  intro s sl vl g k q d a b x y z t
  dsimp only
  intro turn on
  have guard : ∀ {m fs}, fs.foldl (fun acc (f : Nat × Nat) => acc + f.1 * 2 ^ f.2) (m % 2 ^ 26) < 2 ^ 23 →
      guardOn (me s) ((wd m ((g.toNat, 23) :: fs)).extractLsb' 23 3) = true := fun low => by rw [wd_guard _ _ _ low]; exact on
  refine ⟨fun h i hi => ?_, fun h => ?_, fun h => ?_, fun n r rs ht hq hr h => ?_⟩
  · have two : ∀ i, (operands (me s) i).reads = [sReg (me s) sl a, sReg (me s) sl b] → (operands (me s) i).writes = [sReg (me s) sl d] →
        Pends (me s) i := by
      intro i hr hw
      rcases h with h | h | h
      · exact pends_of_read (by simp [hr]) h
      · exact pends_of_read (by simp [hr]) h
      · exact pends_of_write (by simp [hw]) h
    simp only [List.mem_cons, List.not_mem_nil, or_false] at hi
    rcases hi with rfl | rfl | rfl
    all_goals
      refine exec_stalls (k := sl.num) turn rfl rfl (guard ?_) (two _ rfl rfl) rfl (fun _ ha => ?_) rfl rfl rfl
        rfl rfl rfl
      · simp only [List.foldl_cons, List.foldl_nil]
        omega
      · cases ha
  · refine exec_stalls (k := VSlot.vb.num) turn rfl rfl (guard ?_) ?_ rfl (fun _ ha => nomatch ha) rfl rfl rfl rfl rfl rfl
    · simp only [List.foldl_cons, List.foldl_nil]
      omega
    · rcases h with h | h | h
      · exact pends_of_write (by simp [operands]) h
      · exact pends_of_read (by simp [operands]) h
      · exact pends_of_read (by simp [operands]) h
  · refine exec_stalls (k := 7) turn rfl rfl (guard ?_) (pends_of_write (List.mem_singleton_self _) h) rfl (fun _ ha => ?_)
      rfl rfl rfl rfl rfl rfl
    · simp only [List.foldl_cons, List.foldl_nil]
      omega
    · cases ha
  · refine exec_stalls (k := vl.num) turn rfl (decide_eq_true ht) (guard ?_) (.inr ⟨_, List.mem_singleton_self _, h⟩) rfl
      (fun _ ha => ?_) rfl rfl rfl ?_ rfl rfl
    · simp only [List.foldl_cons, List.foldl_nil]
      omega
    · cases ha
    · exact congrArg (fun z => z.2.1) (popCheck_row hq hr)

end Sys2Proof.Machine
end

section
/-! SUPPORT. Loads and stores of the scratchpad: what the access of one operation leaves at the end of its cycle (R36, R168, R359,
R391). -/

namespace Sys2Proof.Machine

/-! ### One write of a cycle -/

/-- The bytes of a write, laid one by one. -/
theorem foldl_zipIdx_wrByte (bs : List Byte) (k n : Nat) (m : List Host.Cell) :
    ((bs.zipIdx n).map (fun e => (k + e.2, e.1))).foldl (fun m e => wrByte m e.1 e.2) m = wrBytes m (k + n) bs := by
  induction bs generalizing n m with
  | nil => rfl
  | cons b bs ih =>
    rw [List.zipIdx_cons, List.map_cons, List.foldl_cons, ih]
    rfl

/-- What the marks of the granules become by a write of the words `ks`. -/
def markWords (w : EndWrite) (ks : List Nat) (marks : SMap Bool) : SMap Bool :=
  ks.foldl (fun m k => if w.bad then smSet false m k true else if w.data.length < 16 then m else smSet false m k false) marks

theorem lostWord_self (w : EndWrite) (k : Nat) : lostWord [w] w k = false := by simp [lostWord]

theorem lostGran_self (w : EndWrite) (k : Nat) : lostGran [w] w k = false := by simp [lostGran, outdoes, readFirst]

/-- The only write of a cycle is made whole. -/
theorem endWrite_self (w : EndWrite) (s : State) (low : w.key < 2 ^ 70) : endWrite [w] s w = { s with
    mem := wrBytes s.mem w.key w.data
    empties := w.grans.foldl (fun m k => smSet false m k w.empty) s.empties
    granBad := markWords w (wordsOf w) s.granBad } := by
  have bytes : standing [w] w = w.data.zipIdx.map (fun e => (w.key + e.2, e.1)) := by
    simp [standing, lostWord_self]
  have all : w.grans.filter (fun k => !lostGran [w] w k) = w.grans := by simp [lostGran_self]
  have words : (wordsOf w).filter (fun k => !lostWord [w] w k) = wordsOf w := by simp [lostWord_self]
  unfold endWrite
  rw [if_neg (Nat.not_le.2 low)]
  dsimp only
  rw [bytes, all, words, foldl_zipIdx_wrByte]
  rfl

/-- A cycle of one write. -/
theorem commitWrites_one (w : EndWrite) (s : State) (clean : s.endw = []) (low : w.key < 2 ^ 70) :
    commitWrites (pushWrite w s) = { s with
      mem := wrBytes s.mem w.key w.data
      empties := w.grans.foldl (fun m k => smSet false m k w.empty) s.empties
      granBad := markWords w (wordsOf w) s.granBad } := by
  have one : (pushWrite w s).endw = [w] := by simp [pushWrite, clean]
  have alone : ([w].filter (fun a => [w].any (fun b => b.slot != a.slot && meets a b))) = [] := by
    simp only [List.any_cons, List.any_nil, Bool.or_false, List.filter_eq_nil_iff, List.mem_singleton]
    rintro a rfl
    simp
  unfold commitWrites
  dsimp only
  rw [one, alone, List.foldl_cons, List.foldl_nil, List.map_nil, List.foldl_nil, endWrite_self w _ low]
  unfold pushWrite
  rw [← clean]

/-! ### Granules and keys of an access -/

theorem clusterOf_lt {s : State} {p off : Nat} (live : coreLive s (holderOf p off) = true) : clusterOf p < 64 := by
  have lt : holderOf p off < 256 := by
    simp only [coreLive, Bool.and_eq_true] at live
    exact of_decide_eq_true live.1.1
  unfold holderOf at lt
  omega

theorem scratchKey_lt {s : State} {p off : Nat} (live : coreLive s (holderOf p off) = true) (o : Nat) :
    scratchKey (clusterOf p) o < 2 ^ 70 := by
  have := clusterOf_lt live
  unfold scratchKey
  omega

theorem scratchKey_mod (cl off : Nat) : scratchKey cl off % 16 = off % 16 := by
  unfold scratchKey
  omega

/-- The granules of a cluster's scratchpad are numbered from its first. -/
theorem granKey_scratchKey (cl off : Nat) : granKey (scratchKey cl off) = 2 ^ 59 + cl * 2 ^ 19 + off % 2 ^ 23 / 16 := by
  unfold granKey scratchKey
  omega

/-- The 16-byte words of an aligned store are the granules that it touches. -/
theorem wordsOf_store {p slot off n : Nat} {data : List Byte} {gs : List Nat} {e b r : Bool} (size : n = 8 ∨ n = 256)
    (len : data.length = n) (inside : off < 2 ^ 23) (aligned : off % n = 0) :
    wordsOf ⟨p, slot, scratchKey (clusterOf p) off, data, gs, e, b, r⟩ = granKeys p off n := by
  have full : data.isEmpty = false := by
    cases data with
    | nil => simp only [List.length_nil] at len; omega
    | cons => rfl
  unfold wordsOf granKeys granOffs
  dsimp only
  rw [full, if_neg Bool.false_ne_true, len, List.map_map, scratchKey_mod]
  refine List.map_congr_left fun i hi => ?_
  have hi' := List.mem_range.1 hi
  have step : granKey (scratchKey (clusterOf p) ((off / 16 + i) * 16)) = i + granKey (scratchKey (clusterOf p) off) := by
    rw [granKey_scratchKey, granKey_scratchKey]
    generalize 2 ^ 59 + clusterOf p * 2 ^ 19 = base
    rcases size with rfl | rfl <;> omega
  rw [Function.comp_apply, step]
  rfl

theorem scrOff_lt (c : Ctx) (a : BitVec 4) (n : Nat) : scrOff c a / n * n < 2 ^ 23 :=
  Nat.lt_of_le_of_lt (Nat.div_mul_le_self ..) (Nat.mod_lt _ (by decide))

/-! ### The operations -/

section
variable {s : State} {c : Ctx} {p a m n : Nat} {r : Reg} {rs : List Reg} {x : Res}

theorem post_toRegs (c : Ctx) (a m : Nat) : toRegs { opBase c 0 0 with res := postUpdate c a m } := by
  intro x hx _
  simp only [postUpdate] at hx
  split at hx
  · cases hx
  · rw [List.mem_singleton.1 hx]
    exact ⟨_, rfl⟩

theorem post_dest (h : x ∈ postUpdate c a m) (hd : x.dest = .reg r) : r = aReg a ∧ r ∈ memReads a m := by
  simp only [postUpdate] at h
  split at h
  · cases h
  · next hm =>
    rw [List.mem_singleton.1 h] at hd
    have e : r = aReg a := (Dest.reg.inj hd).symm
    exact ⟨e, by simp [memReads, hm, e]⟩

theorem post_nodup (c : Ctx) (a m : Nat) : ((postUpdate c a m).map (·.dest)).Nodup := by
  unfold postUpdate
  split <;> simp

/-- A destination of a load is no address register. -/
theorem physReg_ne_aReg (c : Ctx) (f r n : Nat) : physReg c (fileOfCode f) r ≠ aReg n := by
  intro h
  have file : fileOfCode f = File.a := congrArg Reg.file h
  unfold fileOfCode at file
  split at file <;> cases file
end

section
variable {s : State} {sl : LSlot} {g : BitVec 3} {a m : BitVec 4} {n access : Nat}

/-- The banks are taken beside the results. -/
theorem takeBanks_loaded (ids : List Nat) (o : OpSem) : takeBanks s.cur ids (loaded s o) = loaded (takeBanks s.cur ids s) o := rfl

theorem poisonRead_loaded (b : Bool) (o : OpSem) : poisonRead s.cur b (loaded s o) = loaded (poisonRead s.cur b s) o := by
  cases b
  · rfl
  · unfold poisonRead
    rw [if_pos rfl, if_pos rfl, getCtx_loaded]
    rfl

/-- What every access of the scratchpad takes for granted at its issue. -/
structure ScrFree (s : State) (g : BitVec 3) (off n : Nat) : Prop where
  on : guardOn (me s) g = true
  acq : acquiring s s.cur = false
  live : coreLive s (holderOf s.cur off) = true
  banks : banksReady s s.cur (bankIds s.cur off n) = true

theorem ScrFree.cause (sl : LSlot) (m : BitVec 4) (access : Nat) {off : Nat} (h : ScrFree s g off n) :
    (scrBase sl g a m off n access s.cur s).cause = none := by
  unfold scrBase rangeCause
  dsimp only
  rw [h.live]
  exact ite_self _

theorem ScrFree.blocks (sl : LSlot) (m : BitVec 4) (access : Nat) {off : Nat} (h : ScrFree s g off n) :
    (scrBase sl g a m off n access s.cur s).blocks = false := by
  unfold scrBase
  dsimp only
  rw [h.banks, h.acq]
  rfl

theorem semLoad_fits {r : BitVec 4} {f : BitVec 3} {nw cl : BitVec 1} (h : ScrFree s g (scrOff (me s) a / n * n) n)
    (full : nw = 0 → gransFull s s.cur (scrOff (me s) a / n * n) n = true) :
    Fits (semLoad sl g r f a m nw cl n s.cur s) (physReg (me s) (fileOfCode f.toNat) r.toNat :: memReads a.toNat m.toNat)
      (1 + (postUpdate (me s) a.toNat m.toNat).length) where
  on := h.on
  flow := rfl
  ports _ ha := nomatch ha
  fmt := rfl
  scl := rfl
  mx := rfl
  cause := h.cause sl m 1
  blocks := by
    refine Bool.or_eq_false_iff.2 ⟨h.blocks sl m 1, ?_⟩
    by_cases hw : nw = 0
    · rw [show gransFull s s.cur (scrOff (getCtx s s.cur) a / n * n) n = true from full hw]
      exact Bool.and_false _
    · rw [show (nw == 0) = false from beq_false_of_ne hw]
      rfl
  reads _ hr := List.mem_cons_of_mem _ hr
  ilocks := rfl
  res x hx q hd := by
    rcases List.mem_cons.1 hx with rfl | hx
    · exact Dest.reg.inj hd ▸ List.mem_cons_self
    · exact List.mem_cons_of_mem _ (post_dest hx hd).2
  room := by
    refine Nat.le_of_eq ?_
    exact Nat.add_comm _ 1
  atOnce x hx hl := by
    rcases List.mem_cons.1 hx with rfl | hx
    · exact ⟨_, rfl⟩
    · exact post_toRegs (me s) a.toNat m.toNat x hx hl
  nd := by
    refine List.nodup_cons.2 ⟨fun hm => ?_, post_nodup (me s) a.toNat m.toNat⟩
    obtain ⟨x, hx, hd⟩ := List.mem_map.1 hm
    exact physReg_ne_aReg _ _ _ _ (post_dest hx hd).1

theorem semStore_fits {v : Vec} {rs : List Reg} {bad : Bool} (h : ScrFree s g (scrOff (me s) a / n * n) n)
    (row : rowHeld (me s) (scrOff (me s) a / n * n / 256) = false) :
    Fits (semStore sl g a m n v rs bad s.cur s) (rs ++ memReads a.toNat m.toNat) (postUpdate (me s) a.toNat m.toNat).length where
  on := h.on
  flow := rfl
  ports _ ha := nomatch ha
  fmt := rfl
  scl := rfl
  mx := rfl
  cause := h.cause sl m 2
  blocks := Bool.or_eq_false_iff.2 ⟨h.blocks sl m 2, row⟩
  reads _ hr := hr
  ilocks := rfl
  res _ hx _ hd := List.mem_append_right _ (post_dest hx hd).2
  room := Nat.le_refl _
  atOnce := post_toRegs (me s) a.toNat m.toNat
  nd := post_nodup (me s) a.toNat m.toNat

/-- `sts` takes one port where its source is a common register. -/
theorem semSts_fits {r : BitVec 4} {f : BitVec 3} {q : BitVec 2} (h : ScrFree s g (scrOff (me s) a / 8 * 8) 8)
    (row : rowHeld (me s) (scrOff (me s) a / 8 * 8 / 256) = false) :
    Fits (semSts sl g r f a m q s.cur s) ([physReg (me s) (fileOfCode f.toNat) r.toNat] ++ memReads a.toNat m.toNat)
      (postUpdate (me s) a.toNat m.toNat).length :=
  let b := semStore_fits (sl := sl) (m := m) (v := regGet (me s) (physReg (me s) (fileOfCode f.toNat) r.toNat))
    (rs := [physReg (me s) (fileOfCode f.toNat) r.toNat]) (bad := false) h row
  { b with
    ports := fun x hx y hy _ => by
      change x ∈ (if f = 5 then [(r.toNat, q.toNat)] else []) at hx
      change y ∈ (if f = 5 then [(r.toNat, q.toNat)] else []) at hy
      split at hx
      · next h =>
        rw [if_pos h] at hy
        rw [List.mem_singleton.1 hx, List.mem_singleton.1 hy]
      · cases hx }

section
variable {r : BitVec 4} {k : Nat} {x : QRow} {xs : List QRow} (queue : queueOf (me s) s.cur r.toNat = some k)
  (rows : queueRows s s.cur k = x :: xs)
include queue rows

/-- `stq` with a row at hand is the store of that row, which it takes from the queue. -/
theorem semStq_of_row : semStq sl g r a m s.cur {} s =
    { semStore sl g a m 256 x.row [] x.bad s.cur s with
      pops := [r.toNat]
      effect := fun t => (semStore sl g a m 256 x.row [] x.bad s.cur s).effect (popRow s.cur r.toNat t) } := by
  have pop : popCheck s s.cur sl.num r.toNat (({} : Pre).pops.countP (· == r.toNat)) (popsNeed {} r.toNat 1) = (some x, none, false) :=
    popCheck_row queue rows
  unfold semStq
  dsimp only
  rw [pop]
  simp

theorem semStq_fits (h : ScrFree s g (scrOff (me s) a / 256 * 256) 256)
    (row : rowHeld (me s) (scrOff (me s) a / 256 * 256 / 256) = false) :
    Fits (semStq sl g r a m s.cur {} s) ([] ++ memReads a.toNat m.toNat) (postUpdate (me s) a.toNat m.toNat).length := by
  rw [semStq_of_row queue rows]
  let b := semStore_fits (sl := sl) (m := m) (v := x.row) (rs := []) (bad := x.bad) h row
  exact { b with }

/-- It stores beside the queue without that row. -/
theorem semStq_effect : (semStq sl g r a m s.cur {} s).effect (loaded s (semStq sl g r a m s.cur {} s)) =
    pushWrite ⟨s.cur, sl.num, scratchKey (clusterOf s.cur) (scrOff (me s) a / 256 * 256), bytesLE 256 x.row.toNat,
      granKeys s.cur (scrOff (me s) a / 256 * 256) 256, false, x.bad || anyBad (me s) (memReads a.toNat m.toNat), false⟩
      (takeBanks s.cur (bankIds s.cur (scrOff (me s) a / 256 * 256) 256)
        (loaded (updCore (coreOf s.cur) (fun z => { z with queues := smSet [] z.queues k xs }) s) (semStq sl g r a m s.cur {} s))) := by
  have popped : ∀ o, popRow s.cur r.toNat (loaded s o) =
      loaded (updCore (coreOf s.cur) (fun z => { z with queues := smSet [] z.queues k xs }) s) o := by
    intro o
    have q : queueOf (getCtx (loaded s o) s.cur) s.cur r.toNat = some k := by
      rw [getCtx_loaded]
      exact queue
    have left : (smGet [] (getCore s (coreOf s.cur)).queues k).drop 1 = xs := congrArg (List.drop 1) rows
    unfold popRow
    rw [q]
    dsimp only
    rw [← left]
    rfl
  rw [semStq_of_row queue rows]
  exact congrArg (fun t => (semStore sl g a m 256 x.row [] x.bad s.cur s).effect t) (popped _)

end

theorem poisonRead_cur (p : Nat) (b : Bool) (s : State) : (poisonRead p b s).cur = s.cur := by
  unfold poisonRead
  split <;> rfl

theorem takeBanks_clean (clean : s.endw = []) (b : Bool) (ids : List Nat) (o : OpSem) :
    (loaded (poisonRead s.cur b (takeBanks s.cur ids s)) o).endw = [] := by
  rw [loaded_eq]
  exact ((poisonRead_quiet s.cur b _).2.trans (takeBanks_quiet s.cur ids s).2).trans clean

/-- A load whose granules and banks are at hand completes. -/
theorem load_completes {i : Instr} {r : BitVec 4} {f : BitVec 3} {nw cl : BitVec 1}
    (ex : exec i s = issueSolo i (semLoad sl g r f a m nw cl n s.cur s) s) (wf : i.wf = true)
    (can : CanIssue s (physReg (me s) (fileOfCode f.toNat) r.toNat :: memReads a.toNat m.toNat)
      (1 + (postUpdate (me s) a.toNat m.toNat).length))
    (h : ScrFree s g (scrOff (me s) a / n * n) n) (full : nw = 0 → gransFull s s.cur (scrOff (me s) a / n * n) n = true) :
    let off := scrOff (me s) a / n * n
    let u := poisonRead s.cur (gransBad s s.cur off n) (takeBanks s.cur (bankIds s.cur off n) s)
    Completes i s (if cl = 1 then { u with empties := (granKeys s.cur off n).foldl (fun q k => smSet false q k true) u.empties } else u)
      sl.num (semLoad sl g r f a m nw cl n s.cur s).res := by
  intro off u
  have clean : (loaded u (semLoad sl g r f a m nw cl n s.cur s)).endw = [] := takeBanks_clean can.clean ..
  have access : poisonRead s.cur (gransBad s s.cur off n) (takeBanks s.cur (bankIds s.cur off n)
      (loaded s (semLoad sl g r f a m nw cl n s.cur s))) = loaded u (semLoad sl g r f a m nw cl n s.cur s) := by
    rw [takeBanks_loaded]
    exact poisonRead_loaded (s := takeBanks s.cur (bankIds s.cur off n) s) ..
  refine (semLoad_fits h full).effect can ex wf ?_ ?_
  · split <;> exact poisonRead_cur ..
  · by_cases hc : cl = 1
    · subst hc
      refine (congrArg (fun t => commitWrites (pushWrite _ t)) access).trans ?_
      rw [commitWrites_one _ _ clean (scratchKey_lt h.live _), if_pos rfl]
      rfl
    · rw [if_neg hc]
      have eff : (semLoad sl g r f a m nw cl n s.cur s).effect (loaded s (semLoad sl g r f a m nw cl n s.cur s)) =
          loaded u (semLoad sl g r f a m nw cl n s.cur s) := (if_neg hc).trans access
      rw [eff, commitWrites_nil _ clean]
      rfl

/-- A store marks its granules as its data are; one of eight bytes clears no mark. -/
theorem markWords_store {w : EndWrite} {ks : List Nat} {marks : SMap Bool} (size : n = 8 ∨ n = 256) (len : w.data.length = n) :
    markWords w ks marks = if w.bad then ks.foldl (fun z j => smSet false z j true) marks
      else if n = 256 then ks.foldl (fun z j => smSet false z j false) marks else marks := by
  unfold markWords
  rw [len]
  split
  · rfl
  · rcases size with rfl | rfl
    · exact List.foldl_fixed ..
    · rfl

/-- A store's banks are taken, and the one write of its cycle fills its granules. -/
theorem store_completes {i : Instr} {v : Vec} {rs : List Reg} {bad : Bool} {t : State} {o : OpSem} (size : n = 8 ∨ n = 256)
    (ex : exec i s = issueSolo i o s) (wf : i.wf = true)
    (fits : Fits o (rs ++ memReads a.toNat m.toNat) (postUpdate (me s) a.toNat m.toNat).length)
    (can : CanIssue s (rs ++ memReads a.toNat m.toNat) (postUpdate (me s) a.toNat m.toNat).length)
    (live : coreLive s (holderOf s.cur (scrOff (me s) a / n * n)) = true) (ht : t.cur = s.cur) (clean : t.endw = [])
    (draws : drawless o = o)
    (eff : o.effect (loaded s o) = pushWrite ⟨s.cur, sl.num, scratchKey (clusterOf s.cur) (scrOff (me s) a / n * n),
      bytesLE n v.toNat, granKeys s.cur (scrOff (me s) a / n * n) n, false, bad, false⟩
      (takeBanks s.cur (bankIds s.cur (scrOff (me s) a / n * n) n) (loaded t o))) :
    let off := scrOff (me s) a / n * n
    Completes i s { takeBanks s.cur (bankIds s.cur off n) t with
      mem := wrBytes t.mem (scratchKey (clusterOf s.cur) off) (bytesLE n v.toNat)
      empties := (granKeys s.cur off n).foldl (fun z j => smSet false z j false) t.empties
      granBad := if bad then (granKeys s.cur off n).foldl (fun z j => smSet false z j true) t.granBad
        else if n = 256 then (granKeys s.cur off n).foldl (fun z j => smSet false z j false) t.granBad else t.granBad }
      o.slot o.res := by
  intro off
  refine fits.effect can ex wf ht ?_
  have low : scratchKey (clusterOf s.cur) off < 2 ^ 70 := scratchKey_lt live _
  have tidy : (takeBanks s.cur (bankIds s.cur off n) (loaded t o)).endw = [] := by
    rw [loaded_eq]
    exact clean
  have inside : off < 2 ^ 23 := scrOff_lt ..
  rw [eff, commitWrites_one _ _ tidy low, wordsOf_store size (bytesLE_length ..) inside (Nat.mul_mod_left ..), draws,
    markWords_store size (bytesLE_length ..)]
  rfl

/-- Settles O16: the load's effect takes its banks, and with `.c` the one write of its cycle empties the granules. -/
theorem scratchLoads : Obligations.ScratchLoads := by
  unfold Obligations.ScratchLoads
  intro s sl g r f a m nw cl
  dsimp only
  intro can on acq ok e he vec live banks full
  have same : ∀ off n, SameBytes s (poisonRead s.cur (gransBad s s.cur off n) (takeBanks s.cur (bankIds s.cur off n) s)) :=
    fun off n k => by rw [(poisonRead_quiet ..).1, (takeBanks_quiet ..).1]
  refine ⟨same _ _, ?_⟩
  simp only [List.mem_cons, List.not_mem_nil, or_false] at he
  rcases he with rfl | rfl
  · exact load_completes rfl (decide_eq_true ⟨vec rfl, ok⟩) can ⟨on, acq, live, banks⟩ full
  · exact load_completes rfl ok can ⟨on, acq, live, banks⟩ full

/-- A store that completes leaves its bytes in the memory, and every other byte as it was. -/
theorem store_bytes {i : Instr} {t : State} {key : Nat} {bs : List Byte} {es gs : SMap Bool} {slot : Nat} {os : List Res}
    (len : bs.length = n) (h : Completes i s { t with mem := wrBytes s.mem key bs, empties := es, granBad := gs } slot os) :
    NextWith (exec i s) (fun u => rdBytes u.mem key n = bs ∧ SameBytesBut (fun j => key ≤ j ∧ j < key + n) s u) := by
  obtain ⟨u, hu, fr, -⟩ := h
  have mem : u.mem = wrBytes s.mem key bs := by
    have h := congrArg State.mem fr.elsewhere.rest
    exact h
  subst len
  refine ⟨u, hu, by rw [mem, rdBytes_wrBytes], fun j hj => ?_⟩
  rw [mem]
  rcases Nat.lt_or_ge j key with below | above
  · exact rdByte_wrBytes_below _ _ below
  · exact rdByte_wrBytes_above _ _ (Nat.not_lt.1 fun h => hj ⟨above, h⟩)

/-- Settles O17: the one write of the store's cycle lays its bytes, and beside it only its banks, its queue row and its post-update
change. -/
theorem scratchStores : Obligations.ScratchStores := by
  unfold Obligations.ScratchStores
  intro s sl g r f a m q k x xs
  dsimp only
  intro on acq e he can wf row live banks held
  simp only [List.mem_cons, List.not_mem_nil, or_false] at he
  rcases he with rfl | rfl | rfl
  · have done := store_completes (n := 256) (.inr rfl) rfl wf (semStore_fits ⟨on, acq, live, banks⟩ held) can live
      rfl can.clean rfl rfl
    exact ⟨done, store_bytes (bytesLE_length 256 _) done⟩
  · have fits := semSts_fits (sl := sl) (m := m) (f := f) (r := r) (q := q) ⟨on, acq, live, banks⟩ held
    have done := store_completes (n := 8) (.inl rfl) rfl wf fits can live rfl can.clean rfl rfl
    exact ⟨done, store_bytes (bytesLE_length 8 _) done⟩
  · obtain ⟨queue, rows⟩ := row rfl
    have fits := semStq_fits (sl := sl) (m := m) queue rows ⟨on, acq, live, banks⟩ held
    have done := store_completes (n := 256) (v := x.row) (bad := x.bad || anyBad (me s) (memReads a.toNat m.toNat))
      (t := updCore (coreOf s.cur) (fun z => { z with queues := smSet [] z.queues k xs }) s) (.inr rfl) rfl wf fits can live rfl
      can.clean rfl (semStq_effect queue rows)
    exact ⟨done, store_bytes (bytesLE_length 256 _) done⟩

end

end Sys2Proof.Machine
end

section
/-! SUPPORT. Loads of global memory: an operation whose effect may reach another context, the one whose extents it uses (R352). -/

namespace Sys2Proof.Machine

/-! ### States that agree context by context -/

/-- `v` reads as `u` does, in whatever order the two list their contexts. -/
structure Alike (u v : State) : Prop where
  rest : { v with ctxs := u.ctxs } = u
  ctxs : ∀ q, getCtx v q = getCtx u q

section
variable {u v t : State}

theorem Alike.cur (h : Alike u v) : v.cur = u.cur := by
  have e := congrArg State.cur h.rest
  exact e

theorem Alike.me (h : Alike u v) : me v = me u := by
  unfold Machine.me
  rw [h.cur, h.ctxs]

theorem Alike.getCore (h : Alike u v) (k : Nat) : getCore v k = getCore u k := by
  have e := congrArg (fun s => Machine.getCore s k) h.rest
  exact e

theorem Alike.mem (h : Alike u v) : v.mem = u.mem := by
  have e := congrArg State.mem h.rest
  exact e

theorem Alike.due (h : Alike u v) (d : Dest) : Due v d ↔ Due u d := by
  unfold Due
  rw [h.me]

theorem Alike.regFrame {ds : List Reg} (h : Alike u v) (f : RegFrame v t ds) : RegFrame u t ds where
  elsewhere := {
    rest := by
      have e := congrArg (fun x : State => { x with ctxs := u.ctxs, cores := u.cores }) f.elsewhere.rest
      have r := congrArg (fun x : State => { x with cores := u.cores }) h.rest
      exact Eq.trans e r
    bytes := fun k => by rw [f.elsewhere.bytes, h.mem]
    ctxs := fun q hq => (f.elsewhere.ctxs q (h.cur ▸ hq)).trans (h.ctxs q)
    cores := fun k hk => (f.elsewhere.cores k (h.cur ▸ hk)).trans (h.getCore k)
    core := fun hd => by rw [← h.cur, f.elsewhere.core (mt (h.due _).1 hd), h.getCore] }
  regs r hr hd := by rw [← h.cur, f.regs r hr (mt (h.due _).1 hd), h.me]
  control := {
    fmt := fun hd => by rw [← h.cur, f.control.fmt (mt (h.due _).1 hd), h.me]
    scl := fun hd => by rw [← h.cur, f.control.scl (mt (h.due _).1 hd), h.me]
    seed := fun hd => by rw [← h.cur, f.control.seed (mt (h.due _).1 hd), h.me]
    wfb := fun hd => by rw [← h.cur, f.control.wfb (mt (h.due _).1 hd), h.me] }
  work := by
    have w := f.work
    unfold SameWork at w ⊢
    rw [← h.cur, w, h.me]
  step := by rw [← h.cur, f.step, h.me]
  turn := by rw [← h.cur, f.turn]
  course := {
    mpc := by rw [← h.cur, f.course.mpc, h.me]
    loops := fun hl => by rw [← h.cur, f.course.loops (h.me ▸ hl)]
    age := fun hd hl => by rw [← h.cur, f.course.age (mt (h.due _).1 hd) (h.me ▸ hl), h.me]
    gpred := fun hd hl => by rw [← h.cur, f.course.gpred (mt (h.due _).1 hd) (h.me ▸ hl), h.me] }

theorem Alike.lands {slot : Nat} {o : Res} (h : Alike u v) (l : Lands v t slot o) : Lands u t slot o := by
  unfold Lands at l ⊢
  rw [h.cur, h.me] at l
  simp only [h.due] at l
  exact l

theorem Alike.completes {i : Instr} {s : State} {slot : Nat} {os : List Res} (h : Alike u v) (c : Completes i s v slot os) :
    Completes i s u slot os := by
  obtain ⟨t, ht, fr, lands⟩ := c
  exact ⟨t, ht, h.regFrame fr, fun o ho => h.lands (lands o ho)⟩
end

/-- The end of a step begins with a write of its context: that the context was just written makes no difference. -/
theorem finishGroup_rewritten (p : Nat) (g : Grp) (o : OpSem) (s : State) (ho : g.op = none) :
    finishGroup p g [o] (setCtx p (getCtx s p) s) = finishGroup p g [o] s := by
  have count : countStep p (setCtx p (getCtx s p) s) = countStep p s := by
    rw [countStep_eq, countStep_eq]
    unfold updCtx
    rw [getCtx_setCtx_self, setCtx_setCtx]
  unfold finishGroup
  rw [ho]
  dsimp only [request]
  rw [count]

/-- `completes_effect` where the operation's effect agrees with `u` context by context. -/
theorem completes_alike (i : Instr) (o : OpSem) (s u w : State) (rs : List Reg) (n : Nat) (ex : exec i s = issueSolo i o s)
    (wf : i.wf = true) (c : CanIssue s rs n) (f : OpFree s o) (on : o.on = true) (fl : o.seq = .flow) (tr : toRegs o)
    (cur : u.cur = s.cur) (eff : commitWrites (o.effect (loaded s o)) = w) (like : Alike (loaded u (drawless o)) w)
    (nd : (o.res.map (·.dest)).Nodup) : Completes i s u o.slot o.res := by
  have fl' : seqOf [drawless o] = .flow := by
    rw [seqOf_drawless]
    unfold seqOf
    simp only [List.find?_cons, List.find?_nil]
    cases (o.on && o.seq != .flow) <;> simp [fl]
  have wcur : w.cur = s.cur := by
    rw [like.cur, loaded_eq]
    exact cur
  -- `v` is `w` with the context as the operation's results met it.
  have alike : Alike u (setCtx s.cur (me u) w) := by
    refine ⟨?_, fun q => ?_⟩
    · have e := congrArg (fun x : State => { x with ctxs := u.ctxs }) like.rest
      rw [loaded_eq] at e
      exact e
    · by_cases hq : q = s.cur
      · rw [hq, getCtx_setCtx_self, ← cur]
        rfl
      · rw [getCtx_setCtx_ne _ _ hq, like.ctxs, loaded_eq, getCtx_updCtx_ne _ _ (cur ▸ hq)]
  have met : loaded (setCtx s.cur (me u) w) (drawless o) = setCtx s.cur (getCtx w s.cur) w := by
    rw [loaded_eq, show (setCtx s.cur (me u) w).cur = s.cur from wcur, like.ctxs, ← cur, getCtx_loaded]
    unfold updCtx
    rw [getCtx_setCtx_self, setCtx_setCtx]
    rfl
  have step : exec i s = .next (finishGroup s.cur (soloGrp (me s) i o.slot) [drawless o]
      (loaded (setCtx s.cur (me u) w) (drawless o))) := by
    have run : runOps s.cur [o] (readied s) = o.effect (loaded s o) := by simp [runOps, on, loaded]
    have ready : (getCtx w s.cur).st = .ready := by rw [like.ctxs, ← cur, getCtx_loaded]
    rw [ex, issueSolo_ready i o s wf c.turn c.bar c.steady (Nat.le_trans (Nat.le_add_right ..) c.room) f, run, eff,
      endGroup, ready, met, finishGroup_rewritten _ _ _ _ rfl, finishGroup_drawless]
    rfl
  refine alike.completes ⟨_, step, ?_, fun x hx => ?_⟩
  · have fr := pure_frame (soloGrp (me s) i o.slot) (drawless o) (setCtx s.cur (me u) w) rfl rfl fl' tr rfl
    rw [show (setCtx s.cur (me u) w).cur = s.cur from wcur] at fr
    exact fr
  · obtain ⟨a, b, hab⟩ := List.append_of_mem hx
    rw [hab, List.map_append, List.map_cons, List.nodup_append, List.nodup_cons] at nd
    have apart : ∀ y ∈ a ++ b, y.dest ≠ x.dest := fun y hy e => by
      rcases List.mem_append.mp hy with k | k
      · exact nd.2.2 _ (List.mem_map_of_mem k) _ List.mem_cons_self e
      · exact nd.2.1.1 (e ▸ List.mem_map_of_mem k)
    have l := lands_res (soloGrp (me s) i o.slot) (drawless o) (setCtx s.cur (me u) w) rfl rfl fl' x a b hab apart
    rw [show (setCtx s.cur (me u) w).cur = s.cur from wcur] at l
    exact l

/-! ### The extent that an access uses -/

/-- A context whose extent at an address was used last. -/
def touched (va : Word) (c : Ctx) : Ctx :=
  match extentAt c.extents va with
  | some e => { c with extents := c.extents.filter (· != e) ++ [e] }
  | none => c

theorem getCtx_touchExtent (p q : Nat) (va : Word) (s : State) :
    getCtx (touchExtent p va s) q = if q = extOwner s p then touched va (getCtx s q) else getCtx s q := by
  unfold touchExtent
  by_cases hq : q = extOwner s p
  · subst hq
    unfold touched
    dsimp only
    rw [if_pos rfl]
    generalize he : extentAt (getCtx s (extOwner s p)).extents va = x
    cases x with
    | none => rfl
    | some e => rw [getCtx_updCtx_self]
  · dsimp only
    rw [if_neg hq]
    split
    · rw [getCtx_updCtx_ne _ _ hq]
    · rfl

theorem touchExtent_rest (p : Nat) (va : Word) (s : State) (m : SMap Ctx) :
    { touchExtent p va s with ctxs := m } = { s with ctxs := m } := by
  unfold touchExtent
  dsimp only
  split <;> rfl

/-- A context whose group issues, with the results of an operation in its landing buffer and its draws taken. -/
def withResults (o : OpSem) (c : Ctx) : Ctx :=
  { c with
    st := .ready
    barWait := none
    stalled := false
    landing := c.landing ++ o.res.map (fun r => ⟨r.dest, r.value, r.mask, r.lat, o.slot, c.stepc, r.bad⟩)
    seed := advanceSeed o.draws c.seed }

theorem loaded_withResults (s : State) (o : OpSem) : loaded s o = updCtx s.cur (withResults o) s := loaded_eq s o

theorem touched_withResults (va : Word) (o : OpSem) (c : Ctx) : touched va (withResults o c) = withResults o (touched va c) := by
  unfold touched
  rw [show (withResults o c).extents = c.extents from rfl]
  cases extentAt c.extents va <;> rfl

theorem touchExtent_cur (p : Nat) (va : Word) (s : State) : (touchExtent p va s).cur = s.cur := by
  unfold touchExtent
  dsimp only
  split <;> rfl

/-- The results of an operation change nothing of what an extent's use reads or writes. -/
theorem touchExtent_loaded (va : Word) (s : State) (o : OpSem) :
    Alike (loaded (touchExtent s.cur va s) o) (touchExtent s.cur va (loaded s o)) := by
  have owner : extOwner (updCtx s.cur (withResults o) s) s.cur = extOwner s s.cur := by
    unfold extOwner
    rw [getCtx_updCtx_self]
    rfl
  rw [loaded_withResults, loaded_withResults, touchExtent_cur]
  refine ⟨?_, fun q => ?_⟩
  · rw [touchExtent_rest]
    exact (touchExtent_rest s.cur va s (updCtx s.cur (withResults o) (touchExtent s.cur va s)).ctxs).symm
  · rw [getCtx_touchExtent, owner]
    by_cases hq : q = s.cur
    · subst hq
      rw [getCtx_updCtx_self, getCtx_updCtx_self, getCtx_touchExtent]
      split
      · exact touched_withResults ..
      · rfl
    · rw [getCtx_updCtx_ne _ _ hq, getCtx_updCtx_ne _ _ hq, getCtx_touchExtent]

/-! ### `gld` -/

/-- The requests of a load and its pending destination. -/
def gldAsked (p : Nat) (va : Word) (size : Nat) (d : Reg) (e : Extent) (acq bad : Bool) (scope : Nat) (t : State) : State :=
  let id := (getCtx t p).nextId
  let n := if size = 256 then 4 else 1
  let rs := (List.range n).map (fun i =>
    { reqAt t p .load id e (va + BitVec.ofNat 64 (64 * i)) (Nat.min size 64) with
      dest := some d, arg := BitVec.ofNat 64 n, lane := i, acq := acq, scope := scope, bad := bad })
  addReqs p rs (addPend p d fullMask id n 0 false (takeId p t))

/-- The same with its extent used. -/
def gldIssue (p : Nat) (va : Word) (size : Nat) (d : Reg) (e : Extent) (acq bad : Bool) (scope : Nat) (t : State) : State :=
  touchExtent p va (gldAsked p va size d e acq bad scope t)

theorem gldAsked_loaded (va : Word) (size : Nat) (d : Reg) (e : Extent) (acq bad : Bool) (scope : Nat) (s : State) (o : OpSem) :
    gldAsked s.cur va size d e acq bad scope (loaded s o) = loaded (gldAsked s.cur va size d e acq bad scope s) o := by
  rw [loaded_withResults, loaded_withResults]
  unfold gldAsked addReqs addPend takeId
  dsimp only
  rw [getCtx_updCtx_self]
  simp only [updCtx_updCtx, updCtx_cur]
  rfl

theorem gldAsked_cur (p : Nat) (va : Word) (size : Nat) (d : Reg) (e : Extent) (acq bad : Bool) (scope : Nat) (s : State) :
    (gldAsked p va size d e acq bad scope s).cur = s.cur := rfl

/-- The results of the load are beside its requests, its pending destination and the use of its extent. -/
theorem gldIssue_loaded (va : Word) (size : Nat) (d : Reg) (e : Extent) (acq bad : Bool) (scope : Nat) (s : State) (o : OpSem) :
    Alike (loaded (gldIssue s.cur va size d e acq bad scope s) o) (gldIssue s.cur va size d e acq bad scope (loaded s o)) := by
  have h := touchExtent_loaded va (gldAsked s.cur va size d e acq bad scope s) o
  rw [gldAsked_cur] at h
  unfold gldIssue
  rw [gldAsked_loaded]
  exact h

theorem gldAsked_quiet (p : Nat) (va : Word) (size : Nat) (d : Reg) (e : Extent) (acq bad : Bool) (scope : Nat) (s : State) :
    Quiet s (gldAsked p va size d e acq bad scope s) := ⟨rfl, rfl⟩

section
variable {s : State} {g : BitVec 3} {r : BitVec 4} {f : BitVec 3} {a m : BitVec 4} {sc : BitVec 3} {o z : BitVec 2} {e : Extent}
  (found : translate s s.cur (gmAddr (me s) a (gmSize z)) .read = .ok e)
include found

theorem semGld_effect : (semGld g r f a m sc o z s.cur s).effect = gldIssue s.cur (gmAddr (me s) a (gmSize z)) (gmSize z)
    (physReg (me s) (fileOfCode f.toNat) r.toNat) e (o == 1) (anyBad (me s) (memReads a.toNat m.toNat)) sc.toNat := by
  unfold semGld
  dsimp only
  rw [show getCtx s s.cur = me s from rfl, found]
  rfl

theorem semGld_free (land : isLanding (me s) (physReg (me s) (fileOfCode f.toNat) r.toNat) = false)
    (can : CanIssue s (physReg (me s) (fileOfCode f.toNat) r.toNat :: memReads a.toNat m.toNat)
      (postUpdate (me s) a.toNat m.toNat).length) (acq : acquiring s s.cur = false)
    (side : sideMeets s s.cur (gmAddr (me s) a (gmSize z)) (gmSize z) = false)
    (far : farSpan s s.cur e (gmAddr (me s) a (gmSize z)) (gmSize z) = false) : OpFree s (semGld g r f a m sc o z s.cur s) where
  ports _ h := nomatch h
  fmt h := nomatch h
  scl h := nomatch h
  mx h := nomatch h
  settled _ h := nomatch h
  cause _ := by
    unfold semGld
    dsimp only
    rw [show getCtx s s.cur = me s from rfl, found]
    exact ite_self _
  blocks _ := by
    unfold semGld gmBase
    dsimp only
    rw [show getCtx s s.cur = me s from rfl, found, acq, side]
    exact far
  reads _ x h := can.free x (List.mem_cons_of_mem _ h)
  ilocks _ x h := can.free x (List.mem_singleton.1 h ▸ List.mem_cons_self)
  landing _ x h := by rw [List.mem_singleton.1 h]; exact land
  res _ y h x hd := can.free x (List.mem_cons_of_mem _ (post_dest h hd).2)
  room _ := can.room

end

/-- Settles O19: the load's requests, its pending destination and the use of its extent are beside its post-update. -/
theorem globalLoads : Obligations.GlobalLoads := by
  unfold Obligations.GlobalLoads
  intro s g r f a m sc o z e
  dsimp only
  intro land can on wf found acq side far
  refine completes_alike (.gld g r f a m sc o z) (semGld g r f a m sc o z s.cur s) s
    (gldIssue s.cur (gmAddr (me s) a (gmSize z)) (gmSize z) (physReg (me s) (fileOfCode f.toNat) r.toNat) e (o == 1)
      (anyBad (me s) (memReads a.toNat m.toNat)) sc.toNat s) _ _ _ rfl wf can (semGld_free found land can acq side far) on rfl
    (post_toRegs (me s) a.toNat m.toNat) (touchExtent_cur ..) ?_ (gldIssue_loaded ..) (post_nodup (me s) a.toNat m.toNat)
  rw [semGld_effect found, commitWrites_nil _ ?_]
  · rfl
  · rw [gldIssue, (touchExtent_quiet ..).2, (gldAsked_quiet ..).2, loaded_eq]
    exact can.clean

end Sys2Proof.Machine
end

section
/-! SUPPORT. Writes of the device itself, and the operations that end a context (R31, R249, R285, R341, R394). -/

namespace Sys2Proof.Machine

/-! ### What a device write reaches -/

@[simp] theorem deviceTouch_ctxs (pa n : Nat) (s : State) : (deviceTouch pa n s).ctxs = s.ctxs := rfl
@[simp] theorem deviceTouch_mem (pa n : Nat) (s : State) : (deviceTouch pa n s).mem = s.mem := rfl
@[simp] theorem deviceStore_ctxs (pa : Nat) (bs : List Byte) (s : State) : (deviceStore pa bs s).ctxs = s.ctxs := rfl
@[simp] theorem deviceStore_mem (pa : Nat) (bs : List Byte) (s : State) :
    (deviceStore pa bs s).mem = wrBytes s.mem (memKey 0 pa) bs := rfl

@[simp] theorem askRecall_ctxs (page : Nat) (s : State) : (askRecall page s).ctxs = s.ctxs := by
  unfold askRecall
  split <;> rfl

@[simp] theorem devicePart_ctxs (e : Nat × List Byte) (s : State) : (devicePart s e).ctxs = s.ctxs := by
  unfold devicePart
  split
  · rw [askRecall_ctxs]
  · rw [deviceStore_ctxs]

/-- What no part of a device write changes, the write does not change. -/
theorem deviceWrite_keeps {β : Type} (f : State → β) (pa : Nat) (bs : List Byte) (s : State)
    (h : ∀ e ∈ pageParts pa bs, ∀ t, f (devicePart t e) = f t) : f (deviceWrite pa bs s) = f s := by
  unfold deviceWrite
  generalize pageParts pa bs = l at h
  induction l generalizing s with
  | nil => rfl
  | cons e l ih =>
    rw [List.foldl_cons, ih _ fun x hx => h x (List.mem_cons_of_mem _ hx), h e List.mem_cons_self]

@[simp] theorem deviceWrite_ctxs (pa : Nat) (bs : List Byte) (s : State) : (deviceWrite pa bs s).ctxs = s.ctxs :=
  deviceWrite_keeps State.ctxs pa bs s fun e _ t => devicePart_ctxs e t

/-- A part of a write that has bytes lies in it. -/
theorem pageParts_inside {pa : Nat} {bs : List Byte} {e : Nat × List Byte} (h : e ∈ pageParts pa bs) :
    ∃ off, e.1 = pa + off ∧ (e.2 = [] ∨ off + e.2.length ≤ bs.length) := by
  unfold pageParts at h
  obtain ⟨i, -, rfl⟩ := List.mem_map.1 h
  dsimp only
  generalize hat : (if i = 0 then pa else (pa / 2 ^ 16 + i) * 2 ^ 16) = at_
  have above : pa ≤ at_ := by
    rw [← hat]
    split <;> omega
  refine ⟨at_ - pa, by omega, ?_⟩
  rw [List.length_take, List.length_drop]
  by_cases inside : at_ - pa ≤ bs.length
  · exact .inr (by omega)
  · exact .inl (by rw [List.drop_eq_nil_of_le (by omega), List.take_nil])

/-- A byte that no stretch of a device write covers reads as before. -/
theorem deviceWrite_bytes {pa k : Nat} {bs : List Byte} {s : State}
    (clear : ∀ off n, off + n ≤ bs.length → ¬(memKey 0 (pa + off) ≤ k ∧ k < memKey 0 (pa + off) + n)) :
    rdByte (deviceWrite pa bs s).mem k = rdByte s.mem k := by
  refine deviceWrite_keeps (fun t => rdByte t.mem k) pa bs s fun e he t => ?_
  unfold devicePart
  split
  · rw [(askRecall_quiet ..).1]
  · rw [deviceStore_mem]
    obtain ⟨off, at_, empty | inside⟩ := pageParts_inside he
    · rw [empty]
      rfl
    · rw [at_]
      rcases Nat.lt_or_ge k (memKey 0 (pa + off)) with below | above
      · exact rdByte_wrBytes_below _ _ below
      · exact rdByte_wrBytes_above _ _ (Nat.not_lt.1 fun h => clear off _ inside ⟨above, h⟩)

@[simp] theorem journalPut_ctxs (seq off n v : Nat) (s : State) : (journalPut seq off n v s).ctxs = s.ctxs := by
  unfold journalPut
  split
  · split
    · rw [deviceWrite_ctxs]
    · rfl
  · rfl

/-- A field of a launch's journal entry changes no byte outside the entry. -/
theorem journalPut_bytes {seq off n v k : Nat} {s : State} (inside : off + n ≤ 64) (out : ¬inEntry s seq k) :
    rdByte (journalPut seq off n v s).mem k = rdByte s.mem k := by
  unfold journalPut
  split
  · next r hr =>
    split
    · refine deviceWrite_bytes fun o m hm hit => out ⟨r, off + o, m, hr, ?_, ?_⟩
      · rw [bytesLE_length] at hm
        omega
      · rw [← Nat.add_assoc]
        exact hit
    · rfl
  · rfl

@[simp] theorem faultLaunch_ctxs (seq cause : Nat) (ga : Word) (s : State) : (faultLaunch seq cause ga s).ctxs = s.ctxs := by
  unfold faultLaunch
  cases findLaunch s seq with
  | none => rfl
  | some l =>
    dsimp only
    split
    · rw [journalPut_ctxs, updLaunch_ctxs]
    · rfl

theorem faultLaunch_bytes {seq cause k : Nat} {ga : Word} {s : State} (out : ¬inEntry s seq k) :
    rdByte (faultLaunch seq cause ga s).mem k = rdByte s.mem k := by
  unfold faultLaunch
  cases findLaunch s seq with
  | none => rfl
  | some l =>
    dsimp only
    split
    · exact journalPut_bytes (off := 40) (n := 8) (s := updLaunch seq _ s) (by decide) out
    · rfl

/-! ### A step of an operation with any effect -/

/-- What a change of one context leaves of every context. -/
theorem updCtx_field {β : Type} (f : Ctx → β) (p q : Nat) (g : Ctx → Ctx) (s : State) (h : ∀ c, f (g c) = f c) :
    f (getCtx (updCtx p g s) q) = f (getCtx s q) := by
  by_cases hq : q = p
  · rw [hq, getCtx_updCtx_self, h]
  · rw [getCtx_updCtx_ne _ _ hq]

/-- What the results of an operation leave of every context. -/
theorem loaded_field {β : Type} (f : Ctx → β) (q : Nat) (o : OpSem) (s : State) (h : ∀ c, f (withResults o c) = f c) :
    f (getCtx (loaded s o) q) = f (getCtx s q) := by
  rw [loaded_withResults]
  exact updCtx_field f s.cur q _ s h

section
variable {i : Instr} {o : OpSem} {s w : State} {rs : List Reg} {n : Nat}

/-- An operation that issues by itself makes its effect, and the step ends. -/
theorem exec_effect (ex : exec i s = issueSolo i o s) (wf : i.wf = true) (c : CanIssue s rs n) (f : OpFree s o) (on : o.on = true)
    (eff : commitWrites (o.effect (loaded s o)) = w) (st : (getCtx w s.cur).st ≠ .free) :
    exec i s = .next (finishGroup s.cur (soloGrp (me s) i o.slot) [o] w) := by
  have run : runOps s.cur [o] (readied s) = o.effect (loaded s o) := by simp [runOps, on, loaded]
  rw [ex, issueSolo_ready i o s wf c.turn c.bar c.steady (Nat.le_trans (Nat.le_add_right ..) c.room) f, run, eff, endGroup,
    beq_false_of_ne st]
  rfl

theorem plain_st : Plain Ctx.st :=
  ⟨fun c d h => by have k := congrArg Ctx.st h; exact k, fun _ _ => rfl, fun _ _ => rfl, fun _ => rfl⟩

theorem noTrap_of_seq (h : ∀ code num, o.seq ≠ .trap code num) : noTrap o := by
  intro code num
  unfold seqOf
  simp only [List.find?_cons, List.find?_nil]
  cases o.on && o.seq != .flow
  · exact SeqAct.noConfusion
  · exact h code num

/-- The end of the step leaves its context in the state that the operation's effect puts it in. -/
theorem finishGroup_st (p : Nat) (g : Grp) (o : OpSem) (w : State) (nt : noTrap o) (hg : g.idle = 0) (ho : g.op = none) :
    (getCtx (finishGroup p g [o] w) p).st = (getCtx w p).st :=
  finishGroup_keeps p g o w nt hg ho Ctx.st plain_st fun e _ _ t => by
    have h := congrArg Ctx.st (landOne_ctx p e t)
    exact h

/-- Where the effect leaves the registers and the landing buffer, the step leaves the registers but for earlier results. -/
theorem finishGroup_regs (g : Grp) (nt : noTrap o) (hg : g.idle = 0) (ho : g.op = none)
    (files : (getCtx w s.cur).files = (me s).files) (landing : (getCtx w s.cur).landing = (me s).landing) :
    SameRegs s (finishGroup s.cur g [o] w) [] := by
  intro r _ due
  rw [finishGroup_keeps s.cur g o w nt hg ho (fun c => regGet c r) (plain_regGet r) fun e he h1 t =>
    landOne_regGet_ne s.cur e t r fun h2 => due ⟨e, landing ▸ he, h1, h2⟩]
  unfold regGet
  rw [files]

end

/-! ### `done` and `tret` -/

/-- A trapped context that its handler's `done` ends. -/
def drainedCtx (c : Ctx) : Ctx := { c with
  st := .draining
  after := []
  hold := none
  walks := []
  needHandler := false
  xfers := c.xfers.map (fun x => if x.held.isSome then { x with dropped := true } else x) }

theorem getCtx_drainTrapped (q r : Nat) (s : State) :
    getCtx (drainTrapped q s) r = if r = q then drainedCtx (getCtx s q) else getCtx s r := by
  have same : (drainTrapped q s).ctxs = (updCtx q drainedCtx s).ctxs := by
    unfold drainTrapped
    dsimp only
    rw [faultLaunch_ctxs]
    rfl
  unfold getCtx
  rw [same]
  by_cases h : r = q
  · rw [h, if_pos rfl]
    exact getCtx_updCtx_self s q drainedCtx
  · rw [if_neg h]
    exact getCtx_updCtx_ne s drainedCtx h

theorem drainTrapped_bytes {q k : Nat} {s : State} (out : ¬inEntry s (getCtx s q).lseq k) :
    rdByte (drainTrapped q s).mem k = rdByte s.mem k := by
  unfold drainTrapped
  dsimp only
  exact faultLaunch_bytes (s := updCore _ _ (dissolveAll q (updCtx q _ s))) out

/-- A trapped context that its handler's `tret` lets go on. -/
def returnedCtx (c : Ctx) : Ctx := { c with
  st := .ready
  pc := c.resumeAt.getD c.pc
  resumeAt := none
  hold := none
  needHandler := false
  mops := c.mops.map (freeDrain c)
  xfers := c.xfers.map (freeXfer c)
  walks := c.walks.map (fun w => { w with held := heldOn c w.gaddr w.held }) }

theorem getCtx_trapReturn (q r : Nat) (s : State) :
    getCtx (trapReturn q s) r = if r = q then returnedCtx (getCtx s q) else getCtx s r := by
  have same : (trapReturn q s).ctxs = (updCtx q returnedCtx s).ctxs := by
    have clear : ∀ t, (clearReplay q t).ctxs = t.ctxs := by
      intro t
      unfold clearReplay
      split <;> rfl
    unfold trapReturn
    rw [clear]
    unfold updCtx setCtx returnedCtx
    dsimp only
    cases (getCtx s q).resumeAt <;> rfl
  unfold getCtx
  rw [same]
  by_cases h : r = q
  · rw [h, if_pos rfl]
    exact getCtx_updCtx_self s q returnedCtx
  · rw [if_neg h]
    exact getCtx_updCtx_ne s returnedCtx h

theorem loaded_endw (s : State) (o : OpSem) : (loaded s o).endw = s.endw := rfl

/-- The context as its own end leaves it, whatever other context ends with it. -/
theorem loaded_landing (s : State) (o : OpSem) (h : o.res = []) : (getCtx (loaded s o) s.cur).landing = (me s).landing := by
  rw [getCtx_loaded, h]
  exact List.append_nil _

section
variable {s : State} {g : BitVec 3}

theorem semDone_free (ops : (me s).mops = []) (xfers : (me s).xfers = []) (side : sideOf s s.cur = [])
    (can : CanIssue s [] 0) : OpFree s (semDone g s.cur s) where
  ports _ h := nomatch h
  fmt h := nomatch h
  scl h := nomatch h
  mx h := nomatch h
  settled _ h := nomatch h
  cause _ := rfl
  blocks _ := by
    unfold semDone
    dsimp only
    rw [show getCtx s s.cur = me s from rfl, ops, xfers, side]
    rfl
  reads _ _ h := nomatch h
  ilocks _ _ h := nomatch h
  landing _ _ h := nomatch h
  res _ _ h := nomatch h
  room _ := can.room

theorem semTret_free (sup : (me s).sup = true) (side : sideOf s s.cur = []) (out : (me s).xinvOut = [])
    (loads : openLoads (me s) = []) (pf : ∀ r ∈ (me s).reqs, r.kind = .pf) (can : CanIssue s [] 0) :
    OpFree s (semTret g s.cur s) where
  ports _ h := nomatch h
  fmt h := nomatch h
  scl h := nomatch h
  mx h := nomatch h
  settled _ h := nomatch h
  cause _ := if_pos sup
  blocks _ := by
    have none : (me s).reqs.any (fun r => r.kind != .pf) = false := by
      simp only [List.any_eq_false, bne_iff_ne, ne_eq, not_not]
      exact pf
    unfold semTret fenceWaits releasing
    dsimp only
    rw [show getCtx s s.cur = me s from rfl, out, loads, side, none]
    rfl
  reads _ _ h := nomatch h
  ilocks _ _ h := nomatch h
  landing _ _ h := nomatch h
  res _ _ h := nomatch h
  room _ := can.room

/-- The context at the issuing position drains. -/
def drain (s : State) : State := updCtx s.cur (fun z => { z with st := .draining }) s

/-- `done` drains its context, and the one that it serves with it. -/
def doneEffect (s : State) : State :=
  let t := drain (dissolveAll s.cur s)
  match (getCtx s s.cur).serves with
  | some q => drainTrapped q t
  | none => t

theorem semDone_effect (o : OpSem) : (semDone g s.cur s).effect (loaded s o) = doneEffect (loaded s o) := rfl

theorem doneEffect_serves {t : State} {q : Nat} (serves : (me t).serves = some q) :
    doneEffect t = drainTrapped q (drain (dissolveAll t.cur t)) := by
  unfold doneEffect
  dsimp only
  rw [show getCtx t t.cur = me t from rfl, serves]

theorem doneEffect_form (t : State) : KeepsForm t (doneEffect t) := by
  have quiet : Quiet t (drain (dissolveAll t.cur t)) := ⟨rfl, rfl⟩
  unfold doneEffect
  dsimp only
  split
  · exact quiet.form.trans (drainTrapped_form ..)
  · exact quiet.form

theorem doneEffect_bytes {t : State} {k : Nat} (out : ¬∃ q, (me t).serves = some q ∧ inEntry t (getCtx t q).lseq k) :
    rdByte (doneEffect t).mem k = rdByte t.mem k := by
  have lseq : ∀ q, (getCtx (drain (dissolveAll t.cur t)) q).lseq = (getCtx t q).lseq := by
    exact fun q => updCtx_field Ctx.lseq t.cur q _ (dissolveAll t.cur t) fun _ => rfl
  cases hs : (me t).serves with
  | none =>
    unfold doneEffect
    dsimp only
    rw [show getCtx t t.cur = me t from rfl, hs]
    rfl
  | some q =>
    rw [doneEffect_serves hs]
    refine (drainTrapped_bytes fun h => out ⟨q, hs, ?_⟩).trans rfl
    rw [lseq] at h
    exact h

theorem doneEffect_me (t : State) : (getCtx (doneEffect t) t.cur).st = .draining ∧
    (getCtx (doneEffect t) t.cur).files = (me t).files ∧ (getCtx (doneEffect t) t.cur).landing = (me t).landing := by
  have own : getCtx (drain (dissolveAll t.cur t)) t.cur = { me t with st := .draining } := getCtx_updCtx_self ..
  unfold doneEffect
  dsimp only
  split
  · rw [getCtx_drainTrapped]
    split
    · next h => rw [← h, own]; exact ⟨rfl, rfl, rfl⟩
    · rw [own]; exact ⟨rfl, rfl, rfl⟩
  · rw [own]; exact ⟨rfl, rfl, rfl⟩

end

section
variable {s : State} {g : BitVec 3} {q : Nat}

/-- `tret` drains its context, and lets the one that it serves go on. -/
def tretEffect (s : State) : State :=
  match (getCtx s s.cur).serves with
  | some q => trapReturn q (drain s)
  | none => drain s

theorem semTret_effect (o : OpSem) : (semTret g s.cur s).effect (loaded s o) = tretEffect (loaded s o) := rfl

theorem tretEffect_serves (o : OpSem) (serves : (me s).serves = some q) :
    tretEffect (loaded s o) = trapReturn q (drain (loaded s o)) := by
  unfold tretEffect
  have hs : (getCtx (loaded s o) (loaded s o).cur).serves = some q := (loaded_field Ctx.serves s.cur o s fun _ => rfl).trans serves
  rw [hs]

theorem tretEffect_quiet (o : OpSem) (serves : (me s).serves = some q) : Quiet s (tretEffect (loaded s o)) := by
  rw [tretEffect_serves o serves]
  exact ⟨(trapReturn_quiet q _).1, (trapReturn_quiet q _).2⟩

theorem tretEffect_me (o : OpSem) (serves : (me s).serves = some q) (hq : q ≠ s.cur) :
    getCtx (tretEffect (loaded s o)) s.cur = { getCtx (loaded s o) s.cur with st := .draining } := by
  rw [tretEffect_serves o serves, getCtx_trapReturn, if_neg (Ne.symm hq)]
  exact getCtx_updCtx_self ..

theorem tretEffect_served (o : OpSem) (serves : (me s).serves = some q) (hq : q ≠ s.cur) :
    getCtx (tretEffect (loaded s o)) q = returnedCtx (getCtx s q) := by
  rw [tretEffect_serves o serves, getCtx_trapReturn, if_pos rfl]
  exact congrArg returnedCtx ((getCtx_updCtx_ne _ _ hq).trans ((loaded_atPos s _).ctxs q hq))

theorem doneEffect_served (o : OpSem) (serves : (me s).serves = some q) (hq : q ≠ s.cur) :
    getCtx (doneEffect (loaded s o)) q = drainedCtx (getCtx s q) := by
  rw [doneEffect_serves ((loaded_field Ctx.serves s.cur o s fun _ => rfl).trans serves), getCtx_drainTrapped, if_pos rfl]
  exact congrArg drainedCtx ((getCtx_updCtx_ne (dissolveAll _ _) _ hq).trans ((loaded_atPos s _).ctxs q hq))

theorem semDone_noTrap (s : State) (g : BitVec 3) : noTrap (semDone g s.cur s) := noTrap_of_seq fun _ _ => SeqAct.noConfusion

theorem semTret_noTrap (s : State) (g : BitVec 3) : noTrap (semTret g s.cur s) := noTrap_of_seq fun _ _ => SeqAct.noConfusion

theorem exec_done (can : CanIssue s [] 0) (on : guardOn (me s) g = true) (ops : (me s).mops = []) (xfers : (me s).xfers = [])
    (side : sideOf s s.cur = []) : exec (.done g) s = .next (finishGroup s.cur (soloGrp (me s) (.done g) 15) [semDone g s.cur s]
      (doneEffect (loaded s (semDone g s.cur s)))) := by
  refine exec_effect (i := .done g) rfl rfl can (semDone_free ops xfers side can) on (commitWrites_nil _ ?_) ?_
  · exact ((doneEffect_form _).1.trans (loaded_endw s _)).trans can.clean
  · exact fun h => PosState.noConfusion ((doneEffect_me (loaded s (semDone g s.cur s))).1.symm.trans h)

theorem exec_tret (can : CanIssue s [] 0) (on : guardOn (me s) g = true) (serves : (me s).serves = some q) (hq : q ≠ s.cur)
    (free : OpFree s (semTret g s.cur s)) : exec (.tret g) s = .next (finishGroup s.cur (soloGrp (me s) (.tret g) 15)
      [semTret g s.cur s] (tretEffect (loaded s (semTret g s.cur s)))) := by
  refine exec_effect (i := .tret g) rfl rfl can free on (commitWrites_nil _ ?_) ?_
  · exact (tretEffect_quiet _ serves).2.trans can.clean
  · rw [tretEffect_me _ serves hq]
    exact PosState.noConfusion

end

/-- Settles O33: what the end of a step leaves of a context, of the one that it serves, and of the memory. -/
theorem ends : Obligations.Ends := by
  unfold Obligations.Ends
  intro s g q
  dsimp only
  intro can on
  refine ⟨fun ops xfers side => ⟨_, exec_done can on ops xfers side, ?_, ?_, fun k out => ?_, fun serves hq => ?_⟩,
    fun sup serves hq side out loads pf =>
      ⟨_, exec_tret can on serves hq (semTret_free sup side out loads pf can), ?_, fun k => ?_, ?_, ?_⟩⟩
  · exact (finishGroup_st _ _ _ _ (semDone_noTrap s g) rfl rfl).trans (doneEffect_me _).1
  · obtain ⟨-, files, landing⟩ := doneEffect_me (loaded s (semDone g s.cur s))
    exact finishGroup_regs _ (semDone_noTrap s g) rfl rfl 
      (files.trans (loaded_field Ctx.files _ _ s fun _ => rfl)) (landing.trans (loaded_landing _ _ rfl))
  · rw [(finishGroup_atPos _ _ _ _ (semDone_noTrap s g) rfl rfl).mem]
    refine (doneEffect_bytes fun ⟨q, hs, h⟩ => out ⟨q, ?_, ?_⟩).trans rfl
    · exact (loaded_field Ctx.serves s.cur _ s fun _ => rfl).symm.trans hs
    · rw [loaded_field Ctx.lseq q _ s fun _ => rfl] at h
      exact h
  · rw [(finishGroup_atPos _ _ _ _ (semDone_noTrap s g) rfl rfl).ctxs q hq, doneEffect_served _ serves hq]
    exact ⟨rfl, rfl, rfl⟩
  · rw [finishGroup_st _ _ _ _ (semTret_noTrap s g) rfl rfl, tretEffect_me _ serves hq]
  · rw [(finishGroup_atPos _ _ _ _ (semTret_noTrap s g) rfl rfl).mem, (tretEffect_quiet _ serves).1]
  · refine finishGroup_regs _ (semTret_noTrap s g) rfl rfl ?_ ?_
    · rw [tretEffect_me _ serves hq, getCtx_loaded]
    · rw [tretEffect_me _ serves hq]
      exact loaded_landing s _ rfl
  · rw [(finishGroup_atPos _ _ _ _ (semTret_noTrap s g) rfl rfl).ctxs q hq, tretEffect_served _ serves hq]
    exact ⟨rfl, rfl, rfl, rfl, rfl, fun _ => rfl⟩

end Sys2Proof.Machine
end

section
/-! SUPPORT. One issue cycle of a core: its parts where nothing stands before a position's group, and what it comes to where only one
position has its turn (R27, R37, R308). -/

namespace Sys2Proof.Machine

/-! ### Before the cycle -/

@[simp] theorem installFills_ctxs (core : Nat) (s : State) : (installFills core s).ctxs = s.ctxs := by
  have each : ∀ (l : List Fill) (t : State), (l.foldl (fun t f => lcSet core f.line f.copy t) t).ctxs = t.ctxs := by
    intro l
    induction l with
    | nil => exact fun _ => rfl
    | cons f l ih => exact fun t => (ih _).trans rfl
  exact each ..

theorem installFills_core {β : Type} (f : Core → β) (core j : Nat) (s : State)
    (fills : ∀ k l, f { k with fills := l } = f k) (lines : ∀ k l, f { k with lcache := l } = f k) :
    f (getCore (installFills core s) j) = f (getCore s j) := by
  have one : ∀ (g : Core → Core) (t : State), (∀ k, f (g k) = f k) → f (getCore (updCore core g t) j) = f (getCore t j) := by
    intro g t hg
    by_cases h : j = core
    · rw [h, getCore_updCore_self, hg]
    · rw [getCore_updCore_ne _ _ h]
  have each : ∀ (l : List Fill) (t : State), f (getCore (l.foldl (fun t f => lcSet core f.line f.copy t) t) j) = f (getCore t j) := by
    intro l
    induction l with
    | nil => exact fun _ => rfl
    | cons x l ih => exact fun t => (ih _).trans (one _ t fun k => lines k _)
  exact (each _ _).trans (one _ s fun k => fills k _)

/-- What the use of extents does not enter is as it was. -/
theorem touchExtent_field {β : Type} (f : Ctx → β) (hf : ∀ c es, f { c with extents := es } = f c) (p q : Nat) (va : Word) (s : State) :
    f (getCtx (touchExtent p va s) q) = f (getCtx s q) := by
  rw [getCtx_touchExtent]
  split
  · unfold touched
    split
    · exact hf _ _
    · rfl
  · rfl

theorem touchExtent_cores (p : Nat) (va : Word) (s : State) : (touchExtent p va s).cores = s.cores := by
  unfold touchExtent
  dsimp only
  split <;> rfl

theorem fillCode_field {β : Type} (f : Ctx → β) (hf : ∀ c es, f { c with extents := es } = f c) (p q : Nat)
    (ls : List (Word × Nat × BitVec 512)) (s : State) : f (getCtx (fillCode p ls s) q) = f (getCtx s q) := by
  unfold fillCode
  induction ls generalizing s with
  | nil => rfl
  | cons e ls ih =>
    rw [List.foldl_cons, ih]
    exact touchExtent_field f hf ..

theorem fillCode_core {β : Type} (f : Core → β) (hf : ∀ k l, f { k with icache := l } = f k) (p j : Nat)
    (ls : List (Word × Nat × BitVec 512)) (s : State) : f (getCore (fillCode p ls s) j) = f (getCore s j) := by
  unfold fillCode
  induction ls generalizing s with
  | nil => rfl
  | cons e ls ih =>
    rw [List.foldl_cons, ih]
    refine (congrArg (fun m => f (smGet {} m j)) (touchExtent_cores p e.1 _)).trans ?_
    by_cases h : j = coreOf p
    · subst h
      exact (congrArg f (getCore_updCore_self ..)).trans (hf _ _)
    · exact congrArg f (getCore_updCore_ne _ _ h)

theorem fillCode_cur (p : Nat) (ls : List (Word × Nat × BitVec 512)) (s : State) : (fillCode p ls s).cur = s.cur := by
  unfold fillCode
  induction ls generalizing s with
  | nil => rfl
  | cons e ls ih =>
    rw [List.foldl_cons, ih]
    exact touchExtent_cur ..

/-! ### Nothing stands before the group -/

/-- The position's fetch stands at its pc: no body is being walked or left, and idle steps are under way or no line-end mark is
passed over. -/
structure AtStart (s : State) (p : Nat) : Prop where
  walk : (getCtx s p).bodyWalk = none
  exiting : (getCtx s p).exiting = false
  here : midGroup (getCtx s p) = true ∨ reached s p (getCtx s p).pc = (getCtx s p).pc

section
variable {s : State} {p : Nat}

theorem walkOn_stays (walk : (getCtx s p).bodyWalk = none) (exiting : (getCtx s p).exiting = false) : walkOn p s = s := by
  unfold walkOn
  dsimp only
  rw [exiting, walk]
  rfl

theorem toGroup_stays (h : AtStart s p) : toGroup p s = s := by
  have stay : ((getCtx s p).exiting || (getCtx s p).bodyWalk.isSome || midGroup (getCtx s p) ||
      reached s p (getCtx s p).pc == (getCtx s p).pc) = true := by
    rcases h.here with mid | here
    · simp [mid]
    · simp [here]
  unfold toGroup
  rw [walkOn_stays h.walk h.exiting]
  dsimp only
  rw [stay]
  exact ite_self _

theorem toGroup_absent (h : competes (getCtx s p) = false) : toGroup p s = s := by
  unfold toGroup
  rw [h]
  rfl

theorem fetchFor_absent (h : competes (getCtx s p) = false) : fetchFor s p = .no := by
  unfold fetchFor
  dsimp only
  rw [h]
  rfl

theorem fetchFor_idle (turn : competes (getCtx s p) = true) (gate : gateShut s p = false) (h : AtStart s p)
    (mid : midGroup (getCtx s p) = true) : fetchFor s p = .idle := by
  unfold fetchFor
  dsimp only
  rw [turn, gate, h.exiting, h.walk, mid]
  rfl

theorem fetchFor_got {f : Fetched} (turn : competes (getCtx s p) = true) (gate : gateShut s p = false) (h : AtStart s p)
    (mid : midGroup (getCtx s p) = false) (got : fetchGroup s p (getCtx s p).pc = .ok f) : fetchFor s p = .got f := by
  unfold fetchFor
  dsimp only
  rw [turn, gate, h.exiting, h.walk, mid, got]
  rfl

end

/-! ### No yield begins with a cause -/

/-- Where no context of `s` yields, none of `t` does. -/
structure Calm (s t : State) : Prop where
  keeps : ∀ r, (getCtx s r).yield = 0 → (getCtx t r).yield = 0

section
variable {s t u : State}

theorem Calm.refl (s : State) : Calm s s := ⟨fun _ h => h⟩

theorem Calm.trans (h : Calm s t) (k : Calm t u) : Calm s u := ⟨fun r y => k.keeps r (h.keeps r y)⟩

theorem Calm.of_ctxs (h : t.ctxs = s.ctxs) : Calm s t := by
  constructor
  intro r y
  unfold getCtx at y ⊢
  rw [h]
  exact y

theorem Calm.setCtx {p : Nat} {c : Ctx} (h : (getCtx s p).yield = 0 → c.yield = 0) : Calm s (setCtx p c s) := by
  constructor
  intro r y
  by_cases e : r = p
  · rw [e, getCtx_setCtx_self]
    exact h (e ▸ y)
  · rw [getCtx_setCtx_ne _ _ e]
    exact y

theorem Calm.foldl {α : Type} {f : State → α → State} (h : ∀ t x, Calm t (f t x)) (l : List α) (s : State) : Calm s (l.foldl f s) := by
  induction l generalizing s with
  | nil => exact Calm.refl s
  | cons x l ih => exact (h s x).trans (ih _)

theorem repoint_ctxs (side core : Nat) (s : State) : (repoint side core s).ctxs = s.ctxs := by
  unfold repoint
  dsimp only
  split <;> rfl

theorem afterFree_ctxs (p : Nat) (s : State) : (afterFree p s).ctxs = s.ctxs := by
  unfold afterFree
  dsimp only
  rw [repoint_ctxs, apply_ite State.ctxs]
  exact ite_self _

theorem finishStarted_ctxs (p : Nat) (s : State) : (finishStarted p s).ctxs = s.ctxs := by
  unfold finishStarted
  generalize (getCtx s p).mops = l
  induction l generalizing s with
  | nil => rfl
  | cons m l ih =>
    rw [List.foldl_cons, ih]
    split <;> rfl

theorem afterFree_calm (p : Nat) (s : State) : Calm s (afterFree p s) := .of_ctxs (afterFree_ctxs ..)

theorem freeBanks_calm (p : Nat) (s : State) : Calm s (freeBanks p s) := .of_ctxs rfl

theorem freeHeld_calm (key : Nat) (s : State) : Calm s (freeHeld key s) := .of_ctxs rfl

theorem updCore_calm (core : Nat) (f : Core → Core) (s : State) : Calm s (updCore core f s) := .of_ctxs rfl

theorem dissolve_calm (p : Nat) (s : State) : Calm s (dissolve p s) := .of_ctxs rfl

theorem dissolveAll_calm (p : Nat) (s : State) : Calm s (dissolveAll p s) := .of_ctxs rfl

theorem cleared_calm (p : Nat) (s : State) : Calm s (setCtx p {} s) := .setCtx fun _ => rfl

theorem leftWork_calm (p : Nat) (c : Ctx) (s : State) : Calm s (setCtx p (leftWork c) s) := .setCtx fun _ => rfl

theorem vacate_calm (p : Nat) (s : State) : Calm s (vacate p s) := by
  have kept : Calm s (if noLeft (leftWork (getCtx s p)) then dissolveAll p s
      else setCtx (freeKey (dissolveAll p s) p) (leftWork (getCtx s p)) (dissolveAll p s)) := by
    split
    · exact dissolveAll_calm p s
    · exact (dissolveAll_calm p s).trans (leftWork_calm _ _ _)
  exact kept.trans ((updCore_calm _ _ _).trans ((cleared_calm p _).trans ((freeBanks_calm p _).trans (afterFree_calm p _))))

theorem kill_calm (p : Nat) (s : State) : Calm s (kill p s) := by
  unfold kill
  split
  · exact (Calm.of_ctxs (finishStarted_ctxs p s)).trans (vacate_calm _ _)
  · dsimp only
    have left : Calm s (setCtx p (if noLeft (leftWork (getCtx s p)) then {} else leftWork (getCtx s p))
        { s with saved := s.saved.filter (fun v => v.key != p) }) := by
      have dropped : Calm s { s with saved := s.saved.filter (fun v => v.key != p) } := .of_ctxs rfl
      split
      · exact dropped.trans (cleared_calm _ _)
      · exact dropped.trans (leftWork_calm _ _ _)
    exact left.trans ((updCore_calm _ _ _).trans ((freeHeld_calm p _).trans (afterFree_calm p _)))

theorem endLaunch_calm (seq cause : Nat) (ga : Word) (s : State) : Calm s (endLaunch seq cause ga s) :=
  (Calm.foldl (fun t p => kill_calm p t) _ s).trans (Calm.of_ctxs (faultLaunch_ctxs ..))

theorem drainTrapped_calm (q : Nat) (s : State) : Calm s (drainTrapped q s) := by
  constructor
  intro r y
  rw [getCtx_drainTrapped]
  split
  · next h => exact h ▸ y
  · exact y

theorem handlerless_calm (p : Nat) (s : State) : Calm s (handlerless p s) := by
  unfold handlerless
  dsimp only
  split
  · split
    · exact drainTrapped_calm ..
    · exact Calm.refl s
  · exact Calm.refl s

theorem writeRecord_ctxs (area : Option Nat) (ws : List Word) (s : State) : (writeRecord area ws s).ctxs = s.ctxs := by
  unfold writeRecord
  split
  · exact deviceWrite_ctxs ..
  · rfl

theorem trapWith_calm (p : Nat) (e : Cause) (ga info : Word) (resume : Option Word) (s : State) :
    Calm s (trapWith p e ga info resume s) := by
  unfold trapWith
  dsimp only
  generalize hu : setCtx p _ s = u
  have trapped : Calm s u := hu ▸ Calm.setCtx fun h => h
  exact trapped.trans ((dissolve_calm p u).trans ((Calm.of_ctxs (writeRecord_ctxs _ _ _)).trans (handlerless_calm _ _)))

theorem trapEntry_calm (p : Nat) (e : Cause) (ga info : Word) (resume : Option Word) (s : State) :
    Calm s (trapEntry p e ga info resume s) := by
  unfold trapEntry
  dsimp only
  split
  · exact trapWith_calm ..
  · split
    · exact Calm.setCtx fun h => h
    · exact ((kill_calm p s).trans (kill_calm _ _)).trans (endLaunch_calm ..)

theorem askRecalls_ctxs (ks : List Nat) (s : State) : (ks.foldl (fun t k => askRecall k t) s).ctxs = s.ctxs := by
  induction ks generalizing s with
  | nil => rfl
  | cons k ks ih => rw [List.foldl_cons, ih, askRecall_ctxs]

theorem settleAttempt_calm (p : Nat) (a : Attempt) (s : State) : Calm s (settleAttempt p a s) := by
  unfold settleAttempt
  split
  · exact Calm.refl s
  · exact trapEntry_calm ..
  · next ks h =>
    have blocked : Calm s (updCtx p (fun c => { c with st := .blocked, stalled := h }) s) := Calm.setCtx fun h => h
    exact blocked.trans (Calm.of_ctxs (askRecalls_ctxs _ _))
  · exact Calm.setCtx fun h => h
  · exact Calm.setCtx fun h => h

end

/-! ### The cycle of one position -/

/-- The operations stand in slot order. -/
def InOrder (l : List OpSem) : Prop := (List.range 16).flatMap (fun k => l.filter (fun o => o.slot == k)) = l

theorem flatMap_slots (n a : Nat) (l : List OpSem) (sorted : l.Pairwise (fun x y => x.slot < y.slot))
    (bounds : ∀ o ∈ l, a ≤ o.slot ∧ o.slot < a + n) : (List.range' a n).flatMap (fun k => l.filter (fun o => o.slot == k)) = l := by
  induction n generalizing a l with
  | zero =>
    cases l with
    | nil => rfl
    | cons o l => have := bounds o List.mem_cons_self; omega
  | succ n ih =>
    rw [List.range'_succ, List.flatMap_cons]
    by_cases first : ∃ o ∈ l, o.slot = a
    · obtain ⟨o, ho, ha⟩ := first
      cases l with
      | nil => cases ho
      | cons x l =>
        obtain ⟨below, sorted'⟩ := List.pairwise_cons.1 sorted
        have hx : x.slot = a := by
          rcases List.mem_cons.1 ho with rfl | ho
          · exact ha
          · have := below o ho; have := (bounds x List.mem_cons_self).1; omega
        have none : l.filter (fun o => o.slot == a) = [] := by
          rw [List.filter_eq_nil_iff]
          intro y hy
          have := below y hy
          simp only [beq_iff_eq]
          omega
        have rest : ∀ k ∈ List.range' (a + 1) n, (x :: l).filter (fun o => o.slot == k) = l.filter (fun o => o.slot == k) := by
          intro k hk
          have := (List.mem_range'_1.1 hk).1
          rw [List.filter_cons_of_neg]
          simp only [beq_iff_eq]
          omega
        rw [List.filter_cons_of_pos (by simp [hx]), none, List.flatMap_congr rest, ih (a + 1) l sorted' fun o ho => ?_]
        · rfl
        · have := below o ho; have := (bounds o (List.mem_cons_of_mem _ ho)).2; omega
    · have none : l.filter (fun o => o.slot == a) = [] := by
        rw [List.filter_eq_nil_iff]
        intro y hy
        simpa using fun h => first ⟨y, hy, h⟩
      rw [none, ih (a + 1) l sorted fun o ho => ?_]
      · rfl
      · have := bounds o ho
        have : o.slot ≠ a := fun h => first ⟨o, ho, h⟩
        omega

theorem inOrder_of_pairwise {l : List OpSem} (sorted : l.Pairwise (fun x y => x.slot < y.slot)) (bound : ∀ o ∈ l, o.slot < 16) :
    InOrder l := by
  unfold InOrder
  rw [List.range_eq_range']
  exact flatMap_slots 16 0 l sorted fun o ho => ⟨Nat.zero_le _, by have := bound o ho; omega⟩

theorem inOrder_nil : InOrder [] := inOrder_of_pairwise .nil fun _ h => nomatch h

theorem runMerged_map (p : Nat) (l : List OpSem) (s : State) : runMerged (l.map (fun o => (p, o))) s = runOps p l s := by
  unfold runMerged runOps
  rw [List.foldl_map]

theorem flatMap_filter_map {l : List OpSem} (p : Nat) (h : InOrder l) :
    (List.range 16).flatMap (fun k => (l.map (fun o => (p, o))).filter (fun x => x.2.slot == k)) = l.map (fun o => (p, o)) := by
  have each : ∀ k, (l.map (fun o => (p, o))).filter (fun x => x.2.slot == k) = (l.filter (fun o => o.slot == k)).map (fun o => (p, o)) := by
    intro k
    rw [List.filter_map]
    rfl
  simp only [each]
  rw [← List.map_flatMap, h]

theorem mergedOps_first {l : List OpSem} (p : Nat) (h : InOrder l) : mergedOps p l [] = l.map (fun o => (p, o)) := by
  unfold mergedOps
  dsimp only
  rw [List.map_nil, List.append_nil]
  exact flatMap_filter_map p h

theorem mergedOps_second {l : List OpSem} (p : Nat) (h : InOrder l) : mergedOps p [] l = l.map (fun o => (p + 1, o)) := by
  unfold mergedOps
  dsimp only
  rw [List.map_nil, List.nil_append]
  exact flatMap_filter_map (p + 1) h

/-- What is left of a cycle in which one attempt alone may issue. -/
def cycleEnd (core p : Nat) (a : Attempt) (s : State) : State :=
  tick core (subSteps (getCore s core).split ((opsOf a).map (·.slot)))
    (finishOne p a (commitWrites (runOps p (opsOf a) (passes p a s))))

theorem cycleEnd_still {a : Attempt} (core p : Nat) (s : State) (h : hasIssue a = false) :
    cycleEnd core p a s = cycleEnd core p .idleOut s := by
  cases a with
  | ready g ops => cases h
  | step => cases h
  | idleOut => rfl
  | trap e ga => rfl
  | block ks b => rfl

theorem cycleEnd_issued (core p : Nat) (a : Attempt) (s : State) : cycleEnd core p (issued (hasIssue a) a) s = cycleEnd core p a s := by
  cases h : hasIssue a
  · exact (cycleEnd_still core p s h).symm
  · rfl

theorem settleTurn_still {p : Nat} {ready took other : Bool} {s : State} (h : took = true ∨ ready = false ∧ (getCtx s p).yield = 0) :
    settleTurn p ready took other s = s := by
  unfold settleTurn
  dsimp only
  rcases h with rfl | ⟨rfl, h⟩
  · rfl
  · rw [h]
    cases took <;> rfl

theorem opsOf_issued {a : Attempt} (h : InOrder (opsOf a)) : InOrder (opsOf (issued (hasIssue a) a)) := by
  cases hi : hasIssue a
  · rfl
  · exact h

section
variable {core : Nat} {a : Attempt} {s : State}

theorem issueCycle_first (mine : hasIssue a = true ∨ (getCtx s (2 * core)).yield = 0) (other : (getCtx s (2 * core + 1)).yield = 0)
    (order : InOrder (opsOf a)) : issueCycle core a .idleOut s = cycleEnd core (2 * core) a s := by
  have choice : choose s (2 * core) a .idleOut = (hasIssue a, false) := by
    unfold choose
    simp [hasIssue]
  have turn : settleTurn (2 * core) (hasIssue a) (hasIssue a) false s = s := by
    refine settleTurn_still ?_
    cases h : hasIssue a
    · exact .inr ⟨rfl, mine.resolve_left (by simp [h])⟩
    · exact .inl rfl
  have next : settleTurn (2 * core + 1) (hasIssue .idleOut) false (hasIssue a) s = s := settleTurn_still (.inr ⟨rfl, other⟩)
  unfold issueCycle
  dsimp only
  rw [choice]
  dsimp only
  rw [turn, next, ← cycleEnd_issued core (2 * core) a s]
  unfold cycleEnd
  rw [show opsOf (issued false .idleOut) = [] from rfl, List.append_nil, mergedOps_first _ (opsOf_issued order), runMerged_map]
  rfl

theorem issueCycle_second (mine : hasIssue a = true ∨ (getCtx s (2 * core + 1)).yield = 0) (other : (getCtx s (2 * core)).yield = 0)
    (order : InOrder (opsOf a)) : issueCycle core .idleOut a s = cycleEnd core (2 * core + 1) a s := by
  have choice : choose s (2 * core) .idleOut a = (false, hasIssue a) := by
    unfold choose
    simp [hasIssue]
  have turn : settleTurn (2 * core) (hasIssue .idleOut) false (hasIssue a) s = s := settleTurn_still (.inr ⟨rfl, other⟩)
  have next : settleTurn (2 * core + 1) (hasIssue a) (hasIssue a) false s = s := by
    refine settleTurn_still ?_
    cases h : hasIssue a
    · exact .inr ⟨rfl, mine.resolve_left (by simp [h])⟩
    · exact .inl rfl
  unfold issueCycle
  dsimp only
  rw [choice]
  dsimp only
  rw [turn, next, ← cycleEnd_issued core (2 * core + 1) a s]
  unfold cycleEnd
  rw [show opsOf (issued false .idleOut) = [] from rfl, List.nil_append, mergedOps_second _ (opsOf_issued order), runMerged_map]
  rfl

end

/-- One position of a core has its turn, the other none, and nothing stands before what its fetch brings. -/
structure OneTurn (s : State) (core q : Nat) (f : Fetching) : Prop where
  side : q ≤ 1
  live : coreLive s core = true
  opened : s.bustat = 5
  clean : s.endw = []
  turn : competes (getCtx s (2 * core + q)) = true
  start : AtStart (installFills core s) (2 * core + q)
  fetch : fetchFor (installFills core s) (2 * core + q) = f
  has : f ≠ .no
  other : competes (getCtx s (2 * core + 1 - q)) = false
  otherYield : (getCtx s (2 * core + 1 - q)).yield = 0

/-- The state in which the one position's attempt is made. -/
def turnState (s : State) (core p : Nat) (f : Fetching) : State := fillFor p f { installFills core s with cur := p }

section
variable {s : State} {core q : Nat} {f : Fetching}

theorem fillFor_field {β : Type} (g : Ctx → β) (hg : ∀ c es, g { c with extents := es } = g c) (p r : Nat) (f : Fetching) (s : State) :
    g (getCtx (fillFor p f s) r) = g (getCtx s r) := by
  unfold fillFor
  split
  · exact fillCode_field g hg ..
  · unfold getCtx
    rw [askRecall_ctxs]
  · rfl

theorem fillFor_cur (p : Nat) (f : Fetching) (s : State) : (fillFor p f s).cur = s.cur := by
  unfold fillFor
  split
  · exact fillCode_cur ..
  · unfold askRecall
    split <;> rfl
  · rfl

theorem turnState_cur (s : State) (core p : Nat) (f : Fetching) : (turnState s core p f).cur = p := fillFor_cur ..

theorem turnState_field {β : Type} (g : Ctx → β) (hg : ∀ c es, g { c with extents := es } = g c) (s : State) (core p r : Nat)
    (f : Fetching) : g (getCtx (turnState s core p f) r) = g (getCtx s r) := by
  unfold turnState
  rw [fillFor_field g hg]
  exact congrArg (fun m => g (smGet {} m r)) (installFills_ctxs core s)

theorem turnState_quiet (s : State) (core p : Nat) (f : Fetching) : Quiet s (turnState s core p f) := by
  have h := installFills_quiet core s
  have k := fillFor_quiet p f { installFills core s with cur := p }
  exact ⟨k.1.trans h.1, k.2.trans h.2⟩

theorem fillFor_no (p : Nat) (s : State) : fillFor p .no s = s := rfl

theorem attempt_no (s : State) (p : Nat) : attempt s p .no = .idleOut := rfl

theorem leader_no (p : Nat) : leader p .no = p + 1 := rfl

theorem stillFor_idleOut (s : State) (p : Nat) : stillFor s p .idleOut = .idleOut := ite_self _

theorem settleAttempt_idleOut (p : Nat) (s : State) : settleAttempt p .idleOut s = s := rfl

/-- A context that issues or blocks has its turn still. -/
theorem stillFor_settled {p : Nat} {a : Attempt} (turn : competes (getCtx s p) = true) :
    stillFor (settleAttempt p a s) p a = a ∨ hasIssue a = false ∧ stillFor (settleAttempt p a s) p a = .idleOut := by
  have after : (getCtx s p).after.isEmpty = true := by
    simp only [competes, Bool.and_eq_true] at turn
    exact turn.2
  unfold stillFor
  cases a with
  | ready g ops =>
    have still : competes (getCtx (settleAttempt p (.ready g ops) s) p) = true := by
      simp [settleAttempt, competes, after]
    exact .inl (if_pos still)
  | step =>
    have still : competes (getCtx (settleAttempt p .step s) p) = true := by
      simp [settleAttempt, competes, after]
    exact .inl (if_pos still)
  | idleOut => exact .inl (ite_self _)
  | trap e ga =>
    split
    · exact .inl rfl
    · exact .inr ⟨rfl, rfl⟩
  | block ks b =>
    split
    · exact .inl rfl
    · exact .inr ⟨rfl, rfl⟩

/-- A cycle in which one position has its turn is that position's attempt, settled and carried out. -/
theorem OneTurn.cycle (h : OneTurn s core q f) (a : Attempt)
    (ha : attempt (turnState s core (2 * core + q) f) (2 * core + q) f = a)
    (issues : hasIssue a = true ∨ (getCtx s (2 * core + q)).yield = 0) (order : InOrder (opsOf a)) :
    doGroupIssue core s =
      cycleEnd core (2 * core + q) a (settleAttempt (2 * core + q) a (turnState s core (2 * core + q) f)) := by
  obtain ⟨side, live, opened, clean, turn, start, fetch, has, other, otherYield⟩ := h
  have ctxs : ∀ r, getCtx (installFills core s) r = getCtx s r := fun r =>
    congrArg (fun m : SMap Ctx => smGet ({} : Ctx) m r) (installFills_ctxs core s)
  have stay : toGroup (2 * core + q) (installFills core s) = installFills core s := toGroup_stays start
  have away : toGroup (2 * core + 1 - q) (installFills core s) = installFills core s := toGroup_absent (by rw [ctxs, other])
  have none : fetchFor (installFills core s) (2 * core + 1 - q) = .no := fetchFor_absent (by rw [ctxs, other])
  have turn' : competes (getCtx (turnState s core (2 * core + q) f) (2 * core + q)) = true :=
    (turnState_field competes (fun _ _ => rfl) ..).trans turn
  have calm := settleAttempt_calm (2 * core + q) a (turnState s core (2 * core + q) f)
  have mine : hasIssue a = true ∨ (getCtx (settleAttempt (2 * core + q) a (turnState s core (2 * core + q) f)) (2 * core + q)).yield = 0 :=
    issues.imp_right fun h => calm.keeps (2 * core + q) ((turnState_field Ctx.yield (fun _ _ => rfl) ..).trans h)
  have his := calm.keeps (2 * core + 1 - q) ((turnState_field Ctx.yield (fun _ _ => rfl) ..).trans otherYield)
  have still := stillFor_settled (a := a) turn'
  have openGate : (!(coreLive s core && s.bustat == 5)) = false := by rw [live, opened]; rfl
  have lead : leader (2 * core + q) f = 2 * core + q := by
    cases f
    case no => exact absurd rfl has
    all_goals rfl
  obtain rfl | rfl : q = 0 ∨ q = 1 := by omega
  · simp only [Nat.add_zero, Nat.sub_zero] at *
    unfold doGroupIssue
    dsimp only
    rw [openGate, stay, away, fetch, none, lead, if_neg (by decide), fillFor_no, attempt_no, ← turnState, ha, stillFor_idleOut,
      settleAttempt_idleOut]
    rcases still with still | ⟨quiet, still⟩
    · rw [still, issueCycle_first mine his order]
    · rw [still, issueCycle_first (a := .idleOut) (.inr (mine.resolve_left (by simp [quiet]))) his inOrder_nil, cycleEnd_still core _ _ quiet]
  · simp only [Nat.add_sub_cancel] at *
    unfold doGroupIssue
    dsimp only
    rw [openGate, away, stay, none, fetch, if_neg (by decide), fillFor_no, attempt_no, leader_no, ← turnState, ha,
      settleAttempt_idleOut, show stillFor (turnState s core (2 * core + 1) f) (2 * core + 1) a = a from if_pos turn',
      stillFor_idleOut, issueCycle_second mine his order]

end

end Sys2Proof.Machine
end

section
/-! SUPPORT. A group of one operation, or of none, at its turn (R37, R157, R308). -/

namespace Sys2Proof.Machine

theorem slot_lt {i : Instr} {k : Nat} (h : i.slot = some k) : k < 16 := by
  have scalar : ∀ sl : SSlot, sl.num < 16 := fun sl => by cases sl <;> decide
  have vector : ∀ sl : VSlot, sl.num < 16 := fun sl => by cases sl <;> decide
  have loads : ∀ sl : LSlot, sl.num < 16 := fun sl => by cases sl <;> decide
  cases i
  all_goals first
    | (cases h; done)
    | (cases Option.some.inj h; exact scalar _)
    | (cases Option.some.inj h; exact vector _)
    | (cases Option.some.inj h; exact loads _)
    | (cases Option.some.inj h; decide)

theorem slotOrder_one {k : Nat} (i : Instr) (h : k < 16) : slotOrder [(k, i)] = [(k, i)] := by
  unfold slotOrder
  interval_cases k <;> rfl

/-- The rows that an operation alone takes are those it counts anyway. -/
theorem popsNeed_own {T : List Nat} {n own : Nat} (nx : Word) (h : T.countP (· == n) ≤ own) :
    popsNeed { next := nx, total := T } n own = popsNeed { next := nx } n own := by
  unfold popsNeed
  simp only [List.countP_nil, Nat.zero_add]
  exact (Nat.max_eq_right h).trans (Nat.max_eq_right (Nat.zero_le _)).symm

/-- An operation alone in its group means what it means by itself. -/
theorem semOf_total {i : Instr} {p : Nat} {nx : Word} {T : List Nat} {s : State} {o : OpSem}
    (h : semOf i p { next := nx } s = some o) (own : T.Sublist o.pops) : semOf i p { next := nx, total := T } s = some o := by
  cases i
  case vpop sl g d q k t =>
    cases h
    have need := popsNeed_own (n := q.toNat) (own := 1) nx ((own.countP_le (p := (· == q.toNat))).trans List.countP_le_length)
    show some (semVpop sl g d q k t p _ s) = some (semVpop sl g d q k t p _ s)
    unfold semVpop
    dsimp only
    rw [need]
  case stq sl g q a m =>
    cases h
    have need := popsNeed_own (n := q.toNat) (own := 1) nx ((own.countP_le (p := (· == q.toNat))).trans List.countP_le_length)
    show some (semStq sl g q a m p _ s) = some (semStq sl g q a m p _ s)
    unfold semStq
    dsimp only
    rw [need]
  case sendQueue g r rp w wp q =>
    cases h
    have short : (semSendQueue g r rp w wp q p { next := nx } s).pops.length ≤
        (regWord (getCtx s p) (commonReg w.toNat)).toNat % 128 := by
      unfold semSendQueue
      dsimp only
      split <;> simp
    have need := popsNeed_own (n := q.toNat) nx
      (((own.countP_le (p := (· == q.toNat))).trans List.countP_le_length).trans short)
    show some (semSendQueue g r rp w wp q p _ s) = some (semSendQueue g r rp w wp q p _ s)
    unfold semSendQueue
    dsimp only
    rw [need]
  all_goals exact h

theorem groupOps_one {i : Instr} {s : State} {p k : Nat} {nx : Word} {o : OpSem} (h : semOf i p { next := nx } s = some o) :
    groupOps s p nx [(k, i)] = [o] := by
  have each : ∀ pre, semOf i p pre s = some o → evalOps s p pre [(k, i)] = [o] := by
    intro pre h
    unfold evalOps
    rw [h]
    rfl
  have own : (([o].filter (·.on)).flatMap (·.pops)).Sublist o.pops := by
    cases on : o.on <;> simp [on]
  unfold groupOps
  dsimp only
  rw [each _ h]
  exact each _ (semOf_total h own)

/-- Of what was fetched an attempt asks its group and its causes. -/
theorem tryGroup_congr {s : State} {p : Nat} {f f' : Fetched} (ops : List OpSem) (grp : f.grp = f'.grp) (errs : f.errs = f'.errs) :
    tryGroup s p f ops = tryGroup s p f' ops := by
  unfold tryGroup groupCauses
  rw [grp, errs]

/-- A group issues with its operations, or none of them does. -/
theorem tryGroup_issues (s : State) (p : Nat) (f : Fetched) (ops : List OpSem) :
    tryGroup s p f ops = .ready f.grp ops ∨ hasIssue (tryGroup s p f ops) = false := by
  unfold tryGroup
  dsimp only
  split
  · exact .inr rfl
  · split
    · exact .inr rfl
    · exact .inl rfl

theorem opsOf_still {a : Attempt} (h : hasIssue a = false) : opsOf a = [] := by
  cases a with
  | ready g ops => cases h
  | _ => rfl

theorem subSteps_nil (level : Nat) : subSteps level [] = 1 := by simp [subSteps]

theorem subSteps_one (level k : Nat) : subSteps level [k] = 1 := by
  have few : ∀ n m, (List.range n).countP (fun i => [k].any (fun j => j / m == i)) ≤ 1 := by
    intro n m
    have same : (fun i => [k].any (fun j => j / m == i)) = (fun i => i == k / m) := by
      funext i
      simp [Bool.beq_comm]
    rw [same]
    exact List.nodup_iff_count_le_one.1 List.nodup_range _
  unfold subSteps
  exact Nat.max_eq_left (few _ _)

theorem subSteps_few {ops : List OpSem} (level : Nat) (few : ops = [] ∨ ∃ o, ops = [o]) : subSteps level (ops.map (·.slot)) = 1 := by
  rcases few with rfl | ⟨o, rfl⟩
  · exact subSteps_nil level
  · exact subSteps_one level _

theorem inOrder_few {ops : List OpSem} (few : ops = [] ∨ ∃ o, ops = [o]) (bound : ∀ o ∈ ops, o.slot < 16) : InOrder ops := by
  refine inOrder_of_pairwise ?_ bound
  rcases few with rfl | ⟨o, rfl⟩
  · exact .nil
  · exact List.pairwise_singleton ..

/-- A cycle whose attempt does not issue is counted, and leaves what the attempt left. -/
theorem cycleEnd_blocked {core p : Nat} {a : Attempt} {s : State} (h : hasIssue a = false) (clean : s.endw = []) :
    cycleEnd core p a s = tick core 1 s := by
  rw [cycleEnd_still core p s h]
  show tick core (subSteps _ []) (finishOne p .idleOut (commitWrites s)) = _
  rw [subSteps_nil, commitWrites_nil s clean]
  rfl

/-- A cycle in which a group issues is its issue, counted by its sub-steps. -/
theorem cycleEnd_ready (core p : Nat) (g : Grp) (ops : List OpSem) (s : State) :
    cycleEnd core p (.ready g ops) s = tick core (subSteps (getCore s core).split (ops.map (·.slot))) (issueGroup p g ops s) := rfl

theorem settleAttempt_clean {s : State} (p : Nat) (a : Attempt) (h : s.endw = []) : (settleAttempt p a s).endw = [] :=
  (settleAttempt_form p a s).1.trans h

/-- What an attempt by itself leaves: `exec` of an operation is this. -/
def turnResult (p : Nat) (a : Attempt) (s : State) : State :=
  match a with
  | .ready g ops => issueGroup p g ops (settleAttempt p a s)
  | _ => settleAttempt p a s

theorem turnResult_still {p : Nat} {a : Attempt} {s : State} (h : hasIssue a = false) :
    turnResult p a s = settleAttempt p a s := by
  cases a with
  | ready g ops => cases h
  | _ => rfl

/-- What the issue of a group of at most one operation by itself leaves, a cycle of its position leaves, counted once. -/
theorem cycleEnd_few {core p : Nat} {f : Fetched} {ops : List OpSem} {s : State} (few : ops = [] ∨ ∃ o, ops = [o]) (clean : s.endw = []) :
    cycleEnd core p (tryGroup s p f ops) (settleAttempt p (tryGroup s p f ops) s) =
      tick core 1 (turnResult p (tryGroup s p f ops) s) := by
  rcases tryGroup_issues s p f ops with ready | still
  · rw [ready, cycleEnd_ready, subSteps_few _ few]
    rfl
  · rw [cycleEnd_blocked still (settleAttempt_clean _ _ clean), turnResult_still still]

/-- `issueSolo` at a turn, as one attempt. -/
theorem issueSolo_turn {i : Instr} {o : OpSem} {s : State} {f : Fetched} (turn : competes (getCtx s s.cur) = true)
    (grp : f.grp = soloGrp (getCtx s s.cur) i o.slot) (errs : f.errs = []) (wf : i.wf = true) :
    issueSolo i o s = .next (turnResult s.cur (tryGroup s s.cur f [o]) s) := by
  have same := tryGroup_congr (s := s) (p := s.cur) (f := f) (f' := ⟨soloGrp (getCtx s s.cur) i o.slot, 0, [], []⟩) [o] grp errs
  unfold issueSolo
  dsimp only
  rw [turn, wf, if_pos rfl, if_pos rfl, ← same]
  cases tryGroup s s.cur f [o] <;> rfl

theorem execSkip_turn {n : BitVec 8} {v : BitVec 1} {o : BitVec 3} {s : State} {f : Fetched}
    (turn : competes (getCtx s s.cur) = true) (grp : f.grp = skipGrp (getCtx s s.cur) n v o) (errs : f.errs = [])
    (wf : (Instr.skip n v o).wf = true) :
    execSkip n v o s = .next (turnResult s.cur (tryGroup s s.cur f []) s) := by
  have same := tryGroup_congr (s := s) (p := s.cur) (f := f) (f' := ⟨skipGrp (getCtx s s.cur) n v o, 0, [], []⟩) [] grp errs
  unfold execSkip
  dsimp only
  rw [turn, wf, if_pos rfl, if_pos rfl, ← same]
  cases tryGroup s s.cur f [] <;> rfl

/-- The next event of an agenda is its first. -/
theorem step_agenda {s : State} {i : Instr} {rest : List Instr} (power : s.power = true) (agenda : s.agenda = i :: rest) :
    step s = exec i { s with agenda := rest } := by
  unfold step stopped nextEvent advance
  rw [power, agenda]
  rfl

theorem coreLive_agenda (s : State) (rest : List Instr) (core : Nat) :
    coreLive { s with agenda := rest } core = coreLive s core := rfl

/-- Settles O48: the cycle of a core with one position at its turn is one attempt, which `exec` of the group's instruction makes
on the state where the fetched lines stand in the instruction cache. -/
theorem stepRunsDecoded : Obligations.StepRunsDecoded := by
  intro s core q k i f rest n v o p other c a u side power agenda opened live clean turn walk exiting idle wait yield gate here away
    awayYield got errs
  have ctxs : ∀ r, getCtx a r = getCtx s r := fun r =>
    congrArg (fun m : SMap Ctx => smGet ({} : Ctx) m r) (installFills_ctxs core { s with agenda := rest })
  have mid : midGroup c = false := by simp [midGroup, idle, wait]
  have start : AtStart a p := ⟨by rw [ctxs]; exact walk, by rw [ctxs]; exact exiting, .inr (by rw [ctxs]; exact here)⟩
  have fetch : fetchFor a p = .got f := by
    refine fetchFor_got (by rw [ctxs]; exact turn) gate start ?_ ?_
    · rw [ctxs]; exact mid
    · rw [ctxs]; exact got
  have one : OneTurn { s with agenda := rest } core q (.got f) :=
    ⟨side, live, opened, clean, turn, start, fetch, nofun, away, awayYield⟩
  have cur : u.cur = p := turnState_cur { s with agenda := rest } core p (.got f)
  have pc : ∀ {β : Type} (g : Word → β), g (getCtx u u.cur).pc = g c.pc := fun g => by
    rw [cur]
    exact turnState_field (fun c => g c.pc) (fun _ _ => rfl) { s with agenda := rest } core p p (.got f)
  have turn' : competes (getCtx u u.cur) = true := by
    rw [cur]
    exact (turnState_field competes (fun _ _ => rfl) { s with agenda := rest } core p p (.got f)).trans turn
  have clean' : u.endw = [] := (turnState_quiet { s with agenda := rest } core p (.got f)).2.trans clean
  have whole : ∀ ops, groupOps u p f.grp.next (slotOrder f.grp.ops) = ops → (ops = [] ∨ ∃ o, ops = [o]) → (∀ x ∈ ops, x.slot < 16) →
      doGroupIssue core { s with agenda := rest } = tick core 1 (turnResult p (tryGroup u p f ops) u) := by
    intro ops hops few bound
    have order : InOrder (opsOf (tryGroup u p f ops)) := by
      rcases tryGroup_issues u p f ops with ready | still
      · rw [ready]
        exact inOrder_few few bound
      · rw [opsOf_still still]
        exact inOrder_nil
    rw [one.cycle (tryGroup u p f ops) (congrArg (tryGroup u p f) hops) (.inr yield) order]
    exact cycleEnd_few few clean'
  have ends : ∀ t, doGroupIssue core { s with agenda := rest } = tick core 1 t → step s = .next (tick core 1 t) := by
    intro t h
    rw [step_agenda power agenda, ← h]
    rfl
  constructor
  · intro grp wf slot
    obtain ⟨x, g, sem, so, run⟩ := exec_solo i u k slot
    have next : (soloGrp c i k).next = (soloGrp (getCtx u u.cur) i k).next :=
      (pc (fun w => (soloGrp { ( {} : Ctx) with pc := w } i k).next)).symm
    have single : groupOps u p f.grp.next (slotOrder f.grp.ops) = [x] := by
      rw [grp, show (soloGrp c i k).ops = [(k, i)] from rfl, slotOrder_one i (slot_lt slot), next, ← cur]
      exact groupOps_one sem
    have group : f.grp = soloGrp (getCtx u u.cur) i x.slot := by
      rw [so.slot, grp]
      exact (pc (fun w => soloGrp { ( {} : Ctx) with pc := w } i k)).symm
    rw [run, issueSolo_turn turn' group errs wf, cur]
    have cycle := whole [x] single (.inr ⟨x, rfl⟩) fun y hy => by
      rw [List.mem_singleton.1 hy, so.slot]
      exact slot_lt slot
    exact ⟨_, rfl, ends _ cycle, congrArg _ cycle⟩
  · intro grp wf
    have none : groupOps u p f.grp.next (slotOrder f.grp.ops) = [] := by rw [grp]; rfl
    have run := execSkip_turn turn' (grp.trans (pc (fun w => skipGrp { ( {} : Ctx) with pc := w } n v o)).symm) errs wf
    rw [cur] at run
    exact ⟨_, run, ends _ (whole [] none (.inl rfl) fun _ h => absurd h List.not_mem_nil)⟩

end Sys2Proof.Machine
end

section
/-! SUPPORT. The end of a step, whatever group it ends: its context is counted, the due results land, and the sequencer moves in its
own fields (R27, R28, R50, R307). -/

namespace Sys2Proof.Machine

/-! ### The sequencer at the end of a step -/

/-- From `s` to `t` only the sequencer of position `p` has moved. -/
structure OnlySeq (p : Nat) (s t : State) : Prop where
  apart : AtPos p s t
  cores : ∀ k, getCore t k = getCore s k
  ctx : sameButSeq (getCtx s p) (getCtx t p)

section
variable {p : Nat} {s t u : State}

theorem OnlySeq.refl (p : Nat) (s : State) : OnlySeq p s s := ⟨.refl p s, fun _ => rfl, rfl⟩

theorem OnlySeq.trans (h : OnlySeq p s t) (k : OnlySeq p t u) : OnlySeq p s u :=
  ⟨h.apart.trans k.apart, fun j => (k.cores j).trans (h.cores j), sameButSeq_trans h.ctx k.ctx⟩

theorem OnlySeq.setCtx {c : Ctx} (h : sameButSeq (getCtx s p) c) : OnlySeq p s (setCtx p c s) :=
  ⟨.setCtx p c s, fun _ => rfl, by rw [getCtx_setCtx_self]; exact h⟩

theorem OnlySeq.updCtx {f : Ctx → Ctx} (h : ∀ c, sameButSeq c (f c)) : OnlySeq p s (updCtx p f s) := .setCtx (h _)

theorem walkOn_onlySeq (p : Nat) (s : State) : OnlySeq p s (walkOn p s) := by
  refine ⟨walkOn_atPos p s, fun k => ?_, walkOn_seq p s⟩
  unfold walkOn
  dsimp only
  split
  · rfl
  · split
    · rfl
    · split <;> rfl

theorem closeWindow_onlySeq (p : Nat) (s : State) : OnlySeq p s (closeWindow p s) := by
  refine ⟨closeWindow_atPos p s, fun k => ?_, closeWindow_seq p s⟩
  unfold closeWindow
  dsimp only
  split <;> rfl

/-- The idle step that a context takes: of `wait 0` while results are on their way, else one of those left. -/
def idled (c : Ctx) : Ctx :=
  if c.waitIdle then { c with waitIdle := !c.landing.isEmpty }
  else if c.idle ≤ 1 then flowOn c.idleAddr c.idleNext { c with idle := 0 }
  else { c with idle := c.idle - 1 }

theorem finishStep_eq (p : Nat) (s : State) : finishStep p s = closeWindow p (updCtx p idled (countStep p s)) := by
  unfold finishStep idled updCtx
  dsimp only
  split
  · rfl
  · split <;> rfl

theorem idled_seq (c : Ctx) : sameButSeq c (idled c) := by
  unfold idled
  split
  · rfl
  · split
    · exact sameButSeq_trans (b := { c with idle := 0 }) rfl (flowOn_seq ..)
    · rfl

theorem finishStep_onlySeq (p : Nat) (s : State) : OnlySeq p (countStep p s) (finishStep p s) := by
  rw [finishStep_eq]
  exact (OnlySeq.updCtx idled_seq).trans (closeWindow_onlySeq p _)

/-- What a group's step makes of its context once the results have landed: its idle steps are still to go, or it goes on. -/
def proceeded (s : State) (p : Nat) (g : Grp) (ops : List OpSem) (c : Ctx) : Ctx :=
  let d := capture g { c with
    loops := c.loops.map (fun e => setBitsOf g.addr (ops.any (·.isFmt)) (ops.any (·.isScl)) g.op.isSome (locate s p g e)) }
  if 1 < g.idle then { d with idle := g.idle - 1, idleAddr := g.addr, idleNext := g.next }
  else sequence (updCtx p (fun c => capture g { c with
    loops := c.loops.map (fun e => setBitsOf g.addr (ops.any (·.isFmt)) (ops.any (·.isScl)) g.op.isSome (locate s p g e)) }) s)
    p g (seqOf ops) d

theorem finishGroup_eq (p : Nat) (g : Grp) (ops : List OpSem) (s : State) :
    finishGroup p g ops s = afterTrap p g (seqOf ops) (closeWindow p (walkOn p
      (updCtx p (proceeded (countStep p (request p g.op s)) p g ops) (countStep p (request p g.op s))))) := by
  unfold finishGroup proceeded
  dsimp only
  split <;> rw [updCtx_updCtx]

theorem proceeded_seq (s : State) (p : Nat) (g : Grp) (ops : List OpSem) (c : Ctx) : sameButSeq c (proceeded s p g ops c) := by
  unfold proceeded
  dsimp only
  generalize c.loops.map _ = l
  have caught : sameButSeq c (capture g { c with loops := l }) := sameButSeq_trans (b := { c with loops := l }) rfl (capture_seq ..)
  split
  · exact sameButSeq_trans caught rfl
  · exact sameButSeq_trans caught (sequence_seq ..)

/-- No operation of the group ends its step in a trap. -/
def NoTrap (ops : List OpSem) : Prop := ∀ code num, seqOf ops ≠ .trap code num

theorem afterTrap_none {ops : List OpSem} (h : NoTrap ops) (p : Nat) (g : Grp) (s : State) : afterTrap p g (seqOf ops) s = s := by
  unfold afterTrap
  split
  · next code num hq => exact absurd hq (h code num)
  · rfl

theorem noTrap_nil : NoTrap [] := fun _ _ => SeqAct.noConfusion

theorem finishGroup_onlySeq {ops : List OpSem} (h : NoTrap ops) (p : Nat) (g : Grp) (s : State) :
    OnlySeq p (countStep p (request p g.op s)) (finishGroup p g ops s) := by
  rw [finishGroup_eq, afterTrap_none h]
  exact (OnlySeq.updCtx (proceeded_seq _ p g ops)).trans ((walkOn_onlySeq p _).trans (closeWindow_onlySeq p _))

/-! ### What the count of a step and its landing leave -/

theorem countStep_atPos (p : Nat) (s : State) : AtPos p s (countStep p s) := by
  rw [countStep_eq]
  exact (AtPos.updCtx ..).trans (landStep_atPos ..)

theorem countStep_field {β : Type} (f : Ctx → β) (p : Nat) (u : State) (h : ∀ c d, sameButStep c d → f d = f c) :
    f (getCtx (countStep p u) p) = f (counted (getCtx u p)) := by
  rw [countStep_eq, h _ _ (landStep_ctx p _), getCtx_updCtx_self]

/-- What neither the sequencer nor the count enters is as it was, but where a result of `d` lands. -/
theorem OnlySeq.keeps {β : Type} (h : OnlySeq p (countStep p u) t) (f : Ctx → β) (hf : Plain f) (d : Dest)
    (none : ∀ e, DueIn (getCtx u p) e → e.dest ≠ d)
    (off : ∀ (e : Landing) (v : State), e.dest ≠ d → f (getCtx (landOne p e v) p) = f (getCtx v p)) :
    f (getCtx t p) = f (getCtx u p) := by
  have due : ∀ e, DueIn (getCtx (Machine.updCtx p counted u) p) e → e.dest ≠ d := by
    intro e he
    rw [getCtx_updCtx_self] at he
    exact none e he
  rw [hf.seq _ _ h.ctx, countStep_eq, landStep_idle f d due (fun e ne v => off e v ne) hf.wcol hf.landing, getCtx_updCtx_self,
    hf.counted]

/-- What a turn changes before its step: the state of its context, and the stack it waits at. -/
structure Turned (s u : State) : Prop where
  apart : AtPos s.cur s u
  cores : ∀ k, getCore u k = getCore s k
  ctx : { getCtx u s.cur with st := (me s).st, barWait := (me s).barWait, stalled := (me s).stalled } = me s

theorem Turned.field {β : Type} (h : Turned s u) (f : Ctx → β)
    (hf : ∀ c st bar b, f { c with st := st, barWait := bar, stalled := b } = f c) : f (getCtx u s.cur) = f (me s) := by
  have k := congrArg f h.ctx
  rw [hf] at k
  exact k

theorem Turned.updCtx {f : Ctx → Ctx} (h : ∀ c, { f c with st := c.st, barWait := c.barWait, stalled := c.stalled } = c) (s : State) :
    Turned s (updCtx s.cur f s) :=
  ⟨.updCtx .., fun _ => rfl, by rw [getCtx_updCtx_self]; exact h _⟩

theorem Turned.due (h : Turned s u) {d : Dest} (none : ¬Due s d) : ∀ e, DueIn (getCtx u s.cur) e → e.dest ≠ d := by
  intro e he hd
  have landing := h.field Ctx.landing fun _ _ _ _ => rfl
  exact none ⟨e, landing ▸ he.1, he.2, hd⟩

/-- The frame of a step without results of its own, whatever the sequencer does. -/
theorem OnlySeq.branchFrame (tn : Turned s u) (h : OnlySeq s.cur (countStep s.cur u) t) : BranchFrame s t [] := by
  have far := tn.apart.trans ((countStep_atPos s.cur u).trans h.apart)
  refine ⟨⟨far.rest, fun k => by rw [far.mem], far.ctxs, far.cores, fun none => ?_⟩, fun r _ none => ?_,
    ⟨fun none => ?_, fun none => ?_, fun none => ?_, fun none => ?_⟩, ?_, ?_, ?_⟩
  · rw [h.cores, countStep_eq, landStep_core, getCore_updCtx, tn.cores]
    intro e he due
    rw [getCtx_updCtx_self] at he
    exact tn.due none e ⟨he, due⟩
  · rw [h.keeps (fun c => regGet c r) (plain_regGet r) (.reg r) (tn.due none) fun e v ne => landOne_regGet_ne s.cur e v r ne]
    exact tn.field (fun c => regGet c r) fun _ _ _ _ => rfl
  · rw [h.keeps Ctx.fmt plain_fmt .fmt (tn.due none) fun e v ne => landOne_fmt_ne ne]
    exact tn.field Ctx.fmt fun _ _ _ _ => rfl
  · rw [h.keeps Ctx.scl plain_scl .scl (tn.due none) fun e v ne => landOne_scl_ne ne]
    exact tn.field Ctx.scl fun _ _ _ _ => rfl
  · rw [h.keeps Ctx.seed plain_seed (.csr 5) (tn.due none) fun e v ne => landOne_seed_ne ne]
    exact tn.field Ctx.seed fun _ _ _ _ => rfl
  · rw [h.keeps Ctx.wfb plain_wfb (.csr 1) (tn.due none) fun e v ne => landOne_wfb_ne ne]
    exact tn.field Ctx.wfb fun _ _ _ _ => rfl
  · unfold SameWork
    rw [plain_aside.seq _ _ h.ctx, countStep_field aside s.cur u fun c d e => by have k := congrArg aside e; exact k, plain_aside.counted]
    exact tn.field aside fun _ _ _ _ => rfl
  · have step := congrArg Ctx.stepc h.ctx
    refine Eq.trans step ((countStep_field Ctx.stepc s.cur u fun c d e => by have k := congrArg Ctx.stepc e; exact k).trans ?_)
    exact congrArg (· + 1) (tn.field Ctx.stepc fun _ _ _ _ => rfl)
  · have turn := congrArg Ctx.denials h.ctx
    exact Eq.trans turn (countStep_field Ctx.denials s.cur u fun c d e => by have k := congrArg Ctx.denials e; exact k)

end

/-! ### A group of no operation -/

section
variable {s : State} {n : BitVec 8} {v : BitVec 1} {o : BitVec 3}

theorem groupErrs_nil (c : Ctx) (op : Option (BitVec 3)) (h : requestErr c op = false) : groupErrs c op [] = [] := by
  unfold groupErrs
  rw [h]
  rfl

/-- A group of no operation that its loop does not hold issues. -/
theorem tryGroup_nil {f : Fetched} (can : CanIssue s [] 0) (errs : f.errs = []) (free : requestErr (me s) f.grp.op = false) :
    tryGroup s s.cur f [] = .ready f.grp [] := by
  have sound : groupCauses (getCtx s s.cur) f [] = [] := by
    unfold groupCauses
    rw [errs, groupErrs_nil (getCtx s s.cur) _ free]
    rfl
  have room : ¬Config.landingEntries < (getCtx s s.cur).landing.length + needed [] := Nat.not_lt.2 can.room
  have steady : windowBlocks (getCtx s s.cur) (getCore s (coreOf s.cur)) (s.cur % 2) = false := can.steady
  unfold tryGroup groupBlocks
  dsimp only
  rw [sound, can.bar, steady]
  simp [firstCause, room]

theorem requestErr_none (c : Ctx) : requestErr c none = false := rfl

theorem skip_wf (h : v = 1) : (Instr.skip n v o).wf = true := decide_eq_true (.inl h)

/-- `skip` at its turn: the group issues, and its first step ends. -/
theorem execSkip_issues (can : CanIssue s [] 0) (wf : (Instr.skip n v o).wf = true)
    (free : requestErr (me s) (skipGrp (me s) n v o).op = false) :
    exec (.skip n v o) s = .next (finishGroup s.cur (skipGrp (me s) n v o) [] (readied s)) := by
  have go := tryGroup_nil (f := ⟨skipGrp (me s) n v o, 0, [], []⟩) can rfl free
  refine (execSkip_turn (f := ⟨skipGrp (me s) n v o, 0, [], []⟩) can.turn rfl rfl wf).trans ?_
  have ready : passBar s.cur (settleAttempt s.cur (.ready (skipGrp (me s) n v o) []) s) = readied s := by
    unfold passBar settleAttempt readied
    exact updCtx_updCtx ..
  have clean : (readied s).endw = [] := can.clean
  rw [go, turnResult, issueGroup, ready, show runOps s.cur [] (readied s) = readied s from rfl, commitWrites_nil _ clean, endGroup,
    show (getCtx (readied s) s.cur).st = .ready by rw [readied, getCtx_updCtx_self]]
  rfl

theorem readied_turned (s : State) : Turned s (readied s) := by
  unfold readied
  exact .updCtx (f := fun c => { c with st := .ready, barWait := none, stalled := false }) (fun _ => rfl) s

/-- The idle steps still to go after the first. -/
theorem finishGroup_idle {g : Grp} {ops : List OpSem} {p : Nat} (nt : NoTrap ops) (more : 1 < g.idle) (t : State) :
    (getCtx (finishGroup p g ops t) p).idle = g.idle - 1 ∧ (getCtx (finishGroup p g ops t) p).idleAddr = g.addr ∧
    (getCtx (finishGroup p g ops t) p).idleNext = g.next := by
  rw [finishGroup_eq, afterTrap_none nt]
  generalize hu : updCtx p _ _ = u
  have idle : (getCtx u p).idle = g.idle - 1 ∧ (getCtx u p).idleAddr = g.addr ∧ (getCtx u p).idleNext = g.next := by
    rw [← hu, getCtx_updCtx_self, proceeded, if_pos more]
    exact ⟨rfl, rfl, rfl⟩
  have ends : sameButFlow (getCtx u p) (getCtx (closeWindow p (walkOn p u)) p) :=
    sameButFlow_trans (walkOn_flow p u) (sameButFlow_of_pc (closeWindow_pc ..))
  have k1 := congrArg Ctx.idle ends
  have k2 := congrArg Ctx.idleAddr ends
  have k3 := congrArg Ctx.idleNext ends
  exact ⟨Eq.trans k1 idle.1, Eq.trans k2 idle.2.1, Eq.trans k3 idle.2.2⟩

theorem request_ctx (p : Nat) (op : Option (BitVec 3)) (t : State) :
    { getCtx (request p op t) p with
      opReq := (getCtx t p).opReq, window := (getCtx t p).window, windowOpen := (getCtx t p).windowOpen } = getCtx t p := by
  unfold request
  split
  · rfl
  · dsimp only
    split
    · rfl
    · rw [show ∀ c, getCtx (repoint (p % 2) (coreOf p) (setCtx p c t)) p = c from fun c => by
        unfold getCtx
        rw [repoint_ctxs]
        exact getCtx_setCtx_self ..]

theorem request_field {β : Type} (f : Ctx → β) (hf : ∀ c r w b, f { c with opReq := r, window := w, windowOpen := b } = f c)
    (p : Nat) (op : Option (BitVec 3)) (t : State) : f (getCtx (request p op t) p) = f (getCtx t p) := by
  have k := congrArg f (request_ctx p op t)
  rw [hf] at k
  exact k

/-- A group that is no transfer of control leaves its context, outside every loop, at the group after it. -/
theorem finishGroup_next {g : Grp} {ops : List OpSem} {p : Nat} {t : State} (flow : seqOf ops = .flow) (few : g.idle ≤ 1)
    (loops : (getCtx t p).loops = []) (walk : (getCtx t p).bodyWalk = none) : (getCtx (finishGroup p g ops t) p).pc = g.next := by
  rw [finishGroup_eq, afterTrap_none (fun _ _ => by rw [flow]; exact SeqAct.noConfusion)]
  have open_ : (getCtx (countStep p (request p g.op t)) p).loops = [] := by
    rw [countStep_field Ctx.loops p _ fun c d e => by have k := congrArg Ctx.loops e; exact k]
    exact (request_field Ctx.loops (fun _ _ _ _ => rfl) p g.op t).trans loops
  have still : (getCtx (countStep p (request p g.op t)) p).bodyWalk = none := by
    rw [countStep_field Ctx.bodyWalk p _ fun c d e => by have k := congrArg Ctx.bodyWalk e; exact k]
    exact (request_field Ctx.bodyWalk (fun _ _ _ _ => rfl) p g.op t).trans walk
  generalize hu : updCtx p _ _ = u
  have on : getCtx u p = { getCtx (countStep p (request p g.op t)) p with pc := g.next } := by
    rw [← hu, getCtx_updCtx_self, proceeded, if_neg (Nat.not_lt.2 few), flow]
    generalize getCtx (countStep p (request p g.op t)) p = d at open_
    cases d
    cases open_
    rfl
  have pc : (getCtx (closeWindow p (walkOn p u)) p).pc = (getCtx (walkOn p u) p).pc := by
    unfold closeWindow
    dsimp only
    split
    · rw [getCtx_setCtx_self]
    · rfl
  rw [pc]
  unfold walkOn
  dsimp only
  split
  · rw [getCtx_setCtx_self, leaveTo_out _ _ _ _ ((congrArg Ctx.loops on).trans open_), on]
  · rw [show (getCtx u p).bodyWalk = none from (congrArg Ctx.bodyWalk on).trans still]
    dsimp only
    rw [on]

end

/-! ### A later idle step -/

section
variable {p : Nat} {s v : State}

theorem finishStep_field {β : Type} (f : Ctx → β) (hf : ∀ c b, f { c with windowOpen := b } = f c) (p : Nat) (v : State) :
    f (getCtx (finishStep p v) p) = f (idled (getCtx (countStep p v) p)) := by
  rw [finishStep_eq]
  unfold closeWindow
  dsimp only
  split
  · rw [getCtx_setCtx_self, hf, getCtx_updCtx_self]
  · rw [getCtx_updCtx_self]

/-- Outside every loop an idle step moves the pc and the count of idle steps. -/
theorem idled_outside {β : Type} (f : Ctx → β) (hf : ∀ c pc idle wait, f { c with pc := pc, idle := idle, waitIdle := wait } = f c)
    (c : Ctx) (h : c.loops = []) : f (idled c) = f c := by
  unfold idled
  split
  · exact hf c c.pc c.idle _
  · split
    · rw [show flowOn c.idleAddr c.idleNext { c with idle := 0 } = { c with idle := 0, pc := c.idleNext } by simp [flowOn, h]]
      exact hf c c.idleNext 0 c.waitIdle
    · exact hf c c.pc _ c.waitIdle

theorem flowOn_mpc (a n : Word) (c : Ctx) : (flowOn a n c).mpc = c.mpc := by
  have k := congrArg Ctx.mpc (flowOn_flow a n c)
  exact k

theorem flowOn_idle (a n : Word) (c : Ctx) : (flowOn a n c).idle = c.idle := by
  have k := congrArg Ctx.idle (flowOn_flow a n c)
  exact k

theorem idled_mpc (c : Ctx) : (idled c).mpc = c.mpc := by
  unfold idled
  split
  · rfl
  · split
    · exact flowOn_mpc ..
    · rfl

section
variable {c : Ctx}

theorem idled_wait (h : c.waitIdle = true) : (idled c).pc = c.pc ∧ (idled c).waitIdle = !c.landing.isEmpty := by
  rw [idled, if_pos h]
  exact ⟨rfl, rfl⟩

theorem idled_idle (h : ¬c.waitIdle = true) : (idled c).idle = c.idle - 1 := by
  rw [idled, if_neg h]
  split
  · next few => rw [flowOn_idle, Nat.sub_eq_zero_of_le few]
  · rfl

theorem idled_more (h : ¬c.waitIdle = true) (more : 1 < c.idle) : (idled c).pc = c.pc := by
  rw [idled, if_neg h, if_neg (Nat.not_le.2 more)]

theorem idled_last (h : ¬c.waitIdle = true) (last : c.idle = 1) (out : c.loops = []) : (idled c).pc = c.idleNext := by
  rw [idled, if_neg h, if_pos (Nat.le_of_eq last), flowOn]
  dsimp only
  rw [out]

end

/-- The frame of a later idle step. -/
theorem finishStep_frame (tn : Turned s v) : RegFrame s (finishStep s.cur v) [] := by
  have loops : (me s).loops = [] → (getCtx (countStep s.cur v) s.cur).loops = [] := fun h => by
    rw [countStep_field Ctx.loops s.cur v fun c d e => by have k := congrArg Ctx.loops e; exact k]
    exact (tn.field Ctx.loops fun _ _ _ _ => rfl).trans h
  have due : ∀ {d : Dest}, ¬Due s d → ∀ e, DueIn (getCtx (updCtx s.cur counted v) s.cur) e → e.dest ≠ d := by
    intro d none e he
    rw [getCtx_updCtx_self] at he
    exact tn.due none e he
  refine ⟨(finishStep_onlySeq s.cur v).branchFrame tn, ⟨?_, fun out => ?_, fun none out => ?_, fun none out => ?_⟩⟩
  · rw [finishStep_field Ctx.mpc (fun _ _ => rfl), idled_mpc,
      countStep_field Ctx.mpc s.cur v fun c d e => by have k := congrArg Ctx.mpc e; exact k]
    exact tn.field Ctx.mpc fun _ _ _ _ => rfl
  · rw [finishStep_field Ctx.loops (fun _ _ => rfl), idled_outside Ctx.loops (fun _ _ _ _ => rfl) _ (loops out)]
    exact loops out
  · rw [finishStep_field Ctx.age (fun _ _ => rfl), idled_outside Ctx.age (fun _ _ _ _ => rfl) _ (loops out), countStep_eq,
      landStep_idle Ctx.age (.csr 3) (due none) (fun _ ne _ => landOne_age_ne ne) (fun _ _ => rfl) (fun _ _ => rfl), getCtx_updCtx_self]
    exact tn.field Ctx.age fun _ _ _ _ => rfl
  · rw [finishStep_field Ctx.gpred (fun _ _ => rfl), idled_outside Ctx.gpred (fun _ _ _ _ => rfl) _ (loops out), countStep_eq,
      landStep_idle Ctx.gpred (.csr 4) (due none) (fun _ ne _ => landOne_gpred_ne ne) (fun _ _ => rfl) (fun _ _ => rfl),
      getCtx_updCtx_self]
    exact tn.field Ctx.gpred fun _ _ _ _ => rfl

theorem sameButSeq_landing {c d : Ctx} (h : sameButSeq c d) : d.landing = c.landing := by
  have k := congrArg Ctx.landing h
  exact k

/-- Where a later idle step leaves its context. -/
theorem finishStep_idle (tn : Turned s v) :
    ((me s).waitIdle = true → (getCtx (finishStep s.cur v) s.cur).pc = (me s).pc ∧
      (getCtx (finishStep s.cur v) s.cur).waitIdle = !(getCtx (finishStep s.cur v) s.cur).landing.isEmpty) ∧
    ((me s).waitIdle = false → (getCtx (finishStep s.cur v) s.cur).idle = (me s).idle - 1 ∧
      (1 < (me s).idle → (getCtx (finishStep s.cur v) s.cur).pc = (me s).pc) ∧
      ((me s).idle = 1 → (me s).loops = [] → (getCtx (finishStep s.cur v) s.cur).pc = (me s).idleNext)) := by
  have mine : ∀ {β : Type} (f : Ctx → β), (∀ c st bar b, f { c with st := st, barWait := bar, stalled := b } = f c) →
      (∀ c d, sameButStep c d → f d = f c) → (∀ c, f (counted c) = f c) → f (getCtx (countStep s.cur v) s.cur) = f (me s) := by
    intro β f turn landed count
    rw [countStep_field f s.cur v landed, count]
    exact tn.field f turn
  have pc := mine Ctx.pc (fun _ _ _ _ => rfl) (fun c d e => by have k := congrArg Ctx.pc e; exact k) fun _ => rfl
  have waiting := mine Ctx.waitIdle (fun _ _ _ _ => rfl) (fun c d e => by have k := congrArg Ctx.waitIdle e; exact k) fun _ => rfl
  have left := mine Ctx.idle (fun _ _ _ _ => rfl) (fun c d e => by have k := congrArg Ctx.idle e; exact k) fun _ => rfl
  have next := mine Ctx.idleNext (fun _ _ _ _ => rfl) (fun c d e => by have k := congrArg Ctx.idleNext e; exact k) fun _ => rfl
  have loops := mine Ctx.loops (fun _ _ _ _ => rfl) (fun c d e => by have k := congrArg Ctx.loops e; exact k) fun _ => rfl
  refine ⟨fun h => ?_, fun h => ⟨?_, fun more => ?_, fun last out => ?_⟩⟩
  · obtain ⟨stays, waits⟩ := idled_wait (waiting.trans h)
    rw [finishStep_field Ctx.pc (fun _ _ => rfl), finishStep_field Ctx.waitIdle (fun _ _ => rfl),
      sameButSeq_landing (finishStep_onlySeq s.cur v).ctx]
    exact ⟨stays.trans pc, waits⟩
  · rw [finishStep_field Ctx.idle (fun _ _ => rfl), idled_idle (by simp [waiting, h]), left]
  · rw [finishStep_field Ctx.pc (fun _ _ => rfl), idled_more (by simp [waiting, h]) (Nat.lt_of_lt_of_eq more left.symm), pc]
  · rw [finishStep_field Ctx.pc (fun _ _ => rfl), idled_last (by simp [waiting, h]) (left.trans last) (loops.trans out), next]

/-- A cycle in which a context at its turn takes an idle step. -/
theorem OneTurn.idle {core q : Nat} (h : OneTurn s core q .idle) (clean : s.endw = [])
    (steady : windowBlocks (getCtx s (2 * core + q)) (getCore s core) q = false) :
    doGroupIssue core s = tick core 1 (finishStep (2 * core + q) (updCtx (2 * core + q)
      (fun c => { c with st := .ready, stalled := false }) { installFills core s with cur := 2 * core + q })) := by
  have side := h.side
  have few : core < 256 := by
    have live := h.live
    simp only [coreLive, Bool.and_eq_true, decide_eq_true_eq] at live
    exact live.1.1
  have at_ : coreOf (2 * core + q) = core := by unfold coreOf; omega
  have parity : (2 * core + q) % 2 = q := by omega
  have begins : turnState s core (2 * core + q) .idle = { installFills core s with cur := 2 * core + q } := rfl
  have ctx : getCtx (turnState s core (2 * core + q) .idle) (2 * core + q) = getCtx s (2 * core + q) :=
    congrArg (fun m : SMap Ctx => smGet ({} : Ctx) m (2 * core + q)) (installFills_ctxs core s)
  have opened : windowBlocks (getCtx (turnState s core (2 * core + q) .idle) (2 * core + q))
      (getCore (turnState s core (2 * core + q) .idle) core) q = false := by
    rw [ctx]
    have fills := installFills_core (fun k => windowBlocks (getCtx s (2 * core + q)) k q) core core s
    exact (fills (fun _ _ => rfl) (fun _ _ => rfl)).trans steady
  have step : attempt (turnState s core (2 * core + q) .idle) (2 * core + q) .idle = .step := by
    unfold attempt
    dsimp only
    rw [at_, parity, opened]
    rfl
  have settled : settleAttempt (2 * core + q) .step (turnState s core (2 * core + q) .idle) = updCtx (2 * core + q)
      (fun c => { c with st := .ready, stalled := false }) { installFills core s with cur := 2 * core + q } := rfl
  rw [h.cycle .step step (.inl rfl) inOrder_nil, settled]
  generalize hv : updCtx (2 * core + q) _ { installFills core s with cur := 2 * core + q } = v
  have clean' : v.endw = [] := by
    rw [← hv]
    exact (installFills_quiet core s).2.trans clean
  have ready : (getCtx v (2 * core + q)).st = .ready := by rw [← hv, getCtx_updCtx_self]
  show tick core (subSteps _ []) (finishOne (2 * core + q) .step (commitWrites v)) = _
  rw [subSteps_nil, commitWrites_nil v clean', finishOne, ready, if_neg (by decide)]

/-- An operating point that a group asks for is its context's request from its first step. -/
theorem request_opReq (p : Nat) (b : BitVec 3) (t : State) : (getCtx (request p (some b) t) p).opReq = b := by
  unfold request
  dsimp only
  split
  · next h => exact h.symm
  · unfold getCtx
    rw [repoint_ctxs]
    exact congrArg Ctx.opReq (getCtx_setCtx_self ..)

theorem request_atPos (p : Nat) (op : Option (BitVec 3)) (t : State) : AtPos p t (request p op t) := by
  have pointed : ∀ u, AtPos p u (repoint (p % 2) (coreOf p) u) := by
    intro u
    unfold repoint
    dsimp only
    split
    · exact .refl ..
    · exact .updCore ..
  unfold request
  split
  · exact .refl ..
  · dsimp only
    split
    · exact .refl ..
    · exact (AtPos.setCtx ..).trans (pointed _)

/-- Settles O34: a `skip` issues as a group of no operation, whose step counts, lands and leaves its idle steps; in a later cycle
the context's attempt is one more idle step. -/
theorem idleGroups : Obligations.IdleGroups := by
  intro s i v o c p can
  have tn := readied_turned s
  refine ⟨?_, fun hv free => ?_, ?_⟩
  · have ends := finishGroup_onlySeq noTrap_nil p (skipGrp c i 0 0) (readied s)
    have frame : BranchFrame s _ [] := ends.branchFrame tn
    refine ⟨_, execSkip_issues can rfl rfl, frame, frame.step, fun more => ?_, fun zero out noWalk => ?_⟩
    · have pos : i.toNat ≠ 0 := fun h => more (BitVec.eq_of_toNat_eq h)
      exact finishGroup_idle noTrap_nil (show 1 < i.toNat + 1 by omega) (readied s)
    · refine finishGroup_next rfl ?_ ?_ ?_
      · rw [zero]
        exact Nat.le_refl 1
      · exact (tn.field Ctx.loops fun _ _ _ _ => rfl).trans out
      · exact (tn.field Ctx.bodyWalk fun _ _ _ _ => rfl).trans noWalk
  · have op : (skipGrp c i v o).op = some o := if_pos hv
    have asks : requestErr c (skipGrp c i v o).op = false := by
      rw [op]
      unfold requestErr
      cases h : c.loops.head? with
      | none => rfl
      | some e => exact free e h
    have ends := finishGroup_onlySeq noTrap_nil p (skipGrp c i v o) (readied s)
    rw [op] at ends
    have asked := fun {β : Type} (f : Ctx → β) hf => request_field f hf p (some o) (readied s)
    refine ⟨_, execSkip_issues can (skip_wf hv) asks, ?_, ?_, fun k => ?_, fun r _ none => ?_⟩
    · have k := congrArg Ctx.opReq ends.ctx
      refine Eq.trans k ((countStep_field Ctx.opReq p _ fun c d e => by have k := congrArg Ctx.opReq e; exact k).trans ?_)
      exact request_opReq p o (readied s)
    · have k := congrArg Ctx.stepc ends.ctx
      refine Eq.trans k ((countStep_field Ctx.stepc p _ fun c d e => by have k := congrArg Ctx.stepc e; exact k).trans ?_)
      refine congrArg (· + 1) ((asked Ctx.stepc fun _ _ _ _ => rfl).trans ?_)
      exact tn.field Ctx.stepc fun _ _ _ _ => rfl
    · rw [(tn.apart.trans ((request_atPos ..).trans ((countStep_atPos ..).trans ends.apart))).mem]
    · have due : ∀ e, DueIn (getCtx (request p (some o) (readied s)) p) e → e.dest ≠ .reg r := by
        intro e he
        exact tn.due none e ⟨(asked Ctx.landing fun _ _ _ _ => rfl) ▸ he.1, he.2⟩
      refine (ends.keeps (fun c => regGet c r) (plain_regGet r) (.reg r) due fun e v ne => landOne_regGet_ne p e v r ne).trans ?_
      exact (asked (fun c => regGet c r) fun _ _ _ _ => rfl).trans (tn.field (fun c => regGet c r) fun _ _ _ _ => rfl)
  · intro core q side hp other u opened live mid exiting walk gate away awayYield
    have ctxs : ∀ r, getCtx (installFills core s) r = getCtx s r := fun r =>
      congrArg (fun m : SMap Ctx => smGet ({} : Ctx) m r) (installFills_ctxs core s)
    have at_ : coreOf p = core := by
      have few := live
      simp only [coreLive, Bool.and_eq_true, decide_eq_true_eq] at few
      unfold coreOf
      omega
    have parity : p % 2 = q := by omega
    have start : AtStart (installFills core s) p :=
      ⟨by rw [ctxs]; exact walk, by rw [ctxs]; exact exiting, .inl (by rw [ctxs]; exact mid)⟩
    have gate' : gateShut (installFills core s) p = false := by
      unfold gateShut at gate ⊢
      simp only [ctxs]
      exact gate
    have idle : fetchFor (installFills core s) p = .idle :=
      fetchFor_idle (by rw [ctxs]; exact can.turn) gate' start (by rw [ctxs]; exact mid)
    have steady : windowBlocks c (getCore s core) q = false := by
      have k := can.steady
      rw [show s.cur = p from rfl, at_, parity] at k
      exact k
    have one : OneTurn s core q .idle :=
      ⟨side, live, opened, can.clean, hp ▸ can.turn, hp ▸ start, hp ▸ idle, nofun, away, awayYield⟩
    have cycle := one.idle can.clean (hp ▸ steady)
    rw [← hp] at cycle
    have tn : Turned u (updCtx p (fun c => { c with st := .ready, stalled := false }) u) :=
      .updCtx (f := fun c => { c with st := .ready, stalled := false }) (fun _ => rfl) u
    have same : me u = c := ctxs p
    have step := (finishStep_frame tn).step
    have ends := finishStep_idle tn
    rw [same] at step ends
    exact ⟨_, congrArg Host.Outcome.next cycle, finishStep_frame tn, step, ends⟩

end

end Sys2Proof.Machine
end

section
/-! SUPPORT. The operations of a group at its turn: each on the state before the group, with the rows and draws after those of the
lower slots (R35, R110, R157). -/

namespace Sys2Proof.Machine

/-- A slot operation has a meaning, in its slot. -/
theorem semOf_slot {i : Instr} {k : Nat} (h : i.slot = some k) (p : Nat) (pre : Pre) (s : State) :
    ∃ o, semOf i p pre s = some o ∧ o.slot = k := by
  cases i
  all_goals first
    | (cases h; done)
    | exact ⟨_, rfl, Option.some.inj h⟩
    | skip
  case vmov =>
    refine ⟨_, rfl, ?_⟩
    unfold semVmov
    dsimp only
    split <;> exact Option.some.inj h
  case lwt =>
    refine ⟨_, rfl, ?_⟩
    unfold semLwt
    dsimp only
    (repeat' split) <;> exact Option.some.inj h
  case loopQ =>
    refine ⟨_, rfl, ?_⟩
    unfold semLoopQ semLoopP
    dsimp only
    split <;> exact Option.some.inj h
  case lspQ =>
    refine ⟨_, rfl, ?_⟩
    unfold semLspQ semLoopP
    dsimp only
    split <;> exact Option.some.inj h

/-! ### The words of a group in slot order -/

/-- The words stand in their own slots, in slot order. -/
structure InSlots (l : List (Nat × Instr)) : Prop where
  own : ∀ x ∈ l, x.2.slot = some x.1 ∧ x.1 < 16
  sorted : l.Pairwise (fun x y => x.1 < y.1)

section
variable {l : List (Nat × Instr)} {x : Nat × Instr}

theorem mem_of_mem_slotOrder (h : x ∈ slotOrder l) : x ∈ l := by
  unfold slotOrder at h
  obtain ⟨k, -, hk⟩ := List.mem_filterMap.1 h
  exact List.mem_of_find?_eq_some hk

theorem mem_slotOrder (single : (l.map (·.1)).Nodup) (h : x ∈ l) (low : x.1 < 16) : x ∈ slotOrder l := by
  refine List.mem_filterMap.2 ⟨x.1, List.mem_range.2 low, ?_⟩
  cases found : l.find? (fun y => y.1 == x.1) with
  | none => simpa using List.find?_eq_none.1 found x h
  | some y =>
    have hy : y.1 = x.1 := by simpa using List.find?_some found
    rw [List.inj_on_of_nodup_map single (List.mem_of_find?_eq_some found) h hy]

theorem slotOrder_sorted (l : List (Nat × Instr)) : (slotOrder l).Pairwise (fun x y => x.1 < y.1) := by
  unfold slotOrder
  refine List.Pairwise.filterMap _ (R := (· < ·)) ?_ List.pairwise_lt_range
  intro a b ab x hx y hy
  have hx' : x.1 = a := by simpa using List.find?_some hx
  have hy' : y.1 = b := by simpa using List.find?_some hy
  rw [hx', hy']
  exact ab

theorem slotOrder_inSlots (own : ∀ x ∈ l, x.2.slot = some x.1 ∧ x.1 < 16) : InSlots (slotOrder l) :=
  ⟨fun _ h => own _ (mem_of_mem_slotOrder h), slotOrder_sorted l⟩

end

/-- What an operation meets of the operations before it in its group. -/
structure After (pre pre' : Pre) (before : List OpSem) : Prop where
  next : pre'.next = pre.next
  pops : pre'.pops = pre.pops ++ before.flatMap (·.pops)
  draws : pre'.draws = pre.draws + (before.map (·.draws)).sum

/-- The operations of a group stand in the slots of its words. -/
theorem evalOps_slots {l : List (Nat × Instr)} (h : InSlots l) (s : State) (p : Nat) (pre : Pre) :
    (evalOps s p pre l).map (·.slot) = l.map (·.1) := by
  induction l generalizing pre with
  | nil => rfl
  | cons x l ih =>
    obtain ⟨o, sem, slot⟩ := semOf_slot (h.own x List.mem_cons_self).1 p pre s
    unfold evalOps
    rw [sem]
    dsimp only
    rw [List.map_cons, List.map_cons, slot,
      ih ⟨fun y hy => h.own y (List.mem_cons_of_mem _ hy), (List.pairwise_cons.1 h.sorted).2⟩]

/-- Each word of a group means what it means after those of the lower slots that issue. -/
theorem evalOps_each {l : List (Nat × Instr)} (h : InSlots l) (s : State) (p : Nat) (pre : Pre) :
    ∀ x ∈ l, ∃ o ∈ evalOps s p pre l, ∃ pre', semOf x.2 p pre' s = some o ∧ o.slot = x.1 ∧
      After pre pre' (((evalOps s p pre l).filter (·.on)).filter (fun z => z.slot < x.1)) := by
  induction l generalizing pre with
  | nil => exact fun _ h => absurd h List.not_mem_nil
  | cons x l ih =>
    obtain ⟨low, sorted⟩ := List.pairwise_cons.1 h.sorted
    have rest : InSlots l := ⟨fun y hy => h.own y (List.mem_cons_of_mem _ hy), sorted⟩
    obtain ⟨o, sem, slot⟩ := semOf_slot (h.own x List.mem_cons_self).1 p pre s
    have eq : evalOps s p pre (x :: l) = o :: evalOps s p
        (if o.on then { pre with pops := pre.pops ++ o.pops, draws := pre.draws + o.draws } else pre) l := by
      conv_lhs => unfold evalOps
      rw [sem]
    have above : ∀ pre', ∀ z ∈ evalOps s p pre' l, x.1 < z.slot := by
      intro pre' z hz
      have hz' : z.slot ∈ (evalOps s p pre' l).map (·.slot) := List.mem_map_of_mem hz
      rw [evalOps_slots rest] at hz'
      obtain ⟨y, hy, hyz⟩ := List.mem_map.1 hz'
      exact hyz ▸ low y hy
    rw [eq]
    intro y hy
    rcases List.mem_cons.1 hy with rfl | hy
    · refine ⟨o, List.mem_cons_self, pre, sem, slot, ?_⟩
      have none : ∀ tail : List OpSem, (∀ z ∈ tail, y.1 < z.slot) →
          ((o :: tail).filter (·.on)).filter (fun z => z.slot < y.1) = [] := by
        intro tail above
        rw [List.filter_eq_nil_iff]
        intro z hz
        rcases List.mem_cons.1 (List.mem_of_mem_filter hz) with rfl | hz
        · simp [slot]
        · simpa using Nat.le_of_lt (above z hz)
      rw [none _ (above _)]
      exact ⟨rfl, (List.append_nil _).symm, rfl⟩
    · obtain ⟨z, hz, pre', sem', slot', after⟩ := ih rest _ y hy
      refine ⟨z, List.mem_cons_of_mem _ hz, pre', sem', slot', ?_⟩
      have first : o.slot < y.1 := slot ▸ low y hy
      cases on : o.on
      · rw [List.filter_cons_of_neg (by simp [on])]
        simpa [on] using after
      · rw [List.filter_cons_of_pos on, List.filter_cons_of_pos (by simp [first])]
        obtain ⟨next, pops, draws⟩ := after
        simp only [on, if_true] at next pops draws ⊢
        exact ⟨next, by rw [pops, List.append_assoc]; rfl, by rw [draws, Nat.add_assoc]; rfl⟩

theorem pairwise_of_slots {ops : List OpSem} {l : List (Nat × Instr)} (h : InSlots l) (slots : ops.map (·.slot) = l.map (·.1)) :
    InOrder ops := by
  have sorted : (ops.map (·.slot)).Pairwise (· < ·) := by
    rw [slots]
    exact List.pairwise_map.2 h.sorted
  refine inOrder_of_pairwise (List.pairwise_map.1 sorted) fun o ho => ?_
  have mem : o.slot ∈ l.map (·.1) := slots ▸ List.mem_map_of_mem ho
  obtain ⟨x, hx, hxo⟩ := List.mem_map.1 mem
  exact hxo ▸ (h.own x hx).2

theorem groupOps_inOrder {l : List (Nat × Instr)} (own : ∀ x ∈ l, x.2.slot = some x.1 ∧ x.1 < 16) (s : State) (p : Nat) (next : Word) :
    InOrder (groupOps s p next (slotOrder l)) :=
  pairwise_of_slots (slotOrder_inSlots own) (evalOps_slots (slotOrder_inSlots own) s p _)

end Sys2Proof.Machine
end

section
/-! SUPPORT. A group of any operations at its turn, in a cycle in which its position alone may issue (R37, R279). -/

namespace Sys2Proof.Machine

section
variable {s : State} {core q p : Nat} {f : Fetched} {ops : List OpSem}

theorem installFills_getCtx (core : Nat) (s : State) (r : Nat) : getCtx (installFills core s) r = getCtx s r :=
  congrArg (fun m : SMap Ctx => smGet ({} : Ctx) m r) (installFills_ctxs core s)

/-- A position at its group has its turn with it. -/
theorem AtGroup.start (h : AtGroup s p f) : AtStart s p := ⟨h.walk, h.exiting, .inr h.here⟩

theorem AtGroup.mid (h : AtGroup s p f) : midGroup (getCtx s p) = false := by simp [midGroup, h.idle, h.wait]

theorem AtGroup.fetch (h : AtGroup s p f) : fetchFor s p = .got f := fetchFor_got h.turn h.gate h.start h.mid h.fetched

theorem AtGroup.oneTurn (h : AtGroup (installFills core s) (2 * core + q) f) (side : q ≤ 1) (live : coreLive s core = true)
    (opened : s.bustat = 5) (clean : s.endw = []) (away : competes (getCtx s (2 * core + 1 - q)) = false)
    (awayYield : (getCtx s (2 * core + 1 - q)).yield = 0) : OneTurn s core q (.got f) :=
  ⟨side, live, opened, clean, by rw [← installFills_getCtx core s]; exact h.turn, h.start, h.fetch, nofun, away, awayYield⟩

/-! ### What becomes of an attempt -/

theorem tryGroup_traps {e : Cause} (h : firstCause (groupCauses (getCtx s p) f ops) = some e) :
    tryGroup s p f ops = .trap e f.grp.addr := by
  unfold tryGroup
  dsimp only
  rw [h]

theorem flatMap_filter_on (ops : List OpSem) :
    ops.flatMap (fun o => if o.on then o.recalls else []) = (ops.filter (·.on)).flatMap (·.recalls) := by
  induction ops with
  | nil => rfl
  | cons o ops ih =>
    rw [List.flatMap_cons, ih]
    cases on : o.on <;> simp [on]

theorem any_filter_on (ops : List OpSem) : ops.any (fun o => o.on && o.held) = (ops.filter (·.on)).any (·.held) := by
  rw [List.any_filter]

theorem tryGroup_blocks (sound : firstCause (groupCauses (getCtx s p) f ops) = none)
    (h : barBlocks s p = true ∨ groupBlocks (getCtx s p) (getCore s (coreOf p)) (p % 2) ops = true) :
    tryGroup s p f ops = .block ((ops.filter (·.on)).flatMap (·.recalls)) ((ops.filter (·.on)).any (·.held)) := by
  have held : (barBlocks s p || groupBlocks (getCtx s p) (getCore s (coreOf p)) (p % 2) ops) = true := by
    simpa [Bool.or_eq_true] using h
  unfold tryGroup
  dsimp only
  rw [sound]
  dsimp only
  rw [held, if_pos rfl, flatMap_filter_on, any_filter_on]

theorem MayIssue.ready (h : MayIssue s p f ops) : tryGroup s p f ops = .ready f.grp ops := by
  unfold tryGroup
  dsimp only
  rw [h.sound]
  dsimp only
  rw [h.bar, h.free]
  rfl

/-! ### What the cycle of one position leaves -/

theorem doGroupIssue_split {a : Attempt} (core p : Nat) (f : Fetching) (s : State) (h : hasIssue a = true) :
    (getCore (settleAttempt p a (turnState s core p f)) core).split = (getCore s core).split := by
  have same : ∀ u, getCore (settleAttempt p a u) core = getCore u core := by
    intro u
    cases a with
    | ready g ops => rfl
    | step => rfl
    | _ => cases h
  rw [same]
  unfold turnState fillFor
  split
  · rw [fillCode_core (fun k => k.split) (fun _ _ => rfl)]
    exact installFills_core (fun k => k.split) core core s (fun _ _ => rfl) (fun _ _ => rfl)
  · rw [show ∀ k u, getCore (askRecall k u) core = getCore u core from fun k u => by
      unfold askRecall
      split <;> rfl]
    exact installFills_core (fun k => k.split) core core s (fun _ _ => rfl) (fun _ _ => rfl)
  · exact installFills_core (fun k => k.split) core core s (fun _ _ => rfl) (fun _ _ => rfl)

/-- A position's attempt that does not issue, and its cycle. -/
theorem OneTurn.still (h : OneTurn s core q (.got f)) (yield : (getCtx s (2 * core + q)).yield = 0)
    (eval : groupOps (turnState s core (2 * core + q) (.got f)) (2 * core + q) f.grp.next (slotOrder f.grp.ops) = ops)
    {a : Attempt} (ha : tryGroup (turnState s core (2 * core + q) (.got f)) (2 * core + q) f ops = a) (still : hasIssue a = false) :
    doGroupIssue core s = tick core 1 (settleAttempt (2 * core + q) a (turnState s core (2 * core + q) (.got f))) := by
  rw [h.cycle a (ha ▸ congrArg (tryGroup _ _ f) eval) (.inr yield) (opsOf_still still ▸ inOrder_nil),
    cycleEnd_blocked still (settleAttempt_clean _ _ ((turnState_quiet s core _ _).2.trans h.clean))]

/-- A position's group that may issue, and its cycle. -/
theorem OneTurn.ready (h : OneTurn s core q (.got f))
    (eval : groupOps (turnState s core (2 * core + q) (.got f)) (2 * core + q) f.grp.next (slotOrder f.grp.ops) = ops)
    (order : InOrder ops) (may : MayIssue (turnState s core (2 * core + q) (.got f)) (2 * core + q) f ops) :
    doGroupIssue core s = tick core (subSteps (getCore s core).split (ops.map (·.slot))) (issueGroup (2 * core + q) f.grp ops
      (updCtx (2 * core + q) (fun c => { c with st := .ready, stalled := false }) (turnState s core (2 * core + q) (.got f)))) := by
  rw [h.cycle (.ready f.grp ops) (may.ready ▸ congrArg (tryGroup _ _ f) eval) (.inl rfl) order, cycleEnd_ready,
    doGroupIssue_split core _ _ s rfl]
  rfl

end

end Sys2Proof.Machine
end

section
/-! SUPPORT. Operations that have no effect beside their results, and the landing of what several of them leave (R35, R36, R110). -/

namespace Sys2Proof.Machine

/-! ### What the landing of results rests on -/

section
variable {p : Nat} {v w : State}

/-- What the results of a landing buffer leave in the registers rests on the registers and the buffer alone. -/
theorem landOne_files (e : Landing) (h : (getCtx v p).files = (getCtx w p).files) :
    (getCtx (landOne p e v) p).files = (getCtx (landOne p e w) p).files := by
  have control : ∀ n x (t : State), (getCtx (csrLand p n x t) p).files = (getCtx t p).files := by
    intro n x t
    unfold csrLand
    split <;> simp only [getCtx_updCtx_self, getCtx_updCore]
  unfold landOne
  split
  · simp only [getCtx_updCtx_self, regWrite, regGet, h]
  · simpa only [getCtx_updCtx_self] using h
  · simpa only [getCtx_updCtx_self] using h
  · rw [control, control, h]

theorem landStep_files (files : (getCtx v p).files = (getCtx w p).files) (landing : (getCtx v p).landing = (getCtx w p).landing) :
    (getCtx (landStep p v) p).files = (getCtx (landStep p w) p).files := by
  have all : ∀ (es : List Landing) (v w : State), (getCtx v p).files = (getCtx w p).files →
      (getCtx (es.foldl (fun t e => landOne p e t) v) p).files = (getCtx (es.foldl (fun t e => landOne p e t) w) p).files := by
    intro es
    induction es with
    | nil => exact fun _ _ h => h
    | cons e es ih => exact fun v w h => ih _ _ (landOne_files e h)
  have due : landDue (getCtx v p) = landDue (getCtx w p) := by
    unfold landDue
    rw [landing]
  rw [landStep_of p v Ctx.files (fun _ _ => rfl), landStep_of p w Ctx.files (fun _ _ => rfl), due]
  refine all _ _ _ ?_
  rw [getCtx_setCtx_self, getCtx_setCtx_self]
  exact files

theorem landOne_same (e : Landing) (h : getCtx v p = getCtx w p) : getCtx (landOne p e v) p = getCtx (landOne p e w) p := by
  unfold landOne csrLand
  (repeat' split) <;> simp only [getCtx_updCtx_self, getCtx_updCore, h]

/-- What a step's landing makes of its context rests on that context alone. -/
theorem landStep_same (h : getCtx v p = getCtx w p) : getCtx (landStep p v) p = getCtx (landStep p w) p := by
  have all : ∀ (es : List Landing) (v w : State), getCtx v p = getCtx w p →
      getCtx (es.foldl (fun t e => landOne p e t) v) p = getCtx (es.foldl (fun t e => landOne p e t) w) p := by
    intro es
    induction es with
    | nil => exact fun _ _ h => h
    | cons e es ih => exact fun v w h => ih _ _ (landOne_same e h)
  have landed := all (landStand (landDue (getCtx w p))) (setCtx p { getCtx w p with landing := landKeep (getCtx w p) } v)
    (setCtx p { getCtx w p with landing := landKeep (getCtx w p) } w) (by rw [getCtx_setCtx_self, getCtx_setCtx_self])
  unfold landStep
  dsimp only
  rw [h]
  split
  · rw [getCtx_updCtx_self, getCtx_updCtx_self, landed]
  · exact landed

theorem countStep_same (h : getCtx v p = getCtx w p) : getCtx (countStep p v) p = getCtx (countStep p w) p := by
  rw [countStep_eq, countStep_eq]
  exact landStep_same (by rw [getCtx_updCtx_self, getCtx_updCtx_self, h])

end

/-! ### Operations without an effect -/

/-- The results that operations bring to the landing buffer. -/
def landings (ops : List OpSem) (born : Nat) : List Landing :=
  (ops.filter (·.on)).flatMap (fun o => o.res.map (fun r => ⟨r.dest, r.value, r.mask, r.lat, o.slot, born, r.bad⟩))

/-- A context with the results and the draws of operations that have no other effect. -/
def gathered (ops : List OpSem) (c : Ctx) : Ctx :=
  { c with landing := c.landing ++ landings ops c.stepc, seed := advanceSeed ((ops.filter (·.on)).map (·.draws)).sum c.seed }

theorem advanceSeed_add (m n : Nat) (v : BitVec 32) : advanceSeed (m + n) v = advanceSeed n (advanceSeed m v) := by
  induction m generalizing v with
  | zero => rw [Nat.zero_add]; rfl
  | succ m ih =>
    rw [Nat.succ_add]
    exact ih _

theorem gathered_nil (c : Ctx) : gathered [] c = c := by
  unfold gathered landings
  simp [advanceSeed]

theorem gathered_off {o : OpSem} (ops : List OpSem) (c : Ctx) (off : o.on = false) : gathered (o :: ops) c = gathered ops c := by
  unfold gathered landings
  rw [List.filter_cons_of_neg (by simp [off])]

theorem gathered_on {o : OpSem} (ops : List OpSem) (c : Ctx) (on : o.on = true) :
    gathered (o :: ops) c = gathered ops { c with
      landing := c.landing ++ o.res.map (fun r => ⟨r.dest, r.value, r.mask, r.lat, o.slot, c.stepc, r.bad⟩)
      seed := advanceSeed o.draws c.seed } := by
  unfold gathered landings
  rw [List.filter_cons_of_pos on, List.flatMap_cons, List.map_cons, List.sum_cons, advanceSeed_add, List.append_assoc]

theorem addRes_ctx (p r : Nat) (o : OpSem) (s : State) : getCtx (addRes p o s) r = if r = p then { getCtx s p with
    landing := (getCtx s p).landing ++ o.res.map (fun r => ⟨r.dest, r.value, r.mask, r.lat, o.slot, (getCtx s p).stepc, r.bad⟩)
    seed := advanceSeed o.draws (getCtx s p).seed } else getCtx s r := by
  unfold addRes
  by_cases h : r = p
  · rw [if_pos h, h, getCtx_updCtx_self]
  · rw [if_neg h, getCtx_updCtx_ne _ _ h]

/-- From `s` to `t` only contexts have changed. -/
def OnlyCtxs (s t : State) : Prop := { t with ctxs := s.ctxs } = s

theorem OnlyCtxs.refl (s : State) : OnlyCtxs s s := rfl

theorem OnlyCtxs.trans {s t u : State} (h : OnlyCtxs s t) (k : OnlyCtxs t u) : OnlyCtxs s u := by
  unfold OnlyCtxs at *
  rw [← h, ← k]

theorem OnlyCtxs.updCtx (p : Nat) (f : Ctx → Ctx) (s : State) : OnlyCtxs s (updCtx p f s) := rfl

theorem OnlyCtxs.field {β : Type} {s t : State} (h : OnlyCtxs s t) (f : State → β) (hf : ∀ u x, f { u with ctxs := x } = f u) :
    f t = f s := by
  rw [← hf t s.ctxs]
  exact congrArg f h

/-- Operations without an effect leave their results, each in its own context. -/
theorem runMerged_plain {xs : List (Nat × OpSem)} (plain : ∀ x ∈ xs, x.2.effect = id) (s : State) :
    OnlyCtxs s (runMerged xs s) ∧
    ∀ r, getCtx (runMerged xs s) r = gathered ((xs.filter (fun x => x.1 == r)).map (·.2)) (getCtx s r) := by
  unfold runMerged
  induction xs generalizing s with
  | nil => exact ⟨.refl s, fun r => (gathered_nil _).symm⟩
  | cons x xs ih =>
    rw [List.foldl_cons, plain x List.mem_cons_self]
    obtain ⟨only, ctx⟩ := ih (fun y hy => plain y (List.mem_cons_of_mem _ hy)) (if x.2.on then id (addRes x.1 x.2 s) else s)
    refine ⟨OnlyCtxs.trans ?_ only, fun r => (ctx r).trans ?_⟩
    · split
      · exact (OnlyCtxs.updCtx x.1 _ s : OnlyCtxs s (addRes x.1 x.2 s))
      · exact .refl s
    · cases on : x.2.on
      · rw [if_neg Bool.false_ne_true]
        by_cases mine : x.1 = r
        · rw [List.filter_cons_of_pos (by simp [mine]), List.map_cons, gathered_off _ _ on]
        · rw [List.filter_cons_of_neg (by simp [mine])]
      · rw [if_pos rfl, id, addRes_ctx]
        by_cases mine : x.1 = r
        · rw [List.filter_cons_of_pos (by simp [mine]), List.map_cons, gathered_on _ _ on, if_pos mine.symm, mine]
        · rw [List.filter_cons_of_neg (by simp [mine]), if_neg (Ne.symm mine)]

/-- The same for the operations of one position. -/
theorem runOps_plain {ops : List OpSem} (plain : ∀ o ∈ ops, o.effect = id) (p : Nat) (s : State) :
    OnlyCtxs s (runOps p ops s) ∧ getCtx (runOps p ops s) p = gathered ops (getCtx s p) ∧
    ∀ r, r ≠ p → getCtx (runOps p ops s) r = getCtx s r := by
  obtain ⟨only, ctx⟩ := runMerged_plain (xs := ops.map (fun o => (p, o))) (by simpa using plain) s
  rw [runMerged_map] at only ctx
  refine ⟨only, (ctx p).trans ?_, fun r hr => (ctx r).trans ?_⟩
  · rw [List.filter_map]
    simp [Function.comp_def]
  · have none : (ops.map (fun o => (p, o))).filter (fun x => x.1 == r) = [] := by
      rw [List.filter_eq_nil_iff]
      intro x hx
      obtain ⟨o, -, rfl⟩ := List.mem_map.1 hx
      simpa using Ne.symm hr
    rw [none]
    exact gathered_nil _

/-- The state before the end of a group's step, its operations having no effect beside their results. -/
structure Gathers (p : Nat) (ops : List OpSem) (v z : State) : Prop where
  only : OnlyCtxs v z
  mine : getCtx z p = gathered ops { getCtx v p with barWait := none }
  others : ∀ r, r ≠ p → getCtx z r = getCtx v r

theorem issueGroup_gathers {p : Nat} {ops : List OpSem} {v : State} (plain : ∀ o ∈ ops, o.effect = id) (clean : v.endw = [])
    (ready : (getCtx v p).st = .ready) (g : Grp) :
    ∃ z, Gathers p ops v z ∧ issueGroup p g ops v = finishGroup p g ops z := by
  obtain ⟨only, mine, others⟩ := runOps_plain plain p (passBar p v)
  have passed : getCtx (passBar p v) p = { getCtx v p with barWait := none } := getCtx_updCtx_self ..
  have idle : (runOps p ops (passBar p v)).endw = [] := (only.field State.endw fun _ _ => rfl).trans clean
  refine ⟨runOps p ops (passBar p v), ⟨OnlyCtxs.trans (OnlyCtxs.updCtx p _ v) only, mine.trans (by rw [passed]), fun r hr => ?_⟩, ?_⟩
  · exact (others r hr).trans (getCtx_updCtx_ne _ _ hr)
  · have st : (getCtx (runOps p ops (passBar p v)) p).st = .ready := by
      rw [mine, passed]
      exact ready
    rw [issueGroup, commitWrites_nil _ idle, endGroup, st]
    rfl

theorem seqOf_flow {ops : List OpSem} (h : ∀ o ∈ ops, o.seq = .flow) : seqOf ops = .flow := by
  have none : ops.find? (fun o => o.on && o.seq != .flow) = none := by
    rw [List.find?_eq_none]
    intro o ho
    rw [h o ho]
    simp
  rw [seqOf, none]

section
variable {p : Nat} {ops : List OpSem} {v z : State} {g : Grp}

/-- The registers and the landing buffer after the step of such a group. -/
theorem Gathers.lands {w : State} (h : Gathers p ops v z) (nt : NoTrap ops) (files : (getCtx w p).files = (getCtx v p).files)
    (landing : (getCtx w p).landing = (getCtx v p).landing ++ landings ops (getCtx v p).stepc) :
    (∀ r, regGet (getCtx (finishGroup p g ops z) p) r = regGet (getCtx (landStep p w) p) r) ∧
    (getCtx (finishGroup p g ops z) p).landing = (getCtx (landStep p w) p).landing := by
  have ends := finishGroup_onlySeq nt p g z
  have asked := fun {β : Type} (f : Ctx → β) hf => request_field (β := β) f hf p g.op z
  have files' : (getCtx (updCtx p counted (request p g.op z)) p).files = (getCtx w p).files := by
    rw [getCtx_updCtx_self, files]
    exact (asked Ctx.files fun _ _ _ _ => rfl).trans (by rw [h.mine]; rfl)
  have landing' : (getCtx (updCtx p counted (request p g.op z)) p).landing = (getCtx w p).landing := by
    rw [getCtx_updCtx_self, landing]
    exact (asked Ctx.landing fun _ _ _ _ => rfl).trans (by rw [h.mine]; rfl)
  constructor
  · intro r
    rw [(plain_regGet r).seq _ _ ends.ctx, countStep_eq]
    unfold regGet
    rw [landStep_files files' landing']
  · rw [sameButSeq_landing ends.ctx, countStep_eq, landStep_landing, landStep_landing]
    unfold landKeep
    rw [landing']

theorem Gathers.seed (h : Gathers p ops v z) (nt : NoTrap ops)
    (none : ∀ e ∈ (getCtx v p).landing ++ landings ops (getCtx v p).stepc, e.rem ≤ 1 → e.dest ≠ .csr 5) :
    (getCtx (finishGroup p g ops z) p).seed = advanceSeed ((ops.filter (·.on)).map (·.draws)).sum (getCtx v p).seed := by
  have asked := fun {β : Type} (f : Ctx → β) hf => request_field (β := β) f hf p g.op z
  have due : ∀ e, DueIn (getCtx (request p g.op z) p) e → e.dest ≠ .csr 5 := by
    rintro e ⟨he, last⟩
    rw [asked Ctx.landing fun _ _ _ _ => rfl, h.mine] at he
    exact none e he last
  rw [(finishGroup_onlySeq nt p g z).keeps Ctx.seed plain_seed (.csr 5) due fun e t ne => landOne_seed_ne ne,
    asked Ctx.seed fun _ _ _ _ => rfl, h.mine]
  rfl

theorem Gathers.next (h : Gathers p ops v z) (flow : seqOf ops = .flow) (few : g.idle ≤ 1) (loops : (getCtx v p).loops = [])
    (walk : (getCtx v p).bodyWalk = none) : (getCtx (finishGroup p g ops z) p).pc = g.next :=
  finishGroup_next flow few (by rw [h.mine]; exact loops) (by rw [h.mine]; exact walk)

theorem finishGroup_step (nt : NoTrap ops) : (getCtx (finishGroup p g ops z) p).stepc = (getCtx z p).stepc + 1 ∧
    (getCtx (finishGroup p g ops z) p).denials = 0 := by
  have seq := (finishGroup_onlySeq nt p g z).ctx
  have step : ∀ {c d : Ctx}, sameButSeq c d → d.stepc = c.stepc ∧ d.denials = c.denials := by
    intro c d h
    have k := congrArg (fun x : Ctx => (x.stepc, x.denials)) h
    exact Prod.mk.inj k
  obtain ⟨s1, s2⟩ := step seq
  rw [s1, s2, countStep_field Ctx.stepc p _ fun c d e => by have k := congrArg Ctx.stepc e; exact k,
    countStep_field Ctx.denials p _ fun c d e => by have k := congrArg Ctx.denials e; exact k]
  refine ⟨congrArg (· + 1) ?_, rfl⟩
  exact request_field Ctx.stepc (fun _ _ _ _ => rfl) p g.op z

theorem finishGroup_apart (nt : NoTrap ops) : AtPos p z (finishGroup p g ops z) :=
  (request_atPos ..).trans ((countStep_atPos ..).trans (finishGroup_onlySeq nt p g z).apart)

end

end Sys2Proof.Machine
end

section
/-! SUPPORT. Two pops of one queue in a group (R157). -/

namespace Sys2Proof.Machine

/-! ### The core at the end of a step -/

section
variable {β : Type} {p : Nat} {ops : List OpSem} (f : Core → β)

theorem landOne_coreField (ctl : ∀ k a b, f { k with wfault := a, lease := b } = f k) (e : Landing) (j : Nat) (s : State) :
    f (getCore (landOne p e s) j) = f (getCore s j) := by
  have landed : ∀ n x, f (getCore (csrLand p n x s) j) = f (getCore s j) := by
    intro n x
    unfold csrLand
    split
    case h_2 =>
      by_cases h : j = coreOf p
      · rw [h, getCore_updCore_self]
        exact ctl ..
      · rw [getCore_updCore_ne _ _ h]
    all_goals rfl
  unfold landOne
  split
  case h_4 => exact landed ..
  all_goals rfl

theorem request_coreField (point : ∀ k a b, f { k with op := a, moves := b } = f k) (op : Option (BitVec 3)) (j : Nat) (s : State) :
    f (getCore (request p op s) j) = f (getCore s j) := by
  have pointed : ∀ t, f (getCore (repoint (p % 2) (coreOf p) t) j) = f (getCore t j) := by
    intro t
    unfold repoint
    dsimp only
    split
    · rfl
    · by_cases h : j = coreOf p
      · rw [h, getCore_updCore_self]
        exact point ..
      · rw [getCore_updCore_ne _ _ h]
  unfold request
  split
  · rfl
  · dsimp only
    split
    · rfl
    · exact pointed _

/-- What neither CTL nor an operating point enters is as it was in every core. -/
theorem finishGroup_coreField (ctl : ∀ k a b, f { k with wfault := a, lease := b } = f k)
    (point : ∀ k a b, f { k with op := a, moves := b } = f k) (nt : NoTrap ops) (g : Grp) (j : Nat) (s : State) :
    f (getCore (finishGroup p g ops s) j) = f (getCore s j) := by
  rw [(finishGroup_onlySeq nt p g s).cores, countStep_eq, landStep_getCore,
    landAll_keeps p (fun t => f (getCore t j)) _ _ fun e _ t => landOne_coreField f ctl e j t]
  exact request_coreField f point g.op j s

end

/-! ### The effect of a pop -/

/-- What `vpop` makes of a state: its row is taken, and its destination waits for it. -/
def popped (p n : Nat) (r : Reg) (mask : Vec) (row : Vec) (bad : Bool) (s : State) : State :=
  takeId p (addPend p r mask (getCtx s p).nextId 0 row bad (popRow p n s))

section
variable {p n m : Nat} {r : Reg} {mask row : Vec} {bad : Bool} {s : State}

theorem popRow_getCtx (p n q : Nat) (s : State) : getCtx (popRow p n s) q = getCtx s q := by
  unfold popRow
  split <;> rfl

theorem popped_ctx : getCtx (popped p n r mask row bad s) p = { getCtx s p with
    pend := (getCtx s p).pend ++ [⟨r, mask, (getCtx s p).nextId, 0, row, bad, []⟩], nextId := (getCtx s p).nextId + 1 } := by
  unfold popped takeId addPend
  rw [getCtx_updCtx_self, getCtx_updCtx_self, popRow_getCtx]

theorem popped_rows (h : queueOf (getCtx s p) p n = some m) :
    queueRows (popped p n r mask row bad s) p m = (queueRows s p m).drop 1 := by
  have core : getCore (popped p n r mask row bad s) (coreOf p) = getCore (popRow p n s) (coreOf p) := rfl
  unfold queueRows
  rw [core, popRow, h]
  dsimp only
  rw [getCore_updCore_self]
  exact smGet_set_self ..

theorem popped_endw : (popped p n r mask row bad s).endw = s.endw := by
  unfold popped popRow
  split <;> rfl

end

/-- Of two pops of one queue the first takes its first row, the second its second. -/
theorem popCheck_at {s : State} {p slot n m k need : Nat} {x : QRow} (hq : queueOf (getCtx s p) p n = some m)
    (rows : need ≤ (queueRows s p m).length) (at_ : (queueRows s p m)[k]? = some x) :
    popCheck s p slot n k need = (some x, none, false) := by
  unfold popCheck
  dsimp only
  rw [hq]
  dsimp only
  rw [if_pos rows, at_]

theorem guardOn_zero (c : Ctx) : guardOn c 0 = true := rfl

section
variable {s : State} {p m : Nat} {d e : BitVec 4} {r : BitVec 3} {t1 t2 : BitVec 4} {x y : QRow} {ys : List QRow}

/-- The first pop of a pair. -/
theorem semVpop_first {pre : Pre} (total : pre.total = [r.toNat, r.toNat]) (before : pre.pops = [])
    (hq : queueOf (getCtx s p) p r.toNat = some m) (rows : queueRows s p m = x :: y :: ys) (t0 : State) :
    (semVpop .va 0 d r 0 t1 p pre s).effect t0 = popped p r.toNat (vReg (getCtx s p) .va d)
      (activeMask (regGet (getCtx s p) (kReg .va 0)) t1.toNat (typeCount t1.toNat)) x.row x.bad t0 := by
  have need : popsNeed pre r.toNat 1 = 2 := by
    unfold popsNeed
    rw [total, before]
    simp
  have row : popCheck s p VSlot.va.num r.toNat 0 2 = (some x, none, false) := popCheck_at hq (by rw [rows]; simp) (by rw [rows]; rfl)
  unfold semVpop
  dsimp only
  rw [need, before, show ([] : List Nat).countP (· == r.toNat) = 0 from rfl, row]
  show popped p r.toNat _ _ _ (x.bad || anyBad (getCtx s p) []) t0 = _
  rw [show anyBad (getCtx s p) [] = false from rfl, Bool.or_false]
  rfl

/-- The second. -/
theorem semVpop_second {pre : Pre} (total : pre.total = [r.toNat, r.toNat]) (before : pre.pops = [r.toNat])
    (hq : queueOf (getCtx s p) p r.toNat = some m) (rows : queueRows s p m = x :: y :: ys) (t0 : State) :
    (semVpop .vb 0 e r 0 t2 p pre s).effect t0 = popped p r.toNat (vReg (getCtx s p) .vb e)
      (activeMask (regGet (getCtx s p) (kReg .vb 0)) t2.toNat (typeCount t2.toNat)) y.row y.bad t0 := by
  have need : popsNeed pre r.toNat 1 = 2 := by
    unfold popsNeed
    rw [total, before]
    simp
  have row : popCheck s p VSlot.vb.num r.toNat 1 2 = (some y, none, false) := popCheck_at hq (by rw [rows]; simp) (by rw [rows]; rfl)
  unfold semVpop
  dsimp only
  rw [need, before, show [r.toNat].countP (· == r.toNat) = 1 by simp, row]
  show popped p r.toNat _ _ _ (y.bad || anyBad (getCtx s p) []) t0 = _
  rw [show anyBad (getCtx s p) [] = false from rfl, Bool.or_false]
  rfl

/-- A group of two pops, evaluated. -/
theorem groupOps_pops (s : State) (p : Nat) (next : Word) (d e : BitVec 4) (r : BitVec 3) (t1 t2 : BitVec 4) :
    groupOps s p next (slotOrder [(2, .vpop .va 0 d r 0 t1), (3, .vpop .vb 0 e r 0 t2)]) =
      [semVpop .va 0 d r 0 t1 p { next := next, total := [r.toNat, r.toNat] } s,
        semVpop .vb 0 e r 0 t2 p { next := next, total := [r.toNat, r.toNat], pops := [r.toNat] } s] := rfl

theorem addRes_pend {p : Nat} {o : OpSem} (s : State) (res : o.res = []) (draws : o.draws = 0) :
    getCtx (addRes p o s) p = getCtx s p := by
  rw [addRes_ctx, if_pos rfl, res, draws]
  simp [advanceSeed]

end

/-- An operation is a pop of queue `n` that brings `row` to register `r`. -/
structure Pops (p n : Nat) (r : Reg) (mask : Vec) (row : QRow) (o : OpSem) : Prop where
  on : o.on = true
  res : o.res = []
  draws : o.draws = 0
  effect : ∀ s, o.effect s = popped p n r mask row.row row.bad s

theorem addRes_rows (p m : Nat) (o : OpSem) (s : State) : queueRows (addRes p o s) p m = queueRows s p m := rfl

theorem addRes_endw (p : Nat) (o : OpSem) (s : State) : (addRes p o s).endw = s.endw := rfl

/-- Both pops of a group take effect: the rows leave the queue, and the destinations wait in slot order. -/
theorem runOps_pops {p n m : Nat} {r1 r2 : Reg} {m1 m2 : Vec} {x y : QRow} {ys : List QRow} {a b : OpSem} {v : State}
    (first : Pops p n r1 m1 x a) (second : Pops p n r2 m2 y b) (hq : queueOf (getCtx v p) p n = some m)
    (rows : queueRows v p m = x :: y :: ys) :
    queueRows (runOps p [a, b] v) p m = ys ∧ (runOps p [a, b] v).endw = v.endw ∧ getCtx (runOps p [a, b] v) p = { getCtx v p with
      pend := (getCtx v p).pend ++ [⟨r1, m1, (getCtx v p).nextId, 0, x.row, x.bad, []⟩,
        ⟨r2, m2, (getCtx v p).nextId + 1, 0, y.row, y.bad, []⟩]
      nextId := (getCtx v p).nextId + 2 } := by
  have run : runOps p [a, b] v = popped p n r2 m2 y.row y.bad (addRes p b (popped p n r1 m1 x.row x.bad (addRes p a v))) := by
    unfold runOps
    rw [List.foldl_cons, List.foldl_cons, List.foldl_nil, if_pos first.on, if_pos second.on, first.effect, second.effect]
  have here : getCtx (addRes p a v) p = getCtx v p := addRes_pend v first.res first.draws
  have then_ : ∀ w, getCtx (addRes p b w) p = getCtx w p := fun w => addRes_pend w second.res second.draws
  have hq1 : queueOf (getCtx (addRes p a v) p) p n = some m := by rw [here]; exact hq
  have hq2 : queueOf (getCtx (addRes p b (popped p n r1 m1 x.row x.bad (addRes p a v))) p) p n = some m := by
    rw [then_, popped_ctx, here]
    exact hq
  rw [run]
  refine ⟨?_, ?_, ?_⟩
  · rw [popped_rows hq2, addRes_rows, popped_rows hq1, addRes_rows, rows]
    rfl
  · rw [popped_endw, addRes_endw, popped_endw, addRes_endw]
  · rw [popped_ctx, then_, popped_ctx, here, List.append_assoc, List.singleton_append]

end Sys2Proof.Machine
end

section
/-! SUPPORT. What the end of a group's step rests on: its own context, and what its position fetches (R27, R90 to R95, R425). -/

namespace Sys2Proof.Machine

/-! ### What a fetch rests on -/

/-- What of a context a fetch reads. -/
def fetchView (c : Ctx) := (c.extents, c.ranges, c.serves, c.sup)

theorem fetchView_eq {c d : Ctx} (h : fetchView d = fetchView c) :
    d.extents = c.extents ∧ d.ranges = c.ranges ∧ d.serves = c.serves ∧ d.sup = c.sup := by
  unfold fetchView at h
  obtain ⟨h1, h2⟩ := Prod.mk.inj h
  obtain ⟨h2, h3⟩ := Prod.mk.inj h2
  exact ⟨h1, h2, Prod.mk.inj h3⟩

/-- From `s` to `t` only contexts and cores have changed, and of them nothing that the fetches of position `p` read. -/
structure SameCode (p : Nat) (s t : State) : Prop where
  rest : { t with ctxs := s.ctxs, cores := s.cores } = s
  view : ∀ r, fetchView (getCtx t r) = fetchView (getCtx s r)
  icache : (getCore t (coreOf p)).icache = (getCore s (coreOf p)).icache

section
variable {p : Nat} {s t : State}

theorem SameCode.field {β : Type} (h : SameCode p s t) (f : State → β) (hf : ∀ u x y, f { u with ctxs := x, cores := y } = f u) :
    f t = f s := by
  rw [← hf t s.ctxs s.cores]
  exact congrArg f h.rest

theorem translate_same (h : SameCode p s t) (va : Word) (a : Access) : translate t p va a = translate s p va a := by
  have owner : extOwner t p = extOwner s p := by
    unfold extOwner
    rw [(fetchView_eq (h.view p)).2.2.1]
  obtain ⟨extents, ranges, -, -⟩ := fetchView_eq (h.view (extOwner s p))
  unfold translate grantsAt
  simp only [owner, extents, ranges, (fetchView_eq (h.view p)).2.2.2]

theorem codePlace_same (h : SameCode p s t) (va : Word) : codePlace t p va = codePlace s p va := by
  have places : ∀ w d pa, placeOf t w d pa = placeOf s w d pa := fun w d pa =>
    h.field (fun u => placeOf u w d pa) fun _ _ _ => rfl
  unfold codePlace
  rw [translate_same h]
  simp only [places]

theorem fetchLine_same (h : SameCode p s t) (va : Word) : fetchLine t p va = fetchLine s p va := by
  have waits : ∀ w d home k, readWaits t w d home k = readWaits s w d home k := fun w d home k =>
    h.field (fun u => readWaits u w d home k) fun _ _ _ => rfl
  have grants : ∀ w k b, grantHolds t w k b = grantHolds s w k b := fun w k b => h.field (fun u => grantHolds u w k b) fun _ _ _ => rfl
  have far : ∀ w home k, farWaits t w home k = farWaits s w home k := fun w home k =>
    h.field (fun u => farWaits u w home k) fun _ _ _ => rfl
  have line : ∀ k, codeLine t (coreOf p) k = codeLine s (coreOf p) k := by
    intro k
    unfold codeLine
    rw [h.icache, h.field State.mem fun _ _ _ => rfl, h.field State.fresh fun _ _ _ => rfl]
  unfold fetchLine
  rw [codePlace_same h, h.icache]
  simp only [waits, grants, far, line]

end

/-! ### What the walks through code rest on -/

/-- Both states give the same lines to the fetches of position `p`. -/
def SameLines (p : Nat) (s t : State) : Prop := ∀ va, fetchLine t p va = fetchLine s p va

section
variable {p : Nat} {s t : State} (h : SameLines p s t)
include h

theorem groupAddr_same (n : Nat) (a : Word) : groupAddr t p n a = groupAddr s p n a := by
  induction n generalizing a with
  | zero => rfl
  | succ n ih =>
    unfold groupAddr
    rw [h a]
    simp only [ih]

theorem bundleEnd_same (base : Word) (l : BitVec 512) (w i : Nat) : bundleEnd t p base l w i = bundleEnd s p base l w i := by
  unfold bundleEnd
  rw [h]

theorem oneGroup_same (n : Nat) (a : Word) (st : Option Word) : oneGroup t p n a st = oneGroup s p n a st := by
  induction n generalizing a st with
  | zero => rfl
  | succ n ih =>
    unfold oneGroup
    rw [h a]
    simp only [ih, bundleEnd_same h]

theorem walkFrom_same (n : Nat) (a : Word) : walkFrom t p n a = walkFrom s p n a := by
  induction n generalizing a with
  | zero => rfl
  | succ n ih =>
    unfold walkFrom
    rw [oneGroup_same h]
    simp only [ih]

theorem nextBody_same (gs : List Grp) (a : Word) : nextBody t p gs a = nextBody s p gs a := by
  unfold nextBody
  rw [oneGroup_same h, groupAddr_same h]

theorem meetBody_same (gs : List Grp) (a : Word) (n : Nat) (e : LoopEntry) : meetBody t p gs a n e = meetBody s p gs a n e := by
  induction n generalizing e with
  | zero => rfl
  | succ n ih =>
    unfold meetBody
    rw [nextBody_same h]
    simp only [ih]

theorem locate_same (g : Grp) (e : LoopEntry) : locate t p g e = locate s p g e := by
  unfold locate
  rw [meetBody_same h]

theorem popTo_same (a : Word) (l : List LoopEntry) : popTo t p a l = popTo s p a l := by
  induction l with
  | nil => rfl
  | cons e l ih =>
    unfold popTo
    rw [meetBody_same h, ih]

theorem leaveTo_same (a : Word) (c : Ctx) : leaveTo t p a c = leaveTo s p a c := by
  unfold leaveTo
  rw [popTo_same h]

theorem sequence_same (g : Grp) (q : SeqAct) (c : Ctx) : sequence t p g q c = sequence s p g q c := by
  cases q
  case jump a pops =>
    unfold sequence
    dsimp only
    rw [leaveTo_same h]
  all_goals rfl

end

/-! ### What a step rests on -/

theorem SameCode.lines {p : Nat} {s t : State} (h : SameCode p s t) : SameLines p s t := fetchLine_same h

theorem SameCode.trans {p : Nat} {s t u : State} (h : SameCode p s t) (k : SameCode p t u) : SameCode p s u where
  rest := by
    have l := congrArg (fun x : State => { x with ctxs := s.ctxs, cores := s.cores }) k.rest
    exact l.trans h.rest
  view r := (k.view r).trans (h.view r)
  icache := k.icache.trans h.icache

/-- A step of one position that keeps what fetches read of it. -/
theorem SameCode.of_atPos {p q : Nat} {s t : State} (apart : AtPos q s t) (view : fetchView (getCtx t q) = fetchView (getCtx s q))
    (icache : ∀ k, (getCore t k).icache = (getCore s k).icache) : SameCode p s t := by
  refine ⟨apart.rest, fun r => ?_, icache _⟩
  by_cases h : r = q
  · rw [h, view]
  · rw [apart.ctxs r h]

theorem SameLines.updCtx {p q : Nat} {f : Ctx → Ctx} {s : State} (hf : ∀ c, fetchView (f c) = fetchView c) :
    SameLines p s (updCtx q f s) :=
  (SameCode.of_atPos (.updCtx q f s) (by rw [getCtx_updCtx_self, hf]) fun _ => rfl).lines

theorem fetchView_seq {c d : Ctx} (h : sameButSeq c d) : fetchView d = fetchView c := by
  have k := congrArg fetchView h
  exact k

theorem fetchView_step {c d : Ctx} (h : sameButStep c d) : fetchView d = fetchView c := by
  have k := congrArg fetchView h
  exact k

/-- The count and the landing of a step keep what fetches read. -/
theorem SameCode.count (p q : Nat) (op : Option (BitVec 3)) (s : State) : SameCode q s (countStep p (request p op s)) := by
  refine .of_atPos ((request_atPos p op s).trans (countStep_atPos ..)) ?_ fun k => ?_
  · exact (countStep_field fetchView p _ fun c d => fetchView_step).trans (request_field fetchView (fun _ _ _ _ => rfl) p op s)
  · rw [countStep_eq, landStep_getCore,
      landAll_keeps p (fun t => (getCore t k).icache) _ _ fun e _ t => landOne_coreField Core.icache (fun _ _ _ => rfl) e k t]
    exact request_coreField Core.icache (fun _ _ _ => rfl) op k s

/-- The step of a group keeps what fetches read. -/
theorem SameCode.finish {ops : List OpSem} (nt : NoTrap ops) (p q : Nat) (g : Grp) (s : State) : SameCode q s (finishGroup p g ops s) := by
  have ends := finishGroup_onlySeq nt p g s
  exact (SameCode.count p q g.op s).trans
    (.of_atPos ends.apart (fetchView_seq ends.ctx) fun k => congrArg Core.icache (ends.cores k))

section
variable {p : Nat} {s t : State} {g : Grp} {ops : List OpSem}

theorem request_same (h : getCtx t p = getCtx s p) (op : Option (BitVec 3)) : getCtx (request p op t) p = getCtx (request p op s) p := by
  have pointed : ∀ c (v : State), getCtx (repoint (p % 2) (coreOf p) (setCtx p c v)) p = c := by
    intro c v
    unfold getCtx
    rw [repoint_ctxs]
    exact getCtx_setCtx_self ..
  unfold request
  split
  · exact h
  · dsimp only
    rw [h]
    split
    · exact h
    · rw [pointed, pointed]

theorem proceeded_same (h : SameLines p s t) (c : Ctx) : proceeded t p g ops c = proceeded s p g ops c := by
  have place : ∀ e, locate t p g e = locate s p g e := locate_same h g
  have caught : ∀ (b : LoopEntry → LoopEntry) (c : Ctx), fetchView (capture g { c with loops := c.loops.map b }) = fetchView c :=
    fun b c => fetchView_seq (sameButSeq_trans (b := { c with loops := c.loops.map b }) rfl (capture_seq ..))
  have lines : ∀ b : LoopEntry → LoopEntry, SameLines p (updCtx p (fun c => capture g { c with loops := c.loops.map b }) s)
      (updCtx p (fun c => capture g { c with loops := c.loops.map b }) t) := fun b va =>
    (SameLines.updCtx (caught b) va).trans ((h va).trans (SameLines.updCtx (caught b) va).symm)
  unfold proceeded
  simp only [place]
  split
  · rfl
  · exact sequence_same (lines _) g _ _

theorem walkOn_same (h : SameLines p s t) (c : getCtx t p = getCtx s p) : getCtx (walkOn p t) p = getCtx (walkOn p s) p := by
  unfold walkOn
  dsimp only
  rw [c]
  split
  · rw [getCtx_setCtx_self, getCtx_setCtx_self, leaveTo_same h]
  · cases (getCtx s p).bodyWalk with
    | none => exact c
    | some x =>
      dsimp only
      rw [walkFrom_same h]
      split <;> rw [getCtx_updCtx_self, getCtx_updCtx_self, c]

/-- A settling window stays open, or closes where its transition is over. -/
theorem closeWindow_ctx (p : Nat) (s : State) : getCtx (closeWindow p s) p = { getCtx s p with windowOpen := (getCtx s p).windowOpen &&
    !((getCtx s p).window == 0 && !(getCore s (coreOf p)).moves.contains (p % 2)) } := by
  have self : ∀ (c : Ctx) (b : Bool), b = c.windowOpen → c = { c with windowOpen := b } := by
    rintro c _ rfl
    rfl
  unfold closeWindow
  dsimp only
  rw [Bool.and_assoc]
  generalize ((getCtx s p).window == 0 && !(getCore s (coreOf p)).moves.contains (p % 2)) = ended
  cases ended
  · rw [Bool.and_false, if_neg Bool.false_ne_true]
    exact self _ _ (Bool.and_true _)
  · rw [Bool.and_true]
    split
    · rw [getCtx_setCtx_self, Bool.not_true, Bool.and_false]
    · next h => exact self _ _ (by simpa using h)

/-- What the end of a group's step makes of its context rests on that context and on what its position fetches; whether its settling
window has ended, on its core too. -/
theorem finishGroup_same (nt : NoTrap ops) (h : SameCode p s t) (c : getCtx t p = getCtx s p) :
    ∃ w, getCtx (finishGroup p g ops t) p = { getCtx (finishGroup p g ops s) p with windowOpen := w } ∧
      ((getCore (request p g.op t) (coreOf p)).moves = (getCore (request p g.op s) (coreOf p)).moves →
        w = (getCtx (finishGroup p g ops s) p).windowOpen) := by
  have counts : getCtx (countStep p (request p g.op t)) p = getCtx (countStep p (request p g.op s)) p :=
    countStep_same (request_same c g.op)
  have lines : SameLines p (countStep p (request p g.op s)) (countStep p (request p g.op t)) := fun va =>
    ((SameCode.count p p g.op t).lines va).trans ((h.lines va).trans ((SameCode.count p p g.op s).lines va).symm)
  generalize hu : updCtx p (proceeded (countStep p (request p g.op s)) p g ops) (countStep p (request p g.op s)) = u
  generalize hv : updCtx p (proceeded (countStep p (request p g.op t)) p g ops) (countStep p (request p g.op t)) = v
  have ctx : getCtx v p = getCtx u p := by
    rw [← hu, ← hv, getCtx_updCtx_self, getCtx_updCtx_self, counts, proceeded_same lines]
  have lines' : SameLines p u v := by
    have on : ∀ x : State, SameLines p x (updCtx p (proceeded x p g ops) x) := fun x =>
      SameLines.updCtx fun d => fetchView_seq (proceeded_seq x p g ops d)
    intro va
    rw [← hu, ← hv]
    exact (on _ va).trans ((lines va).trans (on _ va).symm)
  have walked := walkOn_same lines' ctx
  rw [finishGroup_eq, finishGroup_eq, afterTrap_none nt, afterTrap_none nt, hu, hv, closeWindow_ctx, closeWindow_ctx, walked]
  refine ⟨_, rfl, fun moves => ?_⟩
  have kept : ∀ x : State, (getCore (walkOn p (updCtx p (proceeded (countStep p (request p g.op x)) p g ops)
      (countStep p (request p g.op x)))) (coreOf p)).moves = (getCore (request p g.op x) (coreOf p)).moves := by
    intro x
    rw [(walkOn_onlySeq p _).cores, getCore_updCtx, countStep_eq, landStep_getCore,
      landAll_keeps p (fun t => (getCore t (coreOf p)).moves) _ _ fun e _ t => landOne_coreField Core.moves (fun _ _ _ => rfl) e _ t]
    rfl
  rw [← hu, ← hv, kept, kept, moves]

end

end Sys2Proof.Machine
end

section
/-! SUPPORT. The junction of two contexts at their groups (R37, R38, R39). -/

namespace Sys2Proof.Machine

/-! ### The attempts of both -/

section
variable {s : State} {core : Nat} {f g : Fetched}

theorem settleAttempt_competes {p : Nat} {a : Attempt} {u : State} (turn : competes (getCtx u p) = true)
    (quiet : ∀ e ga, a ≠ .trap e ga) {r : Nat} (h : competes (getCtx u r) = true) :
    competes (getCtx (settleAttempt p a u) r) = true := by
  have after : (getCtx u p).after.isEmpty = true := by
    simp only [competes, Bool.and_eq_true] at turn
    exact turn.2
  have settled : ∀ st b, st = .ready ∨ st = .blocked →
      competes (getCtx (updCtx p (fun c => { c with st := st, stalled := b }) u) r) = true := by
    intro st b hst
    by_cases hr : r = p
    · rw [hr, getCtx_updCtx_self]
      rcases hst with rfl | rfl <;> simp [competes, after]
    · rw [getCtx_updCtx_ne _ _ hr]
      exact h
  cases a with
  | ready g ops => exact settled _ _ (.inl rfl)
  | step => exact settled _ _ (.inl rfl)
  | idleOut => exact h
  | trap e ga => exact absurd rfl (quiet e ga)
  | block ks b =>
    refine (congrArg (fun m : SMap Ctx => competes (smGet ({} : Ctx) m r)) (askRecalls_ctxs ks _)).trans ?_
    exact settled .blocked b (.inr rfl)

/-- The state in which the groups of both positions are tried. -/
def triedTwo (s : State) (core : Nat) (f g : Fetched) : State :=
  fillCode (2 * core + 1) g.lines (fillCode (2 * core) f.lines { installFills core s with cur := 2 * core })

/-- A cycle of two positions at their groups: the attempts of both, settled, and the junction. -/
theorem doGroupIssue_two {a b : Attempt} (hf : AtGroup (installFills core s) (2 * core) f)
    (hg : AtGroup (installFills core s) (2 * core + 1) g) (live : coreLive s core = true) (opened : s.bustat = 5)
    (ha : tryGroup (triedTwo s core f g) (2 * core) f (groupOps (triedTwo s core f g) (2 * core) f.grp.next (slotOrder f.grp.ops)) = a)
    (hb : tryGroup (triedTwo s core f g) (2 * core + 1) g
      (groupOps (triedTwo s core f g) (2 * core + 1) g.grp.next (slotOrder g.grp.ops)) = b)
    (qa : ∀ e ga, a ≠ .trap e ga) (qb : ∀ e ga, b ≠ .trap e ga) :
    doGroupIssue core s = issueCycle core a b
      (settleAttempt (2 * core + 1) b (settleAttempt (2 * core) a (triedTwo s core f g))) := by
  have gate : (!(coreLive s core && s.bustat == 5)) = false := by rw [live, opened]; rfl
  have turns : ∀ r, competes (getCtx (triedTwo s core f g) r) = competes (getCtx (installFills core s) r) := fun r =>
    (fillCode_field competes (fun _ _ => rfl) ..).trans (fillCode_field competes (fun _ _ => rfl) ..)
  have tp : competes (getCtx (triedTwo s core f g) (2 * core)) = true := (turns _).trans hf.turn
  have tq : competes (getCtx (triedTwo s core f g) (2 * core + 1)) = true := (turns _).trans hg.turn
  have stillB : stillFor (settleAttempt (2 * core) a (triedTwo s core f g)) (2 * core + 1) b = b :=
    if_pos (settleAttempt_competes tp qa tq)
  have stillA : stillFor (settleAttempt (2 * core + 1) b (settleAttempt (2 * core) a (triedTwo s core f g))) (2 * core) a = a :=
    if_pos (settleAttempt_competes (settleAttempt_competes tp qa tq) qb (settleAttempt_competes tp qa tp))
  unfold doGroupIssue
  dsimp only
  rw [gate, toGroup_stays hf.start, toGroup_stays hg.start, hf.fetch, hg.fetch, if_neg Bool.false_ne_true]
  have tried : fillFor (2 * core + 1) (.got g) (fillFor (2 * core) (.got f)
      { installFills core s with cur := leader (2 * core) (.got f) }) = triedTwo s core f g := rfl
  have tryA : attempt (triedTwo s core f g) (2 * core) (.got f) = a := ha
  have tryB : attempt (triedTwo s core f g) (2 * core + 1) (.got g) = b := hb
  rw [tried, tryA, tryB, stillB, stillA]

/-! ### Which of them issues -/

variable {a b : Attempt} {v : State}

theorem choose_calm (cy : (getCtx v (2 * core)).yield = 0) (dy : (getCtx v (2 * core + 1)).yield = 0) :
    choose v (2 * core) a b = if hasIssue a && hasIssue b && overlap a b then
      (if firstWins (getCtx v (2 * core)) (getCtx v (2 * core + 1)) then (true, false) else (false, true))
      else (hasIssue a, hasIssue b) := by
  unfold choose
  simp [cy, dy]

theorem issued_false (a : Attempt) : issued false a = .idleOut := rfl

theorem issued_true (a : Attempt) : issued true a = a := rfl

theorem opsOf_idleOut : opsOf .idleOut = [] := rfl

theorem settleTurn_took (p : Nat) (ready other : Bool) (s : State) : settleTurn p ready true other s = s := rfl

theorem settleTurn_core (p k : Nat) (ready took other : Bool) (s : State) : getCore (settleTurn p ready took other s) k = getCore s k := by
  unfold settleTurn
  dsimp only
  (repeat' split) <;> rfl

/-- The first position issues, the other does not. -/
theorem issueCycle_tookFirst (w : choose v (2 * core) a b = (true, false)) (order : InOrder (opsOf a)) :
    issueCycle core a b v = cycleEnd core (2 * core) a (settleTurn (2 * core + 1) (hasIssue b) false true v) := by
  unfold issueCycle
  dsimp only
  rw [w]
  dsimp only
  rw [cycleEnd, settleTurn_core, issued_false, issued_true, opsOf_idleOut, List.append_nil, mergedOps_first _ order, settleTurn_took,
    runMerged_map]
  rfl

/-- The second position issues, the first does not. -/
theorem issueCycle_tookSecond (w : choose v (2 * core) a b = (false, true)) (order : InOrder (opsOf b)) :
    issueCycle core a b v = cycleEnd core (2 * core + 1) b (settleTurn (2 * core) (hasIssue a) false true v) := by
  unfold issueCycle
  dsimp only
  rw [w]
  dsimp only
  rw [cycleEnd, settleTurn_core, issued_false, issued_true, opsOf_idleOut, List.nil_append, mergedOps_second _ order, settleTurn_took,
    runMerged_map]
  rfl

/-- A context that could have issued is denied once more. -/
theorem settleTurn_denied {p : Nat} (yield : (getCtx v p).yield = 0) :
    settleTurn p true false true v = updCtx p (fun c => { c with denials := min 15 (c.denials + 1) }) v := by
  unfold settleTurn
  dsimp only
  rw [if_neg Bool.false_ne_true, if_pos (by simp [yield])]
  rfl

/-- Both issue. -/
theorem issueCycle_tookBoth {f g : Grp} {A B : List OpSem} (w : choose v (2 * core) (.ready f A) (.ready g B) = (true, true)) :
    issueCycle core (.ready f A) (.ready g B) v = tick core (subSteps (getCore v core).split ((A ++ B).map (·.slot)))
      (endGroup (2 * core + 1) g B (endGroup (2 * core) f A (commitWrites
        (runMerged (mergedOps (2 * core) A B) (passBar (2 * core + 1) (passBar (2 * core) v)))))) := by
  unfold issueCycle
  dsimp only
  rw [w]
  dsimp only
  rw [issued_true, issued_true, settleTurn_took, settleTurn_took]
  rfl

end

/-! ### Both groups take effect -/

/-- Of the operations of both positions in slot order, those of one position in their order. -/
theorem mergedOps_filter {A B : List OpSem} (p : Nat) (a : InOrder A) (b : InOrder B) :
    ((mergedOps p A B).filter (fun x => x.1 == p)).map (·.2) = A ∧ ((mergedOps p A B).filter (fun x => x.1 == p + 1)).map (·.2) = B := by
  have split : ∀ r : Nat, ∀ C : List OpSem,
      (∀ k, ((A.map (fun o => (p, o)) ++ B.map (fun o => (p + 1, o))).filter (fun x => x.2.slot == k)).filter (fun x => x.1 == r) =
        (C.filter (fun o => o.slot == k)).map (fun o => (r, o))) → InOrder C →
      ((mergedOps p A B).filter (fun x => x.1 == r)).map (·.2) = C := by
    intro r C each order
    unfold mergedOps
    dsimp only
    rw [List.filter_flatMap, List.map_flatMap]
    simp only [each, List.map_map]
    refine Eq.trans ?_ order
    refine List.flatMap_congr fun k _ => ?_
    exact List.map_id _
  constructor
  · refine split p A (fun k => ?_) a
    rw [List.filter_filter, List.filter_append, List.filter_map, List.filter_map]
    simp [Function.comp_def]
  · refine split (p + 1) B (fun k => ?_) b
    rw [List.filter_filter, List.filter_append, List.filter_map, List.filter_map]
    simp [Function.comp_def]

theorem repoint_core {c : Nat} {s t : State} (point : pointOf t c = pointOf s c) (cores : ∀ j, getCore t j = getCore s j) (side k : Nat) :
    getCore (repoint side c t) k = getCore (repoint side c s) k := by
  unfold repoint
  dsimp only
  by_cases h : pointOf s c = (getCore s c).op
  · rw [if_pos h, if_pos (by rw [point, cores]; exact h)]
    exact cores k
  · rw [if_neg h, if_neg (by rw [point, cores]; exact h)]
    by_cases hk : k = c
    · rw [hk, getCore_updCore_self, getCore_updCore_self, cores, point]
    · rw [getCore_updCore_ne _ _ hk, getCore_updCore_ne _ _ hk, cores]

/-- The operating point that a request gives a core rests on the states and the requests of its contexts. -/
theorem request_moves {p k : Nat} {s t : State} (mine : getCtx t p = getCtx s p)
    (both : ∀ r, (getCtx t r).st = (getCtx s r).st ∧ (getCtx t r).opReq = (getCtx s r).opReq) (cores : t.cores = s.cores)
    (op : Option (BitVec 3)) : getCore (request p op t) k = getCore (request p op s) k := by
  have core : ∀ j, getCore t j = getCore s j := fun j => by
    unfold getCore
    rw [cores]
  have pointed : ∀ c, getCore (repoint (p % 2) (coreOf p) (setCtx p c t)) k = getCore (repoint (p % 2) (coreOf p) (setCtx p c s)) k := by
    intro c
    have ctx : ∀ r, (getCtx (setCtx p c t) r).st = (getCtx (setCtx p c s) r).st ∧
        (getCtx (setCtx p c t) r).opReq = (getCtx (setCtx p c s) r).opReq := by
      intro r
      by_cases h : r = p
      · rw [h, getCtx_setCtx_self, getCtx_setCtx_self]
        exact ⟨rfl, rfl⟩
      · rw [getCtx_setCtx_ne _ _ h, getCtx_setCtx_ne _ _ h]
        exact both r
    have point : pointOf (setCtx p c t) (coreOf p) = pointOf (setCtx p c s) (coreOf p) := by
      unfold pointOf
      simp only [fun r => (ctx r).1, fun r => (ctx r).2, getCore_setCtx, core]
    exact repoint_core point core _ _
  unfold request
  split
  · exact core k
  · dsimp only
    rw [mine]
    split
    · exact core k
    · exact pointed _

section
variable {q : Nat}

theorem OnlyCtxs.rest {s t : State} (h : OnlyCtxs s t) : { t with ctxs := s.ctxs, cores := s.cores } = s := by
  have k := congrArg (fun x : State => { x with cores := s.cores }) h
  exact k

theorem OnlyCtxs.both {u s t : State} (h : OnlyCtxs u s) (k : OnlyCtxs u t) : OnlyCtxs s t := by
  unfold OnlyCtxs at *
  have e := congrArg (fun x : State => { x with ctxs := s.ctxs }) (k.trans h.symm)
  exact e

theorem OnlyCtxs.cores {s t : State} (h : OnlyCtxs s t) : t.cores = s.cores := h.field State.cores fun _ _ => rfl

theorem OnlyCtxs.code {s t : State} (h : OnlyCtxs s t) (view : ∀ r, fetchView (getCtx t r) = fetchView (getCtx s r)) : SameCode q s t :=
  ⟨h.rest, view, by unfold getCore; rw [h.cores]⟩

end

/-- The state before the end of a step of two positions, whose operations have no effect beside their results. -/
structure Joins (p : Nat) (A B : List OpSem) (v z : State) : Prop where
  only : OnlyCtxs v z
  first : getCtx z p = gathered A { getCtx v p with barWait := none }
  second : getCtx z (p + 1) = gathered B { getCtx v (p + 1) with barWait := none }
  others : ∀ r, r ≠ p → r ≠ p + 1 → getCtx z r = getCtx v r

theorem passBar_ctx (p r : Nat) (s : State) :
    getCtx (passBar p s) r = if r = p then { getCtx s r with barWait := none } else getCtx s r := by
  unfold passBar
  by_cases h : r = p
  · rw [if_pos h, h, getCtx_updCtx_self]
  · rw [if_neg h, getCtx_updCtx_ne _ _ h]

theorem mergedOps_mem {p : Nat} {A B : List OpSem} {x : Nat × OpSem} (h : x ∈ mergedOps p A B) :
    x.2 ∈ A ∧ x.1 = p ∨ x.2 ∈ B ∧ x.1 = p + 1 := by
  unfold mergedOps at h
  obtain ⟨k, -, hk⟩ := List.mem_flatMap.1 h
  rcases List.mem_append.1 (List.mem_of_mem_filter hk) with h | h
  · obtain ⟨o, ho, rfl⟩ := List.mem_map.1 h
    exact .inl ⟨ho, rfl⟩
  · obtain ⟨o, ho, rfl⟩ := List.mem_map.1 h
    exact .inr ⟨ho, rfl⟩

theorem runMerged_joins {p : Nat} {A B : List OpSem} (a : InOrder A) (b : InOrder B) (pa : ∀ o ∈ A, o.effect = id)
    (pb : ∀ o ∈ B, o.effect = id) (v : State) :
    Joins p A B v (runMerged (mergedOps p A B) (passBar (p + 1) (passBar p v))) := by
  have apart : p + 1 ≠ p := Nat.succ_ne_self p
  have plain : ∀ x ∈ mergedOps p A B, x.2.effect = id := fun x hx =>
    (mergedOps_mem hx).elim (fun h => pa _ h.1) (fun h => pb _ h.1)
  obtain ⟨only, ctx⟩ := runMerged_plain plain (passBar (p + 1) (passBar p v))
  obtain ⟨mine, his⟩ := mergedOps_filter p a b
  refine ⟨((OnlyCtxs.updCtx p _ v).trans (OnlyCtxs.updCtx (p + 1) _ _)).trans only, ?_, ?_, fun r hp hq => ?_⟩
  · rw [ctx, mine, passBar_ctx, if_neg apart.symm, passBar_ctx, if_pos rfl]
  · rw [ctx, his, passBar_ctx, if_pos rfl, passBar_ctx, if_neg apart]
  · have none : (mergedOps p A B).filter (fun x => x.1 == r) = [] := by
      rw [List.filter_eq_nil_iff]
      intro x hx
      rcases mergedOps_mem hx with ⟨-, h⟩ | ⟨-, h⟩
      · simpa [h] using Ne.symm hp
      · simpa [h] using Ne.symm hq
    rw [ctx, none, passBar_ctx, if_neg hq, passBar_ctx, if_neg hp]
    exact gathered_nil _

section
variable {p : Nat} {A B : List OpSem} {v z : State} {f g : Grp}

/-- What gathering leaves of a context. -/
theorem gathered_point (ops : List OpSem) (c : Ctx) : fetchView (gathered ops { c with barWait := none }) = fetchView c ∧
    (gathered ops { c with barWait := none }).st = c.st ∧ (gathered ops { c with barWait := none }).opReq = c.opReq := ⟨rfl, rfl, rfl⟩

theorem Joins.point (h : Joins p A B v z) (r : Nat) : fetchView (getCtx z r) = fetchView (getCtx v r) ∧
    (getCtx z r).st = (getCtx v r).st ∧ (getCtx z r).opReq = (getCtx v r).opReq := by
  by_cases hp : r = p
  · rw [hp, h.first]
    exact gathered_point ..
  · by_cases hq : r = p + 1
    · rw [hq, h.second]
      exact gathered_point ..
    · rw [h.others r hp hq]
      exact ⟨rfl, rfl, rfl⟩

theorem Gathers.point (h : Gathers p A v z) (r : Nat) : fetchView (getCtx z r) = fetchView (getCtx v r) ∧
    (getCtx z r).st = (getCtx v r).st ∧ (getCtx z r).opReq = (getCtx v r).opReq := by
  by_cases hp : r = p
  · rw [hp, h.mine]
    exact gathered_point ..
  · rw [h.others r hp]
    exact ⟨rfl, rfl, rfl⟩

/-- The end of both steps. -/
theorem Joins.run (h : Joins p A B v z) (na : NoTrap A) (clean : v.endw = []) (rp : (getCtx v p).st = .ready)
    (rq : (getCtx v (p + 1)).st = .ready) :
    endGroup (p + 1) g B (endGroup p f A (commitWrites z)) = finishGroup (p + 1) g B (finishGroup p f A z) := by
  have ready : (getCtx z p).st = .ready := (h.point p).2.1.trans rp
  have ready' : (getCtx (finishGroup p f A z) (p + 1)).st = .ready := by
    rw [(finishGroup_apart na).ctxs _ (Nat.succ_ne_self p)]
    exact (h.point (p + 1)).2.1.trans rq
  have first : endGroup p f A z = finishGroup p f A z := by
    rw [endGroup, ready]
    rfl
  rw [commitWrites_nil z ((h.only.field State.endw fun _ _ => rfl).trans clean), first, endGroup, ready']
  rfl

/-- The first position goes on as alone. -/
theorem Joins.first_alone {zp : State} (h : Joins p A B v z) (k : Gathers p A v zp) (na : NoTrap A) (nb : NoTrap B) :
    getCtx (finishGroup (p + 1) g B (finishGroup p f A z)) p = getCtx (finishGroup p f A zp) p := by
  have ctx : getCtx z p = getCtx zp p := h.first.trans k.mine.symm
  have code : SameCode p zp z := (k.only.both h.only).code fun r => (h.point r).1.trans (k.point r).1.symm
  obtain ⟨w, e, window⟩ := finishGroup_same (g := f) na code ctx
  have moves := congrArg Core.moves (request_moves (k := coreOf p) ctx
    (fun r => ⟨(h.point r).2.1.trans (k.point r).2.1.symm, (h.point r).2.2.trans (k.point r).2.2.symm⟩)
    (h.only.cores.trans k.only.cores.symm) f.op)
  rw [(finishGroup_apart nb).ctxs _ (Nat.succ_ne_self p).symm, e, window moves]

/-- The second as alone, but for the end of its settling window. -/
theorem Joins.second_alone {zq : State} (h : Joins p A B v z) (k : Gathers (p + 1) B v zq) (na : NoTrap A) (nb : NoTrap B) :
    ∃ w, getCtx (finishGroup (p + 1) g B (finishGroup p f A z)) (p + 1) =
      { getCtx (finishGroup (p + 1) g B zq) (p + 1) with windowOpen := w } := by
  have code : SameCode (p + 1) zq z := (k.only.both h.only).code fun r => (h.point r).1.trans (k.point r).1.symm
  have ctx : getCtx (finishGroup p f A z) (p + 1) = getCtx zq (p + 1) := by
    rw [(finishGroup_apart na).ctxs _ (Nat.succ_ne_self p), h.second, k.mine]
  obtain ⟨w, e, -⟩ := finishGroup_same (g := g) nb (code.trans (SameCode.finish na p (p + 1) f z)) ctx
  exact ⟨w, e⟩

end

end Sys2Proof.Machine
end

section
/-! SUPPORT. Groups of several operations and the junction, in the terms of the statement (R35 to R39, R52, R110, R157, R279). -/

namespace Sys2Proof.Machine

/-! ### The count of a cycle -/

theorem countWaits_core (p n k : Nat) (s : State) : getCore (countWaits p n s) k = getCore s k := by
  unfold countWaits
  split <;> rfl

theorem tick_cycle (core n : Nat) (s : State) : (getCore (tick core n s) core).cycle = (getCore s core).cycle + n ∧
    ∀ j, j ≠ core → getCore (tick core n s) j = getCore s j := by
  unfold tick
  simp only [countWaits_core]
  exact ⟨by rw [getCore_updCore_self], fun j h => getCore_updCore_ne _ _ h⟩

theorem step_groupIssue {s : State} {core : Nat} {rest : List Instr} (power : s.power = true) (agenda : s.agenda = .groupIssue core :: rest) :
    step s = .next (doGroupIssue core { s with agenda := rest }) := step_agenda power agenda

/-! ### One position -/

section
variable {s : State} {core q : Nat} {f : Fetched} {rest : List Instr} {u : State} {ops : List OpSem}

/-- A group of operations without an effect, and what its step leaves. -/
theorem plainGroup_leaves {p : Nat} (effect : ∀ o ∈ ops, o.effect = id ∧ o.seq = .flow) (loops : (getCtx u p).loops = [])
    (walk : (getCtx u p).bodyWalk = none) (few : f.grp.idle ≤ 1) (clean : u.endw = []) :
    let t := issueGroup p f.grp ops (updCtx p (fun c => { c with st := .ready, stalled := false }) u)
    let c := getCtx u p
    let w := getCtx (landStep p (updCtx p (fun c => { c with landing := c.landing ++ landings ops (getCtx u p).stepc }) u)) p
    (∀ r, regGet (getCtx t p) r = regGet w r) ∧ (getCtx t p).landing = w.landing ∧
    ((∀ e ∈ c.landing ++ landings ops c.stepc, e.rem ≤ 1 → e.dest ≠ .csr 5) →
      (getCtx t p).seed = advanceSeed ((ops.filter (·.on)).map (·.draws)).sum c.seed) ∧
    (getCtx t p).pc = f.grp.next ∧ (getCtx t p).stepc = c.stepc + 1 ∧ (getCtx t p).denials = 0 ∧ t.mem = u.mem ∧
    ∀ j, j ≠ p → getCtx t j = getCtx u j := by
  intro t c w
  have flow : seqOf ops = .flow := seqOf_flow fun o ho => (effect o ho).2
  have nt : NoTrap ops := fun _ _ => by rw [flow]; exact SeqAct.noConfusion
  have ctx : getCtx (updCtx p (fun c => { c with st := .ready, stalled := false }) u) p = { c with st := .ready, stalled := false } :=
    getCtx_updCtx_self ..
  obtain ⟨z, h, e⟩ := issueGroup_gathers (fun o ho => (effect o ho).1)
    (show (updCtx p (fun c => { c with st := .ready, stalled := false }) u).endw = [] from clean) (by rw [ctx]) f.grp
  have te : t = finishGroup p f.grp ops z := e
  rw [te]
  obtain ⟨regs, landing⟩ := h.lands (g := f.grp) nt
    (w := updCtx p (fun c => { c with landing := c.landing ++ landings ops (getCtx u p).stepc }) u)
    (by rw [ctx, getCtx_updCtx_self]) (by rw [ctx, getCtx_updCtx_self])
  obtain ⟨step, turn⟩ := finishGroup_step (p := p) (g := f.grp) (z := z) nt
  refine ⟨regs, landing, fun none => ?_, h.next flow few (by rw [ctx]; exact loops) (by rw [ctx]; exact walk), ?_, turn, ?_, fun j hj => ?_⟩
  · rw [h.seed nt (by rw [ctx]; exact none), ctx]
  · rw [step, h.mine, ctx]
    rfl
  · rw [(finishGroup_apart nt).mem]
    exact h.only.field State.mem fun _ _ => rfl
  · rw [(finishGroup_apart nt).ctxs j hj, h.others j hj, getCtx_updCtx_ne _ _ hj]

/-- A group of two pops of one queue, and what its step leaves. -/
theorem popsGroup_leaves {p n m : Nat} {r1 r2 : Reg} {m1 m2 : Vec} {x y : QRow} {ys : List QRow} {a b : OpSem} {g : Grp}
    (first : Pops p n r1 m1 x a) (second : Pops p n r2 m2 y b) (nt : NoTrap [a, b]) (clean : u.endw = [])
    (hq : queueOf (getCtx u p) p n = some m) (rows : queueRows u p m = x :: y :: ys) :
    let t := issueGroup p g [a, b] (updCtx p (fun c => { c with st := .ready, stalled := false }) u)
    queueRows t p m = ys ∧ (getCtx t p).pend = (getCtx u p).pend ++ [⟨r1, m1, (getCtx u p).nextId, 0, x.row, x.bad, []⟩,
      ⟨r2, m2, (getCtx u p).nextId + 1, 0, y.row, y.bad, []⟩] := by
  intro t
  generalize hv : passBar p (updCtx p (fun c => { c with st := .ready, stalled := false }) u) = v
  have ctx : getCtx v p = { getCtx u p with st := .ready, stalled := false, barWait := none } := by
    rw [← hv, passBar_ctx, if_pos rfl, getCtx_updCtx_self]
  have rows' : queueRows v p m = x :: y :: ys := by
    rw [← hv]
    exact rows
  have clean' : v.endw = [] := by
    rw [← hv]
    exact clean
  obtain ⟨taken, writes, waits⟩ := runOps_pops first second (by rw [ctx]; exact hq) rows'
  have run : t = finishGroup p g [a, b] (runOps p [a, b] v) := by
    show issueGroup p g [a, b] (updCtx p (fun c => { c with st := .ready, stalled := false }) u) = _
    rw [issueGroup, hv, commitWrites_nil _ (writes.trans clean'), endGroup,
      show (getCtx (runOps p [a, b] v) p).st = .ready by rw [waits, ctx]]
    rfl
  have seq : ∀ {c d : Ctx}, sameButSeq c d → d.pend = c.pend := by
    intro c d h
    have k := congrArg Ctx.pend h
    exact k
  have landed : ∀ {c d : Ctx}, sameButStep c d → d.pend = c.pend := by
    intro c d h
    have k := congrArg Ctx.pend h
    exact k
  rw [run]
  constructor
  · unfold queueRows
    rw [finishGroup_coreField Core.queues (fun _ _ _ => rfl) (fun _ _ _ => rfl) nt]
    exact taken
  · rw [seq (finishGroup_onlySeq nt p g _).ctx, countStep_field Ctx.pend p _ fun c d => landed]
    refine (request_field Ctx.pend (fun _ _ _ _ => rfl) p g.op _).trans ?_
    rw [waits, ctx]

theorem vpop_first {p m : Nat} {d : BitVec 4} {r : BitVec 3} {t : BitVec 4} {pre : Pre} {x y : QRow} {ys : List QRow}
    (total : pre.total = [r.toNat, r.toNat]) (before : pre.pops = []) (hq : queueOf (getCtx u p) p r.toNat = some m)
    (rows : queueRows u p m = x :: y :: ys) :
    Pops p r.toNat (vReg (getCtx u p) .va d) (activeMask (regGet (getCtx u p) (kReg .va 0)) t.toNat (typeCount t.toNat)) x
      (semVpop .va 0 d r 0 t p pre u) := ⟨rfl, rfl, rfl, semVpop_first total before hq rows⟩

theorem vpop_second {p m : Nat} {d : BitVec 4} {r : BitVec 3} {t : BitVec 4} {pre : Pre} {x y : QRow} {ys : List QRow}
    (total : pre.total = [r.toNat, r.toNat]) (before : pre.pops = [r.toNat]) (hq : queueOf (getCtx u p) p r.toNat = some m)
    (rows : queueRows u p m = x :: y :: ys) :
    Pops p r.toNat (vReg (getCtx u p) .vb d) (activeMask (regGet (getCtx u p) (kReg .vb 0)) t.toNat (typeCount t.toNat)) y
      (semVpop .vb 0 d r 0 t p pre u) := ⟨rfl, rfl, rfl, semVpop_second total before hq rows⟩

end

section
variable {s : State} {core q : Nat} {f : Fetched}

theorem coreOf_live (live : coreLive s core = true) (side : q ≤ 1) : coreOf (2 * core + q) = core ∧ (2 * core + q) % 2 = q := by
  simp only [coreLive, Bool.and_eq_true, decide_eq_true_eq] at live
  unfold coreOf
  omega

/-- Each word of a group means what it means after those of the lower slots that issue. -/
theorem groupOps_each (u : State) (p : Nat) (own : ∀ x ∈ f.grp.ops, x.2.slot = some x.1 ∧ x.1 < 16)
    (single : (f.grp.ops.map (·.1)).Nodup) : ∀ x ∈ f.grp.ops, ∃ o ∈ groupOps u p f.grp.next (slotOrder f.grp.ops), ∃ pre : Pre,
      semOf x.2 p pre u = some o ∧ o.slot = x.1 ∧ pre.next = f.grp.next ∧
      pre.pops = (((groupOps u p f.grp.next (slotOrder f.grp.ops)).filter (·.on)).filter (fun z => z.slot < x.1)).flatMap (·.pops) ∧
      pre.draws = ((((groupOps u p f.grp.next (slotOrder f.grp.ops)).filter (·.on)).filter (fun z => z.slot < x.1)).map (·.draws)).sum := by
  intro x hx
  obtain ⟨o, ho, pre, sem, slot, after⟩ := evalOps_each (slotOrder_inSlots own) u p
    { next := f.grp.next, total := ((evalOps u p { next := f.grp.next } (slotOrder f.grp.ops)).filter (·.on)).flatMap (·.pops) } x
    (mem_slotOrder single hx (own x hx).2)
  exact ⟨o, ho, pre, sem, slot, after.next, after.pops.trans (List.nil_append _), after.draws.trans (Nat.zero_add _)⟩

end

theorem settleAttempt_trap (p : Nat) (e : Cause) (ga : Word) (s : State) :
    settleAttempt p (.trap e ga) s = trapEntry p e ga 0 none s := rfl

theorem settleAttempt_block (p : Nat) (ks : List Nat) (b : Bool) (s : State) : settleAttempt p (.block ks b) s =
    ks.foldl (fun t k => askRecall k t) (updCtx p (fun c => { c with st := .blocked, stalled := b }) s) := rfl

/-- A group of any operations at its turn, the other position having none. -/
theorem group_alone (s : State) (core q : Nat) (f : Fetched) (side : q ≤ 1) (opened : s.bustat = 5)
    (live : coreLive s core = true) (clean : s.endw = []) (here : AtGroup (installFills core s) (2 * core + q) f)
    (away : competes (getCtx s (2 * core + 1 - q)) = false) (awayYield : (getCtx s (2 * core + 1 - q)).yield = 0)
    (yield : (getCtx s (2 * core + q)).yield = 0) :
    let p := 2 * core + q
    let u := turnState s core p (.got f)
    let c := getCtx u p
    let ops := groupOps u p f.grp.next (slotOrder f.grp.ops)
    let on := ops.filter (·.on)
    let n := subSteps (getCore s core).split (ops.map (·.slot))
    (∀ e, firstCause (groupCauses c f ops) = some e → doGroupIssue core s = tick core 1 (trapEntry p e f.grp.addr 0 none u)) ∧
    (firstCause (groupCauses c f ops) = none → barBlocks u p = true ∨ groupBlocks c (getCore u core) q ops = true →
      doGroupIssue core s = tick core 1 ((on.flatMap (·.recalls)).foldl (fun t k => askRecall k t)
        (updCtx p (fun c => { c with st := .blocked, stalled := on.any (·.held) }) u))) ∧
    (MayIssue u p f ops →
      doGroupIssue core s = tick core n (issueGroup p f.grp ops (updCtx p (fun c => { c with st := .ready, stalled := false }) u))) := by
  intro p u c
  have one := here.oneTurn side live opened clean away awayYield
  obtain ⟨at_, parity⟩ := coreOf_live live side
  have order := groupOps_inOrder here.slots u p f.grp.next
  have cycle := fun {a : Attempt} => one.still (a := a) yield rfl
  have issue := one.ready rfl order
  change ∀ {a : Attempt}, tryGroup u p f (groupOps u p f.grp.next (slotOrder f.grp.ops)) = a → hasIssue a = false →
    doGroupIssue core s = tick core 1 (settleAttempt p a u) at cycle
  generalize groupOps u p f.grp.next (slotOrder f.grp.ops) = ops at *
  refine ⟨fun e trap => ?_, fun sound blocks => ?_, issue⟩
  · rw [cycle (tryGroup_traps trap) rfl, settleAttempt_trap]
  · have held : barBlocks u p = true ∨ groupBlocks (getCtx u p) (getCore u (coreOf p)) (p % 2) ops = true := by
      rw [at_, parity]
      exact blocks
    rw [cycle (tryGroup_blocks sound held) rfl, settleAttempt_block]

end Sys2Proof.Machine
end

section
/-! SUPPORT. The three cases of the junction (R37, R38, R39). -/

namespace Sys2Proof.Machine

/-- Groups of the two contexts cannot issue together: they use one slot, or their `.c` reads meet. -/
def Meets (A B : List OpSem) : Prop :=
  (∃ x ∈ A, ∃ y ∈ B, x.slot = y.slot) ∨ ∃ x ∈ A, ∃ y ∈ B, x.on = true ∧ y.on = true ∧ ∃ k ∈ x.cread, k ∈ y.cread

theorem overlap_iff (f g : Grp) (A B : List OpSem) : overlap (.ready f A) (.ready g B) = true ↔ Meets A B := by
  unfold overlap opsOf Meets
  simp only [Bool.or_eq_true, List.any_eq_true, Bool.and_eq_true, beq_iff_eq, List.contains_iff_mem, and_assoc]

/-- A context goes first that was denied 15 times, then one of the latency class, then the first. -/
theorem firstWins_iff (c d : Ctx) :
    firstWins c d = true ↔ 15 ≤ c.denials ∨ (d.denials < 15 ∧ (c.latency = true ∨ d.latency = false)) := by
  unfold firstWins
  by_cases h : 15 ≤ c.denials
  · simp [h]
  · by_cases k : 15 ≤ d.denials
    · simp [h, k]
    · rw [if_neg h, if_neg k]
      simp only [h, false_or, Nat.not_le.1 k, true_and]
      cases c.latency <;> cases d.latency <;> decide

/-- A context that may issue. -/
def readyAt (p : Nat) (s : State) : State := updCtx p (fun c => { c with st := .ready, stalled := false }) s

/-- A context denied at the junction. -/
def deniedAt (p : Nat) (s : State) : State := updCtx p (fun c => { c with denials := min 15 (c.denials + 1) }) s

/-- A context that its group holds. -/
def blockedAt (p : Nat) (ops : List OpSem) (s : State) : State :=
  ((ops.filter (·.on)).flatMap (·.recalls)).foldl (fun t k => askRecall k t)
    (updCtx p (fun c => { c with st := .blocked, stalled := (ops.filter (·.on)).any (·.held) }) s)

theorem askRecalls_core (ks : List Nat) (k : Nat) (s : State) : getCore (ks.foldl (fun t page => askRecall page t) s) k = getCore s k := by
  induction ks generalizing s with
  | nil => rfl
  | cons x ks ih =>
    rw [List.foldl_cons, ih]
    unfold askRecall
    split <;> rfl

section
variable {s v : State} {core : Nat} {f g : Fetched} {A B : List OpSem}

theorem triedTwo_split (s : State) (core : Nat) (f g : Fetched) : (getCore (triedTwo s core f g) core).split = (getCore s core).split := by
  unfold triedTwo
  rw [fillCode_core (fun k => k.split) (fun _ _ => rfl), fillCode_core (fun k => k.split) (fun _ _ => rfl)]
  exact installFills_core (fun k => k.split) core core s (fun _ _ => rfl) (fun _ _ => rfl)

theorem readyAt_field {β : Type} (h : Ctx → β) (hh : ∀ c st b, h { c with st := st, stalled := b } = h c) (p r : Nat) (s : State) :
    h (getCtx (readyAt p s) r) = h (getCtx s r) := updCtx_field h p r _ s fun c => hh c _ _

theorem blockedAt_field {β : Type} (h : Ctx → β) (hh : ∀ c st b, h { c with st := st, stalled := b } = h c) (p r : Nat) (ops : List OpSem)
    (s : State) : h (getCtx (blockedAt p ops s) r) = h (getCtx s r) := by
  unfold blockedAt getCtx
  rw [askRecalls_ctxs]
  exact updCtx_field h p r _ s fun c => hh c _ _

theorem blockedAt_core (p k : Nat) (ops : List OpSem) (s : State) : getCore (blockedAt p ops s) k = getCore s k := askRecalls_core ..

/-- The first position issues, the other is held. -/
theorem issueCycle_firstReady {grp : Grp} {ks : List Nat} {held : Bool} (cy : (getCtx v (2 * core)).yield = 0)
    (dy : (getCtx v (2 * core + 1)).yield = 0) (order : InOrder A) :
    issueCycle core (.ready grp A) (.block ks held) v =
      tick core (subSteps (getCore v core).split (A.map (·.slot))) (issueGroup (2 * core) grp A v) := by
  have w : choose v (2 * core) (.ready grp A) (.block ks held) = (true, false) := by
    rw [choose_calm cy dy]
    rfl
  rw [issueCycle_tookFirst w order, show hasIssue (.block ks held) = false from rfl, settleTurn_still (.inr ⟨rfl, dy⟩), cycleEnd_ready]

/-- The second position issues, the first is held. -/
theorem issueCycle_secondReady {grp : Grp} {ks : List Nat} {held : Bool} (cy : (getCtx v (2 * core)).yield = 0)
    (dy : (getCtx v (2 * core + 1)).yield = 0) (order : InOrder B) :
    issueCycle core (.block ks held) (.ready grp B) v =
      tick core (subSteps (getCore v core).split (B.map (·.slot))) (issueGroup (2 * core + 1) grp B v) := by
  have w : choose v (2 * core) (.block ks held) (.ready grp B) = (false, true) := by
    rw [choose_calm cy dy]
    rfl
  rw [issueCycle_tookSecond w order, show hasIssue (.block ks held) = false from rfl, settleTurn_still (.inr ⟨rfl, cy⟩), cycleEnd_ready]

/-- Both could issue, and meet: one of them is denied. -/
theorem issueCycle_meet {fg gg : Grp} (cy : (getCtx v (2 * core)).yield = 0) (dy : (getCtx v (2 * core + 1)).yield = 0)
    (orderA : InOrder A) (orderB : InOrder B) (meets : Meets A B) :
    issueCycle core (.ready fg A) (.ready gg B) v =
      if firstWins (getCtx v (2 * core)) (getCtx v (2 * core + 1)) = true then
        tick core (subSteps (getCore v core).split (A.map (·.slot))) (issueGroup (2 * core) fg A (deniedAt (2 * core + 1) v))
      else tick core (subSteps (getCore v core).split (B.map (·.slot))) (issueGroup (2 * core + 1) gg B (deniedAt (2 * core) v)) := by
  have w := choose_calm (a := .ready fg A) (b := .ready gg B) cy dy
  rw [show hasIssue (.ready fg A) = true from rfl, show hasIssue (.ready gg B) = true from rfl, (overlap_iff fg gg A B).2 meets,
    Bool.and_true, Bool.and_true, if_pos rfl] at w
  cases first : firstWins (getCtx v (2 * core)) (getCtx v (2 * core + 1))
  · rw [first, if_neg Bool.false_ne_true] at w
    rw [if_neg Bool.false_ne_true, issueCycle_tookSecond w orderB, show hasIssue (.ready fg A) = true from rfl, settleTurn_denied cy,
      cycleEnd_ready]
    rfl
  · rw [first, if_pos rfl] at w
    rw [if_pos rfl, issueCycle_tookFirst w orderA, show hasIssue (.ready gg B) = true from rfl, settleTurn_denied dy, cycleEnd_ready]
    rfl

/-- Both issue. -/
theorem issueCycle_apart {fg gg : Grp} (cy : (getCtx v (2 * core)).yield = 0) (dy : (getCtx v (2 * core + 1)).yield = 0)
    (apart : ¬Meets A B) : issueCycle core (.ready fg A) (.ready gg B) v =
      tick core (subSteps (getCore v core).split ((A ++ B).map (·.slot))) (endGroup (2 * core + 1) gg B (endGroup (2 * core) fg A
        (commitWrites (runMerged (mergedOps (2 * core) A B) (passBar (2 * core + 1) (passBar (2 * core) v)))))) := by
  have w := choose_calm (a := .ready fg A) (b := .ready gg B) cy dy
  have none : overlap (.ready fg A) (.ready gg B) = false := by
    rw [← Bool.not_eq_true, overlap_iff]
    exact apart
  rw [none, Bool.and_false, if_neg Bool.false_ne_true] at w
  exact issueCycle_tookBoth w

/-- Two groups that may issue together, of operations without an effect beside their results. -/
theorem issueCycle_alone {fg gg : Grp} (cy : (getCtx v (2 * core)).yield = 0) (dy : (getCtx v (2 * core + 1)).yield = 0)
    (apart : ¬Meets A B) (orderA : InOrder A) (orderB : InOrder B) (pa : ∀ o ∈ A, o.effect = id) (pb : ∀ o ∈ B, o.effect = id)
    (na : NoTrap A) (nb : NoTrap B) (clean : v.endw = []) (rp : (getCtx v (2 * core)).st = .ready)
    (rq : (getCtx v (2 * core + 1)).st = .ready) :
    ∃ t w, issueCycle core (.ready fg A) (.ready gg B) v = tick core (subSteps (getCore v core).split ((A ++ B).map (·.slot))) t ∧
      getCtx t (2 * core) = getCtx (issueGroup (2 * core) fg A v) (2 * core) ∧
      getCtx t (2 * core + 1) = { getCtx (issueGroup (2 * core + 1) gg B v) (2 * core + 1) with windowOpen := w } ∧ t.mem = v.mem := by
  have joins := runMerged_joins (p := 2 * core) orderA orderB pa pb v
  obtain ⟨zp, gp, ep⟩ := issueGroup_gathers pa clean rp fg
  obtain ⟨zq, gq, eq⟩ := issueGroup_gathers pb clean rq gg
  have cycle := issueCycle_apart (fg := fg) (gg := gg) cy dy apart
  generalize runMerged (mergedOps (2 * core) A B) (passBar (2 * core + 1) (passBar (2 * core) v)) = z at joins cycle
  rw [joins.run na clean rp rq] at cycle
  obtain ⟨w, second⟩ := joins.second_alone (f := fg) (g := gg) gq na nb
  refine ⟨_, w, cycle, ?_, ?_, ?_⟩
  · rw [joins.first_alone gp na nb, ep]
  · rw [second, eq]
  · rw [(finishGroup_apart nb).mem, (finishGroup_apart na).mem]
    exact joins.only.field State.mem fun _ _ => rfl

end

end Sys2Proof.Machine
end

section
/-! SUPPORT. A cycle of one position, and of two, in the terms of the statement (R35 to R39). -/

namespace Sys2Proof.Machine

/-! ### One position -/

section
variable {s u : State} {core p n : Nat} {f : Fetched} {ops : List OpSem}

/-- A step of a group of operations without an effect. -/
theorem plainGroup_step (effect : ∀ o ∈ ops, o.effect = id ∧ o.seq = .flow) (loops : (getCtx u p).loops = [])
    (walk : (getCtx u p).bodyWalk = none) (few : f.grp.idle ≤ 1) (quiet : Quiet s u) (clean : s.endw = [])
    (issues : step s = .next (tick core n (issueGroup p f.grp ops (updCtx p (fun c => { c with st := .ready, stalled := false }) u)))) :
    let c := getCtx u p
    let w := getCtx (landStep p (updCtx p (fun c => { c with landing := c.landing ++ landings ops (getCtx u p).stepc }) u)) p
    ∃ t, step s = .next (tick core n t) ∧ (∀ r, regGet (getCtx t p) r = regGet w r) ∧ (getCtx t p).landing = w.landing ∧
      ((∀ e ∈ c.landing ++ landings ops c.stepc, e.rem ≤ 1 → e.dest ≠ .csr 5) →
        (getCtx t p).seed = advanceSeed ((ops.filter (·.on)).map (·.draws)).sum c.seed) ∧
      (getCtx t p).pc = f.grp.next ∧ (getCtx t p).stepc = c.stepc + 1 ∧ (getCtx t p).denials = 0 ∧ SameBytes s t ∧
      ∀ j, j ≠ p → getCtx t j = getCtx u j := by
  obtain ⟨regs, landing, seed, pc, stepc, denials, mem, others⟩ :=
    plainGroup_leaves (f := f) effect loops walk few (quiet.2.trans clean)
  exact ⟨_, issues, regs, landing, seed, pc, stepc, denials, fun k => by rw [mem, quiet.1], others⟩

/-- A step of a group of two pops of one queue. -/
theorem popsGroup_step {d e : BitVec 4} {r : BitVec 3} {t1 t2 : BitVec 4} {m : Nat} {x y : QRow} {ys : List QRow}
    (words : f.grp.ops = [(2, .vpop .va 0 d r 0 t1), (3, .vpop .vb 0 e r 0 t2)])
    (eval : groupOps u p f.grp.next (slotOrder f.grp.ops) = ops) (clean : u.endw = [])
    (hq : queueOf (getCtx u p) p r.toNat = some m) (rows : queueRows u p m = x :: y :: ys)
    (issues : step s = .next (tick core n (issueGroup p f.grp ops (updCtx p (fun c => { c with st := .ready, stalled := false }) u)))) :
    ∃ t, step s = .next (tick core n t) ∧ queueRows t p m = ys ∧ (getCtx t p).pend = (getCtx u p).pend ++
      [⟨vReg (getCtx u p) .va d, activeMask (regGet (getCtx u p) (kReg .va 0)) t1.toNat (typeCount t1.toNat), (getCtx u p).nextId, 0,
          x.row, x.bad, []⟩,
        ⟨vReg (getCtx u p) .vb e, activeMask (regGet (getCtx u p) (kReg .va 0)) t2.toNat (typeCount t2.toNat), (getCtx u p).nextId + 1, 0,
          y.row, y.bad, []⟩] := by
  rw [words, groupOps_pops] at eval
  have first := vpop_first (d := d) (t := t1) (pre := { next := f.grp.next, total := [r.toNat, r.toNat] }) rfl rfl hq rows
  have second := vpop_second (d := e) (t := t2) (pre := { next := f.grp.next, total := [r.toNat, r.toNat], pops := [r.toNat] })
    rfl rfl hq rows
  have flow : seqOf ops = .flow := seqOf_flow (by
    rw [← eval]
    exact List.forall_mem_cons.2 ⟨rfl, List.forall_mem_singleton.2 rfl⟩)
  rw [← eval] at issues flow
  have nt : NoTrap _ := fun _ _ h => SeqAct.noConfusion (flow.symm.trans h)
  obtain ⟨taken, pend⟩ := popsGroup_leaves (g := f.grp) first second nt clean hq rows
  exact ⟨_, issues, taken, pend⟩

end

end Sys2Proof.Machine
end

section
/-! SUPPORT. A cycle of two positions at their groups, in the terms of the statement (R37, R38, R39). -/

namespace Sys2Proof.Machine

/-- The operations of the first position's group at their turn, and of the second's. -/
def firstOps (s : State) (core : Nat) (f g : Fetched) : List OpSem :=
  groupOps (triedTwo s core f g) (2 * core) f.grp.next (slotOrder f.grp.ops)

def secondOps (s : State) (core : Nat) (f g : Fetched) : List OpSem :=
  groupOps (triedTwo s core f g) (2 * core + 1) g.grp.next (slotOrder g.grp.ops)

/-- A group that its context's state, or its core's, holds. -/
structure Held (u : State) (core p q : Nat) (f : Fetched) (ops : List OpSem) : Prop where
  sound : firstCause (groupCauses (getCtx u p) f ops) = none
  blocks : barBlocks u p = true ∨ groupBlocks (getCtx u p) (getCore u core) q ops = true

/-- Both positions of a core at their groups. -/
structure TwoTurns (s : State) (core : Nat) (f g : Fetched) : Prop where
  first : AtGroup (installFills core s) (2 * core) f
  second : AtGroup (installFills core s) (2 * core + 1) g
  live : coreLive s core = true
  opened : s.bustat = 5
  clean : s.endw = []
  firstYield : (getCtx (triedTwo s core f g) (2 * core)).yield = 0
  secondYield : (getCtx (triedTwo s core f g) (2 * core + 1)).yield = 0

theorem triedTwo_quiet (s : State) (core : Nat) (f g : Fetched) : Quiet s (triedTwo s core f g) := by
  have h := installFills_quiet core s
  have k := fillCode_quiet (2 * core) f.lines { installFills core s with cur := 2 * core }
  have l := fillCode_quiet (2 * core + 1) g.lines (fillCode (2 * core) f.lines { installFills core s with cur := 2 * core })
  exact ⟨l.1.trans (k.1.trans h.1), l.2.trans (k.2.trans h.2)⟩

theorem noTrap_of {ops : List OpSem} (h : ∀ o ∈ ops, ∀ code num, o.seq ≠ .trap code num) : NoTrap ops := by
  intro code num trap
  unfold seqOf at trap
  split at trap
  · next o found => exact h o (List.mem_of_find?_eq_some found) code num trap
  · cases trap

section
variable {s : State} {core : Nat} {f g : Fetched} (h : TwoTurns s core f g)
include h

theorem TwoTurns.firstOrder : InOrder (firstOps s core f g) := groupOps_inOrder h.first.slots ..

theorem TwoTurns.secondOrder : InOrder (secondOps s core f g) := groupOps_inOrder h.second.slots ..

theorem TwoTurns.held {p q : Nat} {e : Fetched} {ops : List OpSem} (side : q ≤ 1) (place : p = 2 * core + q)
    (k : Held (triedTwo s core f g) core p q e ops) : tryGroup (triedTwo s core f g) p e ops =
      .block ((ops.filter (·.on)).flatMap (·.recalls)) ((ops.filter (·.on)).any (·.held)) := by
  subst place
  obtain ⟨at_, parity⟩ := coreOf_live h.live side
  refine tryGroup_blocks k.sound ?_
  rw [at_, parity]
  exact k.blocks

/-- Both may issue. -/
theorem TwoTurns.both (a : MayIssue (triedTwo s core f g) (2 * core) f (firstOps s core f g))
    (b : MayIssue (triedTwo s core f g) (2 * core + 1) g (secondOps s core f g)) :
    doGroupIssue core s = issueCycle core (.ready f.grp (firstOps s core f g)) (.ready g.grp (secondOps s core f g))
      (readyAt (2 * core + 1) (readyAt (2 * core) (triedTwo s core f g))) :=
  doGroupIssue_two h.first h.second h.live h.opened a.ready b.ready nofun nofun

/-- A context that its group holds holds up nobody: the first issues. -/
theorem TwoTurns.first_issues (a : MayIssue (triedTwo s core f g) (2 * core) f (firstOps s core f g))
    (b : Held (triedTwo s core f g) core (2 * core + 1) 1 g (secondOps s core f g)) :
    doGroupIssue core s = tick core (subSteps (getCore s core).split ((firstOps s core f g).map (·.slot)))
      (issueGroup (2 * core) f.grp (firstOps s core f g)
        (blockedAt (2 * core + 1) (secondOps s core f g) (readyAt (2 * core) (triedTwo s core f g)))) := by
  have yields : ∀ r, (getCtx (blockedAt (2 * core + 1) (secondOps s core f g) (readyAt (2 * core) (triedTwo s core f g))) r).yield =
      (getCtx (triedTwo s core f g) r).yield := fun r =>
    (blockedAt_field Ctx.yield (fun _ _ _ => rfl) ..).trans (readyAt_field Ctx.yield (fun _ _ _ => rfl) ..)
  have split : (getCore (blockedAt (2 * core + 1) (secondOps s core f g) (readyAt (2 * core) (triedTwo s core f g))) core).split =
      (getCore s core).split := (congrArg Core.split (blockedAt_core ..)).trans (triedTwo_split ..)
  rw [doGroupIssue_two h.first h.second h.live h.opened a.ready (h.held (Nat.le_refl 1) rfl b) nofun nofun, settleAttempt_block, ← split]
  exact issueCycle_firstReady ((yields _).trans h.firstYield) ((yields _).trans h.secondYield) h.firstOrder

/-- The second issues. -/
theorem TwoTurns.second_issues (a : Held (triedTwo s core f g) core (2 * core) 0 f (firstOps s core f g))
    (b : MayIssue (triedTwo s core f g) (2 * core + 1) g (secondOps s core f g)) :
    doGroupIssue core s = tick core (subSteps (getCore s core).split ((secondOps s core f g).map (·.slot)))
      (issueGroup (2 * core + 1) g.grp (secondOps s core f g)
        (readyAt (2 * core + 1) (blockedAt (2 * core) (firstOps s core f g) (triedTwo s core f g)))) := by
  have yields : ∀ r, (getCtx (readyAt (2 * core + 1) (blockedAt (2 * core) (firstOps s core f g) (triedTwo s core f g))) r).yield =
      (getCtx (triedTwo s core f g) r).yield := fun r =>
    (readyAt_field Ctx.yield (fun _ _ _ => rfl) ..).trans (blockedAt_field Ctx.yield (fun _ _ _ => rfl) ..)
  have split : (getCore (readyAt (2 * core + 1) (blockedAt (2 * core) (firstOps s core f g) (triedTwo s core f g))) core).split =
      (getCore s core).split := (congrArg Core.split (blockedAt_core ..)).trans (triedTwo_split ..)
  rw [doGroupIssue_two h.first h.second h.live h.opened (h.held (Nat.zero_le 1) (Nat.add_zero _).symm a) b.ready nofun nofun,
    settleAttempt_block, ← split]
  exact issueCycle_secondReady ((yields _).trans h.firstYield) ((yields _).trans h.secondYield) h.secondOrder

omit h in
theorem readyBoth_field {β : Type} (φ : Ctx → β) (hφ : ∀ c st b, φ { c with st := st, stalled := b } = φ c) (r : Nat) :
    φ (getCtx (readyAt (2 * core + 1) (readyAt (2 * core) (triedTwo s core f g))) r) = φ (getCtx (triedTwo s core f g) r) :=
  (readyAt_field φ hφ ..).trans (readyAt_field φ hφ ..)

/-- Both may issue and meet: one of them is denied. -/
theorem TwoTurns.meet (a : MayIssue (triedTwo s core f g) (2 * core) f (firstOps s core f g))
    (b : MayIssue (triedTwo s core f g) (2 * core + 1) g (secondOps s core f g)) (meets : Meets (firstOps s core f g) (secondOps s core f g)) :
    doGroupIssue core s = if firstWins (getCtx (triedTwo s core f g) (2 * core)) (getCtx (triedTwo s core f g) (2 * core + 1)) = true then
      tick core (subSteps (getCore s core).split ((firstOps s core f g).map (·.slot))) (issueGroup (2 * core) f.grp (firstOps s core f g)
        (deniedAt (2 * core + 1) (readyAt (2 * core + 1) (readyAt (2 * core) (triedTwo s core f g)))))
      else tick core (subSteps (getCore s core).split ((secondOps s core f g).map (·.slot)))
        (issueGroup (2 * core + 1) g.grp (secondOps s core f g)
          (deniedAt (2 * core) (readyAt (2 * core + 1) (readyAt (2 * core) (triedTwo s core f g))))) := by
  have same := fun {β : Type} (φ : Ctx → β) hφ => readyBoth_field (β := β) (s := s) (core := core) (f := f) (g := g) φ hφ
  have wins : ∀ c d c' d' : Ctx, c'.denials = c.denials → c'.latency = c.latency → d'.denials = d.denials → d'.latency = d.latency →
      firstWins c' d' = firstWins c d := by
    intro c d c' d' h1 h2 h3 h4
    rw [firstWins, firstWins, h1, h2, h3, h4]
  have split : (getCore (readyAt (2 * core + 1) (readyAt (2 * core) (triedTwo s core f g))) core).split = (getCore s core).split :=
    triedTwo_split ..
  rw [h.both a b, issueCycle_meet ((same Ctx.yield (fun _ _ _ => rfl) _).trans h.firstYield)
    ((same Ctx.yield (fun _ _ _ => rfl) _).trans h.secondYield) h.firstOrder h.secondOrder meets, split,
    wins _ _ _ _ (same Ctx.denials (fun _ _ _ => rfl) _) (same Ctx.latency (fun _ _ _ => rfl) _)
      (same Ctx.denials (fun _ _ _ => rfl) _) (same Ctx.latency (fun _ _ _ => rfl) _)]

/-- Both issue, each as it would alone. -/
theorem TwoTurns.apart (a : MayIssue (triedTwo s core f g) (2 * core) f (firstOps s core f g))
    (b : MayIssue (triedTwo s core f g) (2 * core + 1) g (secondOps s core f g)) (apart : ¬Meets (firstOps s core f g) (secondOps s core f g))
    (pa : ∀ o ∈ firstOps s core f g, o.effect = id ∧ ∀ code num, o.seq ≠ .trap code num)
    (pb : ∀ o ∈ secondOps s core f g, o.effect = id ∧ ∀ code num, o.seq ≠ .trap code num) :
    ∃ t w, doGroupIssue core s =
        tick core (subSteps (getCore s core).split ((firstOps s core f g ++ secondOps s core f g).map (·.slot))) t ∧
      getCtx t (2 * core) = getCtx (issueGroup (2 * core) f.grp (firstOps s core f g)
        (readyAt (2 * core + 1) (readyAt (2 * core) (triedTwo s core f g)))) (2 * core) ∧
      getCtx t (2 * core + 1) = { getCtx (issueGroup (2 * core + 1) g.grp (secondOps s core f g)
        (readyAt (2 * core + 1) (readyAt (2 * core) (triedTwo s core f g)))) (2 * core + 1) with windowOpen := w } ∧ t.mem = s.mem := by
  have same := fun {β : Type} (φ : Ctx → β) hφ => readyBoth_field (β := β) (s := s) (core := core) (f := f) (g := g) φ hφ
  have split : (getCore (readyAt (2 * core + 1) (readyAt (2 * core) (triedTwo s core f g))) core).split = (getCore s core).split :=
    triedTwo_split ..
  have quiet := triedTwo_quiet s core f g
  have ready : ∀ v : State, (getCtx (readyAt (2 * core + 1) (readyAt (2 * core) v)) (2 * core)).st = .ready ∧
      (getCtx (readyAt (2 * core + 1) (readyAt (2 * core) v)) (2 * core + 1)).st = .ready := by
    intro v
    unfold readyAt
    rw [getCtx_updCtx_ne _ _ (Nat.succ_ne_self _).symm, getCtx_updCtx_self, getCtx_updCtx_self]
    exact ⟨rfl, rfl⟩
  obtain ⟨t, w, cycle, first, second, mem⟩ := issueCycle_alone (fg := f.grp) (gg := g.grp)
    ((same Ctx.yield (fun _ _ _ => rfl) _).trans h.firstYield) ((same Ctx.yield (fun _ _ _ => rfl) _).trans h.secondYield) apart
    h.firstOrder h.secondOrder (fun o ho => (pa o ho).1) (fun o ho => (pb o ho).1) (noTrap_of fun o ho => (pa o ho).2)
    (noTrap_of fun o ho => (pb o ho).2)
    (show (readyAt (2 * core + 1) (readyAt (2 * core) (triedTwo s core f g))).endw = [] from quiet.2.trans h.clean)
    (ready _).1 (ready _).2
  rw [split] at cycle
  exact ⟨t, w, (h.both a b).trans cycle, first, second, mem.trans quiet.1⟩

end

end Sys2Proof.Machine
end

section

namespace Sys2Proof.Machine

/-- Settles O49: `group_alone` for one position at its group, `TwoTurns` for the junction of two. -/
theorem groupsAndJunction : Obligations.GroupsAndJunction := by
  unfold Obligations.GroupsAndJunction
  refine ⟨fun i k v h => ?_, tick_cycle, ?_, ?_⟩
  · obtain ⟨o, -, sem, -, runs⟩ := exec_solo i v k h
    exact ⟨o, sem, runs⟩
  · intro s core q f rest p a u c other ops on n side power agenda opened live clean here away awayYield yield
    have run := step_groupIssue power agenda
    have field := fun {β : Type} (φ : Ctx → β) hφ => turnState_field (β := β) φ hφ { s with agenda := rest } core p p (.got f)
    have quiet : Quiet s u := turnState_quiet { s with agenda := rest } core p (.got f)
    have walk : c.bodyWalk = none := (field Ctx.bodyWalk fun _ _ => rfl).trans (by
      rw [← installFills_getCtx core]
      exact here.walk)
    obtain ⟨traps, blocks, issues⟩ := group_alone { s with agenda := rest } core q f side opened live clean here away awayYield
      ((field Ctx.yield fun _ _ => rfl).symm.trans yield)
    refine ⟨groupOps_each u p here.slots here.single, fun e h => run.trans (congrArg _ (traps e h)),
      fun sound h => run.trans (congrArg _ (blocks sound h)), fun may => ⟨run.trans (congrArg _ (issues may)), ?_⟩, ?_⟩
    · intro effect loops few
      exact plainGroup_step effect loops walk few quiet clean (run.trans (congrArg _ (issues may)))
    · intro d e r t1 t2 m x y ys words _ _ may hq rows
      exact popsGroup_step words rfl (quiet.2.trans clean) hq rows (run.trans (congrArg _ (issues may)))
  · intro s core f g rest p q a u c d A B ready denied blocked goes both meets plain power agenda opened live clean first second cy dy
    have run := step_groupIssue power agenda
    have two : TwoTurns { s with agenda := rest } core f g := ⟨first, second, live, opened, clean, cy, dy⟩
    refine ⟨fun a b => ⟨fun m => ?_, fun m pa pb => ?_⟩, fun a sound held => ?_, fun b sound held => ?_⟩
    · have wins := firstWins_iff c d
      have cycle := run.trans (congrArg _ (two.meet a b m))
      split
      · next h => exact cycle.trans (congrArg _ (if_pos (wins.2 h)))
      · next h => exact cycle.trans (congrArg _ (if_neg fun k => h (wins.1 k)))
    · obtain ⟨t, w, cycle, one, other, mem⟩ := two.apart a b m pa pb
      exact ⟨t, w, run.trans (congrArg _ cycle), one, other, fun k => by rw [mem]⟩
    · exact run.trans (congrArg _ (two.first_issues a ⟨sound, held⟩))
    · exact run.trans (congrArg _ (two.second_issues ⟨sound, held⟩ b))

end Sys2Proof.Machine
end

section

namespace Sys2Proof.Machine

/-- A store that has still to be performed. -/
def openStore : GReq where
  kind := .store
  id := 0
  va := 0
  key := 0
  home := 0
  place := 0
  size := 8
  data := 0
  bad := false
  op := 0
  arg := 0
  dest := none
  lane := 0
  acq := false
  scope := 0
  pts := 0
  done := false
  wts := 0
  again := false
  lost := false

/-- A draining context with that store, and an entry of its landing buffer that has no step left to wait for. -/
def drainingCtx : Ctx where
  st := .draining
  landing := [⟨.fmt, 1, 1, 0, 0, 0, false⟩]
  reqs := [openStore]

/-- The machine after reset, but for that context at position 0. -/
def drainingState : State := { State.reset with ctxs := [(0, drainingCtx)] }

theorem drainingState_ctx : getCtx drainingState 0 = drainingCtx := rfl

/-- No step is counted for an entry of no steps, so draining leaves it where it is. -/
theorem drainComplete_leaves_landing :
    (getCtx (doDrainComplete 0 drainingState) 0).landing = [⟨.fmt, 1, 1, 0, 0, 0, false⟩] := by
  have left : landLeft drainingCtx = 0 := rfl
  have open_ : writesLeft drainingCtx = true := rfl
  have drains : (decide (0 < 512) && drainingCtx.st == .draining) = true := rfl
  unfold doDrainComplete
  dsimp only
  rw [drainingState_ctx, left, open_, drains]
  rfl

/-- A launch, which the clause refuted does not look at. -/
def anyLaunch : Launch where
  seq := 0
  record := 0
  apportioned := false
  groups := 0
  assign := []
  asn := 0
  origin := 0
  st := .accepted
  cause := 0
  preds := []
  nclus := 0
  bound := 0
  waves := []
  fgroup := 0
  ending := false
  replays := 0
  restartable := false
  poison := false
  raised := false
  ptsFloor := 0
  slot := 0

/-- Refutes O55 by its clause of a draining context whose writes are not yet performed, which says that its results have landed: the
statement takes every state, and so one whose landing buffer holds an entry with 0 steps to go.  `drainComplete` counts as many steps
as the largest number to go, here none, and leaves the entry.  Nothing here says that a step comes to such a state, nor that another
clause fails: with a hypothesis that every entry has a step to go this counterexample is none. -/
theorem not_launchLife : ¬ Obligations.LaunchLife := by
  unfold Obligations.LaunchLife
  rintro ⟨-, life⟩
  obtain ⟨-, -, drain⟩ := life drainingState 0 0 0 anyLaunch []
  obtain ⟨waits, -⟩ := drain (by decide) rfl
  obtain ⟨t, runs, -, landed, -, -⟩ := waits rfl
  cases runs
  rw [drainComplete_leaves_landing] at landed
  cases landed

end Sys2Proof.Machine
end

section
/-! SUPPORT. What a write of the device itself leaves, read back where no page is granted away (R151, R233). -/

namespace Sys2Proof.Machine

/-! ### Reads of bytes written in parts -/

theorem rdBytes_of_getD {m : List Host.Cell} {k : Nat} {bs : List Byte} (h : ∀ j < bs.length, rdByte m (k + j) = bs.getD j 0) :
    rdBytes m k bs.length = bs := by
  induction bs generalizing k with
  | nil => rfl
  | cons b bs ih =>
    have first : rdByte m k = b := h 0 (Nat.succ_pos _)
    have rest : rdBytes m (k + 1) bs.length = bs := ih fun j hj => by
      have next := h (j + 1) (Nat.succ_lt_succ hj)
      rw [show k + (j + 1) = k + 1 + j by omega] at next
      exact next
    rw [List.length_cons, rdBytes, first, rest]

/-- Of stretches of bytes of one length after each other, each is found at its place. -/
theorem getD_flatMap_range {f : Nat → List Byte} {size n i j : Nat} (each : ∀ i, (f i).length = size) (hi : i < n) (hj : j < size) :
    ((List.range n).flatMap f).getD (size * i + j) 0 = (f i).getD j 0 := by
  have length : ∀ n, ((List.range n).flatMap f).length = size * n := by
    intro n
    rw [List.length_flatMap]
    simp [each, Nat.mul_comm]
  induction n with
  | zero => exact absurd hi (Nat.not_lt_zero _)
  | succ n ih =>
    rw [List.range_succ, List.flatMap_append, List.flatMap_singleton]
    by_cases last : i = n
    · rw [last, List.getD_append_right _ _ _ _ (by rw [length]; omega), length, Nat.add_sub_cancel_left]
    · have low : i < n := by omega
      have inside : size * i + j < size * n := by
        have := Nat.mul_le_mul_left size (Nat.succ_le_of_lt low)
        rw [Nat.mul_succ] at this
        omega
      rw [List.getD_append _ _ _ _ (by rw [length]; exact inside)]
      exact ih low

theorem devicePart_grants (e : Nat × List Byte) (s : State) : (devicePart s e).grants = s.grants := by
  unfold devicePart askRecall
  split
  · split <;> rfl
  · rfl

theorem deviceWrite_grants (pa : Nat) (bs : List Byte) (s : State) : (deviceWrite pa bs s).grants = s.grants :=
  deviceWrite_keeps State.grants pa bs s fun e _ t => devicePart_grants e t

theorem pageGranted_grants {s t : State} (h : t.grants = s.grants) (page : Nat) (write : Bool) :
    pageGranted t page write = pageGranted s page write := by
  unfold pageGranted
  rw [h]

/-- A byte on which the parts of a write agree, and which one of them covers. -/
theorem foldl_devicePart_reads {l : List (Nat × List Byte)} {s : State} {k : Nat} {b : Byte}
    (home : ∀ e ∈ l, e.2 ≠ [] → pageGranted s (e.1 / 2 ^ 16) true = false)
    (agree : ∀ e ∈ l, ∀ j < e.2.length, memKey 0 e.1 + j = k → e.2.getD j 0 = b)
    (covered : (∃ e ∈ l, ∃ j < e.2.length, memKey 0 e.1 + j = k) ∨ rdByte s.mem k = b) : rdByte (l.foldl devicePart s).mem k = b := by
  induction l generalizing s with
  | nil =>
    rcases covered with ⟨e, he, -⟩ | h
    · exact absurd he List.not_mem_nil
    · exact h
  | cons e l ih =>
    rw [List.foldl_cons]
    refine ih (fun x hx ne => ?_) (fun x hx => agree x (List.mem_cons_of_mem _ hx)) ?_
    · rw [pageGranted_grants (devicePart_grants e s)]
      exact home x (List.mem_cons_of_mem _ hx) ne
    · by_cases here : ∃ j < e.2.length, memKey 0 e.1 + j = k
      · obtain ⟨j, hj, rfl⟩ := here
        have stays : pageGranted s (e.1 / 2 ^ 16) true = false :=
          home e List.mem_cons_self (List.ne_nil_of_length_pos (Nat.zero_lt_of_lt hj))
        refine .inr ?_
        unfold devicePart
        rw [stays, if_neg Bool.false_ne_true, deviceStore_mem, rdByte_wrBytes_in _ _ _ _ hj]
        exact agree e List.mem_cons_self j hj rfl
      · rcases covered with ⟨x, hx, j, hj, hk⟩ | h
        · rcases List.mem_cons.1 hx with rfl | hx
          · exact absurd ⟨j, hj, hk⟩ here
          · exact .inl ⟨x, hx, j, hj, hk⟩
        · refine .inr ?_
          unfold devicePart
          split
          · rw [(askRecall_quiet ..).1]
            exact h
          · rw [deviceStore_mem]
            rcases Nat.lt_or_ge k (memKey 0 e.1) with below | above
            · rw [rdByte_wrBytes_below _ _ below, h]
            · rw [rdByte_wrBytes_above _ _ (Nat.not_lt.1 fun hit => here ⟨k - memKey 0 e.1, by omega, by omega⟩), h]

theorem memKey_add {pa n i : Nat} (whole : memKey 0 pa + n ≤ 2 ^ 52) (h : i < n) : memKey 0 (pa + i) = memKey 0 pa + i := by
  unfold memKey at *
  omega

/-- The bytes written stand in memory. -/
theorem deviceWrite_reads {pa i : Nat} {bs : List Byte} {s : State} (home : AtHome s pa bs.length)
    (whole : memKey 0 pa + bs.length ≤ 2 ^ 52) (h : i < bs.length) :
    rdByte (deviceWrite pa bs s).mem (memKey 0 pa + i) = bs.getD i 0 := by
  have place : ∀ x < (pa % 2 ^ 16 + bs.length + 2 ^ 16 - 1) / 2 ^ 16, ∃ d, (if x = 0 then pa else (pa / 2 ^ 16 + x) * 2 ^ 16) = pa + d ∧
      ((pa + d) / 2 ^ 16 + 1) * 2 ^ 16 - (pa + d) = (pa / 2 ^ 16 + x + 1) * 2 ^ 16 - (pa + d) ∧ d ≤ bs.length := by
    intro x hx
    by_cases zero : x = 0
    · exact ⟨0, by rw [if_pos zero]; rfl, by rw [zero]; rfl, Nat.zero_le _⟩
    · refine ⟨(pa / 2 ^ 16 + x) * 2 ^ 16 - pa, ?_, ?_, ?_⟩
      · rw [if_neg zero]
        omega
      · omega
      · omega
  have part : ∀ d m, (((bs.drop d).take m).length ≤ bs.length - d) ∧ ∀ j < ((bs.drop d).take m).length,
      ((bs.drop d).take m).getD j 0 = bs.getD (d + j) 0 := by
    intro d m
    refine ⟨by rw [List.length_take, List.length_drop]; omega, fun j hj => ?_⟩
    rw [List.length_take, List.length_drop] at hj
    rw [List.getD_eq_getElem?_getD, List.getElem?_take_of_lt (by omega), List.getElem?_drop, List.getD_eq_getElem?_getD]
  refine foldl_devicePart_reads (fun e he ne => ?_) (fun e he j hj hk => ?_) (.inl ?_)
  · obtain ⟨off, at_, empty | inside⟩ := pageParts_inside he
    · exact absurd empty ne
    · rw [at_]
      exact home off (Nat.lt_of_lt_of_le (Nat.lt_add_of_pos_right (List.length_pos_iff.2 ne)) inside)
  · obtain ⟨x, hx, rfl⟩ := List.mem_map.1 he
    obtain ⟨d, at_, -, -⟩ := place x (List.mem_range.1 hx)
    dsimp only at hj hk ⊢
    rw [at_, Nat.add_sub_cancel_left] at hj ⊢
    rw [at_] at hk
    have long := (part d (((pa + d) / 2 ^ 16 + 1) * 2 ^ 16 - (pa + d))).1
    rw [memKey_add whole (by omega)] at hk
    rw [(part d _).2 j hj, show d + j = i by omega]
  · have low : (pa % 2 ^ 16 + i) / 2 ^ 16 < (pa % 2 ^ 16 + bs.length + 2 ^ 16 - 1) / 2 ^ 16 := by omega
    refine ⟨_, List.mem_map.2 ⟨(pa % 2 ^ 16 + i) / 2 ^ 16, List.mem_range.2 low, rfl⟩, ?_⟩
    obtain ⟨d, at_, page, -⟩ := place _ low
    dsimp only
    rw [at_, Nat.add_sub_cancel_left, page]
    have first : pa + d ≤ pa + i := by
      rw [← at_]
      split <;> omega
    have last : pa + i < (pa / 2 ^ 16 + (pa % 2 ^ 16 + i) / 2 ^ 16 + 1) * 2 ^ 16 := by omega
    generalize (pa / 2 ^ 16 + (pa % 2 ^ 16 + i) / 2 ^ 16 + 1) * 2 ^ 16 = top at last
    refine ⟨i - d, ?_, ?_⟩
    · rw [List.length_take, List.length_drop]
      exact Nat.lt_min.2 ⟨by omega, by omega⟩
    · rw [memKey_add whole (by omega)]
      omega

end Sys2Proof.Machine
end

section
/-! SUPPORT. What a save writes into the save area (R287, R288, Table 18-4). -/

namespace Sys2Proof.Machine

/-! ### Writes within an area of 2^20 bytes -/

section
variable {b x k : Nat} {v : Byte} {s : State} {l : List (Nat × List Byte)}

theorem area_whole (aligned : b % 2 ^ 20 = 0) : memKey 0 b + 2 ^ 20 ≤ 2 ^ 52 := by
  unfold memKey
  omega

/-- The parts of an area change no byte outside it. -/
theorem area_outside (aligned : b % 2 ^ 20 = 0) (inside : ∀ e ∈ l, e.1 + e.2.length ≤ 2 ^ 20)
    (out : ¬(memKey 0 b ≤ k ∧ k < memKey 0 b + 2 ^ 20)) :
    rdByte (l.foldl (fun t e => deviceWrite (b + e.1) e.2 t) s).mem k = rdByte s.mem k := by
  induction l generalizing s with
  | nil => rfl
  | cons e l ih =>
    rw [List.foldl_cons, ih fun x hx => inside x (List.mem_cons_of_mem _ hx)]
    refine deviceWrite_bytes fun off n hn hit => out ?_
    have room := inside e List.mem_cons_self
    rw [Nat.add_assoc, memKey_add (area_whole aligned) (show e.1 + off < 2 ^ 20 by omega)] at hit
    omega

/-- A byte on which the parts of an area agree, and which one of them covers. -/
theorem area_reads (aligned : b % 2 ^ 20 = 0) (inside : ∀ e ∈ l, e.1 + e.2.length ≤ 2 ^ 20) (home : AtHome s b (2 ^ 20))
    (agree : ∀ e ∈ l, ∀ j < e.2.length, e.1 + j = x → e.2.getD j 0 = v)
    (covered : (∃ e ∈ l, ∃ j < e.2.length, e.1 + j = x) ∨ rdByte s.mem (memKey 0 b + x) = v) :
    rdByte (l.foldl (fun t e => deviceWrite (b + e.1) e.2 t) s).mem (memKey 0 b + x) = v := by
  induction l generalizing s with
  | nil =>
    rcases covered with ⟨e, he, -⟩ | h
    · exact absurd he List.not_mem_nil
    · exact h
  | cons e l ih =>
    have room := inside e List.mem_cons_self
    have whole := area_whole aligned
    rw [List.foldl_cons]
    refine ih (fun y hy => inside y (List.mem_cons_of_mem _ hy)) (fun j hj => ?_) (fun y hy => agree y (List.mem_cons_of_mem _ hy)) ?_
    · rw [pageGranted_grants (deviceWrite_grants _ _ s)]
      exact home j hj
    · by_cases here : ∃ j < e.2.length, e.1 + j = x
      · obtain ⟨j, hj, rfl⟩ := here
        have start : memKey 0 (b + e.1) = memKey 0 b + e.1 := memKey_add whole (by omega)
        refine .inr ?_
        rw [← Nat.add_assoc, ← start]
        refine (deviceWrite_reads (fun i hi => ?_) (by rw [start]; omega) hj).trans (agree e List.mem_cons_self j hj rfl)
        rw [Nat.add_assoc]
        exact home _ (by omega)
      · rcases covered with ⟨y, hy, j, hj, hx⟩ | h
        · rcases List.mem_cons.1 hy with rfl | hy
          · exact absurd ⟨j, hj, hx⟩ here
          · exact .inl ⟨y, hy, j, hj, hx⟩
        · refine .inr (Eq.trans (deviceWrite_bytes fun off n hn hit => here ⟨x - e.1, ?_, ?_⟩) h)
          all_goals
            rw [Nat.add_assoc, memKey_add whole (show e.1 + off < 2 ^ 20 by omega)] at hit
            omega

end

/-! ### The parts of Table 18-4 -/

/-- The register files of Table 18-4: file, offset, registers and bytes of each. -/
def fileTable : List (File × Nat × Nat × Nat) :=
  [(.x, 0x1000, 32, 8), (.y, 0x1100, 32, 8), (.a, 0x1200, 16, 8), (.w, 0x1280, 16, 8), (.c, 0x1300, 32, 8), (.ka, 0x1400, 8, 32),
    (.kb, 0x1500, 8, 32), (.kc, 0x1600, 8, 32), (.va, 0x2000, 16, 256), (.vb, 0x3000, 16, 256), (.vc, 0x4000, 16, 256),
    (.f, 0x5000, 8, 256), (.z, 0x5800, 8, 256)]

/-- The part that holds a file's registers. -/
def filePart (c : Ctx) (f : File × Nat × Nat × Nat) : Nat × List Byte := (f.2.1, fileBytes c f.1 f.2.2.1 f.2.2.2)

/-- The other parts. -/
def otherParts (s : State) (p : Nat) : List (Nat × List Byte) :=
  (0x1C0, bytesLE 16 (getCtx s p).scl.toNat)
    :: (0xC000, (List.range (if (getCtx s p).wide then 64 else 32)).flatMap (fun i => bytesLE 256 (smGet 0 (getCtx s p).park i).toNat))
    :: (operandParts (getCtx s p)
    ++ (List.range (if (getCtx s p).wide then 8 else 4)).map (fun q => (0x20000 + 0x4000 * q,
        ((smGet [] (getCore s (coreOf p)).queues (queueFirst (getCtx s p) p + q)).take Config.queueEntries).flatMap
          (fun r => bytesLE 256 r.row.toNat)))
    ++ (List.range (accRows (getCtx s p))).map (fun r => (0x80000 + 1024 * r,
        bytesLE 1024 (smGet 0 (getCore s (coreOf p)).acc (accFirst (getCtx s p) p + r)).toNat)))

theorem savedParts_eq (s : State) (p : Nat) : savedParts s p = fileTable.map (filePart (getCtx s p)) ++ otherParts s p := rfl

/-- A part of the area outside the register files. -/
def Beside (e : Nat × List Byte) : Prop := e.1 + e.2.length ≤ 2 ^ 20 ∧ (e.1 + e.2.length ≤ 0x1000 ∨ 0x6000 ≤ e.1)

theorem fileBytes_length (c : Ctx) (fl : File) (n size : Nat) : (fileBytes c fl n size).length = n * size := by
  unfold fileBytes
  rw [List.length_flatMap]
  simp

theorem length_flatMap_le {α : Type} {f : α → List Byte} {l : List α} {m n : Nat} (few : l.length ≤ n) (each : ∀ a, (f a).length = m) :
    (l.flatMap f).length ≤ n * m := by
  rw [List.length_flatMap]
  simp only [each, List.map_const', List.sum_replicate, smul_eq_mul]
  exact Nat.mul_le_mul_right m few

theorem operandParts_beside (c : Ctx) : ∀ e ∈ operandParts c, Beside e := by
  intro e he
  obtain ⟨x, hx, hb⟩ := List.mem_flatMap.1 he
  obtain ⟨b, -, rfl⟩ := List.mem_map.1 hb
  have few : x.2 < 2 := by
    have index := (List.mem_zipIdx (x := x.1) (i := x.2) hx).2.1
    rw [List.length_take] at index
    omega
  have long := length_flatMap_le (f := fun r => bytesLE 256 (heldRow x.1 b r).toNat) (l := List.range 16) (n := 16)
    (by simp) fun _ => bytesLE_length ..
  have bit : b.toNat ≤ 1 := Bool.toNat_le b
  unfold Beside
  dsimp only
  omega

theorem otherParts_beside (s : State) (p : Nat) : ∀ e ∈ otherParts s p, Beside e := by
  intro e he
  unfold otherParts at he
  rcases List.mem_cons.1 he with rfl | he
  · have long := bytesLE_length 16 (getCtx s p).scl.toNat
    generalize bytesLE 16 (getCtx s p).scl.toNat = bs at long
    exact ⟨by dsimp only; omega, .inl (by dsimp only; omega)⟩
  rcases List.mem_cons.1 he with rfl | he
  · have long := length_flatMap_le (f := fun i => bytesLE 256 (smGet 0 (getCtx s p).park i).toNat)
      (l := List.range (if (getCtx s p).wide then 64 else 32)) (n := 64) (by rw [List.length_range]; split <;> decide)
      fun _ => bytesLE_length ..
    exact ⟨by dsimp only; omega, .inr (by dsimp only; omega)⟩
  rcases List.mem_append.1 he with he | he
  · rcases List.mem_append.1 he with he | he
    · exact operandParts_beside _ e he
    · obtain ⟨q, hq, rfl⟩ := List.mem_map.1 he
      have few : q < 8 := Nat.lt_of_lt_of_le (List.mem_range.1 hq) (by split <;> decide)
      have long := length_flatMap_le (f := fun r : QRow => bytesLE 256 r.row.toNat)
        (l := (smGet [] (getCore s (coreOf p)).queues (queueFirst (getCtx s p) p + q)).take Config.queueEntries) (n := 64)
        (List.length_take_le ..) fun _ => bytesLE_length ..
      exact ⟨by dsimp only; omega, .inr (by dsimp only; omega)⟩
  · obtain ⟨r, hr, rfl⟩ := List.mem_map.1 he
    have few : r < 512 := Nat.lt_of_lt_of_le (List.mem_range.1 hr) (by unfold accRows; split <;> decide)
    have long := bytesLE_length 1024 (smGet 0 (getCore s (coreOf p)).acc (accFirst (getCtx s p) p + r)).toNat
    generalize bytesLE 1024 (smGet 0 (getCore s (coreOf p)).acc (accFirst (getCtx s p) p + r)).toNat = bs at long
    exact ⟨by dsimp only; omega, .inr (by dsimp only; omega)⟩

/-- The bytes of the area whose layout is left open. -/
def freeParts (fresh : Nat) : List (Nat × List Byte) :=
  openParts.map (fun e => (e.1, (List.range e.2).map (fun i => Config.saveByte fresh (e.1 + i))))

theorem freeParts_beside (fresh : Nat) : ∀ e ∈ freeParts fresh, Beside e := by
  intro e he
  obtain ⟨x, hx, rfl⟩ := List.mem_map.1 he
  have table : ∀ x ∈ openParts, x.1 + x.2 ≤ 2 ^ 20 ∧ (x.1 + x.2 ≤ 0x1000 ∨ 0x6000 ≤ x.1) := by decide
  unfold Beside
  dsimp only
  rw [List.length_map, List.length_range]
  exact table x hx

/-- What a save writes. -/
def areaParts (s : State) (p : Nat) : List (Nat × List Byte) := freeParts s.fresh ++ savedParts s p

theorem writeArea_some {s : State} {p b : Nat} (h : (getCtx s p).area = some b) :
    writeArea p s = (areaParts s p).foldl (fun t e => deviceWrite (b + e.1) e.2 t) { s with fresh := s.fresh + 1 } := by
  unfold writeArea
  rw [h]
  rfl

theorem areaParts_cases {s : State} {p : Nat} {e : Nat × List Byte} (h : e ∈ areaParts s p) :
    (∃ f ∈ fileTable, e = filePart (getCtx s p) f) ∨ Beside e := by
  rcases List.mem_append.1 h with h | h
  · exact .inr (freeParts_beside _ e h)
  · rw [savedParts_eq] at h
    rcases List.mem_append.1 h with h | h
    · obtain ⟨f, hf, rfl⟩ := List.mem_map.1 h
      exact .inl ⟨f, hf, rfl⟩
    · exact .inr (otherParts_beside s p e h)

theorem fileTable_inside : ∀ f ∈ fileTable, 0x1000 ≤ f.2.1 ∧ f.2.1 + f.2.2.1 * f.2.2.2 ≤ 0x6000 := by decide

theorem fileTable_apart : ∀ f ∈ fileTable, ∀ g ∈ fileTable, f = g ∨ f.2.1 + f.2.2.1 * f.2.2.2 ≤ g.2.1 ∨
    g.2.1 + g.2.2.1 * g.2.2.2 ≤ f.2.1 := by decide

theorem fileTable_width : ∀ f ∈ fileTable, fileWidth f.1 = 8 * f.2.2.2 := by decide

theorem areaParts_inside (s : State) (p : Nat) : ∀ e ∈ areaParts s p, e.1 + e.2.length ≤ 2 ^ 20 := by
  intro e he
  rcases areaParts_cases he with ⟨f, hf, rfl⟩ | beside
  · have := fileTable_inside f hf
    unfold filePart
    dsimp only
    rw [fileBytes_length]
    omega
  · exact beside.1

theorem setWidth_toNat_lt {m n : Nat} (v : BitVec m) (h : m ≤ n) : (v.setWidth n).toNat < 2 ^ m := by
  rw [BitVec.toNat_setWidth, Nat.mod_eq_of_lt (Nat.lt_of_lt_of_le v.isLt (Nat.pow_le_pow_right (by decide) h))]
  exact v.isLt

/-- A register holds as many bits as its file's are wide. -/
theorem regGet_lt (c : Ctx) (r : Reg) : (regGet c r).toNat < 2 ^ fileWidth r.file := by
  unfold regGet filesGet fileWidth
  cases r.file
  case w =>
    dsimp only
    split
    · rw [BitVec.ofNat_eq_ofNat, BitVec.toNat_zero]
      exact Nat.two_pow_pos 64
    · exact setWidth_toNat_lt _ (by decide)
  case ka | kb | kc =>
    unfold predGet
    dsimp only
    split <;> exact setWidth_toNat_lt _ (by decide)
  case va | vb | vc | f | z => exact BitVec.isLt _
  case x | y | c | a => exact setWidth_toNat_lt _ (by decide)

/-- Each register is found in the area at its place. -/
theorem writeArea_reads {s : State} {p b : Nat} (h : (getCtx s p).area = some b) (aligned : b % 2 ^ 20 = 0)
    (home : AtHome s b (2 ^ 20)) {f : File × Nat × Nat × Nat} (hf : f ∈ fileTable) {i : Nat} (hi : i < f.2.2.1) :
    rdNat (writeArea p s).mem (memKey 0 b + f.2.1 + f.2.2.2 * i) f.2.2.2 = (regGet (getCtx s p) ⟨f.1, i⟩).toNat := by
  have bytes : rdBytes (writeArea p s).mem (memKey 0 b + f.2.1 + f.2.2.2 * i) f.2.2.2 =
      bytesLE f.2.2.2 (regGet (getCtx s p) ⟨f.1, i⟩).toNat := by
    have length := bytesLE_length f.2.2.2 (regGet (getCtx s p) ⟨f.1, i⟩).toNat
    conv_lhs => rw [← length]
    refine rdBytes_of_getD fun j hj => ?_
    rw [length] at hj ⊢
    have place : f.2.2.2 * i + j < f.2.2.1 * f.2.2.2 := by
      have := Nat.mul_le_mul_left f.2.2.2 (Nat.succ_le_of_lt hi)
      rw [Nat.mul_succ, Nat.mul_comm f.2.2.2 f.2.2.1] at this
      omega
    have mine : (filePart (getCtx s p) f).2.getD (f.2.2.2 * i + j) 0 =
        (bytesLE f.2.2.2 (regGet (getCtx s p) ⟨f.1, i⟩).toNat).getD j 0 :=
      getD_flatMap_range (f := fun i => bytesLE f.2.2.2 (regGet (getCtx s p) ⟨f.1, i⟩).toNat) (fun _ => bytesLE_length ..) hi hj
    have room := fileTable_inside f hf
    rw [writeArea_some h, Nat.add_assoc, Nat.add_assoc, ← Nat.add_assoc f.2.1]
    refine area_reads aligned (areaParts_inside s p) home (fun e he y hy hx => ?_) (.inl ⟨filePart (getCtx s p) f, ?_, f.2.2.2 * i + j, ?_, ?_⟩)
    · rcases areaParts_cases he with ⟨g, hg, rfl⟩ | beside
      · unfold filePart at hy hx
        dsimp only at hy hx
        rw [fileBytes_length] at hy
        rcases fileTable_apart f hf g hg with rfl | before | after
        · rw [show y = f.2.2.2 * i + j by omega]
          exact mine
        · omega
        · omega
      · have := beside.2
        omega
    · refine List.mem_append_right _ ?_
      rw [savedParts_eq]
      exact List.mem_append_left _ (List.mem_map_of_mem hf)
    · unfold filePart
      dsimp only
      rw [fileBytes_length]
      exact place
    · unfold filePart
      dsimp only
      omega
  have width := regGet_lt (getCtx s p) ⟨f.1, i⟩
  rw [fileTable_width f hf, Nat.pow_mul] at width
  rw [rdNat, bytes, bytesLE_natLE]
  exact Nat.mod_eq_of_lt width

/-- A save writes nothing outside the area. -/
theorem writeArea_outside {s : State} {p k : Nat} (aligned : ∀ b, (getCtx s p).area = some b → b % 2 ^ 20 = 0)
    (out : ¬∃ b, (getCtx s p).area = some b ∧ memKey 0 b ≤ k ∧ k < memKey 0 b + 2 ^ 20) :
    rdByte (writeArea p s).mem k = rdByte s.mem k := by
  cases h : (getCtx s p).area with
  | none =>
    unfold writeArea
    rw [h]
  | some b =>
    rw [writeArea_some h]
    exact area_outside (aligned b h) (areaParts_inside s p) fun hit => out ⟨b, h, hit⟩

/-- The contexts and what is saved are as before. -/
theorem writeArea_keeps {β : Type} (φ : State → β) (hφ : ∀ e t, φ (devicePart t e) = φ t) (p : Nat) (s : State)
    (fresh : φ { s with fresh := s.fresh + 1 } = φ s) : φ (writeArea p s) = φ s := by
  cases h : (getCtx s p).area with
  | none =>
    unfold writeArea
    rw [h]
  | some b =>
    rw [writeArea_some h]
    have all : ∀ (l : List (Nat × List Byte)) (t : State), φ (l.foldl (fun t e => deviceWrite (b + e.1) e.2 t) t) = φ t := by
      intro l
      induction l with
      | nil => exact fun _ => rfl
      | cons e l ih => exact fun t => (ih _).trans (deviceWrite_keeps φ _ _ t fun e _ t => hφ e t)
    exact (all _ _).trans fresh

end Sys2Proof.Machine
end

section
/-! SUPPORT. Saving and resuming a context (R40, R41, R161, R173, R287, R289, R310). -/

namespace Sys2Proof.Machine

/-! ### A request, and its landing -/

theorem doPreemptionRequest_of {s : State} {p : Nat} (pos : p < 512)
    (st : (getCtx s p).st = .ready ∨ (getCtx s p).st = .blocked ∨ onHold (getCtx s p) = true) (user : (getCtx s p).sup = false)
    (need : wantedBorrower s p = true ∨ inHandlerWay s p = true) :
    doPreemptionRequest p s = setCtx p { getCtx s p with preempt := true } s := by
  refine if_pos ?_
  simp only [pos, user, decide_true, Bool.true_and, Bool.not_false, Bool.and_true, Bool.and_eq_true, Bool.or_eq_true, beq_iff_eq]
  exact ⟨or_assoc.2 st, need⟩

theorem atPreemption_of {c : Ctx} (h : (c.st = .ready ∧ (c.loops = [] ∨ c.atPoint = true)) ∨ c.st = .blocked ∨ onHold c = true) :
    atPreemption c = true := by
  unfold atPreemption
  rcases h with ⟨st, h⟩ | st | h
  · rw [st]
    simpa [List.isEmpty_iff] using h
  · rw [st]
  · have st : c.st = .trapped := by
      simp only [onHold, Bool.and_eq_true, beq_iff_eq] at h
      exact h.1.1
    rw [st]
    exact h

theorem doPreemptSave_of {s : State} {p : Nat} (pos : p < 512) (asked : (getCtx s p).preempt = true)
    (here : atPreemption (getCtx s p) = true) :
    doPreemptSave p s = dissolve p (setCtx p { getCtx s p with st := .saving, preempt := false } s) := by
  refine if_pos ?_
  simp [pos, asked, here]

/-! ### The save -/

theorem freeKey_above (s : State) (p : Nat) : 512 ≤ freeKey s p := by
  unfold freeKey
  split <;> omega

section
variable {s t : State} {p : Nat}

/-- What is kept of a loop is found from its body alone. -/
theorem meetBefore_same {c d : Ctx} (buf : d.lbuf = c.lbuf) (marks : d.lmarks = c.lmarks) (s : State) (p a n : Nat) (e : LoopEntry) :
    meetBefore s p d a n e = meetBefore s p c a n e := by
  induction n generalizing e with
  | zero => rfl
  | succ n ih =>
    unfold meetBefore
    rw [buf, marks]
    split
    · rfl
    · split
      · rfl
      · exact ih _

theorem unbufferEntry_reissue (s : State) (p : Nat) (c : Ctx) (e : LoopEntry) :
    unbufferEntry true s p (reissue c) e = unbufferEntry true s p c e := by
  unfold unbufferEntry
  rw [meetBefore_same (c := c) (d := reissue c) rfl rfl]
  rfl

/-- A context as it is saved. -/
theorem savedCtx_keeps (s : State) (p : Nat) (c : Ctx) : (savedCtx s p c).files = c.files ∧ (savedCtx s p c).pc = c.pc ∧
    (savedCtx s p c).loops = c.loops.map (unbufferEntry true s p c) ∧ (savedCtx s p c).landing = c.landing ∧
    (savedCtx s p c).yield = 0 :=
  ⟨rfl, rfl, List.map_congr_left fun e _ => unbufferEntry_reissue s p c e, rfl, rfl⟩

theorem repoint_owners (side c k : Nat) (s : State) : (getCore (repoint side c s) k).owners = (getCore s k).owners := by
  unfold repoint
  dsimp only
  split
  · rfl
  · by_cases h : k = c
    · rw [h, getCore_updCore_self]
    · rw [getCore_updCore_ne _ _ h]

theorem repoint_saved (side c : Nat) (s : State) : (repoint side c s).saved = s.saved := by
  unfold repoint
  dsimp only
  split <;> rfl

/-- What the freeing of a position keeps of the machine. -/
theorem afterFree_keeps {β : Type} (φ : State → β) (p : Nat) (s : State) (point : ∀ side c u, φ (repoint side c u) = φ u)
    (cluster : ∀ k f u, φ (updCluster k f u) = φ u) (core : ∀ f, (∀ c, (f c).owners = c.owners) → φ (updCore (coreOf p) f s) = φ s) :
    φ (afterFree p s) = φ s := by
  unfold afterFree
  dsimp only
  rw [point, apply_ite φ, cluster, ite_self]
  exact core _ fun _ => rfl

theorem afterFree_owners (p k : Nat) (s : State) : (getCore (afterFree p s) k).owners = (getCore s k).owners := by
  refine afterFree_keeps (fun u => (getCore u k).owners) p s (fun side c u => repoint_owners side c k u) (fun _ _ _ => rfl) fun f hf => ?_
  by_cases h : k = coreOf p
  · rw [h, getCore_updCore_self, hf]
  · rw [getCore_updCore_ne _ _ h]

theorem afterFree_saved (p : Nat) (s : State) : (afterFree p s).saved = s.saved :=
  afterFree_keeps State.saved p s repoint_saved (fun _ _ _ => rfl) fun _ _ => rfl

theorem writeArea_ctx (p r : Nat) (s : State) : getCtx (writeArea p s) r = getCtx s r := by
  unfold getCtx
  rw [writeArea_keeps State.ctxs (fun e t => devicePart_ctxs e t) p s rfl]

end

/-- What a save leaves: the position free, its banks held for the context, and the context under a key of its own. -/
structure Saves (s : State) (p : Nat) (t : State) : Prop where
  free : getCtx t p = {}
  mem : t.mem = (writeArea p s).mem
  owners : ∀ e ∈ (getCore t (coreOf p)).owners, e.2 ≠ .ctx (p % 2)
  kept : ∃ x ∈ t.saved, x.core = coreOf p ∧ 512 ≤ x.key ∧ getCtx t x.key = savedCtx s p (getCtx s p)

theorem doSaveComplete_saves {s : State} {p : Nat} (pos : p < 512) (st : (getCtx s p).st = .saving) (ready : saveReady s p = true) :
    Saves s p (doSaveComplete p s) := by
  have go : (decide (512 ≤ p) || (getCtx s p).st != .saving || !saveReady s p) = false := by
    simp [st, ready, pos]
  have key := freeKey_above s p
  unfold doSaveComplete
  dsimp only
  rw [go, if_neg Bool.false_ne_true]
  refine ⟨?_, ?_, ?_, ?_⟩
  · unfold getCtx
    rw [afterFree_ctxs]
    exact getCtx_setCtx_self ..
  · exact (afterFree_quiet ..).1
  · rw [afterFree_owners, getCore_setCtx, getCore_setCtx]
    intro e he
    rw [show ∀ u v, getCore { updCore (coreOf p) u (writeArea p s) with saved := v } (coreOf p) = u (getCore (writeArea p s) (coreOf p))
      from fun u v => getCore_updCore_self ..] at he
    obtain ⟨x, -, rfl⟩ := List.mem_map.1 he
    by_cases mine : x.2 = .ctx (p % 2)
    · rw [if_pos (by rw [mine]; exact beq_self_eq_true _)]
      exact Owner.noConfusion
    · rw [if_neg (by simpa using mine)]
      exact mine
  · rw [afterFree_saved]
    refine ⟨_, List.mem_append_right _ (List.mem_singleton_self _), rfl, key, ?_⟩
    dsimp only
    unfold getCtx
    rw [afterFree_ctxs]
    exact (getCtx_setCtx_ne _ _ (by omega)).trans (getCtx_setCtx_self ..)

end Sys2Proof.Machine
end

section
/-! SUPPORT. Resuming a saved context, the end of a launch that misses its point, and the binding of a handler (R42, R161, R282 to R284,
R289, R310). -/

namespace Sys2Proof.Machine

/-! ### Matrix operations accepted again -/

/-- From `s` to `t` only operations of position `p` have changed, its counts of fallbacks, and arrays. -/
structure Reaccepts (p : Nat) (s t : State) : Prop where
  ctx : { getCtx t p with mops := (getCtx s p).mops, wfb := (getCtx s p).wfb, wfbcnt := (getCtx s p).wfbcnt } = getCtx s p
  others : ∀ r, r ≠ p → getCtx t r = getCtx s r
  acc : ∀ k, (getCore t k).acc = (getCore s k).acc
  saved : t.saved = s.saved
  ballast : t.ballast = s.ballast
  mem : t.mem = s.mem

section
variable {p : Nat} {s t u : State}

theorem Reaccepts.refl (p : Nat) (s : State) : Reaccepts p s s := ⟨rfl, fun _ _ => rfl, fun _ => rfl, rfl, rfl, rfl⟩

theorem Reaccepts.trans (h : Reaccepts p s t) (k : Reaccepts p t u) : Reaccepts p s u where
  ctx := by
    have both := congrArg (fun c : Ctx => { c with mops := (getCtx s p).mops, wfb := (getCtx s p).wfb, wfbcnt := (getCtx s p).wfbcnt }) k.ctx
    exact both.trans h.ctx
  others r hr := (k.others r hr).trans (h.others r hr)
  acc j := (k.acc j).trans (h.acc j)
  saved := k.saved.trans h.saved
  ballast := k.ballast.trans h.ballast
  mem := k.mem.trans h.mem

theorem Reaccepts.foldl {α : Type} {f : State → α → State} (h : ∀ t x, Reaccepts p t (f t x)) (l : List α) (s : State) :
    Reaccepts p s (l.foldl f s) := by
  induction l generalizing s with
  | nil => exact .refl p s
  | cons x l ih => exact (h s x).trans (ih _)

theorem setArr_reaccepts (core a : Nat) (x : Arr) (s : State) : Reaccepts p s (setArr core a x s) := by
  refine ⟨rfl, fun _ _ => rfl, fun k => ?_, rfl, rfl, rfl⟩
  unfold setArr
  by_cases h : k = core
  · rw [h, getCore_updCore_self]
  · rw [getCore_updCore_ne _ _ h]

theorem resideMop_reaccepts (core : Nat) (m : MOp) (s : State) : Reaccepts p s (resideMop core m s) := by
  have made : Reaccepts p s (makeResident (2 * core) m.tag m.key m.place m.table s) := by
    unfold makeResident
    split
    · exact setArr_reaccepts ..
    · exact .refl p s
  unfold resideMop
  dsimp only
  split
  · refine made.trans (.foldl (fun t a => ?_) _ _)
    split
    · exact setArr_reaccepts ..
    · exact .refl p t
  · exact made

theorem updCtx_reaccepts {f : Ctx → Ctx} (hf : ∀ c, { f c with mops := c.mops, wfb := c.wfb, wfbcnt := c.wfbcnt } = c) (s : State) :
    Reaccepts p s (updCtx p f s) :=
  ⟨by rw [getCtx_updCtx_self]; exact hf _, fun _ hr => getCtx_updCtx_ne _ _ hr, fun _ => rfl, rfl, rfl, rfl⟩

theorem reaccept_reaccepts (p : Nat) (s : State) : Reaccepts p s (reaccept p s) := by
  unfold reaccept
  refine .foldl (fun t i => ?_) _ s
  split
  · exact .refl p t
  next m _ =>
    split
    · exact .refl p t
    split
    · exact resideMop_reaccepts ..
    split
    · exact .refl p t
    dsimp only
    split
    next fill _ =>
      split
      · exact (setArr_reaccepts ..).trans (updCtx_reaccepts (by intro _; rfl) _)
      · exact updCtx_reaccepts (by intro _; rfl) _
    · exact updCtx_reaccepts (by intro _; rfl) _

end

/-! ### Resuming -/

theorem smGet_foldl_smSet_other {α : Type} [DecidableEq α] (d : α) (l : List (Nat × α)) (a k : Nat) (m : SMap α)
    (h : ∀ e ∈ l, e.1 + a ≠ k) : smGet d (l.foldl (fun m e => smSet d m (e.1 + a) e.2) m) k = smGet d m k := by
  induction l generalizing m with
  | nil => rfl
  | cons e l ih =>
    rw [List.foldl_cons, ih _ fun x hx => h x (List.mem_cons_of_mem _ hx)]
    exact smGet_set_ne _ _ _ (Ne.symm (h e List.mem_cons_self))

theorem madeAgain_again (s : State) (p : Nat) (r : GReq) (h : (madeAgain s p r).kind = .load ∨ (madeAgain s p r).kind = .lwt) :
    (madeAgain s p r).again = true := by
  unfold madeAgain at *
  split at h
  · next k =>
    rw [if_pos k]
    dsimp only
    split <;> rfl
  · next k =>
    refine absurd ?_ k
    simpa using h

/-- The state of a resumed context before the point in force of its core is found again. -/
def resumed (key p : Nat) (v : Saved) (s : State) : State :=
  let c := getCtx s key
  let others := fun (r : Nat) => !decide (accFirst c p ≤ r ∧ r < accFirst c p + accRows c)
  let s2 := updCore v.core (fun z => { z with
    owners := z.owners.map (fun e => if e.2 == .held key then (e.1, .ctx (p % 2)) else e)
    acc := v.acc.foldl (fun m e => smSet 0 m (e.1 + accFirst c p) e.2) (z.acc.filter (fun e => others e.1))
    accBad := v.accBad.map (· + accFirst c p) ++ z.accBad.filter others
    queues := v.queues.foldl (fun m e => smSet [] m (e.1 + queueFirst c p) e.2) z.queues
    slog := z.slog.map (fun e => if e.pos == key then { e with pos := p } else e) })
    (setCtx p { unassign c with st := .restoring } (setCtx key {} { s with saved := s.saved.filter (fun x => x.key != key) }))
  updCtx p (fun z => { z with reqs := z.reqs.map (madeAgain s2 p), walks := z.walks.map walkAgain }) s2

theorem doResume_of {s : State} {key p : Nat} {v : Saved} (found : s.saved.find? (fun x => x.key == key) = some v) (pos : p < 512)
    (core : coreOf p = v.core) (may : mayResume s (getCtx s key) p = true) (free : deviceBars s (areaPages (getCtx s key)) = []) :
    ∃ side, doResume key p s = reaccept p (repoint side v.core (filterCtx p { resumed key p v s with
      ballast := (resumed key p v s).ballast.filter (· != v.core) })) := by
  have go : (decide (512 ≤ p) || coreOf p != v.core || !mayResume s (getCtx s key) p) = false := by
    simp [core, may, pos]
  refine ⟨if (getCtx s key).windowOpen then p % 2 else 2, ?_⟩
  unfold doResume
  rw [found]
  dsimp only
  rw [go, free, if_neg Bool.false_ne_true]
  rfl

section
variable {s : State} {key p : Nat} {v : Saved}

theorem resumed_ctx (far : p ≠ key) : (getCtx (resumed key p v s) p).st = .restoring ∧
    (getCtx (resumed key p v s) p).files = (getCtx s key).files ∧ (getCtx (resumed key p v s) p).pc = (getCtx s key).pc ∧
    (getCtx (resumed key p v s) p).landing = (getCtx s key).landing ∧ getCtx (resumed key p v s) key = {} ∧
    ∀ r ∈ (getCtx (resumed key p v s) p).reqs, r.kind = .load ∨ r.kind = .lwt → r.again = true := by
  unfold resumed
  dsimp only
  rw [getCtx_updCtx_self, getCtx_updCtx_ne _ _ far.symm, getCtx_updCore, getCtx_updCore, getCtx_setCtx_self,
    getCtx_setCtx_ne _ _ far.symm, getCtx_setCtx_self]
  refine ⟨rfl, rfl, rfl, rfl, rfl, fun r hr => ?_⟩
  obtain ⟨x, -, rfl⟩ := List.mem_map.1 hr
  exact madeAgain_again _ _ _

/-- A row that was zero when it was saved reads zero. -/
theorem resumed_acc {r : Nat} (own : r < accRows (getCtx s key)) (none : ∀ e ∈ v.acc, e.1 ≠ r) :
    smGet 0 (getCore (resumed key p v s) v.core).acc (accFirst (getCtx s key) p + r) = 0 := by
  unfold resumed
  dsimp only
  rw [getCore_updCtx, getCore_updCore_self]
  dsimp only
  rw [smGet_foldl_smSet_other _ _ _ _ _ fun e he h => none e he (by omega)]
  refine smGet_filter_out 0 _ (fun k => !decide (accFirst (getCtx s key) p ≤ k ∧ k < accFirst (getCtx s key) p + accRows (getCtx s key))) _ ?_
  rw [decide_eq_true (by omega)]
  rfl

theorem filterCtx_acc (k : Nat) (s : State) : (getCore (filterCtx p s) k).acc = (getCore s k).acc := by
  unfold filterCtx
  by_cases h : k = coreOf p
  · rw [h, getCore_updCore_self]
  · rw [getCore_updCore_ne _ _ h]

/-- Repointing changes the core's point and transitions alone. -/
theorem repoint_acc (side c k : Nat) (s : State) : (getCore (repoint side c s) k).acc = (getCore s k).acc := by
  unfold repoint
  dsimp only
  split
  · rfl
  · by_cases h : k = c
    · rw [h, getCore_updCore_self]
    · rw [getCore_updCore_ne _ _ h]

theorem repoint_ballast (side c : Nat) (s : State) : (repoint side c s).ballast = s.ballast := by
  unfold repoint
  dsimp only
  split <;> rfl

/-- What resuming leaves. -/
structure Resumes (s : State) (key p : Nat) (v : Saved) (t : State) : Prop where
  st : (getCtx t p).st = .restoring
  files : (getCtx t p).files = (getCtx s key).files
  pc : (getCtx t p).pc = (getCtx s key).pc
  landing : (getCtx t p).landing = (getCtx s key).landing
  gone : getCtx t key = {}
  saved : ∀ x ∈ t.saved, x.key ≠ key
  mem : t.mem = s.mem
  ballast : coreOf p ∉ t.ballast
  again : ∀ r ∈ (getCtx t p).reqs, r.kind = .load ∨ r.kind = .lwt → r.again = true
  rows : ∀ r, r < accRows (getCtx s key) → (∀ e ∈ v.acc, e.1 ≠ r) →
    smGet 0 (getCore t (coreOf p)).acc (accFirst (getCtx s key) p + r) = 0

theorem doResume_resumes (found : s.saved.find? (fun x => x.key == key) = some v) (pos : p < 512) (core : coreOf p = v.core)
    (above : 512 ≤ key) (may : mayResume s (getCtx s key) p = true) (free : deviceBars s (areaPages (getCtx s key)) = []) :
    Resumes s key p v (doResume key p s) := by
  obtain ⟨side, e⟩ := doResume_of found pos core may free
  have far : p ≠ key := by omega
  obtain ⟨st, files, pc, landing, gone, again⟩ := resumed_ctx (s := s) (v := v) far
  generalize hz : filterCtx p { resumed key p v s with ballast := (resumed key p v s).ballast.filter (· != v.core) } = z at e
  have frame := reaccept_reaccepts p (repoint side v.core z)
  have ctx : ∀ r, getCtx (repoint side v.core z) r = getCtx (resumed key p v s) r := by
    intro r
    rw [← hz]
    exact congrArg (fun m : SMap Ctx => smGet ({} : Ctx) m r) (repoint_ctxs side v.core _)
  rw [← e] at frame
  generalize doResume key p s = t at frame
  have field : ∀ {β : Type} (φ : Ctx → β), (∀ c m b n, φ { c with mops := m, wfb := b, wfbcnt := n } = φ c) →
      φ (getCtx t p) = φ (getCtx (resumed key p v s) p) := by
    intro β φ hφ
    rw [← ctx p, ← hφ (getCtx t p)]
    exact congrArg φ frame.ctx
  refine ⟨(field Ctx.st fun _ _ _ _ => rfl).trans st, (field Ctx.files fun _ _ _ _ => rfl).trans files,
    (field Ctx.pc fun _ _ _ _ => rfl).trans pc, (field Ctx.landing fun _ _ _ _ => rfl).trans landing,
    (frame.others key far.symm).trans ((ctx key).trans gone), fun x hx => ?_, frame.mem.trans ?_, ?_, ?_, fun r own none => ?_⟩
  · rw [frame.saved, repoint_saved, ← hz] at hx
    have kept := (List.mem_filter.1 hx).2
    simpa using kept
  · rw [(repoint_quiet ..).1, ← hz]
    rfl
  · rw [frame.ballast, repoint_ballast, ← hz, core]
    intro h
    have kept := (List.mem_filter.1 h).2
    simp at kept
  · rw [field Ctx.reqs fun _ _ _ _ => rfl]
    exact again
  · rw [frame.acc, repoint_acc, ← hz, filterCtx_acc, core]
    exact resumed_acc own none

end

end Sys2Proof.Machine
end

section
/-! SUPPORT. The end of a launch that misses its pre-emption point (R42). -/

namespace Sys2Proof.Machine

/-! ### What a kill leaves -/

section
variable {p q seq cause : Nat} {ga : Word} {s : State}

/-- What a kill keeps of the machine. -/
theorem kill_keeps {β : Type} (φ : State → β) (ctx : ∀ p c u, φ (setCtx p c u) = φ u) (core : ∀ k f u, φ (updCore k f u) = φ u)
    (cluster : ∀ k f u, φ (updCluster k f u) = φ u) (saved : ∀ u l, φ { u with saved := l } = φ u) (q : Nat) (s : State) :
    φ (kill q s) = φ s := by
  have point : ∀ side c u, φ (repoint side c u) = φ u := by
    intro side c u
    unfold repoint
    dsimp only
    split
    · rfl
    · exact core ..
  have started : φ (finishStarted q s) = φ s := by
    unfold finishStarted
    generalize (getCtx s q).mops = l
    induction l generalizing s with
    | nil => rfl
    | cons m l ih =>
      rw [List.foldl_cons, ih]
      split
      · exact core ..
      · rfl
  have leaves : ∀ u, φ (vacate q u) = φ u := by
    intro u
    unfold vacate dissolveAll dissolve freeBanks
    dsimp only
    rw [afterFree_keeps φ q _ point cluster fun f _ => core _ f _, core, ctx, core, apply_ite φ, ctx, ite_self, cluster, cluster]
  unfold kill
  split
  · exact (leaves _).trans started
  · dsimp only
    rw [afterFree_keeps φ q _ point cluster fun f _ => core _ f _]
    unfold freeHeld
    rw [core, core, ctx, saved]

theorem kill_launches (q : Nat) (s : State) : (kill q s).launches = s.launches :=
  kill_keeps State.launches (fun _ _ _ => rfl) (fun _ _ _ => rfl) (fun _ _ _ => rfl) (fun _ _ => rfl) q s

theorem kill_journal (q : Nat) (s : State) : (kill q s).journal = s.journal :=
  kill_keeps State.journal (fun _ _ _ => rfl) (fun _ _ _ => rfl) (fun _ _ _ => rfl) (fun _ _ => rfl) q s

theorem vacate_bound (pos : p < 512) (q : Nat) (s : State) : getCtx (vacate q s) p = if p = q then {} else getCtx s p := by
  have key := freeKey_above (dissolveAll q s) q
  unfold vacate
  dsimp only
  rw [show ∀ u, getCtx (afterFree q u) p = getCtx u p from fun u => congrArg (fun m => smGet ({} : Ctx) m p) (afterFree_ctxs q u),
    show ∀ u, getCtx (freeBanks q u) p = getCtx u p from fun _ => rfl]
  by_cases h : p = q
  · rw [if_pos h, h]
    exact getCtx_setCtx_self ..
  · rw [if_neg h]
    refine (getCtx_setCtx_ne _ _ h).trans ((getCtx_updCore ..).trans ?_)
    split
    · rfl
    · exact getCtx_setCtx_ne _ _ (by omega)

/-- A kill frees its position, and leaves every other position as it was. -/
theorem kill_bound (pos : p < 512) (q : Nat) (s : State) : getCtx (kill q s) p = if p = q then {} else getCtx s p := by
  unfold kill
  split
  · rw [vacate_bound pos, show getCtx (finishStarted q s) p = getCtx s p from
      congrArg (fun m => smGet ({} : Ctx) m p) (finishStarted_ctxs q s)]
  · next far =>
    have other : p ≠ q := by omega
    dsimp only
    rw [if_neg other, show ∀ u, getCtx (afterFree q u) p = getCtx u p from fun u =>
      congrArg (fun m => smGet ({} : Ctx) m p) (afterFree_ctxs q u)]
    exact getCtx_setCtx_ne _ _ other

theorem kills_free (pos : p < 512) (ks : List Nat) (s : State) (h : p ∈ ks ∨ (getCtx s p).st = .free) :
    (getCtx (ks.foldl (fun t q => kill q t) s) p).st = .free := by
  induction ks generalizing s with
  | nil => exact h.resolve_left List.not_mem_nil
  | cons q ks ih =>
    refine ih _ ?_
    rw [kill_bound pos]
    by_cases mine : p = q
    · rw [if_pos mine]
      exact .inr rfl
    · rw [if_neg mine]
      exact h.imp (fun hp => (List.mem_cons.1 hp).resolve_left mine) id

theorem kills_keep {β : Type} (φ : State → β) (h : ∀ q u, φ (kill q u) = φ u) (ks : List Nat) (s : State) :
    φ (ks.foldl (fun t q => kill q t) s) = φ s := by
  induction ks generalizing s with
  | nil => rfl
  | cons q ks ih => exact (ih _).trans (h q s)

/-- A bound context is one of its launch. -/
theorem mem_ctxsOf (bound : (getCtx s p).st ≠ .free) : p ∈ ctxsOf s (getCtx s p).lseq := by
  have found : ∀ m : SMap Ctx, (smGet ({} : Ctx) m p).st ≠ .free → (p, smGet ({} : Ctx) m p) ∈ m := by
    intro m
    induction m with
    | nil => exact fun h => absurd rfl h
    | cons e m ih =>
      rw [smGet]
      split
      · next h => exact fun _ => h ▸ List.mem_cons_self
      · exact fun h => List.mem_cons_of_mem _ (ih h)
  refine List.mem_filterMap.2 ⟨_, found s.ctxs bound, if_pos ?_⟩
  show (((getCtx s p).lseq == (getCtx s p).lseq) && ((getCtx s p).st != .free || _)) = true
  rw [beq_self_eq_true, bne_iff_ne.2 bound]
  rfl

/-! ### The launch that ends -/

theorem journalPut_launches (seq off n v : Nat) (s : State) : (journalPut seq off n v s).launches = s.launches := by
  have part : ∀ e t, (devicePart t e).launches = t.launches := by
    intro e t
    unfold devicePart askRecall
    split
    · split <;> rfl
    · rfl
  unfold journalPut
  split
  · split
    · exact deviceWrite_keeps State.launches _ _ s fun e _ t => part e t
    · rfl
  · rfl

theorem findLaunch_updLaunch {l : Launch} {f : Launch → Launch} (found : findLaunch s seq = some l) (keeps : ∀ x, (f x).seq = x.seq) :
    findLaunch (updLaunch seq f s) seq = some (f l) := by
  unfold findLaunch at *
  rw [updLaunch_launches, List.find?_map]
  have same : ((fun x : Launch => x.seq == seq) ∘ fun x => if x.seq == seq then f x else x) = fun x => x.seq == seq := by
    funext x
    dsimp only [Function.comp]
    split
    · rw [keeps]
    · rfl
  have mine := List.find?_some found
  rw [same, found, Option.map_some, if_pos mine]

theorem faultLaunch_found {l : Launch} (found : findLaunch s seq = some l) (goes : l.ending = false) :
    findLaunch (faultLaunch seq cause ga s) seq = some { l with ending := true, cause := cause, fgroup := ga } := by
  unfold faultLaunch
  rw [found]
  dsimp only
  rw [goes, if_pos (by rfl)]
  refine Eq.trans ?_ (findLaunch_updLaunch (f := fun l => { l with ending := true, cause := cause, fgroup := ga }) found fun _ => rfl)
  unfold findLaunch
  rw [journalPut_launches]

/-- What the end of a launch leaves. -/
theorem endLaunch_leaves {l : Launch} (pos : p < 512) (bound : (getCtx s p).st ≠ .free)
    (found : findLaunch s (getCtx s p).lseq = some l) (goes : l.ending = false) :
    (getCtx (endLaunch (getCtx s p).lseq cause ga s) p).st = .free ∧
    SameBytesBut (inEntry s (getCtx s p).lseq) s (endLaunch (getCtx s p).lseq cause ga s) ∧
    findLaunch (endLaunch (getCtx s p).lseq cause ga s) (getCtx s p).lseq =
      some { l with ending := true, cause := cause, fgroup := ga } := by
  have mine := mem_ctxsOf bound
  unfold endLaunch
  generalize ctxsOf s (getCtx s p).lseq = ks at mine
  have launches := kills_keep State.launches kill_launches ks s
  have journal := kills_keep State.journal kill_journal ks s
  have mem := kills_keep State.mem (fun q u => (kill_quiet q u).1) ks s
  have free := kills_free pos ks s (.inl mine)
  generalize ks.foldl (fun t q => kill q t) s = t at launches journal mem free
  refine ⟨?_, fun k out => ?_, faultLaunch_found ?_ goes⟩
  · unfold getCtx
    rw [faultLaunch_ctxs]
    exact free
  · rw [← mem]
    refine faultLaunch_bytes fun hit => out ?_
    unfold inEntry ringOf at *
    rw [journal] at hit
    exact hit
  · unfold findLaunch at *
    rw [launches]
    exact found

theorem doPreemptionOverdue_of (pos : p < 512) (asked : (getCtx s p).preempt = true)
    (late : ((getCtx s p).st = .ready ∧ (getCtx s p).loops ≠ [] ∧ (getCtx s p).atPoint = false) ∨
      ((getCtx s p).st = .trapped ∧ onHold (getCtx s p) = false)) :
    (getCtx s p).st ≠ .free ∧ doPreemptionOverdue p s = endLaunch (getCtx s p).lseq 0x40 (getCtx s p).pc s := by
  rcases late with ⟨st, loops, point⟩ | ⟨st, hold⟩
  · refine ⟨by rw [st]; exact PosState.noConfusion, if_pos ?_⟩
    simp [atPreemption, pos, asked, st, point, loops]
  · refine ⟨by rw [st]; exact PosState.noConfusion, if_pos ?_⟩
    simp [atPreemption, pos, asked, st, hold]

end

end Sys2Proof.Machine
end

section
/-! SUPPORT. The binding of a handler beside a trapped context (R72, R282 to R284). -/

namespace Sys2Proof.Machine

section
variable {p q : Nat} {c : Ctx} {s t : State}

theorem coreOf_otherPos (pos : p < 512) : otherPos p ≠ p ∧ coreOf (otherPos p) = coreOf p ∧ otherPos p < 512 := by
  unfold otherPos coreOf
  omega

theorem repoint_coreField {β : Type} (φ : Core → β) (hφ : ∀ c b m, φ { c with op := b, moves := m } = φ c) (side k j : Nat) (s : State) :
    φ (getCore (repoint side k s) j) = φ (getCore s j) := by
  unfold repoint
  dsimp only
  split
  · rfl
  · by_cases h : j = k
    · rw [h, getCore_updCore_self, hφ]
    · rw [getCore_updCore_ne _ _ h]

/-- A context without a loop is seated as it is. -/
theorem seat_ctx (loops : c.loops = []) (buf : c.lbuf = []) (marks : c.lmarks = []) (r : Nat) :
    getCtx (seat p c s) r = if r = p then c else getCtx s r := by
  have bare : ∀ u : State, unbuffer false u p c = c := by
    intro u
    obtain ⟨⟩ := c
    cases loops
    cases buf
    cases marks
    rfl
  unfold seat
  dsimp only
  unfold getCtx
  rw [repoint_ctxs]
  show getCtx (updCtx p (unbuffer false (setCtx p c { s with ballast := s.ballast.filter (· != coreOf p) }) p)
    (setCtx p c { s with ballast := s.ballast.filter (· != coreOf p) })) r = _
  by_cases h : r = p
  · rw [if_pos h, h, getCtx_updCtx_self, getCtx_setCtx_self, bare]
  · rw [if_neg h, getCtx_updCtx_ne _ _ h, getCtx_setCtx_ne _ _ h]
    rfl

/-- The code fetched earlier by its core is invalidated, and its banks stay. -/
theorem seat_core : (getCore (seat p c s) (coreOf p)).icache = [] ∧ (getCore (seat p c s) (coreOf p)).owners = (getCore s (coreOf p)).owners := by
  have filtered : ∀ {β : Type} (φ : Core → β), (∀ k f, φ { k with filter := f } = φ k) → ∀ u,
      φ (getCore (filterCtx p u) (coreOf p)) = φ (getCore u (coreOf p)) := by
    intro β φ hφ u
    unfold filterCtx
    rw [getCore_updCore_self, hφ]
  unfold seat dropCode
  dsimp only
  rw [repoint_coreField Core.icache fun _ _ _ => rfl, repoint_coreField Core.owners fun _ _ _ => rfl,
    filtered Core.icache fun _ _ => rfl, filtered Core.owners fun _ _ => rfl, getCore_updCore_self]
  exact ⟨rfl, rfl⟩

theorem doHandlerBind_of {l : Launch} {a : Nat} {as : List Nat} (pos : p < 512) (st : (getCtx s p).st = .trapped)
    (need : (getCtx s p).needHandler = true) (found : findLaunch s (getCtx s p).lseq = some l) (areas : freeAreas s = a :: as)
    (free : (getCtx s (otherPos p)).st = .free) (live : coreLive s (coreOf p) = true) :
    doHandlerBind p s = updCtx p (fun z => { z with needHandler := false })
      (seat (otherPos p) (handlerCtx l (getCtx s p) p (otherPos p) a) s) := by
  unfold doHandlerBind
  dsimp only
  rw [found, areas]
  refine if_pos ?_
  simp [pos, st, need, free, live]

theorem setWidth_zero_wide (n : Nat) : ((0 : BitVec n).setWidth 2048 : Vec) = 0 := by simp

/-- A handler has the reset values, but for its parameters. -/
theorem handlerCtx_fresh {l : Launch} {a : Nat} (h : getCtx t p = handlerCtx l c q p a) : FreshRegs t p (recParams l.record) where
  params i hi := by
    have value : ∀ ps : List Nat, ∀ i < 4, smGet 0 (paramFiles ps) i = BitVec.ofNat 64 (ps.getD i 0) := by
      intro ps i hi
      unfold paramFiles
      rw [show List.range 4 = [0, 1, 2, 3] from rfl, List.foldl_cons, List.foldl_cons, List.foldl_cons, List.foldl_cons, List.foldl_nil]
      simp only [smGet_set]
      rcases (by omega : i = 0 ∨ i = 1 ∨ i = 2 ∨ i = 3) with rfl | rfl | rfl | rfl <;> rfl
    rw [h, ← value _ i hi]
    exact BitVec.setWidth_setWidth_of_le _ (by decide)
  zero r fixed high := by
    have above : ∀ ps : List Nat, ∀ n, 4 ≤ n → smGet 0 (paramFiles ps) n = 0 := by
      intro ps n hn
      unfold paramFiles
      rw [show List.range 4 = [0, 1, 2, 3] from rfl, List.foldl_cons, List.foldl_cons, List.foldl_cons, List.foldl_cons, List.foldl_nil]
      rw [smGet_set_ne _ _ _ (by omega), smGet_set_ne _ _ _ (by omega), smGet_set_ne _ _ _ (by omega), smGet_set_ne _ _ _ (by omega)]
      rfl
    rw [h]
    obtain ⟨fl, n⟩ := r
    unfold regGet handlerCtx filesGet
    cases fl
    case c =>
      dsimp only
      rw [above _ n (high rfl)]
      exact setWidth_zero_wide 64
    case ka | kb | kc =>
      have some : n ≠ 0 := by
        rintro rfl
        cases fixed
      dsimp only
      unfold predGet
      rw [if_neg some]
      exact setWidth_zero_wide 256
    case w =>
      dsimp only
      split
      · rfl
      · exact setWidth_zero_wide 64
    case x | y | a => exact setWidth_zero_wide 64
    all_goals rfl
  control := by
    simp only [List.forall_mem_cons, csrValue, h, handlerCtx, loopIndex]
    exact ⟨rfl, rfl, rfl, rfl, rfl, trivial, rfl, rfl, rfl, rfl, rfl, rfl, rfl, rfl, nofun⟩
  sticky := by
    rw [h]
    exact ⟨rfl, rfl⟩
  spill e := by
    rw [h]
    rfl
  empty := by
    rw [h]
    exact ⟨rfl, rfl, rfl, rfl⟩

end

end Sys2Proof.Machine
end

section

namespace Sys2Proof.Machine

/-- What the binding of a handler leaves. -/
theorem doHandlerBind_leaves {s : State} {p a : Nat} {as : List Nat} {l : Launch} (pos : p < 512) (st : (getCtx s p).st = .trapped)
    (need : (getCtx s p).needHandler = true) (found : findLaunch s (getCtx s p).lseq = some l) (areas : freeAreas s = a :: as)
    (free : (getCtx s (otherPos p)).st = .free) (live : coreLive s (coreOf p) = true) :
    getCtx (doHandlerBind p s) (otherPos p) = handlerCtx l (getCtx s p) p (otherPos p) a ∧
    (getCore (doHandlerBind p s) (coreOf p)).icache = [] ∧
    (getCore (doHandlerBind p s) (coreOf p)).owners = (getCore s (coreOf p)).owners ∧
    (getCtx (doHandlerBind p s) p).needHandler = false ∧ (doHandlerBind p s).mem = s.mem := by
  obtain ⟨other, core, -⟩ := coreOf_otherPos pos
  rw [doHandlerBind_of pos st need found areas free live]
  have here := seat_ctx (p := otherPos p) (c := handlerCtx l (getCtx s p) p (otherPos p) a) (s := s) rfl rfl rfl (otherPos p)
  obtain ⟨icache, owners⟩ := seat_core (p := otherPos p) (c := handlerCtx l (getCtx s p) p (otherPos p) a) (s := s)
  have mem := (seat_quiet (otherPos p) (handlerCtx l (getCtx s p) p (otherPos p) a) s).1
  rw [core] at icache owners
  rw [if_pos rfl] at here
  generalize seat (otherPos p) (handlerCtx l (getCtx s p) p (otherPos p) a) s = u at here icache owners mem
  exact ⟨(getCtx_updCtx_ne _ _ other).trans here, icache, owners, by rw [getCtx_updCtx_self], mem⟩

/-- Settles O56, event by event: `doSaveComplete_saves` with `writeArea_reads` and `writeArea_outside` for the save, `doResume_resumes`
for the resumption, `endLaunch_leaves` for a missed point, `doHandlerBind_leaves` with `handlerCtx_fresh` for a handler. -/
theorem preemptionAndHandlers : Obligations.PreemptionAndHandlers := by
  unfold Obligations.PreemptionAndHandlers
  intro s p key a as v l c old pos
  refine ⟨fun st user need => ⟨_, rfl, doPreemptionRequest_of pos st user need⟩, fun asked here => ⟨_, rfl, ?_⟩,
    fun st ready aligned => ⟨_, rfl, ?_⟩, fun found core above may free => ⟨_, rfl, ?_⟩, fun asked late found goes => ⟨_, rfl, ?_⟩,
    fun st need found areas free live => ⟨_, rfl, ?_⟩⟩
  · rw [doPreemptSave_of pos asked (atPreemption_of here)]
    exact ⟨(getCtx_updCluster ..).trans (getCtx_setCtx_self ..), fun _ => rfl⟩
  · obtain ⟨gone, mem, owners, x, hx, place, above, kept⟩ := doSaveComplete_saves pos st ready
    obtain ⟨files, pc, loops, landing, yield⟩ := savedCtx_keeps s p (getCtx s p)
    rw [← kept] at files pc loops landing yield
    refine ⟨gone, fun k out => ?_, fun b area home e he i hi => ?_, owners, x, hx, place, above, files, pc, loops, landing, yield⟩
    · rw [mem]
      exact writeArea_outside aligned out
    · rw [mem]
      exact writeArea_reads area (aligned b area) home he hi
  · have r := doResume_resumes found pos core above may free
    exact ⟨r.st, r.files, r.pc, r.landing, r.gone, r.saved, fun k => by rw [r.mem], r.ballast, r.again, r.rows⟩
  · obtain ⟨bound, ends⟩ := doPreemptionOverdue_of pos asked late
    obtain ⟨free, bytes, entry⟩ := endLaunch_leaves (cause := 0x40) (ga := c.pc) pos bound found goes
    rw [ends]
    exact ⟨free, bytes, _, entry, rfl, rfl, rfl⟩
  · obtain ⟨here, icache, owners, served, mem⟩ := doHandlerBind_leaves pos st need found areas free live
    have fresh := handlerCtx_fresh here
    intro h
    have is : h = handlerCtx l c p (otherPos p) a := here
    have serves : h.serves = some p := by rw [is]; rfl
    refine ⟨by rw [is]; rfl, by rw [is]; rfl, serves, by rw [is]; rfl, by rw [is]; rfl, by rw [is]; rfl, by rw [is]; rfl, by rw [is]; rfl, ?_,
      by rw [is]; rfl, by rw [is]; rfl, by rw [is]; rfl, by rw [is]; rfl, by rw [is]; rfl, fun n => by rw [is]; rfl, fresh, icache, owners,
      served, fun k => by rw [mem]⟩
    unfold extOwner
    rw [show (getCtx (doHandlerBind p s) (otherPos p)).serves = some p from serves]

end Sys2Proof.Machine
end

section
/-! SUPPORT. The decoder and the encoder: every well-formed instruction decodes from its own words (R45 to R71). -/

namespace Sys2Proof.Laws

/-- Settles O41, constructor by constructor; an event has no words. -/
theorem roundTrip : Obligations.RoundTrip := by
  intro i
  cases i with
  | add => apply RoundTrip.add | addImm => apply RoundTrip.addImm | sub => apply RoundTrip.sub | mul => apply RoundTrip.mul
  | mulh => apply RoundTrip.mulh | div => apply RoundTrip.div | rem => apply RoundTrip.rem | and => apply RoundTrip.and
  | andImm => apply RoundTrip.andImm | or => apply RoundTrip.or | orImm => apply RoundTrip.orImm | xor => apply RoundTrip.xor
  | xorImm => apply RoundTrip.xorImm | shl => apply RoundTrip.shl | shlImm => apply RoundTrip.shlImm
  | shr => apply RoundTrip.shr | shrImm => apply RoundTrip.shrImm | sra => apply RoundTrip.sra
  | sraImm => apply RoundTrip.sraImm | min => apply RoundTrip.min | max => apply RoundTrip.max | cmp => apply RoundTrip.cmp
  | cmpImm => apply RoundTrip.cmpImm | sel => apply RoundTrip.sel | li => apply RoundTrip.li | lih => apply RoundTrip.lih
  | bfx => apply RoundTrip.bfx | bfi => apply RoundTrip.bfi | clz => apply RoundTrip.clz | popc => apply RoundTrip.popc
  | cpy => apply RoundTrip.cpy | cpyCommon => apply RoundTrip.cpyCommon | vadd => apply RoundTrip.vadd
  | vsub => apply RoundTrip.vsub | vmul => apply RoundTrip.vmul | vmad => apply RoundTrip.vmad | vmin => apply RoundTrip.vmin
  | vmax => apply RoundTrip.vmax | vabs => apply RoundTrip.vabs | vand => apply RoundTrip.vand | vor => apply RoundTrip.vor
  | vxor => apply RoundTrip.vxor | vshl => apply RoundTrip.vshl | vshr => apply RoundTrip.vshr | vcmp => apply RoundTrip.vcmp
  | vsel => apply RoundTrip.vsel | vred => apply RoundTrip.vred | vscan => apply RoundTrip.vscan
  | vhist => apply RoundTrip.vhist | vtopk => apply RoundTrip.vtopk | vcvt => apply RoundTrip.vcvt
  | vbcast => apply RoundTrip.vbcast | vmov => apply RoundTrip.vmov | vkop => apply RoundTrip.vkop
  | vcnt => apply RoundTrip.vcnt | vpop => apply RoundTrip.vpop | frcp => apply RoundTrip.frcp | frsq => apply RoundTrip.frsq
  | fexp2 => apply RoundTrip.fexp2 | flog2 => apply RoundTrip.flog2 | ftanh => apply RoundTrip.ftanh
  | fsig => apply RoundTrip.fsig | fmov => apply RoundTrip.fmov | pack => apply RoundTrip.pack
  | packAuto => apply RoundTrip.packAuto | unpk => apply RoundTrip.unpk | rmrg => apply RoundTrip.rmrg
  | shuf => apply RoundTrip.shuf | trns => apply RoundTrip.trns | ilv => apply RoundTrip.ilv | dil => apply RoundTrip.dil
  | pscl => apply RoundTrip.pscl | pmov => apply RoundTrip.pmov | aset => apply RoundTrip.aset | ainc => apply RoundTrip.ainc
  | amod => apply RoundTrip.amod | amov => apply RoundTrip.amov | cim => apply RoundTrip.cim | smx => apply RoundTrip.smx
  | acz => apply RoundTrip.acz | drn => apply RoundTrip.drn | wpre => apply RoundTrip.wpre | wpin => apply RoundTrip.wpin
  | wunp => apply RoundTrip.wunp | winv => apply RoundTrip.winv | wprb => apply RoundTrip.wprb | ld => apply RoundTrip.ld
  | st => apply RoundTrip.st | lds => apply RoundTrip.lds | sts => apply RoundTrip.sts | stq => apply RoundTrip.stq
  | fset => apply RoundTrip.fset | fclr => apply RoundTrip.fclr | fwait => apply RoundTrip.fwait | park => apply RoundTrip.park
  | unpark => apply RoundTrip.unpark | gld => apply RoundTrip.gld | gst => apply RoundTrip.gst | gam => apply RoundTrip.gam
  | ljn => apply RoundTrip.ljn | lwt => apply RoundTrip.lwt | gpf => apply RoundTrip.gpf | gcb => apply RoundTrip.gcb
  | xlt => apply RoundTrip.xlt | xlp => apply RoundTrip.xlp | xinv => apply RoundTrip.xinv | xfer => apply RoundTrip.xfer
  | xwt => apply RoundTrip.xwt | rstr => apply RoundTrip.rstr | send => apply RoundTrip.send
  | sendQueue => apply RoundTrip.sendQueue | recv => apply RoundTrip.recv | dlc => apply RoundTrip.dlc
  | dlcApportioned => apply RoundTrip.dlcApportioned | fmtImm => apply RoundTrip.fmtImm | fmtReg => apply RoundTrip.fmtReg
  | sclt => apply RoundTrip.sclt | bar => apply RoundTrip.bar | barArrive => apply RoundTrip.barArrive
  | barWait => apply RoundTrip.barWait | barc => apply RoundTrip.barc | cqp => apply RoundTrip.cqp | rel => apply RoundTrip.rel
  | csrr => apply RoundTrip.csrr | csrw => apply RoundTrip.csrw | br => apply RoundTrip.br | call => apply RoundTrip.call
  | ret => apply RoundTrip.ret | loop => apply RoundTrip.loop | loopReg => apply RoundTrip.loopReg
  | loopQ => apply RoundTrip.loopQ | lsp => apply RoundTrip.lsp | lspReg => apply RoundTrip.lspReg
  | lspQ => apply RoundTrip.lspQ | brk => apply RoundTrip.brk | fence => apply RoundTrip.fence
  | fenceX => apply RoundTrip.fenceX | ifence => apply RoundTrip.ifence | wait => apply RoundTrip.wait
  | mpc => apply RoundTrip.mpc | yld => apply RoundTrip.yld | trap => apply RoundTrip.trap | tret => apply RoundTrip.tret
  | done => apply RoundTrip.done | skip => apply RoundTrip.skip
  | _ => exact fun _ => trivial

end Sys2Proof.Laws
end

section
/-! SUPPORT. Every legal word is the encoding of what it decodes to: no bit of it is ignored (R53, R54, R70, R71). -/

namespace Sys2Proof.Laws

open Machine (wdSum wdSum_cons wdSum_nil)

/-! ### The bits of a word from a place up -/

/-- What stands in `w` from bit `lo` up. -/
def above (w lo : Nat) : Int := (w / 2 ^ lo : Nat)

theorem above_cut (w lo n : Nat) : ((w / 2 ^ lo % 2 ^ n : Nat) : Int) = above w lo - 2 ^ n * above w (lo + n) := by
  have split := Nat.div_add_mod (w / 2 ^ lo) (2 ^ n)
  rw [Nat.div_div_eq_div_mul, ← Nat.pow_add] at split
  unfold above
  have cast := congrArg (Nat.cast : Nat → Int) split
  push_cast at cast ⊢
  linarith

/-- A field, by what stands from its low bit up and what stands past it. -/
theorem above_fld (w lo n : Nat) : ((fld w lo n).toNat : Int) = above w lo - 2 ^ n * above w (lo + n) := by
  rw [fld, BitVec.toNat_ofNat, above_cut]

/-- The same of fixed bits. -/
theorem above_fx (w lo n v : Nat) : fx w lo n v = true ↔ above w lo - 2 ^ n * above w (lo + n) = v := by
  rw [fx, beq_iff_eq, ← above_cut, Nat.cast_inj]

theorem above_op (w n : Nat) : w / 2 ^ 26 = n ↔ above w 26 = n := by rw [above, Nat.cast_inj]

/-- The fields and the fixed bits `m` make up the word. -/
theorem wdSum_eq (m w : Nat) (fs : List (Nat × Nat)) :
    wdSum m fs = w ↔ (m : Int) + (fs.map (fun f => (f.1 : Int) * 2 ^ f.2)).sum = above w 0 := by
  have sum : ∀ m, (wdSum m fs : Int) = m + (fs.map (fun f => (f.1 : Int) * 2 ^ f.2)).sum := by
    induction fs with
    | nil => simp [wdSum_nil]
    | cons f fs ih =>
      intro m
      rw [wdSum_cons, ih, List.map_cons, List.sum_cons]
      push_cast
      ring
  rw [← sum, above, Nat.pow_zero, Nat.div_one, Nat.cast_inj]

/-! ### What the decoder answers -/

/-- What the decoder answers for the word `w` of slot `k`, with `e` after it, encodes to these words. -/
def Spells (k w e : Nat) (r : Except DecodeError Instr) : Prop :=
  ∀ i, r = .ok i → i.wf = true ∧ i.slot = some k ∧
    encode i = if hasExt k w then [BitVec.ofNat 32 w, BitVec.ofNat 32 e] else [BitVec.ofNat 32 w]

theorem checked_eq_ok {i j : Instr} (h : checked i = .ok j) : i.wf = true ∧ j = i := by
  unfold checked at h
  split at h
  · next wf => exact ⟨wf, (Except.ok.inj h).symm⟩
  · cases h

theorem Spells.error {k w e : Nat} {x : DecodeError} : Spells k w e (.error x) := by
  intro i h
  cases h

/-- A word without an extension word: its fixed bits and its fields make it up. -/
theorem Spells.word {k w e m : Nat} {i : Instr} {fs : List (Nat × Nat)} (slot : i.slot = some k) (words : encode i = [wd m fs])
    (ext : hasExt k w = false) (sum : (m : Int) + (fs.map (fun f => (f.1 : Int) * 2 ^ f.2)).sum = above w 0) : Spells k w e (checked i) := by
  intro j h
  obtain ⟨wf, rfl⟩ := checked_eq_ok h
  rw [words, ext, ← (wdSum_eq m w fs).2 sum]
  exact ⟨wf, slot, rfl⟩

/-- A word with its extension word. -/
theorem Spells.extended {k w e m : Nat} {i : Instr} {fs : List (Nat × Nat)} (slot : i.slot = some k)
    (words : encode i = [wd m fs, BitVec.ofNat 32 e]) (ext : hasExt k w = true)
    (sum : (m : Int) + (fs.map (fun f => (f.1 : Int) * 2 ^ f.2)).sum = above w 0) : Spells k w e (checked i) := by
  intro j h
  obtain ⟨wf, rfl⟩ := checked_eq_ok h
  rw [words, ext, ← (wdSum_eq m w fs).2 sum]
  exact ⟨wf, slot, rfl⟩

/-- Slots 0 and 1: an extension word comes after `li` and `lih`, opcodes 21 and 22. -/
theorem hasExt_s {sl : SSlot} {w n : Nat} (op : w / 2 ^ 26 = n) : hasExt sl.num w = (n == 21 || n == 22) := by
  subst op
  cases sl <;> rfl

theorem hasExt_v (sl : VSlot) (w : Nat) : hasExt sl.num w = false := by cases sl <;> rfl

theorem hasExt_l (sl : LSlot) (w : Nat) : hasExt sl.num w = false := by cases sl <;> rfl

/-! Each table, row by row: the opcode, the fixed bits that the row checks and its fields are all the bits of the word, so what stands
in the word from each place up cancels out of the sum of the fields. -/

theorem decodeS_spells (sl : SSlot) (w e : Nat) : Spells sl.num w e (decodeS sl w e) := by
  unfold decodeS
  repeat' split
  all_goals first
    | exact .error
    | first
        | refine .word rfl rfl (hasExt_s (by assumption)) ?_
        | refine .extended rfl rfl (hasExt_s (by assumption)) ?_
      simp only [Bool.and_eq_true, above_fx, above_op, above_fld, List.map_cons, List.map_nil, List.sum_cons, List.sum_nil, Nat.reduceAdd] at *
      omega

/-- Slots 2 to 8. -/
theorem vectorTables_spell (w e : Nat) : (∀ sl : VSlot, Spells sl.num w e (decodeV sl w)) ∧ Spells 5 w e (decodeFx w) ∧
    Spells 6 w e (decodePx w) ∧ Spells 7 w e (decodeAx w) ∧ Spells 8 w e (decodeMx w) := by
  unfold decodeV decodeFx decodePx decodeAx decodeMx
  refine ⟨fun sl => ?_, ?_, ?_, ?_, ?_⟩
  all_goals repeat' split
  all_goals first
    | exact .error
    | refine .word rfl rfl (by first | rfl | exact hasExt_v ..) ?_
      simp only [Bool.and_eq_true, above_fx, above_op, above_fld, List.map_cons, List.map_nil, List.sum_cons, List.sum_nil, Nat.reduceAdd] at *
      omega

/-- Slots 9 to 15. -/
theorem memoryAndControlTables_spell (w e : Nat) : (∀ sl : LSlot, Spells sl.num w e (decodeL sl w)) ∧ Spells 11 w e (decodeGm w) ∧
    Spells 12 w e (decodeXl w) ∧ Spells 13 w e (decodeEx w) ∧ Spells 14 w e (decodeCx w) ∧ Spells 15 w e (decodeBr w) := by
  unfold decodeL decodeGm decodeXl decodeEx decodeCx decodeBr
  refine ⟨fun sl => ?_, ?_, ?_, ?_, ?_, ?_⟩
  all_goals repeat' split
  all_goals first
    | exact .error
    | refine .word rfl rfl (by first | rfl | exact hasExt_l ..) ?_
      simp only [Bool.and_eq_true, above_fx, above_op, above_fld, List.map_cons, List.map_nil, List.sum_cons, List.sum_nil, Nat.reduceAdd] at *
      omega

/-- Settles O42, table by table. -/
theorem legalWordIsItsEncoding : Obligations.LegalWordIsItsEncoding := by
  intro k w e i slot _ _ legal
  have s := fun sl => decodeS_spells sl w e
  obtain ⟨v, fx, px, ax, mx⟩ := vectorTables_spell w e
  obtain ⟨l, gm, xl, ex, cx, br⟩ := memoryAndControlTables_spell w e
  suffices spells : Spells k w e (decodeSlot k w e) from spells i legal
  clear legal
  interval_cases k
  exacts [s .sa, s .sb, v .va, v .vb, v .vc, fx, px, ax, mx, l .la, l .lb, gm, xl, ex, cx, br]

end Sys2Proof.Laws
end

section

namespace Sys2Proof.Laws

/-- Settles O43, word by word: each is written out, and the decoder runs on it. -/
theorem wordsDecode : Obligations.WordsDecode := by
  unfold Obligations.WordsDecode
  exact ⟨rfl, rfl, rfl, rfl, rfl, rfl, rfl, rfl, rfl, rfl⟩

end Sys2Proof.Laws
end

section
/-! SUPPORT. A refusal of ownership needs the home, which is not reached while no port is up (R234, R311). -/

namespace Sys2Proof.Machine

/-- A user context trapped by a store to a page that it does not own: its cause is held for the scheduler. -/
def ownershipCtx : Ctx where
  st := .trapped
  hold := some (plainCause 0x14 11)

/-- The launch of that context, which names a handler at 4096 (byte 88 of its record, Table 16-6). -/
def handlerLaunch : Launch := { anyLaunch with st := .running, record := BitVec.twoPow 4096 (8 * 88 + 12) }

/-- The machine after reset, but for that launch and that context at position 0, and with every lane dead. -/
def portlessState : State :=
  { State.reset with ctxs := [(0, ownershipCtx)], launches := [handlerLaunch], deadLanes := List.range 128 }

theorem portlessState_ctx : getCtx portlessState 0 = ownershipCtx := rfl

theorem portlessState_launch {l : Launch} (found : findLaunch portlessState ownershipCtx.lseq = some l) : l = handlerLaunch :=
  (Option.some.inj found).symm

/-- A record of one bit `8 * b + j`: the field at byte `b` reads `2 ^ j`. -/
theorem recField_twoPow {b n j : Nat} (inside : j < 8 * n) (below : 8 * b + j < 4096) :
    recField (BitVec.twoPow 4096 (8 * b + j)) b n = 2 ^ j := by
  rw [recField, bitsOf, BitVec.toNat_twoPow, Nat.mod_eq_of_lt (Nat.pow_lt_pow_right Nat.one_lt_two below), Nat.pow_add,
    Nat.mul_div_cancel_left _ (Nat.two_pow_pos _), Nat.mod_eq_of_lt (Nat.pow_lt_pow_right Nat.one_lt_two inside)]

theorem handlerLaunch_names : recField handlerLaunch.record 88 8 ≠ 0 := by
  have handler : recField handlerLaunch.record 88 8 = 2 ^ 12 := recField_twoPow (by decide) (by decide)
  rw [handler]
  decide

/-- With no port up the answer of the home does not arrive: the cause stays held. -/
theorem ownershipUpgrade_portless (ok : Bool) : doOwnershipUpgrade 0 ok portlessState = portlessState := by
  have asked : ownAddr portlessState 0 = some 0 := rfl
  have down : portsDown portlessState = true := by decide
  unfold doOwnershipUpgrade
  simp only [asked, down, if_true]

/-- A walk, a pending result, a side-log entry and an extent, which the clause refuted does not look at. -/
def anyWalk : Walk := ⟨false, false, 0, 0, 0, none, 0⟩

@[inherit_doc anyWalk]
def anyPend : Pend := ⟨commonReg 0, 0, 0, 0, 0, false, []⟩

@[inherit_doc anyWalk]
def anySideEntry : SideEntry := ⟨0, .store, 0, 0, 0, 0, false, 0, 0, none, false, 0, none⟩

@[inherit_doc anyWalk]
def anyExtent : Extent := ⟨0, 0, 0, 0, 0, 0, false⟩

/-- Refutes O57 by its clause of a refused ownership upgrade, which says that the held cause is met whatever the state: where every
lane is dead no port is up, the home is not reached (R311), and the event leaves the context as it was.  The clause of a granted
upgrade has the hypothesis `portsDown s = false`; with that hypothesis here too this counterexample is none. -/
theorem not_causesAndTranslation : ¬ Obligations.CausesAndTranslation := by
  unfold Obligations.CausesAndTranslation
  intro holds
  obtain ⟨-, -, -, -, upgrade, -⟩ := holds portlessState 0 0 0 0 0 (plainCause 0x14 11) anyWalk anyPend anyPend 0 0 []
    anySideEntry [] anyExtent
  obtain ⟨-, refused⟩ := upgrade rfl rfl rfl
  obtain ⟨t, runs, gone, -⟩ := refused ⟨rfl, fun l found => portlessState_launch found ▸ handlerLaunch_names⟩
  have stays : t = portlessState := (Host.Outcome.next.inj runs).symm.trans (ownershipUpgrade_portless false)
  rw [stays, portlessState_ctx] at gone
  cases gone

end Sys2Proof.Machine
end

section
/-! SUPPORT. The step of an address register by each mode of its modifier (R319), in the terms of the bits of the two registers. -/

namespace Sys2Proof.Machine

/-! ### Signed fields -/

theorem toSigned_eq_toInt {n : Nat} (pos : 0 < n) (v : Nat) : toSigned n v = (BitVec.ofNat n v).toInt := by
  have double : 2 ^ n = 2 * 2 ^ (n - 1) := by rw [← Nat.pow_succ', Nat.succ_eq_add_one, Nat.sub_add_cancel pos]
  have lower : v % 2 ^ n < 2 ^ (n - 1) ↔ 2 * (v % 2 ^ n) < 2 ^ n := by omega
  rw [toSigned, if_neg (Nat.ne_of_gt pos), BitVec.toInt_eq_toNat_cond, BitVec.toNat_ofNat]
  simp only [lower]
  push_cast
  rfl

theorem sextW_eq_signExtend {n : Nat} (pos : 0 < n) (v : Nat) : sextW n v = (BitVec.ofNat n v).signExtend 64 := by
  rw [sextW, toSigned_eq_toInt pos, BitVec.signExtend]

/-! ### Bits in reverse order -/

theorem revBits_lt (k v : Nat) : revBits k v < 2 ^ k := by
  induction k generalizing v with
  | zero => exact Nat.one_pos
  | succ k ih =>
    have bit := Nat.mul_le_mul_right (2 ^ k) (Nat.le_of_lt_succ (Nat.mod_lt v Nat.two_pos) : v % 2 ≤ 1)
    have rest := ih (v / 2)
    rw [Nat.one_mul] at bit
    rw [revBits, Nat.pow_succ]
    omega

theorem testBit_revBits (k v i : Nat) : (revBits k v).testBit i = (decide (i < k) && v.testBit (k - 1 - i)) := by
  induction k generalizing v with
  | zero => simp [revBits]
  | succ k ih =>
    rw [revBits, Nat.mul_comm, Nat.testBit_two_pow_mul_add _ (revBits_lt ..), ih]
    by_cases low : i < k
    · rw [if_pos low, show k + 1 - 1 - i = (k - 1 - i) + 1 by omega, Nat.testBit_add_one]
      simp [low, Nat.lt_succ_of_lt low]
    · rw [if_neg low]
      by_cases top : i = k
      · simp [top, Nat.testBit_zero]
      · have past : 1 < 2 ^ (i - k) := Nat.one_lt_two_pow (by omega)
        rw [Nat.testBit_lt_two_pow (Nat.lt_of_lt_of_le (Nat.mod_lt v Nat.two_pos) past)]
        simp [show ¬ i < k + 1 by omega]

theorem revBits_revBits (k v : Nat) : revBits k (revBits k v) = v % 2 ^ k := by
  refine Nat.eq_of_testBit_eq fun i => ?_
  rw [testBit_revBits, testBit_revBits, Nat.testBit_mod_two_pow]
  by_cases inside : i < k
  · simp [inside, show k - 1 - i < k by omega, show k - 1 - (k - 1 - i) = i by omega]
  · simp [inside]

/-- The sum of R319: bit `i` of the index counts as bit `k - 1 - i`. -/
theorem revBits_eq_sum (k v : Nat) (p : Nat → Bool) (bits : ∀ i < k, p i = v.testBit i) :
    ((List.range k).map (fun i => if p i then (2 : Int) ^ (k - 1 - i) else 0)).sum = revBits k v := by
  induction k generalizing v p with
  | zero => rfl
  | succ k ih =>
    have rest := ih (v / 2) (fun i => p (i + 1)) fun i hi => by rw [bits _ (Nat.succ_lt_succ hi), Nat.testBit_add_one]
    rw [List.range_succ_eq_map, List.map_cons, List.sum_cons, List.map_map, revBits]
    simp only [Function.comp_def, Nat.succ_eq_add_one, show ∀ i, k + 1 - 1 - (i + 1) = k - 1 - i by omega, rest]
    rw [bits 0 (Nat.succ_pos k), Nat.testBit_zero]
    rcases Nat.mod_two_eq_zero_or_one v with even | odd
    · simp [even]
    · simp [odd]

/-- Bits `e` and up of `b`, `k` of them replaced by the low bits of `j`. -/
theorem testBit_field_replaced {b e k j : Nat} (fits : j < 2 ^ k) (i : Nat) :
    (b - b / 2 ^ e % 2 ^ k * 2 ^ e + j * 2 ^ e).testBit i =
      if e ≤ i ∧ i < e + k then j.testBit (i - e) else b.testBit i := by
  have cut : b = 2 ^ e * (2 ^ k * (b / 2 ^ e / 2 ^ k) + b / 2 ^ e % 2 ^ k) + b % 2 ^ e := by
    rw [Nat.div_add_mod, Nat.div_add_mod]
  have low : b % 2 ^ e < 2 ^ e := Nat.mod_lt _ (Nat.two_pow_pos e)
  have inner : b / 2 ^ e % 2 ^ k < 2 ^ k := Nat.mod_lt _ (Nat.two_pow_pos k)
  generalize b / 2 ^ e % 2 ^ k = x at *
  generalize b / 2 ^ e / 2 ^ k = hi at *
  generalize b % 2 ^ e = lo at *
  have there : b - x * 2 ^ e + j * 2 ^ e = 2 ^ e * (2 ^ k * hi + j) + lo := by
    have old : b = x * 2 ^ e + (2 ^ e * (2 ^ k * hi) + lo) := by rw [cut]; ring
    rw [old, Nat.add_sub_cancel_left]
    ring
  rw [there, cut, Nat.testBit_two_pow_mul_add _ low, Nat.testBit_two_pow_mul_add _ low, Nat.testBit_two_pow_mul_add _ fits,
    Nat.testBit_two_pow_mul_add _ inner]
  by_cases below : i < e
  · simp [below, Nat.not_le.2 below]
  · simp only [below, if_false, Nat.not_lt.1 below, true_and, Nat.sub_lt_iff_lt_add (Nat.not_lt.1 below), Nat.add_comm k e]
    split <;> rfl

/-! ### The step, by mode -/

section
variable (a w : Word)

/-- STEP of a modifier (R319). -/
def stepOf : Int := (w.extractLsb' 32 30).toInt

theorem stepOf_eq : toSigned 30 (w.toNat / 2 ^ 32) = stepOf w := by
  rw [toSigned_eq_toInt (by decide), stepOf, BitVec.extractLsb', Nat.shiftRight_eq_div_pow]

theorem extractLsb'_toNat_eq (lo n : Nat) : (w.extractLsb' lo n).toNat = w.toNat / 2 ^ lo % 2 ^ n := by
  rw [BitVec.extractLsb'_toNat, Nat.shiftRight_eq_div_pow]

variable {w}

theorem mode_eq {n : Nat} {m : BitVec 2} (mode : w.extractLsb' 62 2 = m) (is : m.toNat = n) : w.toNat / 2 ^ 62 = n := by
  have field := extractLsb'_toNat_eq w 62 2
  have top := w.isLt
  rw [mode, is] at field
  omega

theorem modStep_linear (mode : w.extractLsb' 62 2 = 0) : modStep a w = a + (w.setWidth 62).signExtend 64 := by
  unfold modStep
  simp only [mode_eq (n := 0) mode rfl, sextW_eq_signExtend (show 0 < 62 by decide)]
  rfl

/-- A field of which 0 stands for another count. -/
theorem field_or (w : Word) (n x : Nat) :
    (if w.extractLsb' 0 n = 0 then x else (w.extractLsb' 0 n).toNat) = if w.toNat % 2 ^ n = 0 then x else w.toNat % 2 ^ n := by
  have field := extractLsb'_toNat_eq w 0 n
  rw [Nat.pow_zero, Nat.div_one] at field
  rw [← field]
  simp only [← BitVec.toNat_inj]
  rfl

theorem ofInt_of_nonneg {x : Int} (nonneg : 0 ≤ x) : BitVec.ofInt 64 x = BitVec.ofNat 64 x.toNat := by
  rw [← BitVec.ofInt_natCast, Int.toNat_of_nonneg nonneg]

theorem modStep_modulo {len : Nat} (mode : w.extractLsb' 62 2 = 1)
    (is : len = if w.extractLsb' 0 32 = 0 then 2 ^ 32 else (w.extractLsb' 0 32).toNat) :
    ∃ o r : Nat, o = a.toNat % len ∧ r < len ∧ ((len : Int) ∣ o + stepOf w - r) ∧
      modStep a w = a - BitVec.ofNat 64 o + BitVec.ofNat 64 r := by
  rw [field_or] at is
  have pos : (0 : Int) < len := by
    rw [is]
    split
    · decide
    · omega
  set x := (((a.toNat % len : Nat) : Int) + stepOf w) % len with isX
  have low : 0 ≤ x := Int.emod_nonneg _ (Int.ne_of_gt pos)
  have high : x < len := Int.emod_lt_of_pos _ pos
  refine ⟨_, x.toNat, rfl, by omega, ?_, ?_⟩
  · rw [Int.toNat_of_nonneg low]
    exact Int.dvd_self_sub_emod
  · unfold modStep
    simp only [mode_eq (n := 1) mode rfl, stepOf_eq, ← is]
    rw [← isX, ofInt_of_nonneg low]

/-- The index of the bit-reversed mode: `k` bits from bit `e` up, counted in reverse. -/
def indexOf (k e : Nat) (x : Word) : Int := ((List.range k).map (fun i => if x.getLsbD (e + i) then (2 : Int) ^ (k - 1 - i) else 0)).sum

theorem indexOf_eq {k e v : Nat} {x : Word} (bits : ∀ i < k, x.getLsbD (e + i) = v.testBit i) : indexOf k e x = revBits k v :=
  revBits_eq_sum k v (fun i => x.getLsbD (e + i)) bits

theorem modStep_reversed {k e : Nat} (mode : w.extractLsb' 62 2 = 2)
    (count : k = if w.extractLsb' 0 6 = 0 then 1 else (w.extractLsb' 0 6).toNat) (place : e = (w.extractLsb' 8 4).toNat)
    (few : k ≤ 32) (low : e ≤ 8) :
    ((2 ^ k : Int) ∣ indexOf k e a + stepOf w - indexOf k e (modStep a w)) ∧
      ∀ j, j < e ∨ e + k ≤ j → (modStep a w).getLsbD j = a.getLsbD j := by
  rw [field_or] at count
  rw [extractLsb'_toNat_eq] at place
  set old := a.toNat / 2 ^ e % 2 ^ k with isOld
  set next := (((revBits k old : Nat) : Int) + stepOf w) % 2 ^ k with isNext
  have stepped : modStep a w = BitVec.ofNat 64 (a.toNat - old * 2 ^ e + revBits k next.toNat * 2 ^ e) := by
    unfold modStep
    simp only [mode_eq (n := 2) mode rfl, stepOf_eq, isOld, isNext, count, place]
    rfl
  have bits : ∀ j < 64, (modStep a w).getLsbD j = if e ≤ j ∧ j < e + k then (revBits k next.toNat).testBit (j - e) else a.getLsbD j := by
    intro j hj
    rw [stepped, BitVec.getLsbD_ofNat, testBit_field_replaced (revBits_lt ..)]
    simp [hj, BitVec.getLsbD]
  have nextBound : 0 ≤ next ∧ next < 2 ^ k := ⟨Int.emod_nonneg _ (by positivity), Int.emod_lt_of_pos _ (by positivity)⟩
  constructor
  · have before : indexOf k e a = revBits k old := indexOf_eq fun i hi => by
      rw [isOld, Nat.testBit_mod_two_pow, Nat.testBit_div_two_pow, BitVec.getLsbD, Nat.add_comm]
      simp [hi]
    have after : indexOf k e (modStep a w) = next := by
      rw [indexOf_eq (v := revBits k next.toNat) fun i hi => by rw [bits _ (by omega)]; simp [hi], revBits_revBits]
      push_cast
      rw [Int.toNat_of_nonneg nextBound.1, Int.emod_eq_of_lt nextBound.1 nextBound.2]
    rw [before, after, isNext]
    exact Int.dvd_self_sub_emod
  · intro j out
    by_cases hj : j < 64
    · rw [bits j hj, if_neg (by omega)]
    · rw [BitVec.getLsbD_of_ge _ _ (by omega), BitVec.getLsbD_of_ge _ _ (by omega)]

theorem modStep_none (mode : w.extractLsb' 62 2 = 3) : modStep a w = a := by
  unfold modStep
  simp only [mode_eq (n := 3) mode rfl]

end

/-! ### The address slot -/

/-- The result of a write of an address or modifier register: none for `w0`. -/
def axRes (c : Ctx) (rs : List Reg) (d : Reg) (v : Word) : List Res := if d = ⟨.w, 0⟩ then [] else [wordRes d v 1 (anyBad c rs)]

theorem ports_alike {ports : List (Nat × Nat)} (single : ports.length ≤ 1) : ∀ a ∈ ports, ∀ b ∈ ports, a.2 = b.2 → a.1 = b.1 := by
  intro a ha b hb _
  match ports, single, ha, hb with
  | [x], _, ha, hb => rw [List.mem_singleton.1 ha, List.mem_singleton.1 hb]

/-- An operation of the address slot, by its registers and its value. -/
theorem axOp_completes {i : Instr} {s : State} {g : BitVec 3} {rs all : List Reg} {d : Reg} {v : Word} (ports : List (Nat × Nat))
    (can : CanIssue s all 1) (on : guardOn (me s) g = true) (wf : i.wf = true)
    (ex : exec i s = issueSolo i { axOp (me s) g rs d v with ports := ports } s)
    (reads : ∀ r ∈ rs, r ∈ all) (dest : d ∈ all) (single : ports.length ≤ 1) : Completes i s s 7 (axRes (me s) rs d v) := by
  unfold axOp at ex
  unfold axRes
  split at ex
  · next none =>
    rw [if_pos none]
    have fits : Fits { opBase (me s) 7 g with reads := rs, res := [], ports := ports } all 1 :=
      ⟨on, rfl, ports_alike single, rfl, rfl, rfl, rfl, rfl, reads, rfl,
        fun _ hx => absurd hx List.not_mem_nil, Nat.zero_le _, fun _ hx => absurd hx List.not_mem_nil, List.nodup_nil⟩
    exact fits.pure can ex wf rfl rfl
  · next some =>
    rw [if_neg some]
    exact land_completes ports none can on ex wf reads dest single rfl

theorem axRes_of_ne {c : Ctx} {rs : List Reg} {d : Reg} {v : Word} (kept : d ≠ ⟨.w, 0⟩) :
    axRes c rs d v = [wordRes d v 1 (anyBad c rs)] := if_neg kept

theorem aReg_ne_wReg (n m : Nat) : aReg n ≠ wReg m := fun h => nomatch congrArg Reg.file h

theorem wReg_zero_iff (d : BitVec 4) : wReg d.toNat = ⟨.w, 0⟩ ↔ d = 0 := by
  rw [wReg, Reg.mk.injEq, ← BitVec.toNat_inj]
  exact and_iff_right rfl

theorem axReg_zero_iff (d : BitVec 4) (w : BitVec 1) : axReg d w = ⟨.w, 0⟩ ↔ w = 1 ∧ d = 0 := by
  unfold axReg
  split
  · next modifier => rw [wReg_zero_iff, modifier, and_iff_right rfl]
  · next address => exact iff_of_false (aReg_ne_wReg _ _) fun h => address h.1

/-- MODE above the low bits of the register, as a sum and as a concatenation. -/
theorem modeWord_eq (e : BitVec 4) (x : Word) :
    BitVec.ofNat 64 (e.toNat % 4 * 2 ^ 62 + x.toNat % 2 ^ 62) = (BitVec.ofNat 2 e.toNat ++ x.setWidth 62 : BitVec 64) := by
  refine BitVec.eq_of_toNat_eq ?_
  rw [BitVec.toNat_append, BitVec.toNat_ofNat, BitVec.toNat_ofNat, BitVec.toNat_setWidth, Nat.shiftLeft_eq, Nat.mul_comm _ (2 ^ 62),
    ← Nat.two_pow_add_eq_or_of_lt (Nat.mod_lt _ (Nat.two_pow_pos 62)), Nat.mul_comm]
  omega

theorem anyBad_one (c : Ctx) (r : Reg) : anyBad c [r] = regBad c r := Bool.or_false _

theorem anyBad_two (c : Ctx) (r t : Reg) : anyBad c [r, t] = (regBad c r || regBad c t) := by rw [anyBad, List.any_cons, ← anyBad, anyBad_one]

/-- Settles O13: `axOp_completes` with the step of `modStep` by its mode. -/
theorem addressResults : Obligations.AddressResults := by
  intro s g d a m e cs q sf w
  dsimp only
  intro can on
  refine ⟨?_, ⟨modStep (regWord (me s) (aReg d.toNat)) (regWord (me s) (wReg m.toNat)), ?_, modStep_linear _,
    fun mode => modStep_modulo _ mode rfl, fun mode few low => modStep_reversed _ mode rfl rfl few low, modStep_none _⟩, fun legal => ?_, ?_⟩
  · have completes := axOp_completes (i := .aset g d cs q) (rs := [commonReg cs.toNat]) (d := aReg d.toNat)
      (v := regWord (me s) (commonReg cs.toNat)) [(cs.toNat, q.toNat)] can on rfl rfl (by simp) (by simp) (by simp)
    rwa [axRes_of_ne (aReg_ne_wReg _ _), anyBad_one] at completes
  · have completes := axOp_completes (i := .ainc g d m) (rs := [aReg d.toNat, wReg m.toNat]) (d := aReg d.toNat)
      (v := modStep (regWord (me s) (aReg d.toNat)) (regWord (me s) (wReg m.toNat))) [] can on rfl rfl (by simp) (by simp) (by simp)
    rwa [axRes_of_ne (aReg_ne_wReg _ _), anyBad_two] at completes
  · have completes := axOp_completes (i := .amod g d cs q e) (rs := [commonReg cs.toNat]) (d := wReg d.toNat)
      (v := BitVec.ofNat 64 (e.toNat % 4 * 2 ^ 62 + (regWord (me s) (commonReg cs.toNat)).toNat % 2 ^ 62)) [(cs.toNat, q.toNat)] can on
      (decide_eq_true legal) rfl (by simp) (by simp) (by simp)
    rwa [axRes, anyBad_one, modeWord_eq, if_congr (wReg_zero_iff d) rfl rfl] at completes
  · have completes := axOp_completes (i := .amov g d a sf w) (rs := [axReg a sf]) (d := axReg d w)
      (v := regWord (me s) (axReg a sf)) [] can on rfl rfl (by simp) (by simp) (by simp)
    rwa [axRes, anyBad_one, if_congr (axReg_zero_iff d w) rfl rfl] at completes

end Sys2Proof.Machine
end

section
/-! SUPPORT. The fetch of a group of one bundle, from the bytes of its line (R45 to R49). -/

namespace Sys2Proof.Machine

/-! ### Words of a line -/

theorem natLE_lt (bs : List Byte) : natLE bs < 256 ^ bs.length := by
  induction bs with
  | nil => exact Nat.one_pos
  | cons b bs ih =>
    have := b.isLt
    rw [natLE, List.length_cons, Nat.pow_succ]
    omega

theorem natLE_append (bs cs : List Byte) : natLE (bs ++ cs) = natLE bs + 256 ^ bs.length * natLE cs := by
  induction bs with
  | nil => simp [natLE]
  | cons b bs ih =>
    rw [List.cons_append, natLE, ih, natLE, List.length_cons, Nat.pow_succ]
    ring

theorem rdBytes_length (m : List Host.Cell) (k n : Nat) : (rdBytes m k n).length = n := by
  induction n generalizing k with
  | zero => rfl
  | succ n ih => rw [rdBytes, List.length_cons, ih]

theorem rdBytes_add (m : List Host.Cell) (k a b : Nat) : rdBytes m k (a + b) = rdBytes m k a ++ rdBytes m (k + a) b := by
  induction a generalizing k with
  | zero => rw [Nat.zero_add, rdBytes, List.nil_append, Nat.add_zero]
  | succ a ih => rw [Nat.succ_add, rdBytes, ih, rdBytes, List.cons_append, Nat.add_assoc k 1 a, Nat.add_comm 1 a]

theorem toNat_ofNat_natLE {n : Nat} {bs : List Byte} (length : 8 * bs.length = n) : (BitVec.ofNat n (natLE bs)).toNat = natLE bs := by
  subst length
  rw [BitVec.toNat_ofNat, Nat.mod_eq_of_lt]
  rw [Nat.pow_mul]
  exact natLE_lt bs

/-- The line that starts at byte `64 * key`, as the memory holds it. -/
def memLine (m : List Host.Cell) (key : Nat) : BitVec 512 := BitVec.ofNat 512 (rdNat m (64 * key) 64)

/-- Word `i` of the line is its four bytes. -/
theorem lineWord_memLine {m : List Host.Cell} {key i : Nat} (inside : i < 16) :
    lineWord (memLine m key) i = rdNat m (64 * key + 4 * i) 4 := by
  have bytes : rdBytes m (64 * key) 64 = rdBytes m (64 * key) (4 * i) ++ (rdBytes m (64 * key + 4 * i) 4 ++
      rdBytes m (64 * key + 4 * i + 4) (60 - 4 * i)) := by
    rw [← rdBytes_add, ← rdBytes_add, show 4 * i + (4 + (60 - 4 * i)) = 64 by omega]
  have power : ∀ n, 256 ^ n = 2 ^ (8 * n) := fun n => (Nat.pow_mul 2 8 n).symm
  have whole : (memLine m key).toNat = natLE (rdBytes m (64 * key) 64) := toNat_ofNat_natLE (by rw [rdBytes_length])
  have before := natLE_lt (rdBytes m (64 * key) (4 * i))
  have word := natLE_lt (rdBytes m (64 * key + 4 * i) 4)
  rw [rdBytes_length] at before word
  rw [lineWord, if_pos inside, whole, rdNat, bitsOf,
    show 32 * i = 8 * (4 * i) by omega, ← power, bytes, natLE_append, natLE_append,
    rdBytes_length, rdBytes_length, Nat.add_mul_div_left _ _ (by positivity), Nat.div_eq_of_lt before, Nat.zero_add]
  omega

/-- Words written out byte by byte are read back. -/
theorem rdNat_of_words {m : List Host.Cell} {at_ : Nat} {ws : List Nat} (small : ∀ w ∈ ws, w < 2 ^ 32)
    (bytes : rdBytes m at_ (4 * ws.length) = ws.flatMap (bytesLE 4)) (j : Nat) (inside : j < ws.length) :
    rdNat m (at_ + 4 * j) 4 = ws[j] := by
  induction ws generalizing at_ j with
  | nil => cases inside
  | cons w ws ih =>
    rw [List.length_cons, Nat.mul_succ, Nat.add_comm, rdBytes_add, List.flatMap_cons] at bytes
    obtain ⟨first, rest⟩ := List.append_inj bytes (by rw [rdBytes_length, bytesLE_length])
    cases j with
    | zero =>
      rw [Nat.mul_zero, Nat.add_zero, rdNat, first, bytesLE_natLE]
      exact Nat.mod_eq_of_lt (small w List.mem_cons_self)
    | succ j =>
      have next := ih (fun v hv => small v (List.mem_cons_of_mem _ hv)) rest j (Nat.lt_of_succ_lt_succ inside)
      rw [show at_ + 4 * (j + 1) = at_ + 4 + 4 * j by omega, next, List.getElem_cons_succ]

/-! ### Addresses of words -/

theorem clearLow_eq_shift (a : Word) (k : Nat) : a &&& ~~~BitVec.ofNat 64 (2 ^ k - 1) = a >>> k <<< k := by
  refine BitVec.eq_of_getLsbD_eq fun i hi => ?_
  rw [BitVec.getLsbD_and, BitVec.getLsbD_not, BitVec.getLsbD_ofNat, Nat.testBit_two_pow_sub_one, BitVec.getLsbD_shiftLeft,
    BitVec.getLsbD_ushiftRight]
  by_cases low : i < k
  · simp [hi, low]
  · simp [hi, low, Nat.add_sub_cancel' (Nat.not_lt.1 low)]

theorem toNat_clearLow (a : Word) (k : Nat) : (a &&& ~~~BitVec.ofNat 64 (2 ^ k - 1)).toNat = a.toNat / 2 ^ k * 2 ^ k := by
  rw [clearLow_eq_shift, BitVec.toNat_shiftLeft, BitVec.toNat_ushiftRight, Nat.shiftLeft_eq, Nat.shiftRight_eq_div_pow]
  exact Nat.mod_eq_of_lt (Nat.lt_of_le_of_lt (Nat.div_mul_le_self ..) a.isLt)

theorem wordAligned_and {a : Word} (aligned : a.toNat % 4 = 0) : a &&& ~~~3 = a := by
  have cut := toNat_clearLow a 2
  refine BitVec.eq_of_toNat_eq (cut.trans ?_)
  omega

/-- The address `n` bytes past one of a line, counted from the line's start. -/
theorem line_add {a : Word} {j n : Nat} (past : 4 * j = a.toNat % 64 + n) : (a &&& ~~~63) + BitVec.ofNat 64 (4 * j) = a + BitVec.ofNat 64 n := by
  have cut := toNat_clearLow a 6
  have whole : a = (a &&& ~~~63) + BitVec.ofNat 64 (a.toNat % 64) := by
    refine BitVec.eq_of_toNat_eq ?_
    have small := a.isLt
    rw [BitVec.toNat_add, BitVec.toNat_ofNat, show (a &&& ~~~63).toNat = _ from cut]
    omega
  conv_rhs => rw [whole]
  rw [past, BitVec.add_assoc, ← BitVec.ofNat_add]

/-! ### A group of one bundle -/

/-- A header with slot `k` and S, in the line that the fetch reads: the group is that of the slot's instruction. -/
theorem fetchFrom_single {s : State} {p n key k w e j : Nat} {a : Word} {l : BitVec 512} {i : Instr}
    (line : fetchLine s p a = .ok (key, l)) (header : lineWord l (a.toNat % 64 / 4) = 2 ^ 16 + 2 ^ k) (slot : k < 16)
    (words : slotWords l [k] (a.toNat % 64 / 4 + 1) = ([(k, w, e)], j)) (inside : j ≤ 16) (legal : decodeSlot k w e = .ok i) :
    fetchFrom s p (n + 1) a true ⟨⟨a, a, a, none, [], 0⟩, 0, [], []⟩ =
      .ok ⟨⟨a, a &&& ~~~3, (a &&& ~~~63) + BitVec.ofNat 64 (4 * j), none, [(k, i)], 0⟩, 2 ^ k, [], [(a, key, l)]⟩ := by
  have mask : (2 ^ 16 + 2 ^ k) % 2 ^ 16 = 2 ^ k := by
    rw [Nat.add_mod_left, Nat.mod_eq_of_lt (Nat.pow_lt_pow_right Nat.one_lt_two slot)]
  have known : 2 ^ 16 + 2 ^ k ≠ lineEnd ∧ badHeader (2 ^ 16 + 2 ^ k) true = false ∧ bitOf (2 ^ 16 + 2 ^ k) 21 = false ∧
      bitOf (2 ^ 16 + 2 ^ k) 16 = true ∧ setBits 16 (2 ^ k) = [k] := by
    clear words legal header mask
    interval_cases k <;> decide
  obtain ⟨mark, good, plain, last, slots⟩ := known
  have some : 2 ^ k ≠ 0 := Nat.ne_of_gt (Nat.two_pow_pos k)
  generalize 2 ^ 16 + 2 ^ k = h at *
  have read : readSlots [(k, w, e)] = ([(k, i)], []) := by
    unfold readSlots
    rw [List.foldr_cons, legal]
    rfl
  rw [fetchFrom, line]
  simp only [header, mark, good, plain, last, mask, slots, words, read, some, if_true, if_false, Bool.false_or, Nat.zero_and, Nat.zero_or,
    Bool.and_false, Nat.not_lt.2 inside, ne_eq, not_true, Bool.false_eq_true, decide_false, List.nil_append]

/-- `roundTrip` for an instruction of a slot: one word, or two. -/
theorem roundTrip_slot {i : Instr} {k : Nat} (slot : i.slot = some k) (wf : i.wf = true) :
    (∃ w, encode i = [w] ∧ hasExt k w.toNat = false ∧ ∀ e, decodeSlot k w.toNat e = .ok i) ∨
      ∃ w e, encode i = [w, e] ∧ hasExt k w.toNat = true ∧ decodeSlot k w.toNat e.toNat = .ok i := by
  have trip := Laws.roundTrip i
  unfold Laws.RoundTrip.Statement at trip
  replace trip := trip wf
  rw [slot] at trip
  generalize encode i = ws at trip
  match ws with
  | [w] => exact .inl ⟨w, rfl, trip⟩
  | [w, e] => exact .inr ⟨w, e, rfl, trip⟩
  | [] => exact trip.elim
  | _ :: _ :: _ :: _ => exact trip.elim

/-- The words of a well-formed instruction, read from the line where they stand, are those of its slot. -/
theorem slotWords_encode {i : Instr} {k : Nat} (slot : i.slot = some k) (wf : i.wf = true) {l : BitVec 512} {n : Nat}
    (words : ∀ j (h : j < (encode i).length), lineWord l (n + j) = (encode i)[j].toNat) :
    ∃ w e, slotWords l [k] n = ([(k, w, e)], n + (encode i).length) ∧ decodeSlot k w e = .ok i := by
  rcases roundTrip_slot slot wf with ⟨w, encoded, short, legal⟩ | ⟨w, e, encoded, long, legal⟩
  · simp only [encoded, List.length_singleton] at words ⊢
    have word : lineWord l n = w.toNat := words 0 Nat.one_pos
    exact ⟨w.toNat, 0, by simp [slotWords, word, short], legal 0⟩
  · simp only [encoded, List.length_cons, List.length_nil] at words ⊢
    have word : lineWord l n = w.toNat := words 0 (by decide)
    have ext : lineWord l (n + 1) = e.toNat := words 1 (by decide)
    exact ⟨w.toNat, e.toNat, by simp [slotWords, word, ext, long], legal⟩

theorem encode_length {i : Instr} {k : Nat} (slot : i.slot = some k) (wf : i.wf = true) :
    (encode i).length = 1 ∨ (encode i).length = 2 := by
  rcases roundTrip_slot slot wf with ⟨w, encoded, -⟩ | ⟨w, e, encoded, -⟩
  · exact .inl (congrArg List.length encoded)
  · exact .inr (congrArg List.length encoded)

/-- The whole fetch of a group of one slot from its bytes. -/
theorem fetchGroup_single {s : State} {p key k : Nat} {i : Instr} (slot : i.slot = some k) (wf : i.wf = true)
    (aligned : (getCtx s p).pc.toNat % 4 = 0) (fresh : bufferAt (getCtx s p) (getCtx s p).pc = none)
    (line : fetchLine s p (getCtx s p).pc = .ok (key, memLine s.mem key))
    (inside : (getCtx s p).pc.toNat % 64 + (4 + 4 * (encode i).length) ≤ 64)
    (bytes : rdBytes s.mem (64 * key + (getCtx s p).pc.toNat % 64) (4 + 4 * (encode i).length) =
      bytesLE 4 (2 ^ 16 + 2 ^ k) ++ (encode i).flatMap (fun w => bytesLE 4 w.toNat)) :
    fetchGroup s p (getCtx s p).pc =
      .ok ⟨soloGrp (getCtx s p) i k, 2 ^ k, [], [((getCtx s p).pc, key, memLine s.mem key)]⟩ := by
  set a := (getCtx s p).pc with pc
  obtain ⟨n, place⟩ : ∃ n, a.toNat % 64 = 4 * n := ⟨a.toNat % 64 / 4, by omega⟩
  have index : a.toNat % 64 / 4 = n := by omega
  set ws := (2 ^ 16 + 2 ^ k) :: (encode i).map BitVec.toNat with isWords
  have small : ∀ w ∈ ws, w < 2 ^ 32 := by
    have power : 2 ^ k < 2 ^ 16 := Nat.pow_lt_pow_right Nat.one_lt_two (slot_lt slot)
    intro w hw
    rcases List.mem_cons.1 hw with rfl | hw
    · omega
    · obtain ⟨v, -, rfl⟩ := List.mem_map.1 hw
      exact v.isLt
  have read : ∀ j (h : j < ws.length), lineWord (memLine s.mem key) (n + j) = ws[j] := by
    have each := rdNat_of_words (m := s.mem) (at_ := 64 * key + 4 * n) small (by
      rw [← place, isWords, List.length_cons, List.length_map, Nat.mul_succ, Nat.add_comm _ 4, bytes, List.flatMap_cons, List.flatMap_map])
    intro j h
    rw [lineWord_memLine (by simp only [isWords, List.length_cons, List.length_map] at h; omega), ← each j h]
    congr 1
    omega
  obtain ⟨w, e, words, legal⟩ := slotWords_encode slot wf (l := memLine s.mem key) (n := n + 1) fun j h => by
    have next := read (j + 1) (by simp only [isWords, List.length_cons, List.length_map]; omega)
    rw [show n + 1 + j = n + (j + 1) by omega, next]
    simp only [isWords, List.getElem_cons_succ, List.getElem_map]
  have fuel : Config.walkFuel = (2 ^ 64 - 1) + 1 := rfl
  unfold fetchGroup
  rw [fresh, fuel]
  dsimp only
  rw [fetchFrom_single line (index ▸ read 0 (Nat.succ_pos _)) (slot_lt slot) (index ▸ words) (by omega) legal, wordAligned_and aligned,
    line_add (n := 4 + 4 * (encode i).length) (by omega), soloGrp]
  rcases encode_length slot wf with one | two
  · simp [one, pc]
  · simp [two, pc]

/-- Settles O47: the line at the pc is the memory's (`fetchLine`), its words are the header and those of the instruction
(`lineWord_memLine`), and these decode to the instruction (`roundTrip`). -/
theorem groupFetch : Obligations.GroupFetch := by
  intro s p k key home w i
  dsimp only
  intro wf slot fresh aligned place reads uncached inside bytes
  have line : fetchLine s p (getCtx s p).pc = .ok (key / 64, memLine s.mem (key / 64)) := by
    unfold fetchLine codeLine memLine
    simp only [wordAligned_and aligned, place, reads, uncached, Bool.and_false, Bool.false_eq_true, if_false]
  exact ⟨_, fetchGroup_single slot wf aligned fresh line inside bytes, rfl, rfl⟩

end Sys2Proof.Machine
end

section
/-! SUPPORT. The words that break their table (R70, R71): the causes of rank 4 and more, which every check of an operation gives, come
after them (R279). -/

namespace Sys2Proof.Machine

/-! ### The causes of an operation -/

/-- A cause that comes after those of the words. -/
def Late (x : Option Cause) : Prop := ∀ e, x = some e → 4 ≤ e.rank

theorem Late.none : Late none := nofun

theorem Late.some {e : Cause} (h : 4 ≤ e.rank) : Late (some e) := fun _ eq => Option.some.inj eq ▸ h

/-- A cause made with rank 5. -/
theorem Late.plain {code slot : Nat} : Late (Option.some (plainCause code slot)) := .some (Nat.le_succ 4)

theorem Late.ite {b : Prop} [Decidable b] {x y : Option Cause} (hx : Late x) (hy : Late y) : Late (if b then x else y) := by
  split
  · exact hx
  · exact hy

theorem Late.firstOf {l : List (Bool × Cause)} (each : ∀ x ∈ l, x.1 = true → 4 ≤ x.2.rank) : Late (firstOf l) := by
  intro e h
  obtain ⟨x, found, rfl⟩ := Option.map_eq_some_iff.1 h
  exact each x (List.mem_of_find?_eq_some found) (List.find?_some found)

theorem Late.getD {x : Option Cause} (h : Late x) {e : Cause} (he : 4 ≤ e.rank) : 4 ≤ (x.getD e).rank := by
  cases x with
  | none => exact he
  | some y => exact h y rfl

theorem rndCause_late {c : Ctx} {slot : Nat} {used : Bool} : Late (rndCause c slot used) := .ite .plain .none

theorem rangeCause_late {s : State} {p slot off access : Nat} : Late (rangeCause s p slot off access) :=
  .ite .none (.some (Nat.le_succ 4))

theorem popCheck_late {s : State} {p slot n k need : Nat} : Late (popCheck s p slot n k need).2.1 := by
  unfold popCheck
  dsimp only
  split
  · exact .plain
  · split
    · exact .none
    · split
      · exact .none
      · exact .some (Nat.le_succ 4)

theorem tileCheck_late {s : State} {p : Nat} {va : Word} {e : Cause} (h : tileCheck s p va = .error e) : 4 ≤ e.rank := by
  unfold tileCheck at h
  dsimp only at h
  split at h
  · cases h
  · exact Except.error.inj h ▸ Nat.le_succ 4
  · exact Except.error.inj h ▸ Nat.le_succ 4

theorem deadRow_late {s : State} {p : Nat} {m : MOp} : Late (deadRow s p m) := by
  intro e h
  obtain ⟨o, -, found⟩ := List.exists_of_findSome?_eq_some h
  exact rangeCause_late e found

theorem loadCause_late {va : Word} {x : XlOut} : Late (loadCause va x) := by
  cases x with
  | ok => exact .none
  | absent => exact .some (Nat.le_succ 4)
  | fault => exact .some (Nat.le_succ 4)

theorem writeCause_late {w : Word} {kind : GKind} {size : Nat} {vec bad : Bool} {va : Word} {slot : Nat} :
    Late (writeCause w kind size vec bad va slot) := by
  unfold writeCause
  dsimp only
  repeat' split
  all_goals first | exact .none | exact .some (Nat.le_succ 4)

theorem room_late {b : Prop} [Decidable b] {va : Word} {e : Cause}
    (h : (if b then WriteWay.cause { plainCause 0x13 11 with addr := va, access := 2 } else .log) = .cause e) : 4 ≤ e.rank := by
  split at h
  · exact WriteWay.cause.inj h ▸ Nat.le_succ 4
  · cases h

theorem writeWay_late {s : State} {p : Nat} {kind : GKind} {va : Word} {size : Nat} {vec bad : Bool} {e : Cause}
    (h : writeWay s p kind va size vec bad = .cause e) : 4 ≤ e.rank := by
  unfold writeWay at h
  dsimp only at h
  split at h
  · exact room_late h
  · exact WriteWay.cause.inj h ▸ Nat.le_succ 4
  · split at h
    · next x found => exact WriteWay.cause.inj h ▸ writeCause_late _ found
    · split at h
      · exact room_late h
      · split at h
        · exact WriteWay.cause.inj h ▸ Nat.le_succ 4
        · cases h

theorem semWrite_late {g : BitVec 3} {a m : BitVec 4} {kind : GKind} {size : Nat} {vec : Bool} {v : Nat} {rs : List Reg} {d : Option Reg}
    {op : Nat} {arg : Word} {rel acq : Bool} {sc : Nat} {p : Nat} {s : State} :
    Late (semWrite g a m kind size vec v rs d op arg rel acq sc p s).cause := by
  unfold semWrite
  dsimp only
  refine .ite .none ?_
  split
  · next e way => exact .some (writeWay_late way)
  · exact .none
  · exact .ite (.some (Nat.le_succ 4)) .none

theorem semLwt_late {g : BitVec 3} {r : BitVec 4} {f : BitVec 3} {a m : BitVec 4} {o : BitVec 2} {p : Nat} {s : State} :
    Late (semLwt g r f a m o p s).cause := by
  unfold semLwt
  dsimp only
  split
  · split
    · exact .ite .none (.some (Nat.le_succ 4))
    · exact .none
  · exact .ite loadCause_late .none

theorem semStq_late {sl : LSlot} {g : BitVec 3} {q : BitVec 4} {a m : BitVec 4} {p : Nat} {pre : Pre} {s : State} :
    Late (semStq sl g q a m p pre s).cause := by
  unfold semStq
  dsimp only
  split
  · next e found => exact .some (popCheck_late e found)
  · exact .ite rangeCause_late .none

theorem semCim_late {g : BitVec 3} {r : BitVec 5} {rp : BitVec 2} {tr : BitVec 5} {tp b : BitVec 2} {m l o t : BitVec 1} {p : Nat}
    {s : State} (word : (metaOf s p m).cause = none) : Late (semCim g r rp tr tp b m l o t p s).cause := by
  refine Late.ite .none (.firstOf ?_)
  simp only [List.forall_mem_cons, word, Option.isSome_none]
  refine ⟨nofun, fun tile => ?_, fun _ => Nat.le_succ 4, fun _ => Nat.le_succ 4, fun _ => Nat.le_succ 4,
    fun _ => deadRow_late.getD (Nat.le_succ 4), nofun⟩
  split
  · exact Nat.le_succ 4
  · next e found => exact tileCheck_late found

theorem semSmx_late {g : BitVec 3} {r : BitVec 5} {rp : BitVec 2} {br : BitVec 5} {bp b : BitVec 2} {m l o t : BitVec 1} {p : Nat}
    {s : State} (word : (metaOf s p m).cause = none) : Late (semSmx g r rp br bp b m l o t p s).cause := by
  refine Late.ite .none (.firstOf ?_)
  simp only [List.forall_mem_cons, word, Option.isSome_none]
  exact ⟨nofun, fun _ => Nat.le_succ 4, fun _ => Nat.le_succ 4, fun _ => deadRow_late.getD (Nat.le_succ 4), nofun⟩

theorem semAcz_late {g : BitVec 3} {r : BitVec 5} {rp b : BitVec 2} {p : Nat} {s : State} : Late (semAcz g r rp b p s).cause := by
  refine Late.ite .none (.firstOf ?_)
  simp only [List.forall_mem_cons]
  exact ⟨fun _ => Nat.le_succ 4, nofun⟩

theorem semDrn_late {g : BitVec 3} {r : BitVec 5} {rp b : BitVec 2} {n : BitVec 3} {p : Nat} {pre : Pre} {s : State} :
    Late (semDrn g r rp b n p pre s).cause := by
  refine Late.ite .none (.firstOf ?_)
  simp only [List.forall_mem_cons]
  exact ⟨fun _ => Nat.le_succ 4, fun _ => Nat.le_succ 4, nofun⟩

/-- Where the word of an operation breaks its table, whatever causes its meaning gives come after that (R279): of the operations whose
fields have a stated set, only the metadata word of `cim` and `smx` has causes that come before. -/
theorem semOf_late {i : Instr} {s : State} {k : Nat} {pre : Pre} {o : OpSem} (slot : i.slot = some k) (broken : i.wf = false)
    (word : WordFetched i s) (sem : semOf i s.cur pre s = some o) : Late o.cause := by
  cases i
  all_goals first
    | (cases slot; done)
    | (cases broken)
    | (cases Option.some.inj sem; first
        | exact .none
        | exact rndCause_late
        | exact popCheck_late
        | exact .ite rangeCause_late .none
        | exact semStq_late
        | exact semCim_late word
        | exact semSmx_late word
        | exact semAcz_late
        | exact semDrn_late
        | exact semWrite_late
        | exact semLwt_late
        | exact .ite loadCause_late .none)
    | skip
  case vmov =>
    cases Option.some.inj sem
    unfold semVmov
    dsimp only
    split <;> exact .none

/-! ### The first cause of a group -/

/-- A cause that no other precedes is the one reported. -/
theorem firstCause_head {e : Cause} {l : List Cause} (first : ∀ x ∈ l, worse e x = true) : firstCause (e :: l) = some e := by
  show l.foldl _ (some e) = some e
  induction l with
  | nil => rfl
  | cons x l ih =>
    rw [List.foldl_cons]
    simp only [first x List.mem_cons_self, if_true]
    exact ih fun y hy => first y (List.mem_cons_of_mem x hy)

/-- A fold that keeps what it has or takes the next ends in its start or in one of the list. -/
theorem foldl_pick {f : Option Nat → Nat → Option Nat} (pick : ∀ o k, f o k = o ∨ f o k = some k) {ks : List Nat} {o : Option Nat}
    {k : Nat} (h : ks.foldl f o = some k) : o = some k ∨ k ∈ ks := by
  induction ks generalizing o with
  | nil => exact .inl h
  | cons a ks ih =>
    rcases ih h with now | later
    · rcases pick o a with kept | taken
      · exact .inl (kept ▸ now)
      · exact .inr (Option.some.inj (taken.symm.trans now) ▸ List.mem_cons_self)
    · exact .inr (List.mem_cons_of_mem a later)

theorem lowest_mem {ks : List Nat} {k : Nat} (h : lowest ks = some k) : k ∈ ks := by
  refine (foldl_pick (fun o k => ?_) h).resolve_left nofun
  cases o with
  | none => exact .inr rfl
  | some j =>
    rcases Nat.le_total j k with low | low
    · exact .inl (congrArg some (Nat.min_eq_left low))
    · exact .inr (congrArg some (Nat.min_eq_right low))

/-- The checks of the words of one operation name its slot. -/
theorem groupErrs_one_slot {c : Ctx} {o : OpSem} {e : Cause} (h : e ∈ groupErrs c none [o]) : e = illegal o.slot := by
  unfold groupErrs at h
  simp only [requestErr, Option.isSome_none, Bool.false_and, Bool.false_eq_true, if_false, List.append_nil, landErr_one, List.mem_map,
    List.mem_filterMap, List.mem_cons, List.not_mem_nil, or_false, id] at h
  obtain ⟨k, ⟨x, hx, rfl⟩, rfl⟩ := h
  have slot : k = o.slot := by
    rcases hx with port | none | issue
    · have mem := lowest_mem port.symm
      simp only [List.flatMap_cons, List.flatMap_nil, List.append_nil, List.mem_map, List.mem_filter] at mem
      obtain ⟨_, ⟨⟨_, -, rfl⟩, -⟩, rfl⟩ := mem
      rfl
    · cases none
    · have mem := lowest_mem issue.symm
      simp only [List.mem_map, List.mem_filter, List.mem_singleton] at mem
      obtain ⟨_, ⟨rfl, -⟩, rfl⟩ := mem
      rfl
  rw [slot]

/-- An operation by itself whose first cause is `e` traps with it, and does not issue. -/
theorem issueSolo_traps {i : Instr} {o : OpSem} {s : State} {e : Cause} (turn : competes (me s) = true)
    (first : firstCause (groupCauses (me s) ⟨soloGrp (me s) i o.slot, 0, if i.wf then [] else [illegal o.slot], []⟩ [o]) = some e) :
    issueSolo i o s = .next (trapEntry s.cur e (me s).pc 0 none s) := by
  have trap := tryGroup_traps (s := s) (p := s.cur) first
  unfold issueSolo
  dsimp only
  rw [show getCtx s s.cur = me s from rfl, turn, if_pos rfl, trap]
  rfl

theorem illegal_slot {k : Nat} (slot : k < 16) : illegal k = ⟨1, 3, k, 0, 0, 0, 0, 0, 0⟩ := by
  rw [illegal, if_neg (Nat.ne_of_lt slot)]

/-- The words of an operation that break their table are the first cause. -/
theorem exec_illegal {i : Instr} {s : State} {k : Nat} (turn : competes (me s) = true) (slot : i.slot = some k) (broken : i.wf = false)
    (word : WordFetched i s) : exec i s = .next (trapEntry s.cur (illegal k) (me s).pc 0 none s) := by
  obtain ⟨o, g, sem, is, run⟩ := exec_solo i s k slot
  have late := semOf_late slot broken word sem
  rw [run]
  refine issueSolo_traps turn ?_
  rw [broken, is.slot]
  refine firstCause_head fun x hx => ?_
  rcases List.mem_append.1 hx with words | own
  · rw [groupErrs_one_slot words, is.slot]
    simp [worse]
  · obtain ⟨q, hq, cause⟩ := List.mem_filterMap.1 own
    rw [List.mem_singleton.1 hq] at cause
    have rank : 4 ≤ x.rank := by
      unfold causeOf at cause
      split at cause
      · exact late x cause
      · cases cause
    rw [worse, illegal_slot (slot_lt slot)]
    simp [show 3 < x.rank by omega]

/-- A header of an idle group that breaks its table traps. -/
theorem execSkip_illegal {n : BitVec 8} {v : BitVec 1} {o : BitVec 3} {s : State} (turn : competes (me s) = true)
    (broken : (Instr.skip n v o).wf = false) : exec (.skip n v o) s = .next (trapEntry s.cur (illegal 16) (me s).pc 0 none s) := by
  have first : firstCause (groupCauses (me s) ⟨skipGrp (me s) n v o, 0, [illegal 16], []⟩ []) = some (illegal 16) := by
    refine firstCause_head fun x hx => ?_
    have words : x ∈ groupErrs (me s) (skipGrp (me s) n v o).op [] := by simpa using hx
    unfold groupErrs at words
    obtain ⟨-, same⟩ : requestErr (me s) (skipGrp (me s) n v o).op = true ∧ x = illegal 16 := by
      simpa [portErr, settledOps, landErr, issueErr, lowest] using words
    rw [same]
    rfl
  have trap := tryGroup_traps (s := s) (p := s.cur) first
  show execSkip n v o s = _
  unfold execSkip
  dsimp only
  rw [show getCtx s s.cur = me s from rfl, turn, if_pos rfl, broken]
  simp only [Bool.false_eq_true, if_false]
  rw [trap]
  rfl

/-- A cause of the operation's own, where its words are good. -/
theorem exec_cause {i : Instr} {o : OpSem} {s : State} {e : Cause} (turn : competes (me s) = true) (run : exec i s = issueSolo i o s)
    (wf : i.wf = true) (on : o.on = true) (ports : o.ports.length ≤ 1) (fmt : o.isFmt = false) (scl : o.isScl = false)
    (mx : o.isMx = false) (cause : o.cause = some e) : exec i s = .next (trapEntry s.cur e (me s).pc 0 none s) := by
  have words : groupErrs (me s) none [o] = [] := groupErrs_one (me s) o (ports_alike ports) (by simp [fmt]) (by simp [scl]) (by simp [mx])
  rw [run]
  refine issueSolo_traps turn ?_
  rw [wf, if_pos rfl]
  show firstCause ([] ++ groupErrs (me s) none [o] ++ [o].filterMap causeOf) = some e
  rw [words]
  simp [causeOf, on, cause, firstCause]

theorem privilege_cause {sup : Bool} (user : sup = false) (slot : Nat) :
    (if sup then none else some (privCause slot)) = some (privCause slot) := by rw [user]; rfl

theorem csrCause_user {c : Ctx} {n : BitVec 12} (user : c.sup = false) (h : n = 2 ∨ 0x100 ≤ n.toNat ∧ n.toNat ≤ 0x107) :
    csrCause c n = some (privCause 14) := by
  have reserved : csrSupervisor n.toNat = true := by
    rcases h with rfl | range
    · rfl
    · simp [csrSupervisor, range]
  rw [csrCause, reserved, user]
  rfl

/-- A loop of a count that would push a seventh entry. -/
theorem seventh_cause {n depth : Nat} (some : n ≠ 0) (deep : 6 ≤ depth) :
    (if n ≠ 0 ∧ Config.loopDepth ≤ depth then Option.some (plainCause 3 15) else none) = Option.some (plainCause 3 15) :=
  if_pos ⟨some, deep⟩

theorem forall_mem_pair {P : Instr → Prop} {a b : Instr} (ha : P a) (hb : P b) : ∀ i ∈ [a, b], P i := by
  simp [ha, hb]

/-- Settles O37: `exec_illegal` and `execSkip_illegal` for the words, `exec_cause` for privilege and loop depth. -/
theorem instructionFaults : Obligations.InstructionFaults := by
  intro s g k d x n q r l h j
  dsimp only
  intro turn
  refine ⟨fun i slot known broken word => ?_, fun i v o broken => ?_, fun on user => ⟨?_, ?_, fun reserved => ⟨?_, ?_⟩⟩,
    fun on deep => ⟨fun count => ?_, fun free count => ?_, fun v vs queue count => ?_⟩⟩
  · rw [exec_illegal turn known broken word, illegal_slot (slot_lt known)]
  · exact execSkip_illegal turn broken
  · exact exec_cause (o := semXinv g x n s.cur s) turn rfl rfl on (Nat.zero_le _) rfl rfl rfl (privilege_cause user 12)
  · exact exec_cause (o := semTret g s.cur s) turn rfl rfl on (Nat.zero_le _) rfl rfl rfl (privilege_cause user 15)
  · exact exec_cause (o := semCsrr g d r s.cur s) turn rfl rfl on (Nat.zero_le _) rfl rfl rfl (csrCause_user user reserved)
  · exact exec_cause (o := semCsrw g q d r s.cur s) turn rfl rfl on (Nat.le_refl 1) rfl rfl rfl (csrCause_user user reserved)
  · replace count : h.toNat ≠ 0 := fun zero => count (BitVec.eq_of_toNat_eq zero)
    exact forall_mem_pair
      (exec_cause (o := semLoop g l h s.cur s) turn rfl rfl on (Nat.zero_le _) rfl rfl rfl (seventh_cause count deep))
      (exec_cause (o := semLsp g k j h s.cur s) turn rfl rfl on (Nat.zero_le _) rfl rfl rfl (seventh_cause count deep))
  · have read : ∀ x : Option Cause, (if seen (me s) [commonReg d.toNat] then x else none) = x := fun x => by simp [seen, free]
    exact forall_mem_pair
      (exec_cause (o := semLoopReg g l q d s.cur s) turn rfl rfl on (Nat.le_refl 1) rfl rfl rfl ((read _).trans (seventh_cause count deep)))
      (exec_cause (o := semLspReg g k j q d s.cur s) turn rfl rfl on (Nat.le_refl 1) rfl rfl rfl ((read _).trans (seventh_cause count deep)))
  · replace count : v.toNat ≠ 0 := fun zero => count (BitVec.eq_of_toNat_eq zero)
    have taken : ∀ stages len, semLoopP s.cur s g stages len = { semLoopN (brBase (me s) g) (me s) stages v.toNat len with
        effect := updCore (coreOf s.cur) (fun k => { k with cq := k.cq.drop 1 }) } := by
      intro stages len
      unfold semLoopP
      dsimp only
      rw [queue]
      rfl
    exact forall_mem_pair
      (exec_cause turn (congrArg (issueSolo (.loopQ g l) · s) (taken none _)) rfl on (Nat.zero_le _) rfl rfl rfl (seventh_cause count deep))
      (exec_cause turn (congrArg (issueSolo (.lspQ g k j) · s) (taken (some _) _)) rfl on (Nat.zero_le _) rfl rfl rfl (seventh_cause count deep))

end Sys2Proof.Machine
end

section
/-! SUPPORT. An operation whose guard reads false (R52): its group issues, and finishes as one without results. -/

namespace Sys2Proof.Machine

section
variable {s : State} {o : OpSem}

/-- What the group has of an operation whose guard reads false. -/
def muted (o : OpSem) : OpSem := { o with res := [], draws := 0 }

theorem loaded_muted (s : State) (o : OpSem) : loaded s (muted o) = readied s := by
  rw [loaded_eq, readied]
  refine congrArg (updCtx s.cur · s) (funext fun c => ?_)
  show ({ c with st := .ready, barWait := none, stalled := false, landing := c.landing ++ [] } : Ctx) = _
  rw [List.append_nil]

theorem seqOf_off (off : o.on = false) : seqOf [o] = .flow := by
  unfold seqOf
  rw [List.find?_cons_of_neg (by simp [off])]
  rfl

theorem finishGroup_muted (off : o.on = false) (p : Nat) (g : Grp) (t : State) :
    finishGroup p g [muted o] t = finishGroup p g [o] t := by
  unfold finishGroup
  rw [seqOf_off off, seqOf_off (o := muted o) off]
  rfl

theorem foldl_isSome {f : Option Nat → Nat → Option Nat} (some : ∀ o k, (f o k).isSome = true) (ks : List Nat) {o : Option Nat}
    (h : o.isSome = true) : (ks.foldl f o).isSome = true := by
  induction ks generalizing o with
  | nil => exact h
  | cons k ks ih => exact ih (some o k)

theorem lowest_eq_none {ks : List Nat} (h : lowest ks = none) : ks = [] := by
  cases ks with
  | nil => rfl
  | cons k ks =>
    have found : (lowest (k :: ks)).isSome = true := foldl_isSome (fun o k => by cases o <;> rfl) ks rfl
    rw [h] at found
    cases found

/-- Ports without an error carry one register each. -/
theorem ports_of_portErr (h : portErr [o] = none) : ∀ a ∈ o.ports, ∀ b ∈ o.ports, a.2 = b.2 → a.1 = b.1 := by
  intro a ha b hb port
  by_contra differ
  have empty := lowest_eq_none h
  have mem : o.slot ∈ ([] : List Nat) := by
    rw [← empty]
    refine List.mem_map.2 ⟨(o.slot, a.1, a.2), List.mem_filter.2 ⟨?_, List.any_eq_true.2 ⟨(o.slot, b.1, b.2), ?_, ?_⟩⟩, rfl⟩
    · simpa using ha
    · simpa using hb
    · simpa [port] using differ
  exact List.not_mem_nil mem

/-- An operation whose guard reads false issues as a group of its own, and has no effect. -/
theorem issueSolo_off {i : Instr} (can : CanIssue s [] 0) (wf : i.wf = true) (off : o.on = false) (free : OpFree s o) :
    issueSolo i o s = .next (finishGroup s.cur (soloGrp (me s) i o.slot) [o] (readied s)) := by
  rw [issueSolo_ready i o s wf can.turn can.bar can.steady can.room free]
  have still : runOps s.cur [o] (readied s) = readied s := by simp [runOps, off]
  rw [still, commitWrites_nil (readied s) can.clean, endGroup, show (getCtx (readied s) s.cur).st = .ready by rw [readied, getCtx_updCtx_self]]
  rfl

end

/-- Settles O35: `issueSolo_off`, with the frame of an operation without results. -/
theorem guardFalse : Obligations.GuardFalse := by
  intro s i k
  dsimp only
  intro slot wf unguarded ports can window twice
  obtain ⟨o, g, sem, is, run⟩ := exec_solo i s k slot
  have off : o.on = false := (semOf_on slot sem).trans unguarded
  have first : ∀ bit : LoopEntry → Bool, (∀ e, (me s).loops.head? = some e → bit e = false) →
      ((me s).loops.head?.map bit).getD false = false := by
    intro bit clear
    cases entry : (me s).loops.head? with
    | none => rfl
    | some e => exact clear e entry
  have free : OpFree s o := {
    ports := ports_of_portErr (ports _ o sem)
    fmt := fun h => first (·.fmtBit) fun e he => (twice (is.fmt h) e he).1
    scl := fun h => first (·.scltBit) fun e he => (twice (is.scl h) e he).2
    mx := fun h => window (is.mx h)
    settled := fun on => absurd on (by simp [off])
    cause := fun on => absurd on (by simp [off])
    blocks := fun on => absurd on (by simp [off])
    reads := fun on => absurd on (by simp [off])
    ilocks := fun on => absurd on (by simp [off])
    landing := fun on => absurd on (by simp [off])
    res := fun on => absurd on (by simp [off])
    room := fun on => absurd on (by simp [off]) }
  have next := run.trans (issueSolo_off can wf off free)
  refine ⟨⟨_, next, ?_, fun _ h => absurd h List.not_mem_nil⟩, fun loops walk => ⟨_, next, ?_⟩⟩
  · rw [← finishGroup_muted off, ← loaded_muted s o]
    exact pure_frame _ (muted o) s rfl rfl (seqOf_off off) (fun _ h => absurd h List.not_mem_nil) rfl
  · have here : getCtx (readied s) s.cur = { me s with st := .ready, barWait := none, stalled := false } := getCtx_updCtx_self ..
    refine (finishGroup_next (seqOf_off off) (Nat.zero_le 1) (by rw [here]; exact loops) (by rw [here]; exact walk)).trans ?_
    rcases encode_length slot wf with one | two
    · simp only [soloGrp, one]
      rfl
    · simp only [soloGrp, two]
      rfl

end Sys2Proof.Machine
end

section
/-! SUPPORT. The reset state, and the control registers. -/

namespace Sys2Proof.Machine

/-! ### The reset state -/

theorem getCtx_reset (p : Nat) : getCtx State.reset p = {} := rfl

/-- Settles O44: the reset state is a closed term; each control register is read off it, and a plain register of the empty context
is 0 in every file. -/
theorem resetState : Obligations.ResetState := by
  unfold Obligations.ResetState
  refine ⟨rfl, rfl, rfl, rfl, rfl, rfl, rfl, ⟨reset_mem_wf, rfl⟩, fun p _ => ⟨rfl, fun r plain => ?_, ?_⟩⟩
  · obtain ⟨fl, n⟩ := r
    rw [getCtx_reset]
    cases fl <;> simp_all [regGet, filesGet, fixedReg, predGet]
  · have same : ∀ n, csrValue State.reset p n = csrValue State.reset 0 n := fun _ => rfl
    simp only [same]
    decide

/-! ### What `csrr` reads -/

section
variable (s : State) (p : Nat)

theorem loopIndex_eq (c : Ctx) (d : Nat) : loopIndex c d = BitVec.ofNat 64 ((c.loops.map (·.index)).reverse.getD d 0) := by
  unfold loopIndex
  rw [← List.map_reverse, List.getD_eq_getElem?_getD, List.getElem?_map]
  cases c.loops.reverse[d]? <;> rfl

theorem servedRec_unstalled : servedRec (unstalled p s) p = servedRec s p := by
  unfold servedRec unstalled
  rw [getCtx_updCtx_self]
  dsimp only
  cases (getCtx s p).serves with
  | none => rfl
  | some q => exact updCtx_field Ctx.trec p q _ s fun _ => rfl

/-- Of the control registers only STATUS shows whether the next group waits at a held stack. -/
theorem csrValue_unstalled {n : Nat} (other : n ≠ 1) : csrValue (unstalled p s) p n = csrValue s p n := by
  have ctx : getCtx (unstalled p s) p = { getCtx s p with stalled := false } := getCtx_updCtx_self ..
  unfold csrValue
  rw [ctx, servedRec_unstalled]
  split
  case h_2 => exact absurd rfl other
  all_goals rfl

theorem csrValue_status : csrValue (unstalled p s) p 1 = BitVec.ofNat 64 ((getCtx s p).wcol.toNat + 2 * (getCtx s p).wfb.toNat +
    2 ^ 2 * (getCtx s p).sup.toNat + 2 ^ 3 * (getCtx s p).replay.toNat + 2 ^ 4 * (ctxHeld (unstalled p s) p).toNat +
    2 ^ 5 * ((getCore s (coreOf p)).split % 4) + 2 ^ 8 * ((getCore s (coreOf p)).op % 8)) := by
  have ctx : getCtx (unstalled p s) p = { getCtx s p with stalled := false } := getCtx_updCtx_self ..
  show statusWord (unstalled p s) p = _
  unfold statusWord
  rw [ctx]
  rfl

theorem csrValue_index {d : Nat} (shallow : d < 6) : csrValue s p (0x18 + d) = loopIndex (getCtx s p) d := by
  interval_cases d <;> rfl

theorem csrValue_trec {j : Nat} (few : j < 8) : csrValue s p (0x100 + j) = (servedRec s p).getD j 0 := by
  interval_cases j <;> rfl

theorem csrValue_unassigned {n : Nat} (out : ¬(n ≤ 0xA ∧ n ≠ 7 ∨ 0x10 ≤ n ∧ n ≤ 0x14 ∨ 0x18 ≤ n ∧ n ≤ 0x1D ∨ n = 0x20 ∨ n = 0x21 ∨
    0x100 ≤ n ∧ n ≤ 0x107)) : csrValue s p n = 0 := by
  have index : ¬(0x18 ≤ n ∧ n ≤ 0x1D) := by omega
  have trec : ¬(0x100 ≤ n ∧ n ≤ 0x107) := by omega
  unfold csrValue
  split
  case h_18 => rw [if_neg index, if_neg trec]
  all_goals omega

end

/-! ### The control slot -/

/-- An operation that names one more register issues where that register is not pending. -/
theorem CanIssue.with {s : State} {rs : List Reg} {n : Nat} {r : Reg} (can : CanIssue s rs n) (free : isPending (me s) r = false) :
    CanIssue s (r :: rs) n :=
  { can with free := List.forall_mem_cons.2 ⟨free, can.free⟩ }

/-- An operation of the control slot that is no format image, by its ports, its results and its effect. -/
def controlOp (s : State) (g : BitVec 3) (ports : List (Nat × Nat)) (res : List Res) (cause : Option Cause) (blocks : Bool)
    (effect : State → State) : OpSem :=
  { cxBase (me s) g ports with
    res := res
    cause := cause
    blocks := blocks
    effect := effect }

section
variable {s : State} {g : BitVec 3} {ports : List (Nat × Nat)} {all : List Reg}

theorem nodup_dests {res : List Res} (one : res.length ≤ 1) : (res.map (·.dest)).Nodup := by
  cases res with
  | nil => exact List.nodup_nil
  | cons x xs =>
    have last : xs = [] := by simpa using one
    subst last
    exact List.nodup_singleton x.dest

theorem controlOp_fits {res : List Res} {cause : Option Cause} {blocks : Bool} {effect : State → State} {n : Nat}
    (on : guardOn (me s) g = true) (single : ports.length ≤ 1) (reads : ∀ q ∈ ports, commonReg q.1 ∈ all) (sound : cause = none)
    (free : blocks = false) (late : ∀ x ∈ res, 2 ≤ x.lat) (dests : ∀ x ∈ res, ∀ r, x.dest = .reg r → r ∈ all) (one : res.length ≤ 1)
    (room : res.length ≤ n) : Fits (controlOp s g ports res cause blocks effect) all n where
  on := on
  flow := rfl
  ports := ports_alike single
  fmt := rfl
  scl := rfl
  mx := rfl
  cause := sound
  blocks := free
  reads r hr := by
    obtain ⟨q, hq, rfl⟩ := List.mem_map.1 hr
    exact reads q hq
  ilocks := rfl
  res := dests
  room := room
  atOnce x hx now := absurd (late x hx) (Nat.not_le.2 (Nat.lt_succ_of_le now))
  nd := nodup_dests one

/-- A change of a core and the results of an operation do not touch each other. -/
theorem updCore_loaded (k : Nat) (f : Core → Core) (s : State) (o : OpSem) : updCore k f (loaded s o) = loaded (updCore k f s) o := rfl

theorem drawless_of {o : OpSem} (none : o.draws = 0) : drawless o = o := by
  unfold drawless
  rw [← none]

/-- An operation of the control slot that changes its core completes. -/
theorem control_completes {i : Instr} {f : Core → Core} {blocks : Bool} (can : CanIssue s all 0) (on : guardOn (me s) g = true)
    (ex : exec i s = issueSolo i (controlOp s g ports [] none blocks (updCore (coreOf s.cur) f)) s) (wf : i.wf = true)
    (single : ports.length ≤ 1) (reads : ∀ q ∈ ports, commonReg q.1 ∈ all) (free : blocks = false) :
    Completes i s (updCore (coreOf s.cur) f s) 14 [] := by
  have fits : Fits (controlOp s g ports [] none blocks (updCore (coreOf s.cur) f)) all 0 :=
    controlOp_fits on single reads rfl free (fun _ h => absurd h List.not_mem_nil) (fun _ h => absurd h List.not_mem_nil)
      (Nat.zero_le _) (Nat.le_refl 0)
  refine fits.effect can ex wf rfl ?_
  rw [drawless_of rfl]
  exact commitWrites_nil (loaded (updCore (coreOf s.cur) f s) _) can.clean

end

/-- An unprivileged register, or supervisor mode: no privilege fault. -/
theorem csrCause_none {c : Ctx} {n : BitVec 12} (h : csrSupervisor n.toNat = true → c.sup = true) : csrCause c n = none := by
  unfold csrCause
  cases user : csrSupervisor n.toNat with
  | false => rfl
  | true => rw [h user]; rfl

/-- Table 4-2 marks CTL and the trap record Supervisor. -/
theorem csrSupervisor_iff (n : Nat) : csrSupervisor n = true ↔ n = 2 ∨ 0x100 ≤ n ∧ n ≤ 0x107 := by simp [csrSupervisor]

/-- `csrr` delivers what its register holds as its group issues. -/
theorem csrr_completes {s : State} {g : BitVec 3} {d : BitVec 5} {n : BitVec 12} {v : Word} (can : CanIssue s [commonReg d.toNat] 1)
    (on : guardOn (me s) g = true) (legal : csrSupervisor n.toNat = true → (me s).sup = true)
    (value : csrValue (unstalled s.cur s) s.cur n.toNat = v) :
    Completes (.csrr g d n) s s 14 [wordRes (commonReg d.toNat) v 2 false] := by
  subst value
  have fits : Fits (semCsrr g d n s.cur s) [commonReg d.toNat] 1 :=
    controlOp_fits (ports := []) (effect := id) on (Nat.zero_le _) nofun (csrCause_none legal) rfl (by simp [wordRes]) (by simp [wordRes])
      (Nat.le_refl 1) (Nat.le_refl 1)
  exact fits.pure can rfl rfl rfl rfl

/-- `csrw` delivers its source to the control register two steps on. -/
theorem csrw_completes {s : State} {g : BitVec 3} {rp : BitVec 2} {r : BitVec 5} {n : BitVec 12} (can : CanIssue s [commonReg r.toNat] 1)
    (on : guardOn (me s) g = true) (legal : csrSupervisor n.toNat = true → (me s).sup = true) :
    Completes (.csrw g rp r n) s s 14
      [⟨.csr n.toNat, (regWord (me s) (commonReg r.toNat)).setWidth 2048, fullMask, 2, false⟩] := by
  have fits : Fits (semCsrw g rp r n s.cur s) [commonReg r.toNat] 1 :=
    controlOp_fits (ports := [(r.toNat, rp.toNat)]) (effect := id) on (Nat.le_refl 1) (by simp) (csrCause_none legal) rfl (by simp) (by simp)
      (Nat.le_refl 1) (Nat.le_refl 1)
  exact fits.pure can rfl rfl rfl rfl

/-- Settles O28: `cqp` and `rel` complete with their change of the core, and every number of `csrr` is read where its group issues:
the registers of Table 4-2 one by one, the trap record by its words, any other number as unassigned. -/
theorem coreControl : Obligations.CoreControl := by
  unfold Obligations.CoreControl
  intro s g d r rp m n
  dsimp only
  intro can on
  refine ⟨fun free room => ?_, fun idle => ?_, fun can => ⟨?_, fun sup => ⟨?_, fun j few => ?_⟩, fun out => ?_⟩, fun legal can => ?_⟩
  · exact control_completes (ports := [(r.toNat, rp.toNat)]) (can.with free) on rfl rfl (Nat.le_refl 1) (by simp)
      (decide_eq_false (Nat.not_le.2 room))
  · refine control_completes (ports := []) can on rfl rfl (Nat.zero_le _) nofun ?_
    simpa [me] using idle
  · have plain : ∀ e : BitVec 12 × Word, csrSupervisor e.1.toNat = false → (e.1.toNat == 1) = false → csrValue s s.cur e.1.toNat = e.2 →
        Completes (.csrr g d e.1) s s 14 [wordRes (commonReg d.toNat) e.2 2 false] := fun e user other value =>
      csrr_completes can on (fun h => absurd (user.symm.trans h) Bool.false_ne_true)
        ((csrValue_unstalled s s.cur (ne_of_beq_false other)).trans value)
    simp only [← loopIndex_eq]
    refine List.forall_mem_cons.2 ⟨plain _ rfl rfl rfl, List.forall_mem_cons.2 ⟨?_, ?_⟩⟩
    · exact csrr_completes can on nofun (csrValue_status s s.cur)
    · repeat' refine List.forall_mem_cons.2 ⟨plain _ rfl rfl rfl, ?_⟩
      exact List.forall_mem_nil _
  · exact csrr_completes can on (fun _ => sup) ((csrValue_unstalled s s.cur (by decide)).trans rfl)
  · have number : (BitVec.ofNat 12 (0x100 + j)).toNat = 0x100 + j := by rw [BitVec.toNat_ofNat]; omega
    refine csrr_completes can on (fun _ => sup) ?_
    rw [number, csrValue_unstalled s s.cur (by omega), csrValue_trec s s.cur few, servedRec, show getCtx s s.cur = me s from rfl]
    cases (me s).serves <;> rfl
  · replace out : ¬(n.toNat ≤ 0xA ∧ n.toNat ≠ 7 ∨ 0x10 ≤ n.toNat ∧ n.toNat ≤ 0x14 ∨ 0x18 ≤ n.toNat ∧ n.toNat ≤ 0x1D ∨ n.toNat = 0x20 ∨
        n.toNat = 0x21 ∨ 0x100 ≤ n.toNat ∧ n.toNat ≤ 0x107) := by simpa [← BitVec.toNat_inj] using out
    refine csrr_completes can on (fun h => absurd ((csrSupervisor_iff _).1 h) (by omega)) ?_
    rw [csrValue_unstalled s s.cur (by omega), csrValue_unassigned s s.cur out]
  · exact csrw_completes can on fun h => legal (((csrSupervisor_iff _).1 h).imp_left BitVec.eq_of_toNat_eq)

end Sys2Proof.Machine
end

section
/-! SUPPORT. What the sequencer makes of a context, and the branches. -/

namespace Sys2Proof.Machine

/-! ### The context at the end of a group's step -/

/-- What `walkOn` makes of the context of position `p`. -/
def walked (s : State) (p : Nat) (c : Ctx) : Ctx :=
  if c.exiting then leaveTo s p c.pc c
  else match c.bodyWalk with
    | none => c
    | some (a, n) =>
      match walkFrom s p n a with
      | .ok r => { c with bodyWalk := none, pc := r }
      | .error (_, ga, left) => { c with bodyWalk := some (ga, left) }

section
variable {p : Nat} {s t u : State} {c d : Ctx} {g : Grp} {o : OpSem}

theorem getCtx_walkOn (p : Nat) (s : State) : getCtx (walkOn p s) p = walked s p (getCtx s p) := by
  unfold walkOn walked
  dsimp only
  by_cases exiting : (getCtx s p).exiting = true
  · rw [if_pos exiting, if_pos exiting, getCtx_setCtx_self]
  · rw [if_neg exiting, if_neg exiting]
    cases walk : (getCtx s p).bodyWalk with
    | none => rfl
    | some x =>
      dsimp only
      cases walkFrom s p x.2 x.1 <;> rw [getCtx_updCtx_self]

theorem walked_same (h : SameLines p s t) (c : Ctx) : walked t p c = walked s p c := by
  unfold walked
  simp only [leaveTo_same h, walkFrom_same h]

theorem walked_still (exiting : c.exiting = false) (walk : c.bodyWalk = none) : walked s p c = c := by
  unfold walked
  rw [exiting, walk]
  rfl

/-- A group without a request of its own ends its step: the sequencer's moves on the context as the landing leaves it, by the words
that the position's fetch reads. -/
theorem finishGroup_field {ops : List OpSem} (nt : NoTrap ops) (op : g.op = none) (code : SameCode p s t) {β : Type} (f : Ctx → β)
    (hf : ∀ c b, f { c with windowOpen := b } = f c) :
    f (getCtx (finishGroup p g ops t) p) = f (walked s p (proceeded s p g ops (getCtx (countStep p t) p))) := by
  have lines : SameLines p s (countStep p t) := (code.trans (SameCode.count p p none t)).lines
  have moved : SameLines p s (updCtx p (proceeded (countStep p t) p g ops) (countStep p t)) := fun va =>
    (SameLines.updCtx (fun d => fetchView_seq (proceeded_seq _ p g ops d)) va).trans (lines va)
  rw [finishGroup_eq, afterTrap_none nt, op]
  show f (getCtx (closeWindow p (walkOn p (updCtx p (proceeded (countStep p t) p g ops) (countStep p t)))) p) = _
  rw [closeWindow_ctx, hf, getCtx_walkOn, walked_same moved, getCtx_updCtx_self, proceeded_same lines]

/-- The context once a group that holds no format image has issued: its loops know that the group lies in them. -/
def placed (s : State) (p : Nat) (g : Grp) (c : Ctx) : Ctx := capture g { c with loops := c.loops.map (locate s p g) }

theorem capture_eq (g : Grp) (c : Ctx) : ∃ b, capture g c = { c with lbuf := b } := by
  unfold capture
  split
  · split
    · exact ⟨_, rfl⟩
    · exact ⟨c.lbuf, rfl⟩
  · exact ⟨c.lbuf, rfl⟩

theorem placed_eq (s : State) (p : Nat) (g : Grp) (c : Ctx) :
    ∃ b, placed s p g c = { c with loops := c.loops.map (locate s p g), lbuf := b } := by
  obtain ⟨b, h⟩ := capture_eq g { c with loops := c.loops.map (locate s p g) }
  exact ⟨b, h⟩

theorem placed_loops : (placed s p g c).loops = c.loops.map (locate s p g) := by
  obtain ⟨b, h⟩ := placed_eq s p g c
  rw [h]

theorem placed_field {β : Type} (f : Ctx → β) (hf : ∀ c l b, f { c with loops := l, lbuf := b } = f c) : f (placed s p g c) = f c := by
  obtain ⟨b, h⟩ := placed_eq s p g c
  rw [h, hf]

theorem setBitsOf_none (a : Word) (e : LoopEntry) : setBitsOf a false false false e = e := rfl

theorem seqOf_on (on : o.on = true) : seqOf [o] = o.seq := by
  unfold seqOf
  by_cases flow : o.seq = .flow
  · rw [List.find?_cons_of_neg (by simp [flow]), flow]
    rfl
  · rw [List.find?_cons_of_pos (by simp [on, flow])]

/-- A group of one operation of the sequencer: what that operation does with the context. -/
theorem proceeded_solo (on : o.on = true) (fmt : o.isFmt = false) (scl : o.isScl = false) (op : g.op = none) (idle : g.idle = 0) (c : Ctx) :
    proceeded s p g [o] c = sequence s p g o.seq (placed s p g c) := by
  unfold proceeded placed
  simp only [List.any_cons, List.any_nil, fmt, scl, op, idle, Bool.or_false, Option.isSome_none, setBitsOf_none, seqOf_on on]
  rw [if_neg (by decide)]
  refine sequence_same (SameLines.updCtx fun c => ?_) g o.seq _
  exact fetchView_seq (sameButSeq_trans (b := { c with loops := c.loops.map (locate s p g) }) rfl (capture_seq ..))

end

/-! ### Which loops a target leaves (R94) -/

section
variable {s : State} {p : Nat} {t b : Word} {e : LoopEntry} {es out : List LoopEntry}

/-- `x` is the entry `e`, of whose body other groups may have been met. -/
def SameLoop (e x : LoopEntry) : Prop := { x with scan := e.scan, last := e.last, left := e.left } = e

theorem SameLoop.start {e x : LoopEntry} (h : SameLoop e x) : x.start = e.start := by
  have k := congrArg LoopEntry.start h
  exact k

theorem SameLoop.trans {e y x : LoopEntry} (h : SameLoop e y) (k : SameLoop y x) : SameLoop e x := by
  have l := congrArg (fun z : LoopEntry => { z with scan := e.scan, last := e.last, left := e.left }) k
  exact l.trans h

theorem meetBody_sameLoop (gs : List Grp) (n : Nat) (e : LoopEntry) : SameLoop e (meetBody s p gs t n e).1 := by
  induction n generalizing e with
  | zero => rfl
  | succ n ih =>
    unfold meetBody
    split
    · rfl
    · split
      · rfl
      · refine SameLoop.trans ?_ (ih _)
        rfl

/-- A walk that can be read brings a body to be met up to the target, or whole. -/
theorem meetBody_of_walk {n : Nat} (walk : walkFrom s p n e.scan = .ok b) :
    (meetBody s p [] t n e).2 = none ∧ ∃ m ≤ n, walkFrom s p m e.scan = .ok (meetBody s p [] t n e).1.scan ∧
      (t.toNat < (meetBody s p [] t n e).1.scan.toNat ∨ m = n) := by
  induction n generalizing e with
  | zero => exact ⟨rfl, 0, Nat.le_refl 0, rfl, .inr rfl⟩
  | succ n ih =>
    unfold meetBody
    split
    · next reached => exact ⟨rfl, 0, Nat.zero_le _, rfl, .inl reached⟩
    · have next : nextBody s p [] e.scan = oneGroup s p Config.walkFuel e.scan none := rfl
      rw [walkFrom] at walk
      rw [next]
      cases group : oneGroup s p Config.walkFuel e.scan none with
      | error x => rw [group] at walk; cases walk
      | ok r =>
        rw [group] at walk
        obtain ⟨read, m, few, stands, whole⟩ := ih (e := { e with scan := r.2, last := r.1, left := n }) walk
        refine ⟨read, m + 1, Nat.succ_le_succ few, ?_, whole.imp_right (congrArg (· + 1))⟩
        rw [walkFrom, group]
        exact stands

/-- An entry whose body excludes the target is left. -/
theorem popTo_excluded (h : t.toNat < e.start.toNat ∨ ∃ b, BodyEnds s p e b ∧ b.toNat ≤ t.toNat) :
    popTo s p t (e :: es) = popTo s p t es := by
  rw [popTo]
  split
  · rfl
  · next from_ =>
    obtain ⟨b, ⟨walk, rising⟩, past⟩ := h.resolve_left from_
    obtain ⟨read, m, few, stands, -⟩ := meetBody_of_walk (t := t) walk
    have met := rising m e.left _ b few (Nat.le_refl _) stands walk
    have outside : inMet (meetBody s p [] t e.left e).1 t = false := by
      unfold inMet
      rw [decide_eq_false (Nat.not_lt.2 (Nat.le_trans met past)), Bool.and_false]
    dsimp only
    rw [read, outside]
    rfl

/-- The first entry whose body holds the target stays. -/
theorem popTo_held (from_ : e.start.toNat ≤ t.toNat) (ends : BodyEnds s p e b) (before : t.toNat < b.toNat) :
    popTo s p t (e :: es) = ((meetBody s p [] t e.left e).1 :: es, none) := by
  obtain ⟨walk, -⟩ := ends
  obtain ⟨read, m, -, stands, whole⟩ := meetBody_of_walk (t := t) walk
  have met : t.toNat < (meetBody s p [] t e.left e).1.scan.toNat := by
    rcases whole with met | rfl
    · exact met
    · cases walk.symm.trans stands
      exact before
  have inside : inMet (meetBody s p [] t e.left e).1 t = true := by
    unfold inMet
    rw [(meetBody_sameLoop [] e.left e).start, decide_eq_true from_, decide_eq_true met]
    rfl
  rw [popTo, if_neg (Nat.not_lt.2 from_)]
  dsimp only
  rw [read, inside]
  rfl

theorem popTo_append (h : ∀ x ∈ out, t.toNat < x.start.toNat ∨ ∃ b, BodyEnds s p x b ∧ b.toNat ≤ t.toNat) :
    popTo s p t (out ++ es) = popTo s p t es := by
  induction out with
  | nil => rfl
  | cons x out ih =>
    obtain ⟨first, rest⟩ := List.forall_mem_cons.1 h
    exact (popTo_excluded first).trans (ih rest)

/-- A body that has been met as far as it goes is met no further. -/
theorem meetBody_again (gs : List Grp) {n : Nat} (left : e.left = n) :
    meetBody s p gs t (meetBody s p gs t n e).1.left (meetBody s p gs t n e).1 = meetBody s p gs t n e := by
  induction n generalizing e with
  | zero => rw [show (meetBody s p gs t 0 e).1.left = 0 from left]; rfl
  | succ n ih =>
    by_cases reached : t.toNat < e.scan.toNat
    · have stays : meetBody s p gs t (n + 1) e = (e, none) := by rw [meetBody, if_pos reached]
      rw [stays, left, stays]
    · cases group : nextBody s p gs e.scan with
      | error x =>
        have stops : meetBody s p gs t (n + 1) e = (e, some x) := by rw [meetBody, if_neg reached, group]
        rw [stops, left, stops]
      | ok r =>
        have goes : meetBody s p gs t (n + 1) e = meetBody s p gs t n { e with scan := r.2, last := r.1, left := n } := by
          rw [meetBody, if_neg reached, group]
        rw [goes]
        exact ih rfl

/-- A second search for the bodies that a target leaves finds what the first found. -/
theorem popTo_again (l : List LoopEntry) : popTo s p t (popTo s p t l).1 = popTo s p t l := by
  induction l with
  | nil => rfl
  | cons e es ih =>
    by_cases before : t.toNat < e.start.toNat
    · rw [popTo, if_pos before, ih]
    · have again := meetBody_again (s := s) (p := p) (t := t) [] (rfl : e.left = e.left)
      have start := (meetBody_sameLoop (s := s) (p := p) (t := t) [] e.left e).start
      rw [popTo, if_neg before]
      dsimp only
      split
      · next x stop => rw [popTo, start, if_neg before, again]; dsimp only; rw [stop]
      · next read =>
        split
        · next inside => rw [popTo, start, if_neg before, again]; dsimp only; rw [read]; dsimp only; rw [if_pos inside]
        · exact ih

theorem leaveTo_ctx (s : State) (p : Nat) (a : Word) (c : Ctx) : (leaveTo s p a c).pc = a ∧
    (leaveTo s p a c).loops = (popTo s p a c.loops).1 ∧ (leaveTo s p a c).exiting = (popTo s p a c.loops).2.isSome ∧
    (leaveTo s p a c).bodyWalk = c.bodyWalk := by
  unfold leaveTo
  dsimp only
  split <;> exact ⟨rfl, rfl, rfl, rfl⟩

theorem leaveTo_again (a : Word) (c : Ctx) : leaveTo s p a (leaveTo s p a c) = leaveTo s p a c := by
  obtain ⟨pc, loops, exiting, -⟩ := leaveTo_ctx s p a c
  generalize leaveTo s p a c = d at *
  unfold leaveTo
  dsimp only
  rw [loops, popTo_again, ← loops, if_neg (Nat.lt_irrefl _), ← exiting, ← pc]

/-- The search of a taken transfer goes no further at the end of its own step. -/
theorem walked_leaveTo {c : Ctx} (a : Word) (walk : c.bodyWalk = none) : walked s p (leaveTo s p a c) = leaveTo s p a c := by
  obtain ⟨pc, -, -, body⟩ := leaveTo_ctx s p a c
  by_cases exiting : (leaveTo s p a c).exiting = true
  · unfold walked
    rw [if_pos exiting, pc, leaveTo_again]
  · exact walked_still (Bool.eq_false_iff.2 exiting) (body.trans walk)

end

/-! ### An operation of the sequencer as a group of its own -/

section
variable {i : Instr} {s u : State} {g : BitVec 3} {o : OpSem} {all : List Reg} {n : Nat}

/-- An operation of the branch slot, by its registers, its results, its effect at issue and what the sequencer does. -/
def branchOp (s : State) (g : BitVec 3) (reads : List Reg) (ports : List (Nat × Nat)) (res : List Res) (effect : State → State)
    (seq : SeqAct) : OpSem :=
  { brBase (me s) g with
    reads := reads
    ports := ports
    res := res
    effect := effect
    seq := seq }

theorem branchOp_fits {reads : List Reg} {ports : List (Nat × Nat)} {res : List Res} {effect : State → State}
    (on : guardOn (me s) g = true) (single : ports.length ≤ 1) (hr : ∀ r ∈ reads, r ∈ all)
    (dests : ∀ x ∈ res, ∃ r ∈ all, x.dest = .reg r) (one : res.length ≤ 1) (room : res.length ≤ n) :
    Fits (branchOp s g reads ports res effect .flow) all n where
  on := on
  flow := rfl
  ports := ports_alike single
  fmt := rfl
  scl := rfl
  mx := rfl
  cause := rfl
  blocks := rfl
  reads := hr
  ilocks := rfl
  res x hx r hd := by
    obtain ⟨q, hq, is⟩ := dests x hx
    cases is.symm.trans hd
    exact hq
  room := room
  atOnce x hx _ := by
    obtain ⟨q, -, is⟩ := dests x hx
    exact ⟨q, is⟩
  nd := nodup_dests one

/-- What holds an operation does not rest on what the sequencer does after it. -/
theorem branchOp_free {reads : List Reg} {ports : List (Nat × Nat)} {res : List Res} {effect : State → State} {q : SeqAct}
    (f : OpFree s (branchOp s g reads ports res effect .flow)) : OpFree s (branchOp s g reads ports res effect q) :=
  ⟨f.ports, f.fmt, f.scl, f.mx, f.settled, f.cause, f.blocks, f.reads, f.ilocks, f.landing, f.res, f.room⟩

/-- The context of an operation's position once the results due at the end of its step have landed. -/
def landed (s : State) (o : OpSem) : Ctx := getCtx (countStep s.cur (loaded s o)) s.cur

/-- A field that neither the landing nor the issue of the operation touches is as it was. -/
theorem landed_field {β : Type} (f : Ctx → β) (step : ∀ c d, sameButStep c d → f d = f c) (count : ∀ c, f (counted c) = f c)
    (results : ∀ c, f (withResults o c) = f c) : f (landed s o) = f (me s) := by
  rw [landed, countStep_field f s.cur _ step, count]
  exact loaded_field f s.cur o s results

theorem landed_loops : (landed s o).loops = (me s).loops :=
  landed_field Ctx.loops (fun c d h => by have k := congrArg Ctx.loops h; exact k) (fun _ => rfl) fun _ => rfl

theorem landed_exiting : (landed s o).exiting = (me s).exiting :=
  landed_field Ctx.exiting (fun c d h => by have k := congrArg Ctx.exiting h; exact k) (fun _ => rfl) fun _ => rfl

theorem landed_bodyWalk : (landed s o).bodyWalk = (me s).bodyWalk :=
  landed_field Ctx.bodyWalk (fun c d h => by have k := congrArg Ctx.bodyWalk h; exact k) (fun _ => rfl) fun _ => rfl

theorem counted_landing (c : Ctx) : (counted c).landing = c.landing := rfl

theorem counted_age (c : Ctx) : (counted c).age = c.age := rfl

theorem counted_gpred (c : Ctx) : (counted c).gpred = c.gpred := rfl

/-- An operation without results leaves due what was due. -/
theorem counted_due (none : o.res = []) {d : Dest} (idle : ¬Due s d) :
    ∀ e, DueIn (getCtx (updCtx s.cur counted (loaded s o)) s.cur) e → e.dest ≠ d := by
  intro e he hd
  rw [getCtx_updCtx_self] at he
  obtain ⟨held, now⟩ := he
  rw [counted_landing, loaded_landing s o none] at held
  exact idle ⟨e, held, now, hd⟩

theorem landed_age (none : o.res = []) (idle : ¬Due s (.csr 3)) : (landed s o).age = (me s).age := by
  rw [landed, countStep_eq, landStep_idle Ctx.age (.csr 3) (counted_due none idle) (fun _ ne _ => landOne_age_ne ne) (fun _ _ => rfl)
    (fun _ _ => rfl), getCtx_updCtx_self, counted_age]
  exact loaded_field Ctx.age s.cur o s fun _ => rfl

theorem landed_gpred (none : o.res = []) (idle : ¬Due s (.csr 4)) : (landed s o).gpred = (me s).gpred := by
  rw [landed, countStep_eq, landStep_idle Ctx.gpred (.csr 4) (counted_due none idle) (fun _ ne _ => landOne_gpred_ne ne) (fun _ _ => rfl)
    (fun _ _ => rfl), getCtx_updCtx_self, counted_gpred]
  exact loaded_field Ctx.gpred s.cur o s fun _ => rfl

theorem SameCode.loaded {p : Nat} (code : SameCode p s u) (o : OpSem) : SameCode p s (loaded u o) := by
  refine code.trans (.of_atPos (loaded_atPos u o) ?_ fun _ => rfl)
  exact loaded_field fetchView u.cur o u fun _ => rfl

theorem SameCode.refl (p : Nat) (s : State) : SameCode p s s := ⟨rfl, fun _ => rfl, rfl⟩

/-- An operation of the sequencer issues by itself: its effect at issue makes `u`, the step ends, and its context goes on as the
sequencer says. -/
theorem seq_step {k : Nat} {q : SeqAct} (slot : o.slot = k) (seq : o.seq = q) (ex : exec i s = issueSolo i o s)
    (wf : i.wf = true) (can : CanIssue s all n) (free : OpFree s o) (on : o.on = true)
    (fmt : o.isFmt = false) (scl : o.isScl = false) (draws : o.draws = 0) (regs : toRegs o) (nt : ∀ code num, q ≠ .trap code num)
    (cur : u.cur = s.cur) (clean : u.endw = []) (code : SameCode u.cur s u) (eff : o.effect (loaded s o) = loaded u o) :
    ∃ t, exec i s = .next t ∧ t = finishGroup u.cur (soloGrp (me s) i k) [o] (loaded u o) ∧ BranchFrame u t (regsOf o.res) ∧
      ∀ {β : Type} (f : Ctx → β), (∀ c b, f { c with windowOpen := b } = f c) → f (getCtx t u.cur) =
        f (walked s u.cur (sequence s u.cur (soloGrp (me s) i k) q (placed s u.cur (soloGrp (me s) i k) (landed u o)))) := by
  subst slot seq
  have made : commitWrites (o.effect (loaded s o)) = loaded u o := by
    rw [eff]
    exact commitWrites_nil _ clean
  have ready : (getCtx (loaded u o) s.cur).st ≠ .free := by
    rw [← cur, getCtx_loaded]
    exact PosState.noConfusion
  refine ⟨_, cur ▸ exec_effect ex wf can free on made ready, rfl, branch_frame _ o u rfl rfl (noTrap_of_seq nt) regs draws, fun f hf => ?_⟩
  rw [finishGroup_field (noTrap_of_seq nt) rfl (code.loaded o) f hf, proceeded_solo on fmt scl rfl rfl]
  rfl

end

/-! ### Branches -/

/-- The byte offset of a target. -/
theorem relative_eq (c : Ctx) (o : BitVec 16) : relative c o = c.pc + (o.signExtend 64 <<< 2) := by
  unfold relative
  rw [BitVec.ofInt_mul, BitVec.signExtend, BitVec.shiftLeft_eq_mul_twoPow, BitVec.mul_comm]
  rfl

theorem condOn_iff (c : Ctx) (r : BitVec 5) (q : BitVec 2) :
    condOn c r q = true ↔ (r = 0 ∧ q = 0) ∨ regWord c (commonReg r.toNat) ≠ 0 := by
  simp [condOn, hasCond]

theorem condBase_reads (c : Ctx) (g : BitVec 3) (r : BitVec 5) (q : BitVec 2) :
    (condBase c g r q).reads = if r = 0 ∧ q = 0 then [] else [commonReg r.toNat] := by
  unfold condBase hasCond
  by_cases bare : r = 0 ∧ q = 0
  · simp [bare]
  · rw [if_neg bare]
    exact if_pos (by simpa [imp_iff_not_or] using bare)

theorem condBase_ports (c : Ctx) (g : BitVec 3) (r : BitVec 5) (q : BitVec 2) : (condBase c g r q).ports.length ≤ 1 := by
  unfold condBase
  dsimp only
  split
  · exact Nat.le_refl 1
  · exact Nat.zero_le 1

section
variable {s : State} {g : BitVec 3} {r : BitVec 5} {q : BitVec 2} {o : BitVec 16} {all : List Reg}

/-- A branch operation with a condition, as the branch slot reads it. -/
def condOp (s : State) (g : BitVec 3) (r : BitVec 5) (q : BitVec 2) (more : List Reg) (res : List Res) (seq : SeqAct) : OpSem :=
  branchOp s g (more ++ (condBase (me s) g r q).reads) (condBase (me s) g r q).ports res id seq

theorem condOp_fits {more : List Reg} {res : List Res} {n : Nat} (on : guardOn (me s) g = true) (hr : ∀ x ∈ more, x ∈ all)
    (hc : ∀ x ∈ (condBase (me s) g r q).reads, x ∈ all) (dests : ∀ x ∈ res, ∃ d ∈ all, x.dest = .reg d) (one : res.length ≤ 1)
    (room : res.length ≤ n) : Fits (condOp s g r q more res .flow) all n :=
  branchOp_fits on (condBase_ports ..) (fun x hx => (List.mem_append.1 hx).elim (hr x) (hc x)) dests one room

theorem sequence_leave (p : Nat) (i : Grp) (t : Word) (c : Ctx) : sequence s p i (.jump t true) c = leaveTo s p t c := rfl

/-- A branch whose condition does not hold does nothing. -/
theorem untaken_completes {i : Instr} {more : List Reg} (can : CanIssue s all 0) (on : guardOn (me s) g = true) (hr : ∀ x ∈ more, x ∈ all)
    (hc : ∀ x ∈ (condBase (me s) g r q).reads, x ∈ all) (wf : i.wf = true)
    (ex : exec i s = issueSolo i (condOp s g r q more [] .flow) s) : Completes i s s 15 [] :=
  (condOp_fits on hr hc (fun _ h => absurd h List.not_mem_nil) (Nat.zero_le _) (Nat.le_refl 0)).pure can ex wf rfl rfl

/-- A taken `br` or `ret` goes on at its target and leaves the loops whose bodies exclude it. -/
theorem taken_leaves {i : Instr} {more : List Reg} {target : Word} (can : CanIssue s all 0) (on : guardOn (me s) g = true)
    (hr : ∀ x ∈ more, x ∈ all) (hc : ∀ x ∈ (condBase (me s) g r q).reads, x ∈ all) (wf : i.wf = true)
    (walk : (me s).bodyWalk = none) (ex : exec i s = issueSolo i (condOp s g r q more [] (.jump target true)) s) :
    NextWith (exec i s) (fun t =>
      let left := popTo s s.cur target ((me s).loops.map (locate s s.cur (soloGrp (me s) i 15)))
      BranchFrame s t [] ∧ (getCtx t s.cur).pc = target ∧ (getCtx t s.cur).loops = left.1 ∧ (getCtx t s.cur).exiting = left.2.isSome) := by
  have fits : Fits (condOp s g r q more [] .flow) all 0 :=
    condOp_fits on hr hc (fun _ h => absurd h List.not_mem_nil) (Nat.zero_le _) (Nat.le_refl 0)
  obtain ⟨t, next, -, frame, ctx⟩ := seq_step (k := 15) (q := .jump target true) rfl rfl ex wf can (branchOp_free (fits.free can)) on rfl rfl
    rfl fits.atOnce (fun _ _ => SeqAct.noConfusion) rfl can.clean (.refl ..) rfl
  obtain ⟨pc, loops, exiting, -⟩ := leaveTo_ctx s s.cur target
    (placed s s.cur (soloGrp (me s) i 15) (landed s (condOp s g r q more [] (.jump target true))))
  rw [placed_loops, landed_loops] at loops exiting
  have still : (placed s s.cur (soloGrp (me s) i 15) (landed s (condOp s g r q more [] (.jump target true)))).bodyWalk = none :=
    (placed_field Ctx.bodyWalk fun _ _ _ => rfl).trans (landed_bodyWalk.trans walk)
  simp only [sequence_leave, walked_leaveTo target still] at ctx
  exact ⟨t, next, frame, (ctx Ctx.pc fun _ _ => rfl).trans pc, (ctx Ctx.loops fun _ _ => rfl).trans loops,
    (ctx Ctx.exiting fun _ _ => rfl).trans exiting⟩

/-- A taken `call` changes only where its context goes on. -/
theorem walked_inside {c : Ctx} (p : Nat) (i : Grp) (t : Word) (exiting : c.exiting = false) (walk : c.bodyWalk = none) :
    walked s p (sequence s p i (.jump t false) c) = { c with pc := t } := by
  refine walked_still (c := { c with pc := t }) ?_ ?_
  · exact exiting
  · exact walk

/-- The address that `call` leaves lands at the end of its step. -/
theorem lands_link {x : Res} {d : Reg} {i : Instr} (op : OpSem) (res : op.res = [x]) (lat : x.lat ≤ 1) (dest : x.dest = .reg d)
    (open_ : fixedReg d = false) (nt : noTrap op) :
    Lands s (finishGroup s.cur (soloGrp (me s) i op.slot) [op] (loaded s op)) op.slot x := by
  unfold Lands
  rw [if_pos lat]
  intro e he due
  cases dest.symm.trans he
  have queue : (getCtx (loaded s op) s.cur).landing = (me s).landing ++ entryOf s op x :: [] := by
    rw [getCtx_loaded, res]
    rfl
  rw [if_neg (Bool.eq_false_iff.1 open_), finishGroup_self s.cur _ op _ nt rfl rfl _ [] (entryOf s op x) d queue lat dest open_
    (fun y hy now is => due ⟨y, hy, now, is⟩) (fun _ h => absurd h List.not_mem_nil), getCtx_loaded]
  rfl

/-- A taken `call` goes on at its target, inside the loops that it is in, with the address past it in c31. -/
theorem call_returns {target next : Word} {i : Instr} (can : CanIssue s all 1) (on : guardOn (me s) g = true) (link : commonReg 31 ∈ all)
    (hc : ∀ x ∈ (condBase (me s) g r q).reads, x ∈ all) (wf : i.wf = true) (walk : (me s).bodyWalk = none) (exit : (me s).exiting = false)
    (ex : exec i s = issueSolo i (condOp s g r q [] [wordRes (commonReg 31) next 1 false] (.jump target false)) s) :
    NextWith (exec i s) (fun t => BranchFrame s t [commonReg 31] ∧ (getCtx t s.cur).pc = target ∧
      (getCtx t s.cur).loops = (me s).loops.map (locate s s.cur (soloGrp (me s) i 15)) ∧
      Lands s t 15 (wordRes (commonReg 31) next 1 false)) := by
  have fits : Fits (condOp s g r q [] [wordRes (commonReg 31) next 1 false] .flow) all 1 :=
    condOp_fits on (fun _ h => absurd h List.not_mem_nil) hc
      (fun x hx => ⟨_, link, by rw [List.mem_singleton.1 hx]; rfl⟩) (Nat.le_refl 1) (Nat.le_refl 1)
  obtain ⟨t, run, is, frame, ctx⟩ := seq_step (k := 15) (q := .jump target false) rfl rfl ex wf can (branchOp_free (fits.free can)) on rfl
    rfl rfl fits.atOnce (fun _ _ => SeqAct.noConfusion) rfl can.clean (.refl ..) rfl
  obtain ⟨b, after⟩ : ∃ d, d = placed s s.cur (soloGrp (me s) i 15)
      (landed s (condOp s g r q [] [wordRes (commonReg 31) next 1 false] (.jump target false))) := ⟨_, rfl⟩
  have stays : b.bodyWalk = none ∧ b.exiting = false ∧ b.loops = (me s).loops.map (locate s s.cur (soloGrp (me s) i 15)) := by
    rw [after]
    exact ⟨(placed_field Ctx.bodyWalk fun _ _ _ => rfl).trans (landed_bodyWalk.trans walk),
      (placed_field Ctx.exiting fun _ _ _ => rfl).trans (landed_exiting.trans exit), placed_loops.trans (by rw [landed_loops])⟩
  obtain ⟨walk', exit', loops'⟩ := stays
  simp only [← after, walked_inside _ _ _ exit' walk'] at ctx
  refine ⟨t, run, frame, ctx Ctx.pc fun _ _ => rfl, (ctx Ctx.loops fun _ _ => rfl).trans loops', ?_⟩
  rw [is]
  exact lands_link _ rfl (Nat.le_refl 1) rfl rfl (noTrap_of_seq fun _ _ => SeqAct.noConfusion)

/-- Settles O29: a condition that does not hold leaves the operation of no effect, one that holds makes it a transfer of the
sequencer, whose search for the loops it leaves is `popTo`. -/
theorem branches : Obligations.Branches := by
  unfold Obligations.Branches
  refine ⟨fun s p t out e es outside => ⟨?_, ?_⟩, ?_⟩
  · exact (congrArg (popTo s p t) (List.append_nil out).symm).trans (popTo_append outside)
  · rintro from_ ⟨b, ends, before⟩
    exact ⟨_, (popTo_append outside).trans (popTo_held from_ ends before), meetBody_sameLoop [] e.left e⟩
  · intro s g r q o
    dsimp only
    rw [← condOn_iff, ← condBase_reads (me s) g r q, ← relative_eq]
    intro on
    refine ⟨fun off => ⟨fun can => ⟨?_, ?_⟩, fun can => ?_⟩, fun taken walk exit => ⟨fun can => ?_, fun can => ?_, fun can => ?_⟩⟩
    · refine untaken_completes (more := []) can on (fun _ h => absurd h List.not_mem_nil) (fun _ h => h) rfl ?_
      exact congrArg (fun x => issueSolo _ (condOp s g r q [] [] x) s) (if_neg off)
    · refine untaken_completes (more := []) can on (fun _ h => absurd h List.not_mem_nil) (fun _ h => h) rfl ?_
      exact congrArg₂ (fun x y => issueSolo _ (condOp s g r q [] x y) s) (if_neg off) (if_neg off)
    · refine untaken_completes (more := [commonReg 31]) can on (by simp) (fun _ h => List.mem_cons_of_mem _ h) rfl ?_
      exact congrArg (fun x => issueSolo _ (condOp s g r q [commonReg 31] [] x) s) (if_neg off)
    · refine taken_leaves (more := []) can on (fun _ h => absurd h List.not_mem_nil) (fun _ h => h) rfl walk ?_
      exact congrArg (fun x => issueSolo _ (condOp s g r q [] [] x) s) (if_pos taken)
    · refine call_returns can on List.mem_cons_self (fun _ h => List.mem_cons_of_mem _ h) rfl walk exit ?_
      exact congrArg₂ (fun x y => issueSolo _ (condOp s g r q [] x y) s) (if_pos taken) (if_pos taken)
    · refine taken_leaves (more := [commonReg 31]) can on (by simp) (fun _ h => List.mem_cons_of_mem _ h) rfl walk ?_
      exact congrArg (fun x => issueSolo _ (condOp s g r q [commonReg 31] [] x) s) (if_pos taken)

end

end Sys2Proof.Machine
end

section
/-! SUPPORT. The loop stack: the stage predicates, the iteration boundary and the loops that are pushed or passed over. -/

namespace Sys2Proof.Machine

/-! ### Stage predicates (R95) -/

theorem getLsbD_bit {k : Nat} (hk : k < 8) (i : Nat) : ((1 : BitVec 8) <<< i).getLsbD k = decide (k = i) := by
  rw [show (1 : BitVec 8) = 1#8 from rfl, BitVec.getLsbD_shiftLeft, BitVec.getLsbD_one, Bool.eq_iff_iff]
  simp only [Bool.and_eq_true, Bool.not_eq_true', decide_eq_true_eq, decide_eq_false_iff_not]
  omega

theorem preds_foldl (P : Nat → Prop) [DecidablePred P] (old : BitVec 8) {k : Nat} (hk : k < 8) (m : Nat) :
    ((List.range m).foldl (fun g i => if P i then g ||| (1 : BitVec 8) <<< (i + 1) else g &&& ~~~((1 : BitVec 8) <<< (i + 1))) old).getLsbD k =
      if 1 ≤ k ∧ k ≤ m then decide (P (k - 1)) else old.getLsbD k := by
  induction m with
  | zero => rw [if_neg (by omega)]; rfl
  | succ m ih =>
    rw [List.range_succ, List.foldl_append, List.foldl_cons, List.foldl_nil, apply_ite (BitVec.getLsbD · k), BitVec.getLsbD_or,
      BitVec.getLsbD_and, BitVec.getLsbD_not, decide_eq_true hk, getLsbD_bit hk, ih]
    by_cases last : k = m + 1
    · subst last
      simp
    · have same : (1 ≤ k ∧ k ≤ m + 1) ↔ 1 ≤ k ∧ k ≤ m := by omega
      simp [last, same]

/-- Of the seven stage predicates those of S stages are g1 to gS. -/
theorem among_seven {k : Nat} (hk : k < 8) (stages : Nat) : (1 ≤ k ∧ k ≤ Nat.min stages 7) ↔ 1 ≤ k ∧ k ≤ stages :=
  and_congr_right fun _ => ⟨fun h => h.trans (Nat.min_le_left ..), fun h => Nat.le_min.2 ⟨h, Nat.le_of_lt_succ hk⟩⟩

/-- The stage predicates of an `lsp` of N items. -/
theorem stagesSet_stagePreds {e : LoopEntry} {n : Nat} (old : BitVec 8) (some : 1 ≤ e.stages) (bound : e.bound = n + e.stages - 1) :
    StagesSet e.stages n e.index old (stagePreds old e) := by
  intro k hk
  refine (preds_foldl (fun i => i + 1 - 1 ≤ e.index ∧ e.index + 1 ≤ e.bound + (i + 1) - e.stages) old hk (Nat.min e.stages 7)).trans ?_
  rw [if_congr (among_seven hk e.stages) rfl rfl]
  refine ite_congr rfl (fun within => decide_eq_decide.2 ?_) fun _ => rfl
  omega

/-- The stage predicates once the last iteration of an `lsp` has ended. -/
theorem getLsbD_clearPreds (old : BitVec 8) (stages : Nat) {k : Nat} (hk : k < 8) :
    (clearPreds old stages).getLsbD k = (old.getLsbD k && !decide (1 ≤ k ∧ k ≤ stages)) := by
  refine (preds_foldl (fun _ => False) old hk (Nat.min stages 7)).trans ?_
  rw [if_congr (among_seven hk stages) rfl rfl]
  by_cases within : 1 ≤ k ∧ k ≤ stages
  · simp [within]
  · simp [within]

/-! ### The iteration boundary (R93) -/

section
variable {s : State} {p : Nat} {g : Grp} {o : OpSem} {c : Ctx} {e : LoopEntry} {es : List LoopEntry}

/-- `x` is the entry `e`, in whose body a group has issued that sets bits of R71. -/
def Marked (e x : LoopEntry) : Prop :=
  ∃ here fmt scl op, x = { e with here := here, fmtBit := fmt, scltBit := scl, opBit := op }

/-- A group in a body that has been met whole changes of its entry only how far the iteration has come, and the bits of R71. -/
theorem marked_of_whole (fmt scl op : Bool) (whole : e.left = 0) (inside : inMet e g.addr = true) :
    Marked e (setBitsOf g.addr fmt scl op (locate s p g e)) := by
  have located : ∃ h, locate s p g e = { e with here := h } := by
    refine ⟨if e.here.toNat < g.next.toNat then g.next else e.here, ?_⟩
    have met : meetBody s p [g] g.addr e.left e = (e, none) := by rw [whole]; rfl
    unfold locate
    rw [met]
    exact if_pos inside
  obtain ⟨h, located⟩ := located
  rw [located]
  unfold setBitsOf
  split
  · exact ⟨h, _, _, _, rfl⟩
  · exact ⟨h, _, _, _, rfl⟩

/-- The next iteration of an entry: its INDEX is one higher, and its bits of R71 are clear. -/
theorem nextIteration_eq (e : LoopEntry) : ∃ scan last left here fresh full, nextIteration e =
    { e with index := e.index + 1, fmtBit := false, scltBit := false, opBit := false, scan := scan, last := last, left := left
             here := here, fresh := fresh, full := full } := by
  unfold nextIteration meetAnew
  dsimp only
  split
  · exact ⟨_, _, _, _, _, _, rfl⟩
  · split <;> exact ⟨_, _, _, _, _, _, rfl⟩

theorem nextIteration_index (e : LoopEntry) : (nextIteration e).index = e.index + 1 := by
  obtain ⟨_, _, _, _, _, _, h⟩ := nextIteration_eq e
  rw [h]

theorem nextIteration_bound (e : LoopEntry) : (nextIteration e).bound = e.bound := by
  obtain ⟨_, _, _, _, _, _, h⟩ := nextIteration_eq e
  rw [h]

/-- Whether another iteration follows. -/
theorem again_iff (e : LoopEntry) : (nextIteration e).index < (nextIteration e).bound ↔ e.index + 1 < e.bound := by
  rw [nextIteration_index, nextIteration_bound]

theorem boundary_pc (e : LoopEntry) (es : List LoopEntry) (c : Ctx) :
    (boundary e es c).pc = if e.index + 1 < e.bound then e.start else e.scan := by
  rw [← if_congr (again_iff e) rfl rfl, nextIteration_bound]
  unfold boundary
  dsimp only
  split <;> rfl

theorem boundary_loops (e : LoopEntry) (es : List LoopEntry) (c : Ctx) :
    (boundary e es c).loops = if e.index + 1 < e.bound then nextIteration e :: es else es := by
  rw [← if_congr (again_iff e) rfl rfl, nextIteration_bound]
  unfold boundary
  dsimp only
  split <;> rfl

theorem boundary_age (e : LoopEntry) (es : List LoopEntry) (c : Ctx) :
    (boundary e es c).age = if e.lsp = true then c.age + 1 else c.age := by
  unfold boundary
  dsimp only
  split <;> rfl

theorem boundary_gpred (e : LoopEntry) (es : List LoopEntry) (c : Ctx) : (boundary e es c).gpred =
    if e.lsp = true then if e.index + 1 < e.bound then stagePreds c.gpred (nextIteration e) else clearPreds c.gpred e.stages
    else c.gpred := by
  rw [← if_congr (again_iff e) rfl rfl, nextIteration_bound]
  unfold boundary
  dsimp only
  split
  · rfl
  · rfl

theorem boundary_still (e : LoopEntry) (es : List LoopEntry) (c : Ctx) :
    (boundary e es c).exiting = c.exiting ∧ (boundary e es c).bodyWalk = c.bodyWalk := by
  unfold boundary
  dsimp only
  split <;> exact ⟨rfl, rfl⟩

/-- A group that branches nowhere goes on to the next, or ends the body of the innermost loop. -/
theorem proceeded_flow {ops : List OpSem} (flow : seqOf ops = .flow) (idle : g.idle = 0) (c : Ctx) :
    ∃ fmt scl op buf, proceeded s p g ops c = flowOn g.addr g.next
      { c with loops := c.loops.map (fun e => setBitsOf g.addr fmt scl op (locate s p g e)), lbuf := buf } := by
  unfold proceeded
  dsimp only
  rw [if_neg (by rw [idle]; decide), flow]
  obtain ⟨buf, h⟩ := capture_eq g { c with
    loops := c.loops.map (fun e => setBitsOf g.addr (ops.any (·.isFmt)) (ops.any (·.isScl)) g.op.isSome (locate s p g e)) }
  rw [h]
  exact ⟨_, _, _, buf, rfl⟩

/-- The last group of the innermost body is the iteration boundary. -/
theorem proceeded_boundary {ops : List OpSem} (flow : seqOf ops = .flow) (idle : g.idle = 0) (loops : c.loops = e :: es)
    (whole : e.left = 0) (last : e.last = g.addr) (inside : inMet e g.addr = true) :
    ∃ x xs buf, Marked e x ∧ xs.length = es.length ∧ proceeded s p g ops c = boundary x xs { c with loops := x :: xs, lbuf := buf } := by
  obtain ⟨fmt, scl, op, buf, h⟩ := proceeded_flow (s := s) (p := p) flow idle c
  have marked : Marked e (setBitsOf g.addr fmt scl op (locate s p g e)) := marked_of_whole fmt scl op whole inside
  rw [loops, List.map_cons] at h
  refine ⟨_, es.map fun e => setBitsOf g.addr fmt scl op (locate s p g e), buf, marked, List.length_map _, ?_⟩
  have ends : endsBody (setBitsOf g.addr fmt scl op (locate s p g e)) g.addr = true := by
    obtain ⟨_, _, _, _, is⟩ := marked
    simp [endsBody, is, whole, last]
  rw [h, flowOn]
  exact if_pos ends

/-- An operation of the sequencer does not act where its guard reads false: its context flows on. -/
theorem off_next {i : Instr} {k : Nat} (slot : i.slot = some k) (wf : i.wf = true) (unguarded : guardOn (me s) (guardField i) = false)
    (ports : PortsOk i s) (can : CanIssue s [] 0) (window : k = 8 → (me s).window = 0)
    (twice : k = 14 → e.fmtBit = false ∧ e.scltBit = false) (loops : (me s).loops = e :: es) :
    ∃ o g, o.on = false ∧ g.idle = 0 ∧ g.op = none ∧ g.addr = (me s).pc ∧ exec i s = .next (finishGroup s.cur g [o] (readied s)) := by
  obtain ⟨o, g, sem, is, run⟩ := exec_solo i s k slot
  have off : o.on = false := (semOf_on slot sem).trans unguarded
  have idle : ∀ {P : Prop}, o.on = true → P := fun on => absurd on (by simp [off])
  have free : OpFree s o := {
    ports := ports_of_portErr (ports _ o sem)
    fmt := fun h => by rw [loops]; exact (twice (is.fmt h)).1
    scl := fun h => by rw [loops]; exact (twice (is.scl h)).2
    mx := fun h => window (is.mx h)
    settled := idle, cause := idle, blocks := idle, reads := idle, ilocks := idle, landing := idle, res := idle, room := idle }
  exact ⟨o, soloGrp (me s) i o.slot, off, rfl, rfl, rfl, run.trans (issueSolo_off can wf off free)⟩

/-- The context after a group whose guard reads false and that ends the innermost body. -/
theorem boundary_step {i : Instr} {k : Nat} (slot : i.slot = some k) (wf : i.wf = true) (unguarded : guardOn (me s) (guardField i) = false)
    (ports : PortsOk i s) (can : CanIssue s [] 0) (window : k = 8 → (me s).window = 0)
    (twice : k = 14 → e.fmtBit = false ∧ e.scltBit = false) (walk : (me s).bodyWalk = none) (exit : (me s).exiting = false)
    (loops : (me s).loops = e :: es) (whole : e.left = 0) (last : e.last = (me s).pc) (inside : inMet e (me s).pc = true) :
    ∃ t x xs c, exec i s = .next t ∧ Marked e x ∧ xs.length = es.length ∧ (¬Due s (.csr 3) → c.age = (me s).age) ∧
      (¬Due s (.csr 4) → c.gpred = (me s).gpred) ∧
      ∀ {β : Type} (f : Ctx → β), (∀ c b, f { c with windowOpen := b } = f c) → f (getCtx t s.cur) = f (boundary x xs c) := by
  obtain ⟨o, g, off, still, quiet, addr, run⟩ := off_next slot wf unguarded ports can window twice loops
  have flow : seqOf [muted o] = .flow := seqOf_off (o := muted o) off
  obtain ⟨c, at_⟩ : ∃ c, getCtx (countStep s.cur (loaded s (muted o))) s.cur = c := ⟨_, rfl⟩
  have kept : c.loops = e :: es ∧ (¬Due s (.csr 3) → c.age = (me s).age) ∧ (¬Due s (.csr 4) → c.gpred = (me s).gpred) ∧
      c.exiting = false ∧ c.bodyWalk = none := by
    rw [← at_]
    exact ⟨landed_loops.trans loops, landed_age rfl, landed_gpred rfl, landed_exiting.trans exit, landed_bodyWalk.trans walk⟩
  obtain ⟨inner, age, gpred, exit', walk'⟩ := kept
  obtain ⟨x, xs, buf, marked, length, goes⟩ :=
    proceeded_boundary (s := s) (p := s.cur) (g := g) (c := c) flow still inner whole (last.trans addr.symm) (addr ▸ inside)
  obtain ⟨exits, walks⟩ := boundary_still x xs { c with loops := x :: xs, lbuf := buf }
  rw [← finishGroup_muted off, ← loaded_muted s o] at run
  refine ⟨_, x, xs, { c with loops := x :: xs, lbuf := buf }, run, marked, length, age, gpred, fun f hf => ?_⟩
  rw [finishGroup_field (fun _ _ => by rw [flow]; exact SeqAct.noConfusion) quiet (SameCode.loaded (.refl ..) _) f hf, at_, goes,
    walked_still (exits.trans exit') (walks.trans walk')]

end

/-- What the boundary makes of an entry in whose body a group has issued. -/
theorem boundary_marked {e x : LoopEntry} {xs : List LoopEntry} {c : Ctx} {n : Nat} (marked : Marked e x) :
    let again := e.index + 1 < e.bound
    let d := boundary x xs c
    d.pc = (if again then e.start else e.scan) ∧ d.age = (if e.lsp = true then c.age + 1 else c.age) ∧
    (e.lsp = false → d.gpred = c.gpred) ∧
    (e.lsp = true → 1 ≤ e.stages → e.bound = n + e.stages - 1 →
      (again → StagesSet e.stages n (e.index + 1) c.gpred d.gpred) ∧
      (¬again → ∀ j, j < 8 → d.gpred.getLsbD j = (c.gpred.getLsbD j && !(decide (1 ≤ j ∧ j ≤ e.stages))))) ∧
    (again → ∃ y, d.loops = y :: xs ∧ y.index = e.index + 1 ∧ y.bound = e.bound ∧ y.lsp = e.lsp ∧ y.stages = e.stages ∧
      y.start = e.start ∧ y.len = e.len ∧ y.fmtBit = false ∧ y.scltBit = false ∧ y.opBit = false) ∧
    (¬again → d.loops = xs) := by
  obtain ⟨here, fmt, scl, op, rfl⟩ := marked
  dsimp only
  rw [boundary_pc, boundary_age, boundary_gpred, boundary_loops]
  obtain ⟨_, _, _, _, _, _, next⟩ := nextIteration_eq { e with here := here, fmtBit := fmt, scltBit := scl, opBit := op }
  refine ⟨rfl, rfl, fun plain => if_neg (Bool.not_eq_true _ ▸ plain), fun lsp some bound => ⟨fun again => ?_, fun last j hj => ?_⟩,
    fun again => ?_, fun last => if_neg last⟩
  · rw [if_pos lsp, if_pos again, next]
    exact stagesSet_stagePreds c.gpred some bound
  · rw [if_pos lsp, if_neg last]
    exact getLsbD_clearPreds c.gpred e.stages hj
  · rw [if_pos again, next]
    exact ⟨_, rfl, rfl, rfl, rfl, rfl, rfl, rfl, rfl, rfl, rfl⟩

/-! ### `loop` and `lsp` (R90 to R92) -/

section
variable {s u : State} {p : Nat} {g : BitVec 3} {gr : Grp} {reads : List Reg} {ports : List (Nat × Nat)} {effect : State → State}
  {stages : Option Nat} {n len : Nat} {c : Ctx}

/-- A loop with its count read, as an operation of the branch slot. -/
def loopOp (s : State) (g : BitVec 3) (reads : List Reg) (ports : List (Nat × Nat)) (effect : State → State) (stages : Option Nat)
    (n len : Nat) : OpSem :=
  branchOp s g reads ports [] effect (if n = 0 then .over len else .push (loopEntry stages n len))

theorem semLoopN_eq (g : BitVec 3) (reads : List Reg) (ports : List (Nat × Nat)) (len : Nat) (depth : n ≠ 0 → (me s).loops.length < 6) :
    semLoopN { brBase (me s) g with reads := reads, ports := ports } (me s) stages n len = loopOp s g reads ports id stages n len := by
  have room : ¬(n ≠ 0 ∧ Config.loopDepth ≤ (me s).loops.length) := fun h => Nat.not_le.2 (depth h.1) h.2
  unfold semLoopN
  rw [if_neg room]
  rfl

theorem semLoopC_eq (g : BitVec 3) (q : BitVec 2) (r : BitVec 5) (len : Nat) (free : isPending (me s) (commonReg r.toNat) = false)
    (count : (regWord (me s) (commonReg r.toNat)).toNat % 2 ^ 32 = n) (depth : n ≠ 0 → (me s).loops.length < 6) :
    semLoopC (me s) g stages q r len = loopOp s g [commonReg r.toNat] [(r.toNat, q.toNat)] id stages n len := by
  have read : seen (me s) [commonReg r.toNat] = true := by simp [seen, free]
  unfold semLoopC
  rw [count, semLoopN_eq g _ _ len depth, read]
  rfl

theorem semLoopP_eq {v : BitVec 32} {vs : List (BitVec 32)} (g : BitVec 3) (len : Nat) (queue : (getCore s (coreOf s.cur)).cq = v :: vs)
    (depth : v.toNat ≠ 0 → (me s).loops.length < 6) : semLoopP s.cur s g stages len =
      loopOp s g [] [] (updCore (coreOf s.cur) (fun k => { k with cq := k.cq.drop 1 })) stages v.toNat len := by
  unfold semLoopP
  rw [queue]
  exact congrArg (fun o : OpSem => { o with effect := updCore (coreOf s.cur) (fun k => { k with cq := k.cq.drop 1 }) })
    (semLoopN_eq g [] [] len depth)

/-- The head of the count queue is gone. -/
theorem updCore_drop {v : BitVec 32} {vs : List (BitVec 32)} {k : Nat} (t : State) (queue : (getCore t k).cq = v :: vs) :
    updCore k (fun z => { z with cq := z.cq.drop 1 }) t = updCore k (fun z => { z with cq := vs }) t :=
  congrArg (fun q : List (BitVec 32) => setCore k { getCore t k with cq := q.drop 1 } t) queue

theorem icache_updCore_queue (vs : List (BitVec 32)) (t : State) (k j : Nat) :
    (getCore (updCore k (fun z => { z with cq := vs }) t) j).icache = (getCore t j).icache := by
  by_cases here : j = k
  · rw [here, getCore_updCore_self]
  · rw [getCore_updCore_ne t _ here]

/-- The entry that a loop pushes. -/
def pushed (stages : Option Nat) (n len : Nat) (start : Word) : LoopEntry :=
  { lsp := stages.isSome, index := 0, bound := n + stages.getD 1 - 1, stages := stages.getD 0, start := start, len := len
    fmtBit := false, scltBit := false, opBit := false, scan := start, last := start, left := len, here := start
    buf := decide (len ≤ 64), fresh := decide (len ≤ 64), full := false }

theorem meetAnew_loopEntry (stages : Option Nat) (n len : Nat) (start : Word) :
    meetAnew { loopEntry stages n len with start := start } = pushed stages n len start := by
  cases stages <;> rfl

theorem stagePreds_pushed (stages : Option Nat) (n len : Nat) (start : Word) (old : BitVec 8) :
    stagePreds old (pushed stages n len start) = stagePreds old (loopEntry stages n len) := by
  cases stages <;> rfl

/-- A loop that is entered. -/
theorem walked_push (exiting : c.exiting = false) (walk : c.bodyWalk = none) :
    let d := walked s p (sequence s p gr (.push (loopEntry stages n len)) c)
    d.pc = gr.next ∧ d.loops = pushed stages n len gr.next :: c.loops.map outerBody ∧
    d.gpred = if stages.isSome then stagePreds c.gpred (pushed stages n len gr.next) else c.gpred := by
  dsimp only
  rw [walked_still (c := sequence s p gr (.push (loopEntry stages n len)) c) exiting walk, stagePreds_pushed, ← meetAnew_loopEntry]
  exact ⟨rfl, rfl, rfl⟩

/-- A loop of count zero is passed over, as far as the words of its body can be read. -/
theorem walked_over (exiting : c.exiting = false) :
    let d := walked s p (sequence s p gr (.over n) c)
    d.loops = c.loops ∧ d.gpred = c.gpred ∧ d.age = c.age ∧ ∀ a, walkFrom s p n gr.next = .ok a → d.pc = a ∧ d.bodyWalk = none := by
  have goes : walked s p (sequence s p gr (.over n) c) = match walkFrom s p n gr.next with
      | .ok r => { c with bodyWalk := none, pc := r }
      | .error (_, ga, left) => { c with pc := gr.next, bodyWalk := some (ga, left) } := by
    unfold walked
    rw [if_neg (by rw [show (sequence s p gr (.over n) c).exiting = c.exiting from rfl, exiting]; decide)]
    rfl
  dsimp only
  rw [goes]
  cases walkFrom s p n gr.next with
  | ok a => exact ⟨rfl, rfl, rfl, fun b is => by cases is; exact ⟨rfl, rfl⟩⟩
  | error x => exact ⟨rfl, rfl, rfl, fun b is => by cases is⟩

/-- What the step of a loop does: of a count that is not zero it pushes the entry, of count zero it goes on past the body. -/
def LoopStep (s u : State) (i : Instr) (stages : Option Nat) (n len : Nat) : Prop :=
  NextWith (exec i s) (fun t => BranchFrame u t [] ∧
    (n ≠ 0 → (getCtx t s.cur).pc = (me s).pc + 8 ∧ (getCtx t s.cur).loops =
        pushed stages n len ((me s).pc + 8) :: ((me s).loops.map (locate s s.cur (soloGrp (me s) i 15))).map outerBody ∧
      (¬Due s (.csr 4) → (getCtx t s.cur).gpred =
        if stages.isSome then stagePreds (me s).gpred (pushed stages n len ((me s).pc + 8)) else (me s).gpred)) ∧
    (n = 0 → (getCtx t s.cur).loops = (me s).loops.map (locate s s.cur (soloGrp (me s) i 15)) ∧
      (¬Due s (.csr 4) → (getCtx t s.cur).gpred = (me s).gpred) ∧ (¬Due s (.csr 3) → (getCtx t s.cur).age = (me s).age) ∧
      ∀ a, walkFrom s s.cur len ((me s).pc + 8) = .ok a → (getCtx t s.cur).pc = a ∧ (getCtx t s.cur).bodyWalk = none))

/-- A loop issues by itself: it pushes its entry, or with a count of zero it goes on past its body. -/
theorem loop_steps {i : Instr} (can : CanIssue s reads 0) (on : guardOn (me s) g = true) (single : ports.length ≤ 1)
    (exit : (me s).exiting = false) (walk : (me s).bodyWalk = none) (wf : i.wf = true)
    (ex : exec i s = issueSolo i (loopOp s g reads ports effect stages n len) s) (next : (soloGrp (me s) i 15).next = (me s).pc + 8)
    (cur : u.cur = s.cur) (same : getCtx u s.cur = me s) (clean : u.endw = []) (code : SameCode s.cur s u)
    (eff : effect (loaded s (loopOp s g reads ports effect stages n len)) = loaded u (loopOp s g reads ports effect stages n len)) :
    LoopStep s u i stages n len := by
  have here : me u = me s := by rw [me, cur, same]
  have due : ∀ {d}, Due u d ↔ Due s d := by unfold Due; rw [here]
  have fits : Fits (branchOp s g reads ports [] effect .flow) reads 0 :=
    branchOp_fits on single (fun _ h => h) (fun _ h => absurd h List.not_mem_nil) (Nat.zero_le _) (Nat.le_refl 0)
  have nt : ∀ code num, (if n = 0 then SeqAct.over len else .push (loopEntry stages n len)) ≠ .trap code num := by
    intro code num
    split <;> exact SeqAct.noConfusion
  obtain ⟨t, run, -, frame, ctx⟩ := seq_step (k := 15) (u := u)
    (q := if n = 0 then .over len else .push (loopEntry stages n len)) rfl rfl ex wf can (branchOp_free (fits.free can)) on rfl rfl rfl
    fits.atOnce nt cur clean (cur ▸ code) eff
  obtain ⟨c, after⟩ : ∃ c, placed s s.cur (soloGrp (me s) i 15) (landed u (loopOp s g reads ports effect stages n len)) = c := ⟨_, rfl⟩
  have kept : c.loops = (me s).loops.map (locate s s.cur (soloGrp (me s) i 15)) ∧ c.exiting = false ∧ c.bodyWalk = none ∧
      (¬Due s (.csr 4) → c.gpred = (me s).gpred) ∧ (¬Due s (.csr 3) → c.age = (me s).age) := by
    rw [← after, ← here]
    refine ⟨placed_loops.trans (by rw [landed_loops]), ?_, ?_, fun idle => ?_, fun idle => ?_⟩
    · exact (placed_field Ctx.exiting fun _ _ _ => rfl).trans (landed_exiting.trans (here ▸ exit))
    · exact (placed_field Ctx.bodyWalk fun _ _ _ => rfl).trans (landed_bodyWalk.trans (here ▸ walk))
    · exact (placed_field Ctx.gpred fun _ _ _ => rfl).trans (landed_gpred rfl (due.not.2 idle))
    · exact (placed_field Ctx.age fun _ _ _ => rfl).trans (landed_age rfl (due.not.2 idle))
  obtain ⟨loops, exit', walk', gpred, age⟩ := kept
  simp only [cur, after] at ctx
  refine ⟨t, run, frame, fun some => ?_, fun zero => ?_⟩
  · obtain ⟨pc, stack, preds⟩ :=
      walked_push (s := s) (p := s.cur) (gr := soloGrp (me s) i 15) (stages := stages) (n := n) (len := len) exit' walk'
    simp only [if_neg some] at ctx
    rw [ctx Ctx.pc fun _ _ => rfl, ctx Ctx.loops fun _ _ => rfl, ctx Ctx.gpred fun _ _ => rfl, pc, stack, preds, loops, next]
    exact ⟨rfl, rfl, fun idle => by rw [gpred idle]⟩
  · obtain ⟨stack, preds, ages, past⟩ := walked_over (s := s) (p := s.cur) (gr := soloGrp (me s) i 15) (n := len) exit'
    simp only [if_pos zero] at ctx
    rw [ctx Ctx.pc fun _ _ => rfl, ctx Ctx.loops fun _ _ => rfl, ctx Ctx.gpred fun _ _ => rfl, ctx Ctx.age fun _ _ => rfl,
      ctx Ctx.bodyWalk fun _ _ => rfl, stack, preds, ages, loops]
    exact ⟨rfl, gpred, age, next ▸ past⟩

/-- A loop of a count in its word. -/
theorem loopWord_steps {i : Instr} (can : CanIssue s [] 0) (on : guardOn (me s) g = true) (exit : (me s).exiting = false)
    (walk : (me s).bodyWalk = none) (depth : n ≠ 0 → (me s).loops.length < 6) (wf : i.wf = true)
    (ex : exec i s = issueSolo i (semLoopN (brBase (me s) g) (me s) stages n len) s)
    (next : (soloGrp (me s) i 15).next = (me s).pc + 8) : LoopStep s s i stages n len :=
  loop_steps (ports := []) (effect := id) can on (Nat.zero_le _) exit walk wf
    (ex.trans (congrArg (issueSolo i · s) (semLoopN_eq g [] [] len depth))) next rfl rfl can.clean (.refl ..) rfl

/-- A loop of a count in a common register. -/
theorem loopReg_steps {i : Instr} {q : BitVec 2} {r : BitVec 5} (can : CanIssue s [commonReg r.toNat] 0) (on : guardOn (me s) g = true)
    (exit : (me s).exiting = false) (walk : (me s).bodyWalk = none)
    (depth : (regWord (me s) (commonReg r.toNat)).toNat % 2 ^ 32 ≠ 0 → (me s).loops.length < 6) (wf : i.wf = true)
    (ex : exec i s = issueSolo i (semLoopC (me s) g stages q r len) s) (next : (soloGrp (me s) i 15).next = (me s).pc + 8) :
    LoopStep s s i stages ((regWord (me s) (commonReg r.toNat)).toNat % 2 ^ 32) len :=
  loop_steps (ports := [(r.toNat, q.toNat)]) (effect := id) can on (Nat.le_refl 1) exit walk wf
    (ex.trans (congrArg (issueSolo i · s) (semLoopC_eq g q r len (can.free _ List.mem_cons_self) rfl depth))) next rfl rfl can.clean
    (.refl ..) rfl

/-- A loop of the count at the head of the count queue. -/
theorem loopQueue_steps {i : Instr} {v : BitVec 32} {vs : List (BitVec 32)} (can : CanIssue s [] 0) (on : guardOn (me s) g = true)
    (exit : (me s).exiting = false) (walk : (me s).bodyWalk = none) (queue : (getCore s (coreOf s.cur)).cq = v :: vs)
    (depth : v.toNat ≠ 0 → (me s).loops.length < 6) (wf : i.wf = true)
    (ex : exec i s = issueSolo i (semLoopP s.cur s g stages len) s) (next : (soloGrp (me s) i 15).next = (me s).pc + 8) :
    LoopStep s (updCore (coreOf s.cur) (fun z => { z with cq := vs }) s) i stages v.toNat len :=
  loop_steps (ports := []) can on (Nat.zero_le _) exit walk wf
    (ex.trans (congrArg (issueSolo i · s) (semLoopP_eq g len queue depth))) next rfl rfl can.clean
    (.of_atPos (.updCore ..) rfl (icache_updCore_queue vs s _)) ((updCore_loaded ..).trans (congrArg (loaded · _) (updCore_drop s queue)))

end

/-- Settles O30: the stage predicates bit by bit, the boundary as what `boundary` makes of an entry that a group's issue has marked,
and each of the six forms as a `LoopStep`. -/
theorem loopEntries : Obligations.LoopEntries := by
  unfold Obligations.LoopEntries
  refine ⟨fun e n old some bound => stagesSet_stagePreds old some bound, ?_, ?_⟩
  · intro s i k e es n
    dsimp only
    intro slot wf unguarded ports can window twice walk exit loops whole last from_ before
    have inside : inMet e (me s).pc = true := by simp [inMet, from_, before]
    obtain ⟨t, x, xs, c, run, marked, length, age, gpred, ctx⟩ :=
      boundary_step slot wf unguarded ports can window twice walk exit loops whole last inside
    obtain ⟨pc, ages, plain, staged, more, done⟩ := boundary_marked (xs := xs) (c := c) (n := n) marked
    refine ⟨t, run, ?_⟩
    dsimp only
    rw [ctx Ctx.pc fun _ _ => rfl, ctx Ctx.age fun _ _ => rfl, ctx Ctx.gpred fun _ _ => rfl, ctx Ctx.loops fun _ _ => rfl]
    refine ⟨pc, fun idle => age idle ▸ ages, fun idle => gpred idle ▸ ⟨plain, staged⟩, fun again => ?_, fun last => ?_⟩
    · obtain ⟨y, stack, rest⟩ := more again
      exact ⟨y, xs, stack, length, rest⟩
    · rw [done last, length]
  · intro s g k l m n q r v vs
    dsimp only
    intro on walk exit
    refine List.forall_mem_cons.2 ⟨fun can _ depth => ?_, List.forall_mem_cons.2 ⟨fun can _ depth => ?_, List.forall_mem_cons.2
      ⟨fun can queue depth => ?_, List.forall_mem_cons.2 ⟨fun can _ depth => ?_, List.forall_mem_cons.2 ⟨fun can _ depth => ?_,
        List.forall_mem_cons.2 ⟨fun can queue depth => ?_, fun _ h => absurd h List.not_mem_nil⟩⟩⟩⟩⟩⟩
    · exact loopWord_steps can on exit walk depth rfl rfl rfl
    · exact loopReg_steps can on exit walk depth rfl rfl rfl
    · exact loopQueue_steps can on exit walk (queue rfl) depth rfl rfl rfl
    · exact loopWord_steps can on exit walk depth rfl rfl rfl
    · exact loopReg_steps can on exit walk depth rfl rfl rfl
    · exact loopQueue_steps can on exit walk (queue rfl) depth rfl rfl rfl

end Sys2Proof.Machine
end

section
/-! SUPPORT. The registers whose value no write changes. -/

namespace Sys2Proof.Machine

/-! ### Registers that read a constant (R63, R73) -/

/-- A write to a register that reads a constant changes no register. -/
theorem regGet_regWrite_fixed {r : Reg} (fixed : fixedReg r = true) (c : Ctx) (v m : Vec) (b : Bool) (q : Reg) :
    regGet (regWrite c r v m b) q = regGet c q := by
  have same : ∀ x, filesSet c.files r x = c.files := by
    obtain ⟨fl, n⟩ := r
    intro x
    cases fl <;> simp_all [fixedReg, filesSet]
  exact congrArg (filesGet · q) (same _)

/-- The i registers cannot be written. -/
theorem csrLand_index {d : Nat} (shallow : d < 6) (p : Nat) (v : Word) (s : State) : csrLand p (0x18 + d) v s = s := by
  interval_cases d <;> rfl

/-- An element's first bit is in the byte lane that its type's width says. -/
theorem laneOf_eq {t : Nat} (bytes : 8 ≤ typeWidth t) (i : Nat) : laneOf t i = typeWidth t / 8 * i := by
  have whole : typeWidth t = 8 * (typeWidth t / 8) := by
    unfold typeWidth at bytes ⊢
    split at bytes <;> simp_all
  rw [laneOf]
  generalize typeWidth t / 8 = b at whole
  rw [whole, Nat.mul_comm, Nat.mul_assoc, Nat.mul_div_cancel_left _ (by decide)]

/-- The loop that a `loop` pushes begins at INDEX 0. -/
theorem csrValue_pushed {t : State} {p n len : Nat} {stages : Option Nat} {start : Word} {es : List LoopEntry}
    (loops : (getCtx t p).loops = pushed stages n len start :: es) (shallow : es.length < 6) :
    csrValue t p (0x18 + es.length) = 0 := by
  rw [csrValue_index t p shallow, loopIndex_eq, loops]
  simp [pushed]

/-- Settles O39: each kind of fixed register by its own lemma; the index of a loop begins at 0 as `loop` pushes its entry. -/
theorem fixedRegisters : Obligations.FixedRegisters := by
  unfold Obligations.FixedRegisters
  refine ⟨fun c v m b => ⟨?_, rfl, rfl, fun fl fixed r => regGet_regWrite_fixed ?_ c v m b r⟩,
    fun s p d v shallow => ⟨csrLand_index shallow p v s, ?_⟩, fun s l n can shallow walk exit some => ?_, fun e es c => ⟨boundary_loops e es c, ?_⟩, fun K t i bytes => ?_⟩
  · simp [regGet, filesGet, predGet]
  · revert fixed fl
    decide
  · rw [csrValue_index s p shallow]
    unfold loopIndex
    rfl
  · replace some : n.toNat ≠ 0 := fun zero => some (BitVec.eq_of_toNat_eq zero)
    obtain ⟨t, run, -, entered, -⟩ : LoopStep s s (.loop 0 l n) none n.toNat (l.toNat + 1) :=
      loopWord_steps can rfl exit walk (fun _ => shallow) rfl rfl rfl
    obtain ⟨-, loops, -⟩ := entered some
    refine ⟨t, run, ?_⟩
    have depth := csrValue_pushed loops (by simpa using shallow)
    simpa using depth
  · obtain ⟨_, _, _, _, _, _, next⟩ := nextIteration_eq e
    rw [next]
    exact ⟨rfl, rfl, rfl, rfl, rfl⟩
  · rw [elemOn, laneOf_eq bytes]

end Sys2Proof.Machine
end

section
/-! SUPPORT. Issue of transfers, of the waits for them and of restripes (R97, R169, R189, R417, R421). -/

namespace Sys2Proof.Machine

/-! ### Operations on states that agree context by context -/

section
variable {u v w : State}

theorem Alike.refl (u : State) : Alike u u := ⟨rfl, fun _ => rfl⟩

theorem Alike.rest_with (h : Alike u v) (m : SMap Ctx) : { v with ctxs := m } = { u with ctxs := m } :=
  congrArg (fun x : State => { x with ctxs := m }) h.rest

theorem Alike.trans (h : Alike u v) (k : Alike v w) : Alike u w :=
  ⟨(k.rest_with u.ctxs).trans h.rest, fun q => (k.ctxs q).trans (h.ctxs q)⟩

/-- The use of an extent depends on the contexts alone. -/
theorem Alike.touchExtent (h : Alike u v) (p : Nat) (va : Word) : Alike (touchExtent p va u) (touchExtent p va v) := by
  have owner : extOwner v p = extOwner u p := by
    unfold extOwner
    rw [h.ctxs]
  refine ⟨?_, fun q => ?_⟩
  · rw [touchExtent_rest, h.rest_with]
    exact (touchExtent_rest p va u (Machine.touchExtent p va u).ctxs).symm
  · rw [getCtx_touchExtent, getCtx_touchExtent, owner, h.ctxs]

theorem Alike.poisonRead (h : Alike u v) (p : Nat) (b : Bool) : Alike (poisonRead p b u) (poisonRead p b v) := by
  cases b
  · exact h
  · unfold Machine.poisonRead
    rw [if_pos rfl, if_pos rfl, h.ctxs]
    exact ⟨congrArg (updLaunch (getCtx u p).lseq (fun l => { l with poison := true })) h.rest, h.ctxs⟩

/-- An extent used beside the results of an operation. -/
theorem Alike.loaded_touchExtent {o : OpSem} (h : Alike (loaded u o) v) (va : Word) :
    Alike (loaded (Machine.touchExtent u.cur va u) o) (Machine.touchExtent u.cur va v) :=
  (touchExtent_loaded va u o).trans (h.touchExtent u.cur va)

end

/-! ### Operations of the slot EX -/

/-- A list of checks of which none fails. -/
theorem firstOf_none {l : List (Bool × Cause)} (pass : ∀ e ∈ l, e.1 = false) : firstOf l = none := by
  have none : l.find? (·.1) = .none := List.find?_eq_none.2 fun e he => by simp [pass e he]
  rw [firstOf, none]
  rfl

/-- A check that only one form of an operation makes. -/
theorem formCheck_passes {v k : BitVec 1} {x : Option Cause} (sound : v = k → x = none) : (v == k && x.isSome) = false := by
  by_cases form : v = k
  · rw [sound form]
    exact Bool.and_false _
  · rw [beq_false_of_ne form]
    rfl

section
variable {s : State} {g : BitVec 3}

/-- An EX operation without results issues where no load is made again, by what its slot and its ports ask. -/
theorem exBase_fits {ports : List (Nat × Nat)} (on : guardOn (me s) g = true) (firm : remaking s s.cur = false)
    (agree : ∀ a ∈ ports, ∀ b ∈ ports, a.2 = b.2 → a.1 = b.1) :
    Fits (exBase s s.cur g ports) (ports.map fun q => commonReg q.1) 0 where
  on := on
  flow := rfl
  ports := agree
  fmt := rfl
  scl := rfl
  mx := rfl
  cause := rfl
  blocks := firm
  reads _ hr := hr
  ilocks := rfl
  res _ hx := nomatch hx
  room := Nat.le_refl 0
  atOnce _ hx := nomatch hx
  nd := List.nodup_nil

/-- Two registers read at one port are one register. -/
theorem two_ports_alike {r w : BitVec 5} {rp wp : BitVec 2} (agree : rp = wp → r = w) :
    ∀ a ∈ [(r.toNat, rp.toNat), (w.toNat, wp.toNat)], ∀ b ∈ [(r.toNat, rp.toNat), (w.toNat, wp.toNat)], a.2 = b.2 → a.1 = b.1 := by
  have meet : rp.toNat = wp.toNat → r.toNat = w.toNat := fun h => congrArg _ (agree (BitVec.eq_of_toNat_eq h))
  intro a ha b hb same
  rcases List.mem_pair.1 ha with rfl | rfl <;> rcases List.mem_pair.1 hb with rfl | rfl
  · rfl
  · exact meet same
  · exact (meet same.symm).symm
  · rfl

/-! ### `xfer` -/

/-- The address of a route card (R417). -/
def cardAddr (s : State) (r : BitVec 5) : Word := regWord (me s) (commonReg r.toNat) &&& ~~~15

/-- The route card of a transfer: in global memory, or in the scratchpad (R417). -/
def routeCard (s : State) (p : Nat) (v : BitVec 1) (a : Word) : BitVec 1024 :=
  if v = 1 then (globalCard s p a).2.1 else BitVec.ofNat 1024 (natLE (scrBytes s p (a.toNat % 2 ^ 23) 128))

/-- The card can be read as its transfer issues (R417). -/
structure CardAtHand (s : State) (p : Nat) (v : BitVec 1) (a : Word) : Prop where
  global : v = 1 → (globalCard s p a).1 = none ∧ cardWaits s p a = false
  scratch : v = 0 → rangesDead s p 13 1 [(a.toNat % 2 ^ 23, 128)] = none ∧ gransFull s p (a.toNat % 2 ^ 23) 128 = true ∧
    (bankIds p (a.toNat % 2 ^ 23) 128).all (fun id => !(id / 128 == coreOf p && bankLocked s id)) = true

theorem CardAtHand.ready {p : Nat} {v : BitVec 1} {a : Word} (h : CardAtHand s p v a) :
    (v == 1 && !cardWaits s p a || v == 0 && (gransFull s p (a.toNat % 2 ^ 23) 128 &&
      (bankIds p (a.toNat % 2 ^ 23) 128).all (fun id => !(id / 128 == coreOf p && bankLocked s id)))) = true := by
  obtain near | far := BitVec.eq_zero_or_eq_one v
  · obtain ⟨-, full, unlocked⟩ := h.scratch near
    rw [near, full, unlocked]
    rfl
  · rw [far, (h.global far).2]
    rfl

/-- A card that breaks no rule, and reaches no dead core (R97, R166, Table 13-2). -/
structure CardSound (s : State) (p : Nat) (card : BitVec 1024) : Prop where
  rules : cardBad card = false
  source : rangesDead s p 13 1 (cardRanges card false) = none
  target : rangesDead s p 13 2 (cardRanges card true) = none
  whole : cardSplits s p card = false

/-- The engine has room for one more transfer, and the banks of the card's ranges are free for it (R171, R172). -/
structure EngineOpen (s : State) (p : Nat) (card : BitVec 1024) : Prop where
  room : ((getCtx s p).xfers.filter (fun x => !x.restripe)).length < 16
  banks : banksReady s p (rangeBanks p (cardRanges card false ++ cardRanges card true)) = true

theorem semXfer_fits {r : BitVec 5} {rp : BitVec 2} {v : BitVec 1} {tag : BitVec 6} (on : guardOn (me s) g = true)
    (firm : remaking s s.cur = false) (hand : CardAtHand s s.cur v (cardAddr s r))
    (sound : CardSound s s.cur (routeCard s s.cur v (cardAddr s r)))
    (free : EngineOpen s s.cur (routeCard s s.cur v (cardAddr s r))) :
    Fits (semXfer g r rp v tag s.cur s) [commonReg r.toNat] 0 := by
  have base := exBase_fits on firm (ports_alike (ports := [(r.toNat, rp.toNat)]) (Nat.le_refl 1))
  have cause : (semXfer g r rp v tag s.cur s).cause = none := by
    unfold semXfer
    dsimp only
    split
    · rfl
    · refine firstOf_none (List.forall_mem_cons.2 ⟨formCheck_passes fun far => (hand.global far).1, List.forall_mem_cons.2
        ⟨formCheck_passes fun near => (hand.scratch near).1, ?_⟩⟩)
      refine List.forall_mem_cons.2 ⟨?_, List.forall_mem_cons.2 ⟨?_, List.forall_mem_cons.2 ⟨?_, List.forall_mem_singleton.2 ?_⟩⟩⟩
      · exact Bool.and_eq_false_iff.2 (.inr sound.rules)
      · exact Bool.and_eq_false_iff.2 (.inr (congrArg Option.isSome sound.source))
      · exact Bool.and_eq_false_iff.2 (.inr (congrArg Option.isSome sound.target))
      · exact Bool.and_eq_false_iff.2 (.inr sound.whole)
  have blocks : (semXfer g r rp v tag s.cur s).blocks = false := by
    refine Bool.or_eq_false_iff.2 ⟨Bool.or_eq_false_iff.2 ⟨Bool.or_eq_false_iff.2 ⟨firm, ?_⟩, ?_⟩, ?_⟩
    · exact congrArg (!·) hand.ready
    · exact decide_eq_false (Nat.not_le.2 free.room)
    · exact congrArg (!·) free.banks
  exact { base with cause := cause, blocks := blocks }

/-- The entry that a transfer of `card`, issued at `pc`, makes in the copy engine's list (R417). -/
def cardXfer (s : State) (p : Nat) (pc : Word) (tag : Nat) (card : BitVec 1024) : Xfer where
  restripe := false
  tag := tag
  gaddr := pc
  card := card
  first := 0
  count := cardRuns card
  place := 0
  next := 0
  marked := false
  locks := rangeBanks p (cardRanges card true)
  held := none
  dropped := false
  landed := false
  buf := []
  bufBad := false
  own := (rangeGrans p (cardRanges card false)).filter
    (fun k => (rangeGrans p (cardRanges card true)).contains k && !smGet false s.empties k)
  num := s.order
  old := 0
  pa := 0
  leaf := 0

/-- The context with one more entry in the copy engine's list. -/
def joined (x : Xfer) (c : Ctx) : Ctx := { c with xfers := c.xfers ++ [x] }

/-- One more number of the order of issue is given away. -/
def nextOrder (s : State) : State := { s with order := s.order + 1 }

/-- The copy engine takes one more entry of a context. -/
def listXfer (p : Nat) (x : Xfer) (s : State) : State := updCtx p (joined x) (nextOrder s)

/-- A transfer is taken: its destination granules are emptied, and the banks of its ranges are the context's (R169, R172). -/
def takeXfer (p : Nat) (pc : Word) (tag : Nat) (card : BitVec 1024) (s : State) : State :=
  listXfer p (cardXfer s p pc tag card) (takeBanks p (rangeBanks p (cardRanges card false ++ cardRanges card true))
    (setGrans (rangeGrans p (cardRanges card true)) true s))

/-- The extents that the read of a card in global memory uses: those of its first and of its last part. -/
def touchCard (p : Nat) (v : BitVec 1) (a : Word) (s : State) : State :=
  if v = 1 then touchExtent p (a + 112) (touchExtent p a s) else s

/-- The mark of a card's bytes (R291). -/
def cardMark (s : State) (p : Nat) (v : BitVec 1) (a : Word) : Bool :=
  if v = 1 then (globalCard s p a).2.2 else gransBad s p (a.toNat % 2 ^ 23) 128

/-- A change of the issuing context that does not meet the results of its operation. -/
theorem updCtx_loaded {f : Ctx → Ctx} {o : OpSem} (apart : ∀ c, f (withResults o c) = withResults o (f c)) (s : State) :
    updCtx s.cur f (loaded s o) = loaded (updCtx s.cur f s) o := by
  rw [loaded_withResults, loaded_withResults, updCtx_cur, updCtx_updCtx, updCtx_updCtx]
  exact congrArg (fun h => updCtx s.cur h s) (funext apart)

theorem listXfer_loaded (x : Xfer) (s : State) (o : OpSem) : listXfer s.cur x (loaded s o) = loaded (listXfer s.cur x s) o := by
  have beside := updCtx_loaded (f := joined x) (o := o) (fun _ => rfl) (nextOrder s)
  exact beside

theorem setGrans_loaded (ks : List Nat) (empty : Bool) (s : State) (o : OpSem) :
    setGrans ks empty (loaded s o) = loaded (setGrans ks empty s) o := rfl

theorem cardXfer_loaded (p : Nat) (pc : Word) (tag : Nat) (card : BitVec 1024) (s : State) (o : OpSem) :
    cardXfer (loaded s o) p pc tag card = cardXfer s p pc tag card := rfl

theorem takeXfer_loaded (pc : Word) (tag : Nat) (card : BitVec 1024) (s : State) (o : OpSem) :
    takeXfer s.cur pc tag card (loaded s o) = loaded (takeXfer s.cur pc tag card s) o := by
  unfold takeXfer
  rw [cardXfer_loaded, setGrans_loaded]
  generalize cardXfer s s.cur pc tag card = x
  generalize cells : setGrans _ true s = t
  have cur : t.cur = s.cur := by rw [← cells]; rfl
  rw [← cur, takeBanks_loaded]
  have beside := listXfer_loaded x (takeBanks t.cur (rangeBanks t.cur (cardRanges card false ++ cardRanges card true)) t) o
  exact beside

theorem touchCard_cur (p : Nat) (v : BitVec 1) (a : Word) (s : State) : (touchCard p v a s).cur = s.cur := by
  unfold touchCard
  split
  · rw [touchExtent_cur, touchExtent_cur]
  · rfl

theorem Alike.loaded_touchCard {u w : State} {o : OpSem} (h : Alike (loaded u o) w) (v : BitVec 1) (a : Word) :
    Alike (loaded (touchCard u.cur v a u) o) (touchCard u.cur v a w) := by
  unfold touchCard
  split
  · have twice := (h.loaded_touchExtent a).loaded_touchExtent (a + 112)
    rw [touchExtent_cur] at twice
    exact twice
  · exact h

/-- What a transfer does as it issues: the engine takes it, and its card is read. -/
def issueXfer (s : State) (p tag : Nat) (v : BitVec 1) (a : Word) (t : State) : State :=
  poisonRead p (cardMark s p v a) (touchCard p v a (takeXfer p (getCtx s p).pc tag (routeCard s p v a) t))

theorem semXfer_effect (g : BitVec 3) (r : BitVec 5) (rp : BitVec 2) (v : BitVec 1) (tag : BitVec 6) (s t : State) :
    (semXfer g r rp v tag s.cur s).effect t = issueXfer s s.cur tag.toNat v (cardAddr s r) t := rfl

theorem issueXfer_quiet (s : State) (p tag : Nat) (v : BitVec 1) (a : Word) (t : State) : Quiet t (issueXfer s p tag v a t) := by
  unfold issueXfer touchCard
  split <;> simp [Quiet, takeXfer, listXfer, nextOrder]

/-- The results of its step are beside all that the issue of a transfer does. -/
theorem issueXfer_loaded (tag : Nat) (v : BitVec 1) (a : Word) (o : OpSem) :
    Alike (loaded (issueXfer s s.cur tag v a s) o) (issueXfer s s.cur tag v a (loaded s o)) := by
  unfold issueXfer
  generalize cardMark s s.cur v a = bad
  generalize (getCtx s s.cur).pc = pc
  generalize routeCard s s.cur v a = card
  have taken := Alike.refl (loaded (takeXfer s.cur pc tag card s) o)
  have read := (taken.loaded_touchCard v a).poisonRead s.cur bad
  rw [← takeXfer_loaded] at read
  have mark := poisonRead_loaded (s := touchCard s.cur v a (takeXfer s.cur pc tag card s)) bad o
  rw [touchCard_cur] at mark
  exact mark ▸ read

theorem xfer_completes {r : BitVec 5} {rp : BitVec 2} {v : BitVec 1} {tag : BitVec 6} (can : CanIssue s [commonReg r.toNat] 0)
    (fits : Fits (semXfer g r rp v tag s.cur s) [commonReg r.toNat] 0) :
    Completes (.xfer g r rp v tag) s (issueXfer s s.cur tag.toNat v (cardAddr s r) s) 13 [] := by
  refine completes_alike (.xfer g r rp v tag) (semXfer g r rp v tag s.cur s) s _ _ _ _ rfl rfl can (fits.free can) fits.on fits.flow
    fits.atOnce ?_ ?_ (issueXfer_loaded ..) fits.nd
  · unfold issueXfer
    rw [poisonRead_cur, touchCard_cur]
    rfl
  · rw [semXfer_effect, commitWrites_nil _ ((issueXfer_quiet ..).2.trans (by rw [loaded_eq]; exact can.clean))]
    rfl

/-! ### `xwt` and `rstr` -/

theorem semXwt_fits {tag : BitVec 6} (on : guardOn (me s) g = true)
    (gone : (me s).xfers.all (fun x => x.restripe || x.tag != tag.toNat) = true) : Fits (semXwt g tag s.cur s) [] 0 where
  on := on
  flow := rfl
  ports _ h := nomatch h
  fmt := rfl
  scl := rfl
  mx := rfl
  cause := rfl
  blocks := by
    refine List.any_eq_false.2 fun x hx => ?_
    have other := List.all_eq_true.1 gone x hx
    simpa [← Bool.not_eq_true, Decidable.or_iff_not_imp_left] using other
  reads _ h := nomatch h
  ilocks := rfl
  res _ h := nomatch h
  room := Nat.le_refl 0
  atOnce _ h := nomatch h
  nd := List.nodup_nil

/-- The first page of a restripe (R380). -/
def stripeFirst (s : State) (r : BitVec 5) : Word := regWord (me s) (commonReg r.toNat) &&& ~~~0xFFFF

/-- The placement word of a restripe, without RS (R189, R380). -/
def stripeWord (s : State) (w : BitVec 5) : Word := regWord (me s) (commonReg w.toNat) &&& ~~~0x800

/-- Page `i` of a restripe from `first`. -/
def stripePage (first : Word) (i : Nat) : Word := first + BitVec.ofNat 64 (2 ^ 16 * i)

/-- A page can be restriped to the placement, and no other device owns a page of its walk (R189, R233). -/
structure PageOpen (s : State) (va place : Word) : Prop where
  sound : stripeBad s (me s).sup (walkTable s (getCtx s (extOwner s s.cur)).asn va) place = false
  ours : walkBars s (getCtx s (extOwner s s.cur)).asn va false = []

theorem PageOpen.passes {va place : Word} (h : PageOpen s va place) (a b : Bool) :
    let e := walkTable s (getCtx s (extOwner s s.cur)).asn va
    (a && stripeFrom (me s).sup e || b && stripeTo s place || a && b && stripeDiffers e place) = false := by
  obtain ⟨sound, -⟩ := h
  simp only [stripeBad, Bool.or_eq_false_iff] at sound
  obtain ⟨⟨leaf, word⟩, alike⟩ := sound
  simp [leaf, word, alike]

theorem semRstr_fits {r w : BitVec 5} {rp wp : BitVec 2} {n : BitVec 9} (on : guardOn (me s) g = true)
    (firm : remaking s s.cur = false) (agree : rp = wp → r = w)
    (pages : ∀ i ≤ n.toNat, PageOpen s (stripePage (stripeFirst s r) i) (stripeWord s w)) :
    Fits (semRstr g r rp w wp n s.cur s) [commonReg r.toNat, commonReg w.toNat] 0 := by
  have base := exBase_fits on firm (two_ports_alike agree)
  have mem : ∀ a ∈ (List.range (n.toNat + 1)).map (stripePage (stripeFirst s r)), PageOpen s a (stripeWord s w) := fun a ha => by
    obtain ⟨i, hi, rfl⟩ := List.mem_map.1 ha
    exact pages i (Nat.lt_succ_iff.1 (List.mem_range.1 hi))
  have cause : (semRstr g r rp w wp n s.cur s).cause = none :=
    List.findSome?_eq_none_iff.2 fun a ha => if_neg (ne_true_of_eq_false ((mem a ha).passes _ _))
  have bars : (semRstr g r rp w wp n s.cur s).recalls = [] :=
    (congrArg (ite _ · []) (List.flatMap_eq_nil_iff.2 fun a ha => (mem a ha).ours)).trans (ite_self _)
  have blocks : (semRstr g r rp w wp n s.cur s).blocks = false :=
    Bool.or_eq_false_iff.2 ⟨firm, congrArg (fun l => !l.isEmpty) bars⟩
  exact { base with cause := cause, blocks := blocks }

/-- The entry that a restripe, issued at `pc`, makes in the copy engine's list (R380). -/
def stripeXfer (s : State) (pc first place : Word) (count : Nat) : Xfer where
  restripe := true
  tag := 0
  gaddr := pc
  card := 0
  first := first
  count := count
  place := place
  next := 0
  marked := false
  locks := []
  held := none
  dropped := false
  landed := false
  buf := []
  bufBad := false
  own := []
  num := s.order
  old := 0
  pa := 0
  leaf := 0

theorem semRstr_effect (g : BitVec 3) (r : BitVec 5) (rp : BitVec 2) (w : BitVec 5) (wp : BitVec 2) (n : BitVec 9) (s t : State) :
    (semRstr g r rp w wp n s.cur s).effect t =
      listXfer s.cur (stripeXfer t (me s).pc (stripeFirst s r) (stripeWord s w) (n.toNat + 1)) t := rfl

theorem rstr_completes {r w : BitVec 5} {rp wp : BitVec 2} {n : BitVec 9} (can : CanIssue s [commonReg r.toNat, commonReg w.toNat] 0)
    (fits : Fits (semRstr g r rp w wp n s.cur s) [commonReg r.toNat, commonReg w.toNat] 0) :
    Completes (.rstr g r rp w wp n) s
      (listXfer s.cur (stripeXfer s (me s).pc (stripeFirst s r) (stripeWord s w) (n.toNat + 1)) s) 13 [] := by
  refine fits.effect can rfl rfl rfl ?_
  rw [drawless_of rfl, semRstr_effect, listXfer_loaded]
  exact commitWrites_nil _ (by rw [loaded_eq]; exact can.clean)

end

/-- Settles O23: a transfer by what its card passes, and by the use of extents, which may be another context's; a wait and a
restripe by their conditions. -/
theorem transferOperations : Obligations.TransferOperations := by
  unfold Obligations.TransferOperations
  intro s g r w rp wp v tag n
  dsimp only
  intro on
  refine ⟨fun can firm global scratch rules source target whole room banks => ?_, fun can gone => ?_, fun can firm agree pages => ?_⟩
  · exact xfer_completes can (semXfer_fits on firm ⟨global, scratch⟩ ⟨rules, source, target, whole⟩ ⟨room, banks⟩)
  · exact (semXwt_fits on gone).pure can rfl rfl rfl rfl
  · exact rstr_completes can (semRstr_fits on firm agree fun i hi => ⟨(pages i hi).1, (pages i hi).2⟩)

end Sys2Proof.Machine
end

section
/-! SUPPORT. Rounding: what the model's rounded multiples and float patterns are, in the terms of R101, R107 and R108. -/

namespace Sys2Proof.Machine

/-! ### Rounding to an integer -/

/-- Whether a value rounds up does not depend on the unit. -/
theorem RoundsUp.scale {md : Mode} {odd : Bool} {lo hi x c : ℚ} (pos : 0 < c) :
    RoundsUp md odd (lo * c) (hi * c) (x * c) ↔ RoundsUp md odd lo hi x := by
  unfold RoundsUp
  split
  · rw [← sub_mul, ← sub_mul, mul_lt_mul_iff_left₀ pos, mul_left_inj' pos.ne']
  · rw [← sub_mul, ← sub_mul, mul_div_mul_right _ _ pos.ne', Ne, mul_left_inj' pos.ne']
  · rfl

/-- A value on the grid does not round up. -/
theorem not_roundsUp_self (md : Mode) (odd : Bool) (lo : ℚ) : ¬RoundsUp md odd lo (lo + 1) lo := by
  unfold RoundsUp
  split <;> norm_num

/-- An integer is its own rounding. -/
theorem roundsTo_self (md : Mode) (n : Nat) : RoundsTo md (fun k => (k : ℚ)) n n := by
  refine ⟨n, le_rfl, by norm_num, .inr ⟨?_, rfl⟩⟩
  push_cast
  exact not_roundsUp_self md _ _

/-- A fraction `r / n` above the integer `a` rounds up (R107, R108). -/
def FractionUp (md : Mode) (a r n : Nat) : Prop :=
  match md.rnd with
  | 0 => n < 2 * r ∨ (2 * r = n ∧ a % 2 = 1)
  | 2 => r ≠ 0 ∧ 2 ^ 16 ≤ r * 2 ^ 16 / n + md.draw
  | _ => False

theorem roundsUp_remainder (md : Mode) (a r n : Nat) (pos : 0 < n) :
    RoundsUp md (a % 2 == 1) a (a + 1 : Nat) (a + r / n : ℚ) ↔ FractionUp md a r n := by
  have n0 : (0 : ℚ) < n := by exact_mod_cast pos
  have toHi : ((a + 1 : Nat) : ℚ) - (a + r / n) = (n - r) / n := by push_cast; field_simp; ring
  have toLo : (a + r / n : ℚ) - a = r / n := by ring
  have width : ((a + 1 : Nat) : ℚ) - a = 1 := by push_cast; ring
  obtain ⟨rnd, draw⟩ := md
  match rnd with
  | 0 =>
    have less : ((n : ℚ) - r) / n < r / n ↔ n < 2 * r := by
      rw [div_lt_div_iff_of_pos_right n0, sub_lt_iff_lt_add, ← two_mul]
      exact_mod_cast Iff.rfl
    have tie : ((n : ℚ) - r) / n = r / n ↔ 2 * r = n := by
      rw [div_left_inj' n0.ne', sub_eq_iff_eq_add, ← two_mul, eq_comm]
      exact_mod_cast Iff.rfl
    simp only [RoundsUp, FractionUp, toHi, toLo, less, tie, beq_iff_eq]
  | 2 =>
    have share : ⌊(r : ℚ) / n / 1 * 2 ^ 16⌋ = ((r * 2 ^ 16 / n : Nat) : Int) := by
      rw [div_one, div_mul_eq_mul_div]
      exact_mod_cast Rat.floor_natCast_div_natCast (r * 2 ^ 16) n
    have off : (a + r / n : ℚ) ≠ a ↔ r ≠ 0 := by
      rw [Ne, add_eq_left, div_eq_zero_iff, Nat.cast_eq_zero]
      exact not_congr (or_iff_left n0.ne')
    simp only [RoundsUp, FractionUp, toLo, width, share, off]
    exact and_congr_right fun _ => by exact_mod_cast Iff.rfl
  | 1 | k + 3 => exact Iff.rfl

/-- What `roundShift` gives: the quotient, or one more. -/
theorem roundShift_eq (md : Mode) (m d : Nat) :
    FractionUp md (m / 2 ^ d) (m % 2 ^ d) (2 ^ d) ∧ roundShift md m d = m / 2 ^ d + 1 ∨
      ¬FractionUp md (m / 2 ^ d) (m % 2 ^ d) (2 ^ d) ∧ roundShift md m d = m / 2 ^ d := by
  have pos : 0 < 2 ^ d := Nat.two_pow_pos d
  unfold FractionUp roundShift
  obtain ⟨rnd, draw⟩ := md
  dsimp only
  by_cases whole : m % 2 ^ d = 0
  · rw [if_pos whole, whole]
    refine .inr ⟨?_, rfl⟩
    match rnd with
    | 0 => exact (by omega : ¬(2 ^ d < 2 * 0 ∨ 2 * 0 = 2 ^ d ∧ m / 2 ^ d % 2 = 1))
    | 2 => exact fun h => h.1 rfl
    | 1 | k + 3 => exact id
  · rw [if_neg whole]
    match rnd with
    | 0 =>
      by_cases up : 2 ^ d < 2 * (m % 2 ^ d) ∨ 2 * (m % 2 ^ d) = 2 ^ d ∧ m / 2 ^ d % 2 = 1
      · exact .inl ⟨up, if_pos up⟩
      · exact .inr ⟨up, if_neg up⟩
    | 2 =>
      by_cases up : 2 ^ 16 ≤ m % 2 ^ d * 2 ^ 16 / 2 ^ d + draw
      · exact .inl ⟨⟨whole, up⟩, if_pos up⟩
      · exact .inr ⟨fun h => up h.2, if_neg up⟩
    | 1 | k + 3 => exact .inr ⟨id, rfl⟩

/-- `roundShift` rounds the fraction to an integer. -/
theorem roundShift_rounds (md : Mode) (m d : Nat) : RoundsTo md (fun k => (k : ℚ)) (m / 2 ^ d) (roundShift md m d) := by
  have pos : 0 < 2 ^ d := Nat.two_pow_pos d
  have split_ : (m / 2 ^ d : ℚ) = (m / 2 ^ d : Nat) + (m % 2 ^ d : Nat) / (2 ^ d : Nat) := by
    have whole : (m : ℚ) = (2 ^ d : Nat) * (m / 2 ^ d : Nat) + (m % 2 ^ d : Nat) := by exact_mod_cast (Nat.div_add_mod m (2 ^ d)).symm
    have n0 : ((2 ^ d : Nat) : ℚ) ≠ 0 := by exact_mod_cast pos.ne'
    rw [show (2 ^ d : ℚ) = (2 ^ d : Nat) by push_cast; rfl]
    field_simp
    linarith
  have less := Nat.mod_lt m pos
  rw [split_]
  refine ⟨m / 2 ^ d, le_add_of_nonneg_right (by positivity), ?_, ?_⟩
  · push_cast
    rw [add_lt_add_iff_left, div_lt_one (by positivity)]
    exact_mod_cast less
  · dsimp only
    rw [roundsUp_remainder md _ _ _ pos]
    exact roundShift_eq md m d

/-- `roundAt` rounds the value, as a multiple of 2^q, to an integer. -/
theorem roundAt_rounds (md : Mode) (m : Nat) (e q : Int) :
    RoundsTo md (fun k => (k : ℚ)) (m * 2 ^ (e - q)) (roundAt md m e q) := by
  unfold roundAt
  split
  · next up =>
    have exact_ : (m * 2 ^ (e - q) : ℚ) = ((m * 2 ^ (e - q).toNat : Nat) : ℚ) := by
      rw [← Int.toNat_of_nonneg (sub_nonneg.2 up), zpow_natCast, Int.toNat_of_nonneg (sub_nonneg.2 up)]
      push_cast
      rfl
    rw [exact_]
    exact roundsTo_self ..
  · next down =>
    have exact_ : (m * 2 ^ (e - q) : ℚ) = m / 2 ^ (q - e).toNat := by
      rw [div_eq_mul_inv, ← zpow_natCast, Int.toNat_of_nonneg (by omega), ← zpow_neg, neg_sub]
    rw [exact_]
    exact roundShift_rounds ..

/-! ### Rounding to a float pattern -/

/-- The rounding of a value in one unit is that of it on a grid which has that unit about the value. -/
theorem RoundsTo.regrid {md : Mode} {mag : Nat → ℚ} {y c : ℚ} {v base : Nat} (pos : 0 < c) (even : base % 2 = 0)
    (grid : ∀ a : Nat, (a : ℚ) ≤ y → y < (a + 1 : Nat) → mag (base + a) = a * c ∧ mag (base + (a + 1)) = (a + 1 : Nat) * c)
    (h : RoundsTo md (fun k => (k : ℚ)) y v) : RoundsTo md mag (y * c) (base + v) := by
  obtain ⟨a, low, high, up⟩ := h
  obtain ⟨at_, next⟩ := grid a low high
  have parity : (base + a) % 2 = a % 2 := by omega
  refine ⟨base + a, ?_, ?_, ?_⟩
  · rw [at_]
    exact mul_le_mul_of_nonneg_right low pos.le
  · rw [Nat.add_assoc, next]
    exact mul_lt_mul_of_pos_right high pos
  · dsimp only at up ⊢
    rw [Nat.add_assoc, at_, next, parity, RoundsUp.scale pos]
    exact up.imp (And.imp_right (congrArg (base + ·))) (And.imp_right (congrArg (base + ·)))

/-- The magnitudes of one exponent, and the first of the next, are multiples of one power of two. -/
theorem magnitude_multiple (fr b E k : Nat) (hE : 1 ≤ E) (norm : 2 ^ fr ≤ k ∨ E = 1) (top : k ≤ 2 ^ (fr + 1)) :
    magnitude fr b ((E - 1) * 2 ^ fr + k) = k * 2 ^ ((E : Int) - b - fr) := by
  have unit : (2 : ℚ) ^ fr ≠ 0 := by positivity
  have pos := Nat.two_pow_pos fr
  have pow : ∀ i : Int, (2 : ℚ) ^ (i - fr) = 2 ^ i / 2 ^ fr := fun i => by rw [zpow_sub₀ two_ne_zero, zpow_natCast]
  rw [pow]
  unfold magnitude
  rcases lt_or_ge k (2 ^ fr) with small | large
  · have one : E = 1 := norm.resolve_left (by omega)
    subst one
    rw [Nat.sub_self, Nat.zero_mul, Nat.zero_add, Nat.div_eq_of_lt small, Nat.mod_eq_of_lt small]
    simp only [if_true, Nat.cast_one]
    ring
  · rcases Nat.lt_or_eq_of_le top with below | last
    · have place : (E - 1) * 2 ^ fr + k = (k - 2 ^ fr) + 2 ^ fr * E := by
        obtain ⟨E, rfl⟩ : ∃ i, E = i + 1 := ⟨E - 1, by omega⟩
        rw [Nat.add_sub_cancel, Nat.mul_succ, Nat.mul_comm]
        omega
      have rest : k - 2 ^ fr < 2 ^ fr := by rw [Nat.pow_succ] at below; omega
      rw [place, Nat.add_mul_div_left _ _ pos, Nat.add_mul_mod_self_left, Nat.div_eq_of_lt rest, Nat.mod_eq_of_lt rest,
        Nat.zero_add, if_neg (by omega), Nat.cast_sub large]
      push_cast
      field_simp
      ring
    · have place : (E - 1) * 2 ^ fr + k = 2 ^ fr * (E + 1) := by
        obtain ⟨E, rfl⟩ : ∃ i, E = i + 1 := ⟨E - 1, by omega⟩
        rw [Nat.add_sub_cancel, last, Nat.pow_succ]
        ring
      rw [place, Nat.mul_div_cancel_left _ pos, Nat.mul_mod_right, if_neg (by omega), last]
      push_cast
      rw [show ((E : Int) + 1 - b) = (E - b) + 1 by ring, zpow_add_one₀ two_ne_zero, pow_succ]
      field_simp
      ring

/-- The value of a number without its sign. -/
theorem numVal_pos (m : Nat) (e : Int) : numVal (.fin false m e) = m * 2 ^ e := rfl

theorem fMan_pos (t : Nat) : 0 < fMan t := by
  unfold fMan
  split <;> decide

/-- The pattern at place `w` of a floating type, or what an overflow gives where the type has none (R108). -/
def bounded (t : Nat) (md : Mode) (w : Nat) : Nat := if w ≤ fMax t then w else if t = 8 ∨ md.rnd = 1 then fMax t else fInf t

/-- A value that is not zero becomes the pattern that its magnitude rounds to, exponents going on without a bound, and then at
most an overflow. -/
theorem encFloat_rounds (t : Nat) (md : Mode) (neg : Bool) {m : Nat} (e : Int) (nz : m ≠ 0) :
    ∃ w, RoundsTo md (magnitude (fMan t) (fBias t)) (numVal (.fin false m e)) w ∧
      encFloat t md (.fin neg m e) = withSign t neg (bounded t md w) := by
  generalize hq : (if (Nat.log2 m : Int) + e < 1 - (fBias t : Int) then 1 - (fBias t : Int) else Nat.log2 m + e) - fMan t = q
  generalize hE : (q + fMan t + fBias t).toNat = E
  refine ⟨(E - 1) * 2 ^ fMan t + roundAt md m e q, ?_, ?_⟩
  · have one : 1 ≤ E ∧ q = E - fBias t - fMan t := by split at hq <;> omega
    have unit : numVal (.fin false m e) = m * 2 ^ (e - q) * 2 ^ q := by
      rw [numVal_pos, mul_assoc, ← zpow_add₀ two_ne_zero, sub_add_cancel]
    have twice : ∀ i : Nat, ((2 ^ i : Nat) : ℚ) = 2 ^ (i : Int) := fun i => by rw [zpow_natCast]; push_cast; rfl
    have below : (m * 2 ^ (e - q) : ℚ) < (2 ^ (fMan t + 1) : Nat) := by
      have lt : (m : ℚ) < 2 ^ ((Nat.log2 m : Int) + 1) := by
        have h := Nat.lt_log2_self (n := m)
        have h' : (m : ℚ) < ((2 ^ (Nat.log2 m + 1) : Nat) : ℚ) := by exact_mod_cast h
        rw [twice] at h'
        exact_mod_cast h'
      calc (m * 2 ^ (e - q) : ℚ) < 2 ^ ((Nat.log2 m : Int) + 1) * 2 ^ (e - q) := mul_lt_mul_of_pos_right lt (by positivity)
        _ = 2 ^ ((Nat.log2 m : Int) + 1 + (e - q)) := (zpow_add₀ two_ne_zero _ _).symm
        _ ≤ 2 ^ ((fMan t + 1 : Nat) : Int) := zpow_le_zpow_right₀ one_le_two (by split at hq <;> omega)
        _ = _ := (twice _).symm
    have above : E = 1 ∨ ((2 ^ fMan t : Nat) : ℚ) ≤ m * 2 ^ (e - q) := by
      by_cases low : (Nat.log2 m : Int) + e < 1 - (fBias t : Int)
      · exact .inl (by rw [if_pos low] at hq; omega)
      · rw [if_neg low] at hq
        refine .inr ?_
        have le : (2 : ℚ) ^ (Nat.log2 m : Int) ≤ m := by
          rw [← twice]
          exact_mod_cast Nat.log2_self_le nz
        calc ((2 ^ fMan t : Nat) : ℚ) = 2 ^ ((Nat.log2 m : Int) + (e - q)) := by rw [twice]; congr 1; omega
          _ = 2 ^ (Nat.log2 m : Int) * 2 ^ (e - q) := zpow_add₀ two_ne_zero _ _
          _ ≤ _ := mul_le_mul_of_nonneg_right le (by positivity)
    rw [unit]
    refine (roundAt_rounds md m e q).regrid (by positivity) ?_ (fun a low high => ?_)
    · obtain ⟨f, hf⟩ : ∃ f, fMan t = f + 1 := ⟨fMan t - 1, by have := fMan_pos t; omega⟩
      rw [hf, Nat.pow_succ, ← Nat.mul_assoc]
      exact Nat.mul_mod_left ..
    · have top : a + 1 ≤ 2 ^ (fMan t + 1) := by
        have : (a : ℚ) < (2 ^ (fMan t + 1) : Nat) := low.trans_lt below
        exact_mod_cast this
      have norm : 2 ^ fMan t ≤ a ∨ E = 1 := above.symm.imp_left fun h => by
        have : ((2 ^ fMan t : Nat) : ℚ) < (a + 1 : Nat) := h.trans_lt high
        exact Nat.lt_succ_iff.1 (by exact_mod_cast this)
      rw [magnitude_multiple _ _ _ _ one.1 norm (by omega), magnitude_multiple _ _ _ _ one.1 (norm.imp_left (by omega)) top, one.2]
      exact ⟨rfl, rfl⟩
  · simp only [encFloat, bounded, if_neg nz, hq, hE]

end Sys2Proof.Machine
end

section
/-! SUPPORT. Exact arithmetic: the model's sums, products and scalings of values are those of the rationals, with IEEE 754's rules for
NaN, infinities and zeros (R113, R120 to R122). -/

namespace Sys2Proof.Machine

/-! ### Values -/

@[simp] theorem numVal_zero (neg : Bool) (e : Int) : numVal (.fin neg 0 e) = 0 := by simp [numVal]

/-- The sign of a value apart from its magnitude. -/
theorem numVal_sign (neg : Bool) (m : Nat) (e : Int) : numVal (.fin neg m e) = (if neg then -1 else 1) * numVal (.fin false m e) := by
  cases neg <;> simp [numVal]

/-- An exact integer has its value. -/
theorem numVal_integer (z : Int) (e : Int) : numVal (.fin (z < 0) z.natAbs e) = z * 2 ^ e := by
  have abs : ((z.natAbs : Nat) : ℚ) = |(z : ℚ)| := by rw [Nat.cast_natAbs, Int.cast_abs]
  show (if decide (z < 0) = true then -((z.natAbs : Nat) : ℚ) else (z.natAbs : Nat)) * 2 ^ e = z * 2 ^ e
  rw [abs]
  by_cases neg : z < 0
  · rw [decide_eq_true neg, if_pos rfl, abs_of_neg (by exact_mod_cast neg), neg_neg]
  · rw [decide_eq_false neg, if_neg Bool.false_ne_true, abs_of_nonneg (by exact_mod_cast not_lt.1 neg)]

@[simp] theorem numVal_numOfInt (z : Int) : numVal (numOfInt z) = z := by rw [numOfInt, numVal_integer, zpow_zero, mul_one]

/-- A value aligned to an exponent at or below its own. -/
theorem alignInt_val (neg : Bool) (m : Nat) {e q : Int} (below : q ≤ e) :
    (alignInt neg m e q : ℚ) * 2 ^ q = numVal (.fin neg m e) := by
  have shift : (2 : ℚ) ^ (e - q).toNat * 2 ^ q = 2 ^ e := by
    rw [← zpow_natCast, Int.toNat_of_nonneg (sub_nonneg.2 below), ← zpow_add₀ two_ne_zero, sub_add_cancel]
  unfold alignInt numVal
  cases neg <;> push_cast <;> simp [mul_assoc, shift]

/-! ### Sums -/

theorem min_exponent (e f : Int) : (if e ≤ f then e else f) ≤ e ∧ (if e ≤ f then e else f) ≤ f := by split <;> omega

/-- Aligned magnitudes of one sign cancel only where both are zero. -/
theorem alignInt_cancel {a b : Bool} {m n : Nat} {e f q : Int} (hm : m ≠ 0) (hn : n ≠ 0)
    (zero : alignInt a m e q + alignInt b n f q = 0) : (a && b) = false := by
  have pm : 0 < m * 2 ^ (e - q).toNat := by positivity
  have pn : 0 < n * 2 ^ (f - q).toNat := by positivity
  unfold alignInt at zero
  generalize m * 2 ^ (e - q).toNat = u at *
  generalize n * 2 ^ (f - q).toNat = v at *
  cases a with
  | false => rfl
  | true => cases b with
    | false => rfl
    | true => simp only [if_true] at zero; omega

/-- `addNum` is the exact sum. -/
theorem addNum_isSum (x y : Num) : IsSum x y (addNum x y) := by
  match x, y with
  | .nan, _ | .inf _, .nan | .fin .., .nan => rfl
  | .inf _, .inf _ | .inf _, .fin .. | .fin .., .inf _ => rfl
  | .fin a m e, .fin b n f =>
    by_cases hm : m = 0
    · by_cases hn : n = 0
      · have sum : addNum (.fin a m e) (.fin b n f) = .fin (a && b) 0 e := if_pos ⟨hm, hn⟩
        rw [sum]
        exact ⟨a && b, 0, e, rfl, by simp [hm, hn], fun _ => rfl⟩
      · have sum : addNum (.fin a m e) (.fin b n f) = .fin b n f := by simp [addNum, hm, hn]
        rw [sum]
        exact ⟨b, n, f, rfl, by simp [hm], fun h => absurd h hn⟩
    · by_cases hn : n = 0
      · have sum : addNum (.fin a m e) (.fin b n f) = .fin a m e := by simp [addNum, hm, hn]
        rw [sum]
        exact ⟨a, m, e, rfl, by simp [hn], fun h => absurd h hm⟩
      · obtain ⟨q, hq⟩ : ∃ q, q = if e ≤ f then e else f := ⟨_, rfl⟩
        have low : q ≤ e ∧ q ≤ f := hq ▸ min_exponent e f
        have sum : addNum (.fin a m e) (.fin b n f) = .fin (alignInt a m e q + alignInt b n f q < 0)
            (alignInt a m e q + alignInt b n f q).natAbs q := by simp [addNum, hm, hn, hq]
        rw [sum]
        refine ⟨_, _, _, rfl, ?_, fun zero => ?_⟩
        · rw [numVal_integer]
          push_cast
          rw [add_mul, alignInt_val _ _ low.1, alignInt_val _ _ low.2]
        · have none := Int.natAbs_eq_zero.1 zero
          rw [none, alignInt_cancel hm hn none]
          rfl

/-! ### Products and scalings -/

/-- `mulNum` is the exact product. -/
theorem mulNum_isProduct (x y : Num) : IsProduct x y (mulNum x y) := by
  match x, y with
  | .nan, _ | .inf _, .nan | .fin .., .nan => rfl
  | .inf _, .inf _ | .inf _, .fin .. | .fin .., .inf _ => rfl
  | .fin a m e, .fin b n f =>
    refine ⟨m * n, e + f, rfl, ?_⟩
    have signs : (if (a != b) = true then (-1 : ℚ) else 1) = (if a = true then -1 else 1) * (if b = true then -1 else 1) := by
      cases a <;> cases b <;> norm_num
    rw [show mulNum (.fin a m e) (.fin b n f) = .fin (a != b) (m * n) (e + f) from rfl, numVal_sign (a != b), numVal_sign a,
      numVal_sign b, signs, numVal_pos, numVal_pos, numVal_pos, zpow_add₀ two_ne_zero]
    push_cast
    ring

/-- `scaleNum` is the exact scaling. -/
theorem scaleNum_isScaled (k : Int) (x : Num) : IsScaled k x (scaleNum x k) := by
  match x with
  | .nan | .inf _ => rfl
  | .fin a m e =>
    refine ⟨m, e + k, rfl, ?_⟩
    rw [show scaleNum (.fin a m e) k = .fin a m (e + k) from rfl, numVal_sign, numVal_sign a m e, numVal_pos, numVal_pos,
      zpow_add₀ two_ne_zero]
    ring

/-! ### Comparison -/

/-- Finite values compare as their aligned magnitudes do. -/
theorem alignInt_lt {a b : Bool} {m n : Nat} {e f q : Int} (he : q ≤ e) (hf : q ≤ f) :
    alignInt a m e q - alignInt b n f q < 0 ↔ numVal (.fin a m e) < numVal (.fin b n f) := by
  rw [← alignInt_val a m he, ← alignInt_val b n hf, mul_lt_mul_iff_left₀ (by positivity), Int.cast_lt, sub_neg]

/-- A number below another ranks before it, and not the other way round. -/
theorem numLe_of_below {x y : Num} (h : Below x y) : numLe x y = true ∧ numLe y x = false := by
  match x, y, h with
  | .inf a, .inf b, h =>
    obtain ⟨rfl, rfl⟩ := h
    exact ⟨rfl, rfl⟩
  | .inf a, .fin .., h =>
    obtain rfl : a = true := h
    exact ⟨rfl, rfl⟩
  | .fin .., .inf b, h =>
    obtain rfl : b = false := h
    exact ⟨rfl, rfl⟩
  | .fin a m e, .fin b n f, h =>
    simp only [numLe, cmpNum]
    obtain ⟨low, high⟩ := min_exponent e f
    obtain ⟨low', high'⟩ := min_exponent f e
    rcases h with less | ⟨rfl, rfl, rfl, rfl⟩
    · have up := (alignInt_lt low high).2 less
      rw [Int.sign_eq_neg_one_of_neg up]
      refine ⟨rfl, ?_⟩
      have strict : 0 < alignInt b n f (if f ≤ e then f else e) - alignInt a m e (if f ≤ e then f else e) := by
        have := (alignInt_lt high' low').2 less
        omega
      rw [Int.sign_eq_one_of_pos strict]
      rfl
    · simp [alignInt, numNeg]

/-- Neither of two numbers in order is a NaN. -/
theorem not_nan_of_below {x y : Num} (h : Below x y) : x ≠ .nan ∧ y ≠ .nan := by
  match x, y, h with
  | .inf a, .inf b, _ | .inf a, .fin .., _ | .fin .., .inf b, _ | .fin .., .fin .., _ => exact ⟨nofun, nofun⟩

/-- The pick of a minimum or a maximum (R113). -/
theorem floatPick_eq (t : Nat) (isMin : Bool) (a b : Nat) : floatPick t isMin a b =
    if decFloat t a = .nan then (if decFloat t b = .nan then fNan t else b)
    else if decFloat t b = .nan then a else if numLe (decFloat t a) (decFloat t b) == isMin then a else b := by
  unfold floatPick
  cases decFloat t a <;> cases decFloat t b <;> rfl

/-! ### Patterns -/

/-- The sign bit of a pattern, reversed, reverses the sign of its value. -/
theorem decFloat_flip (t v : Nat) : decFloat t (v ^^^ 2 ^ (fExp t + fMan t)) = negNum (decFloat t v) := by
  have low : ∀ k ≤ fExp t + fMan t, (v ^^^ 2 ^ (fExp t + fMan t)) % 2 ^ k = v % 2 ^ k := fun k hk => by
    rw [Nat.xor_mod_two_pow, Nat.mod_eq_zero_of_dvd (Nat.pow_dvd_pow 2 hk), Nat.xor_zero]
  have fraction := low (fMan t) (Nat.le_add_left ..)
  have exponent : bitsOf (v ^^^ 2 ^ (fExp t + fMan t)) (fMan t) (fExp t) = bitsOf v (fMan t) (fExp t) := by
    have split_ : ∀ u, bitsOf u (fMan t) (fExp t) = u % 2 ^ (fExp t + fMan t) / 2 ^ fMan t := fun u => by
      rw [bitsOf, Nat.add_comm, Nat.pow_add, Nat.mod_mul_right_div_self]
    rw [split_, split_, low _ le_rfl]
  have sign : bitOf (v ^^^ 2 ^ (fExp t + fMan t)) (fExp t + fMan t) = !bitOf v (fExp t + fMan t) := by
    have bit : ∀ u i, bitOf u i = u.testBit i := fun u i => by rw [bitOf, Nat.testBit_eq_decide_div_mod_eq]; rfl
    rw [bit, bit, Nat.testBit_xor, Nat.testBit_two_pow_self, Bool.xor_true]
  simp only [decFloat, fraction, exponent, sign]
  split
  · rfl
  · split
    · split <;> rfl
    · split <;> rfl

end Sys2Proof.Machine
end

section
/-! SUPPORT. The element types: ranges and values of the integer types, the constants of the floating formats (R100, R101, R107). -/

namespace Sys2Proof.Machine

/-! ### Integer types -/

theorem isFloat_of_int {t : Nat} (int : t ≤ 7) : isFloat t = false := by
  simp only [isFloat, Bool.or_eq_false_iff, beq_eq_false_iff_ne]
  omega

theorem typeWidth_pos (t : Nat) : 0 < typeWidth t := by
  unfold typeWidth
  split <;> decide

/-- Two's complement reads a pattern within its bits by its top bit. -/
theorem toSigned_of_lt {n v : Nat} (pos : 0 < n) (fits : v < 2 ^ n) :
    toSigned n v = if 2 ^ (n - 1) ≤ v then (v : Int) - 2 ^ n else v := by
  unfold toSigned
  rw [Nat.mod_eq_of_lt fits, if_neg (Nat.ne_of_gt pos)]
  by_cases low : v < 2 ^ (n - 1)
  · simp [low]
  · simp [low, not_lt.1 low]

theorem isSigned_iff (t : Nat) : isSigned t = true ↔ t ∉ [1, 3, 5] := by simp [isSigned, and_assoc]

theorem intVal_of_lt {t a : Nat} (fits : a < 2 ^ typeWidth t) :
    intVal t a = if t ∉ [1, 3, 5] ∧ 2 ^ (typeWidth t - 1) ≤ a then (a : Int) - 2 ^ typeWidth t else a := by
  unfold intVal
  by_cases signed : isSigned t = true
  · simp only [signed, if_true, (isSigned_iff t).1 signed, not_false_eq_true, true_and, toSigned_of_lt (typeWidth_pos t) fits]
  · rw [if_neg signed, if_neg fun h => signed ((isSigned_iff t).2 h.1), Nat.mod_eq_of_lt fits]

theorem intLo_le_intHi (t : Nat) : intLo t ≤ intHi t := by
  have pos : ∀ n : Nat, (0 : Int) < 2 ^ n := fun n => by positivity
  unfold intLo intHi
  split
  · have := pos (typeWidth t - 1); omega
  · have := pos (typeWidth t); omega

theorem clampInt_eq (t : Nat) (z : Int) : clampInt t z = max (intLo t) (min (intHi t) z) := by
  have := intLo_le_intHi t
  unfold clampInt
  split
  · omega
  · split <;> omega

/-- An exact result is stored: clamped under FMT.SAT and for q15, else wrapped (R100, R111). -/
theorem encInt_eq (t : Nat) (sat : Bool) (z : Int) : encInt t sat z =
    if sat ∨ t = 7 then ofSigned (typeWidth t) (max (intLo t) (min (intHi t) z)) else ofSigned (typeWidth t) z := by
  rw [encInt, clampInt_eq]
  by_cases clamps : sat ∨ t = 7
  · rw [if_pos clamps, if_pos (by simpa using clamps)]
  · rw [if_neg clamps, if_neg (by simpa using clamps)]

/-- A rounded value with its sign. -/
theorem roundInt_rounds (md : Mode) (neg : Bool) (m : Nat) (e : Int) :
    ∃ n, RoundsTo md (fun k => (k : ℚ)) (numVal (.fin false m e)) n ∧ roundInt md neg m e = if neg then -(n : Int) else n :=
  ⟨roundAt md m e 0, by simpa [numVal_pos] using roundAt_rounds md m e 0, rfl⟩

/-- A product of q15 is rounded to the nearest, at half way to the even one. -/
theorem rneQ15_nearest (z : Int) :
    2 * |rneQ15 z * 2 ^ 15 - z| ≤ 2 ^ 15 ∧ (2 * |rneQ15 z * 2 ^ 15 - z| = 2 ^ 15 → rneQ15 z % 2 = 0) := by
  have magnitude : rneQ15 z = if z < 0 then -(roundShift rneMode z.natAbs 15 : Int) else roundShift rneMode z.natAbs 15 := by
    simp [rneQ15, roundInt, roundAt]
  have near := roundShift_eq rneMode z.natAbs 15
  rw [magnitude]
  generalize roundShift rneMode z.natAbs 15 = v at near ⊢
  simp only [FractionUp, rneMode] at near
  rcases near with ⟨up, rfl⟩ | ⟨down, rfl⟩
  · rw [abs_eq_max_neg]
    split <;> omega
  · rw [abs_eq_max_neg]
    split <;> omega

/-! ### Floating formats -/

/-- The constants of the formats of Table 6-2. -/
theorem format_constants {f : Nat × Nat × Nat × Nat} (h : f ∈ floatFormats) :
    isFloat f.1 = true ∧ fExp f.1 = f.2.1 ∧ fMan f.1 = f.2.2.1 ∧ fBias f.1 = f.2.2.2 := by
  revert f
  decide

end Sys2Proof.Machine
end

section
/-! SUPPORT. One element of arithmetic (R111 to R113, R398). -/

namespace Sys2Proof.Machine

/-- Element arithmetic of an integer type. -/
theorem arithElem_int {t : Nat} (int : t ≤ 7) (op : Arith) (rnd : Nat) (sat : Bool) (d a b : Nat) :
    arithElem op t rnd sat d a b =
      let x := intVal t a
      let y := intVal t b
      let prod := if t = 7 then rneQ15 (x * y) else x * y
      match op with
      | .add => encInt t sat (x + y)
      | .sub => encInt t sat (x - y)
      | .mul => encInt t sat prod
      | .mad => encInt t sat (intVal t d + prod)
      | .min => ofSigned (typeWidth t) (min x y)
      | .max => ofSigned (typeWidth t) (max x y)
      | .abs => encInt t sat |x| := by
  unfold arithElem
  rw [isFloat_of_int int]
  cases op
  case abs => simp only [Bool.false_eq_true, if_false, Int.natCast_natAbs]
  all_goals rfl

/-- Element arithmetic of a floating type (R113). -/
theorem arithElem_float {t : Nat} (float : isFloat t = true) (op : Arith) (rnd : Nat) (sat : Bool) (d a b : Nat) :
    arithElem op t rnd sat d a b =
      let x := decFloat t a
      let y := decFloat t b
      match op with
      | .add => encFloat t (arithMode rnd) (addNum x y)
      | .sub => encFloat t (arithMode rnd) (addNum x (decFloat t (b ^^^ 2 ^ (fExp t + fMan t))))
      | .mul => encFloat t (arithMode rnd) (mulNum x y)
      | .mad => encFloat t (arithMode rnd) (addNum (decFloat t d) (mulNum x y))
      | .min => floatPick t true a b
      | .max => floatPick t false a b
      | .abs => if x = .nan then fNan t else a % 2 ^ (fExp t + fMan t) := by
  unfold arithElem
  rw [float]
  cases op
  case sub => simp only [if_true, decFloat_flip]
  case abs =>
    simp only [if_true]
    cases decFloat t a <;> rfl
  all_goals rfl

/-- The minimum and the maximum of two float patterns, case by case (R113). -/
theorem floatPick_cases (t a b : Nat) : ∀ e ∈ ([
    (true, Below (decFloat t a) (decFloat t b), a), (true, Below (decFloat t b) (decFloat t a), b),
    (false, Below (decFloat t a) (decFloat t b), b), (false, Below (decFloat t b) (decFloat t a), a),
    (true, a = b ∧ decFloat t a ≠ .nan, a), (false, a = b ∧ decFloat t a ≠ .nan, a),
    (true, decFloat t a = .nan ∧ decFloat t b ≠ .nan, b), (false, decFloat t a = .nan ∧ decFloat t b ≠ .nan, b),
    (true, decFloat t a ≠ .nan ∧ decFloat t b = .nan, a), (false, decFloat t a ≠ .nan ∧ decFloat t b = .nan, a),
    (true, decFloat t a = .nan ∧ decFloat t b = .nan, fNan t), (false, decFloat t a = .nan ∧ decFloat t b = .nan, fNan t)] :
    List (Bool × Prop × Nat)), e.2.1 → floatPick t e.1 a b = e.2.2 := by
  have below : ∀ m, Below (decFloat t a) (decFloat t b) → floatPick t m a b = if true == m then a else b := fun m h => by
    rw [floatPick_eq, if_neg (not_nan_of_below h).1, if_neg (not_nan_of_below h).2, (numLe_of_below h).1]
  have above : ∀ m, Below (decFloat t b) (decFloat t a) → floatPick t m a b = if false == m then a else b := fun m h => by
    rw [floatPick_eq, if_neg (not_nan_of_below h).2, if_neg (not_nan_of_below h).1, (numLe_of_below h).2]
  have same : ∀ m, a = b ∧ decFloat t a ≠ .nan → floatPick t m a b = a := fun m ⟨h, x⟩ => by
    rw [floatPick_eq, ← h, if_neg x, if_neg x, ite_self]
  have left : ∀ m, decFloat t a = .nan ∧ decFloat t b ≠ .nan → floatPick t m a b = b := fun m ⟨x, y⟩ => by
    rw [floatPick_eq, if_pos x, if_neg y]
  have right : ∀ m, decFloat t a ≠ .nan ∧ decFloat t b = .nan → floatPick t m a b = a := fun m ⟨x, y⟩ => by
    rw [floatPick_eq, if_neg x, if_pos y]
  have both : ∀ m, decFloat t a = .nan ∧ decFloat t b = .nan → floatPick t m a b = fNan t := fun m ⟨x, y⟩ => by
    rw [floatPick_eq, if_pos x, if_pos y]
  simp only [List.forall_mem_cons, List.not_mem_nil, false_imp_iff, implies_true, and_true]
  exact ⟨below true, above true, below false, above false, same true, same false, left true, left false, right true, right false,
    both true, both false⟩

/-- Settles O4: `arithElem_int` with `encInt_eq`, and `arithElem_float` with the exact sum, product and pick. -/
theorem elementArithmetic : Obligations.ElementArithmetic := by
  unfold Obligations.ElementArithmetic
  refine ⟨fun t rnd sat d a b int => ?_, rneQ15_nearest, rfl, rfl, fun t a _ fits => intVal_of_lt fits,
    fun f hf wide rnd sat d a b => ?_⟩
  · simp only [arithElem_int int, encInt_eq, and_self]
  · obtain ⟨float, ex, fr, -⟩ := format_constants hf
    have nan : fNan f.1 = (2 ^ f.2.1 - 1) * 2 ^ f.2.2.1 + 2 ^ (f.2.2.1 - 1) := by
      rw [fNan, if_neg (by omega), fInf, ex, fr]
    have picks := floatPick_cases f.1 a b
    dsimp only
    rw [← nan]
    simp only [arithElem_float float, ex, fr]
    refine ⟨⟨_, addNum_isSum .., rfl⟩, ⟨_, addNum_isSum .., rfl⟩, ⟨_, mulNum_isProduct .., rfl⟩,
      ⟨_, _, mulNum_isProduct .., addNum_isSum .., rfl⟩, ?_, trivial⟩
    simpa only [List.forall_mem_cons, List.not_mem_nil, false_imp_iff, implies_true, and_true] using picks

end Sys2Proof.Machine
end

section
/-! SUPPORT. Conversion: the values of the patterns, and each row of Table 6-6 (R101 to R103, R108, R115, R116). -/

namespace Sys2Proof.Machine

/-! ### The value of a pattern -/

/-- The fields of a pattern: its sign, and exponent and fraction of its magnitude (R101). -/
theorem decFloat_fields {t v : Nat} (fits : v < 2 ^ (1 + fExp t + fMan t)) :
    let mag := v % 2 ^ (fExp t + fMan t)
    let neg := decide (2 ^ (fExp t + fMan t) ≤ v)
    let E := mag / 2 ^ fMan t
    let F := mag % 2 ^ fMan t
    decFloat t v = if t = 8 ∧ E = 15 ∧ F = 7 then .nan
      else if t ≠ 8 ∧ E = 2 ^ fExp t - 1 then (if F = 0 then .inf neg else .nan)
      else if E = 0 then .fin neg F (1 - (fBias t : Int) - fMan t)
      else .fin neg (2 ^ fMan t + F) ((E : Int) - fBias t - fMan t) := by
  have exponent : bitsOf v (fMan t) (fExp t) = v % 2 ^ (fExp t + fMan t) / 2 ^ fMan t := by
    rw [bitsOf, Nat.add_comm, Nat.pow_add, Nat.mod_mul_right_div_self]
  have fraction : v % 2 ^ fMan t = v % 2 ^ (fExp t + fMan t) % 2 ^ fMan t :=
    (Nat.mod_mod_of_dvd _ (Nat.pow_dvd_pow 2 (Nat.le_add_left ..))).symm
  have sign : bitOf v (fExp t + fMan t) = decide (2 ^ (fExp t + fMan t) ≤ v) := by
    have pos := Nat.two_pow_pos (fExp t + fMan t)
    rw [Nat.add_assoc, Nat.pow_add] at fits
    unfold bitOf
    rcases Nat.lt_or_ge v (2 ^ (fExp t + fMan t)) with low | high
    · rw [Nat.div_eq_of_lt low, decide_eq_false (Nat.not_le.2 low)]
      rfl
    · rw [Nat.div_eq_of_lt_le (k := 1) (by omega) (by omega), decide_eq_true high]
      rfl
  simp only [decFloat, exponent, sign, ← fraction]

/-- A pattern below the largest exponent, or of e4m3 other than its NaN, is finite, and has the magnitude of Table 6-2. -/
theorem decFloat_finite {t v : Nat} (fits : v < 2 ^ (1 + fExp t + fMan t)) (most : v % 2 ^ (fExp t + fMan t) ≤ fMax t) :
    ∃ m e, decFloat t v = .fin (decide (2 ^ (fExp t + fMan t) ≤ v)) m e ∧
      numVal (.fin false m e) = magnitude (fMan t) (fBias t) (v % 2 ^ (fExp t + fMan t)) := by
  have pos := Nat.two_pow_pos (fMan t)
  rw [decFloat_fields fits]
  generalize v % 2 ^ (fExp t + fMan t) = mag at *
  have whole := Nat.div_add_mod mag (2 ^ fMan t)
  have rest := Nat.mod_lt mag pos
  have notNan : ¬(t = 8 ∧ mag / 2 ^ fMan t = 15 ∧ mag % 2 ^ fMan t = 7) := by
    rintro ⟨rfl, hE, hF⟩
    rw [hE, hF] at whole
    simp [fMan, fMax] at whole most
    omega
  have notInf : ¬(t ≠ 8 ∧ mag / 2 ^ fMan t = 2 ^ fExp t - 1) := by
    rintro ⟨h8, hE⟩
    rw [hE, Nat.mul_comm] at whole
    rw [fMax, if_neg h8] at most
    have : 0 < (2 ^ fExp t - 1) * 2 ^ fMan t := Nat.mul_pos (by unfold fExp; split <;> decide) pos
    omega
  rw [if_neg notNan, if_neg notInf]
  by_cases zero : mag / 2 ^ fMan t = 0
  · have small : mag = (1 - 1) * 2 ^ fMan t + mag % 2 ^ fMan t := by rw [zero] at whole; omega
    refine ⟨_, _, if_pos zero, ?_⟩
    conv_rhs => rw [small]
    rw [magnitude_multiple _ _ 1 _ le_rfl (.inr rfl) (by rw [Nat.pow_succ]; omega)]
    rfl
  · have place : mag = (mag / 2 ^ fMan t - 1) * 2 ^ fMan t + (2 ^ fMan t + mag % 2 ^ fMan t) := by
      obtain ⟨E, hE⟩ : ∃ E, mag / 2 ^ fMan t = E + 1 := ⟨_, (Nat.succ_pred zero).symm⟩
      rw [hE] at whole ⊢
      rw [Nat.mul_succ, Nat.mul_comm] at whole
      rw [Nat.add_sub_cancel]
      omega
    refine ⟨_, _, if_neg zero, ?_⟩
    conv_rhs => rw [place]
    rw [magnitude_multiple _ _ _ _ (Nat.pos_of_ne_zero zero) (.inl (Nat.le_add_right ..)) (by rw [Nat.pow_succ]; omega)]
    rfl

theorem decFloat_e4m3_nan {v : Nat} (fits : v < 2 ^ (1 + fExp 8 + fMan 8)) (nan : v % 2 ^ (fExp 8 + fMan 8) = 0x7F) :
    decFloat 8 v = .nan := by
  rw [decFloat_fields fits, nan]
  rfl

/-- The largest exponent stands for the infinities and the NaNs. -/
theorem decFloat_top {t v : Nat} (h8 : t ≠ 8) (fits : v < 2 ^ (1 + fExp t + fMan t)) (top : fInf t ≤ v % 2 ^ (fExp t + fMan t)) :
    decFloat t v = if v % 2 ^ (fExp t + fMan t) = fInf t then .inf (decide (2 ^ (fExp t + fMan t) ≤ v)) else .nan := by
  have pos := Nat.two_pow_pos (fMan t)
  have bound : v % 2 ^ (fExp t + fMan t) < 2 ^ (fExp t + fMan t) := Nat.mod_lt _ (Nat.two_pow_pos _)
  rw [decFloat_fields fits]
  generalize v % 2 ^ (fExp t + fMan t) = mag at *
  have whole := Nat.div_add_mod mag (2 ^ fMan t)
  have largest : mag / 2 ^ fMan t = 2 ^ fExp t - 1 := by
    have low : 2 ^ fExp t - 1 ≤ mag / 2 ^ fMan t := (Nat.le_div_iff_mul_le pos).2 top
    have high : mag / 2 ^ fMan t < 2 ^ fExp t := (Nat.div_lt_iff_lt_mul pos).2 (by rwa [← Nat.pow_add])
    omega
  have fraction : mag % 2 ^ fMan t = 0 ↔ mag = fInf t := by
    rw [largest, Nat.mul_comm] at whole
    unfold fInf
    omega
  simp only [h8, false_and, if_false, ne_eq, not_false_eq_true, largest, and_self, if_true, fraction]

/-! ### The pattern of a value -/

theorem withSign_eq (t : Nat) (neg : Bool) (v : Nat) : withSign t neg v = (if neg then 2 ^ (fExp t + fMan t) else 0) + v := by
  cases neg
  · exact (Nat.zero_add v).symm
  · exact Nat.add_comm ..

/-! ### Conversion from one type to another -/

theorem isIntT_iff (t : Nat) : isIntT t = true ↔ t ≤ 7 := by simp [isIntT]

theorem isFloat_range {t : Nat} (float : isFloat t = true) : 8 ≤ t ∧ t ≤ 12 := by
  simp only [isFloat, Bool.or_eq_true, beq_iff_eq] at float
  omega

/-- An integer, or q15 beside integers, converts by its integer. -/
theorem convertBits_integer {s t : Nat} (sat : Bool) (md : Mode) (v : Nat) (int : s ≤ 7) (ne : s ≠ t) (raw : s = 7 → t ≤ 7) :
    convertBits s t sat md v = intTo t sat md (intVal s v) := by
  have plain : ¬(s = 7 ∧ (isFloat t ∨ t = 14)) := fun h => by
    have small := raw h.1
    rcases h.2 with float | rfl
    · exact absurd (isFloat_range float).1 (by omega)
    · omega
  rw [convertBits, if_neg ne, if_pos ((isIntT_iff s).2 int), if_neg plain]

/-- A float, a scale, or q15 beside floats and scales, converts by its value. -/
theorem convertBits_value {s t : Nat} (sat : Bool) (md : Mode) (v : Nat) (ne : s ≠ t)
    (num : 8 ≤ s ∨ s = 7 ∧ (isFloat t = true ∨ t = 14)) : convertBits s t sat md v = numTo t md (decNum s v) := by
  rw [convertBits, if_neg ne]
  rcases num with high | q15
  · rw [if_neg (by rw [isIntT_iff]; omega)]
  · rw [if_pos ((isIntT_iff s).2 (by omega)), if_pos q15, q15.1]

theorem decNum_float {t : Nat} (v : Nat) (float : isFloat t = true) : decNum t v = decFloat t v := by rw [decNum, if_pos float]

theorem decNum_integer {t : Nat} (v : Nat) (int : t ≤ 6) : decNum t v = numOfInt (intVal t v) := by
  rw [decNum, isFloat_of_int (by omega), if_neg Bool.false_ne_true, if_neg (by omega), if_neg (by omega)]

/-- Conversion to e8m0 is that of the value, by its binary logarithm (R116). -/
theorem convertBits_e8 {t : Nat} (sat : Bool) (md : Mode) (v : Nat) (elem_ : t ≤ 12) :
    convertBits t 14 sat md v = toE8 (decNum t v) := by
  rcases Nat.lt_or_ge t 7 with int | num
  · rw [convertBits_integer sat md v (by omega) (by omega) (by omega), decNum_integer v (by omega)]
    rfl
  · rw [convertBits_value sat md v (by omega) (by omega)]
    rfl

theorem toE8_fin (neg : Bool) (m : Nat) (e : Int) :
    toE8 (.fin neg m e) = if m = 0 then 0 else (max 0 (min 254 ((Nat.log2 m : Int) + e + 127))).toNat := by
  by_cases zero : m = 0
  · simp only [toE8, if_pos zero]
  · have code : toE8 (.fin neg m e) = let z := numLog m e + 127; if z < 0 then 0 else if 254 < z then 254 else z.toNat := if_neg zero
    rw [code, if_neg zero, numLog]
    dsimp only
    split
    · omega
    · split <;> omega

theorem intTo_integer {t : Nat} (sat : Bool) (md : Mode) (z : Int) (int : t ≤ 7) : intTo t sat md z =
    ofSigned (typeWidth t) (if sat then max (intLo t) (min (intHi t) z) else z) := by
  rw [intTo, if_neg (by omega), isFloat_of_int int, if_neg Bool.false_ne_true, clampInt_eq]

theorem intTo_float {t : Nat} (sat : Bool) (md : Mode) (z : Int) (float : isFloat t = true) :
    intTo t sat md z = encFloat t md (numOfInt z) := by
  have := isFloat_range float
  rw [intTo, if_neg (by omega), if_pos float]

theorem numTo_float {t : Nat} (md : Mode) (x : Num) (float : isFloat t = true) : numTo t md x = encFloat t md x := by
  have := isFloat_range float
  rw [numTo, if_neg (by omega), if_pos float]

theorem numTo_integer {t : Nat} (md : Mode) (x : Num) (int : t ≤ 7) : numTo t md x = floatToInt t md x := by
  rw [numTo, if_neg (by omega), isFloat_of_int int, if_neg Bool.false_ne_true]

/-- A finite value becomes the integer it rounds to, or for q15 that of its 2^15-fold, clamped to the type. -/
theorem floatToInt_rounds (d : Nat) (md : Mode) (neg : Bool) (m : Nat) (e : Int) :
    ∃ n, RoundsTo md (fun k => (k : ℚ)) (numVal (.fin false m e) * (if d = 7 then 2 ^ 15 else 1)) n ∧
      floatToInt d md (.fin neg m e) = ofSigned (typeWidth d) (max (intLo d) (min (intHi d) (if neg then -(n : Int) else n))) := by
  obtain ⟨n, rounds, value⟩ := roundInt_rounds md neg m (if d = 7 then e + 15 else e)
  refine ⟨n, ?_, ?_⟩
  · have unit : numVal (.fin false m (if d = 7 then e + 15 else e)) = numVal (.fin false m e) * (if d = 7 then 2 ^ 15 else 1) := by
      split
      · rw [numVal_pos, numVal_pos, zpow_add₀ two_ne_zero, mul_assoc]
        norm_num
      · rw [mul_one]
    rwa [unit] at rounds
  · simp only [floatToInt, value, clampInt_eq]

/-! ### The elements of int4o (R103) -/

/-- A table of blocks of one length, each a stretch of one sequence, is that sequence. -/
theorem flatMap_range_blocks {α : Type} {f : Nat → List α} {g : Nat → α} {c : Nat}
    (each : ∀ b, f b = (List.range c).map (fun j => g (c * b + j))) (n : Nat) :
    (List.range n).flatMap f = (List.range (c * n)).map g := by
  induction n with
  | zero => rfl
  | succ n ih =>
    rw [List.range_succ, List.flatMap_append, List.flatMap_singleton, ih, each, Nat.mul_succ, List.range_add,
      List.map_append, List.map_map]
    rfl

theorem toSigned_mod (n v : Nat) : toSigned n (v % 2 ^ n) = toSigned n v := by
  unfold toSigned
  rw [Nat.mod_mod]

/-- A byte holds two elements, the lower one first. -/
theorem i4Plain_eq (v : Vec) (k : Nat) :
    i4Plain (byteOf v k) = (List.range 2).map (fun j => .int (toSigned 4 (elem v 4 (2 * k + j)))) := by
  have low : toSigned 4 (byteOf v k) = toSigned 4 (elem v 4 (2 * k + 0)) := by
    rw [← toSigned_mod 4 (byteOf v k), byteOf, elem, elem, Nat.mod_mod_of_dvd _ (by decide : 2 ^ 4 ∣ 2 ^ 8)]
    congr 3
    omega
  have high : toSigned 4 (byteOf v k / 16) = toSigned 4 (elem v 4 (2 * k + 1)) := by
    rw [← toSigned_mod 4 (byteOf v k / 16), byteOf, elem, elem, show 4 * (2 * k + 1) = 8 * k + 4 by omega, Nat.shiftRight_add]
    congr 1
    generalize v.toNat >>> (8 * k) = u
    rw [Nat.shiftRight_eq_div_pow]
    omega
  rw [i4Plain, low, high]
  rfl

/-- The elements of a register of int4o without outliers, in order. -/
theorem i4Elems_plain (v : Vec) (n : Nat) :
    i4Elems false v n = ((List.range (32 * ((n + 31) / 32))).map (fun i => I4.int (toSigned 4 (elem v 4 i)))).take n := by
  unfold i4Elems
  rw [flatMap_range_blocks (c := 32) (g := fun i => I4.int (toSigned 4 (elem v 4 i))) fun b => ?_]
  rw [i4Block, if_neg Bool.false_ne_true, List.flatMap_map]
  rw [flatMap_range_blocks (c := 2) (g := fun i => I4.int (toSigned 4 (elem v 4 (32 * b + i)))) fun j => ?_]
  rw [i4Plain_eq]
  refine List.map_congr_left fun i _ => ?_
  congr 3
  ring

theorem i4Elems_plain_get (v : Vec) {n i : Nat} (hi : i < n) : (i4Elems false v n)[i]? = some (.int (toSigned 4 (elem v 4 i))) := by
  rw [i4Elems_plain, List.getElem?_take_of_lt hi, List.getElem?_map, List.getElem?_range (by omega)]
  rfl

/-! ### The obligation -/

/-- Every pattern of a floating format (R101). -/
theorem pattern_values {t v : Nat} (fits : v < 2 ^ (1 + fExp t + fMan t)) :
    let mag := v % 2 ^ (fExp t + fMan t)
    let neg := decide (2 ^ (fExp t + fMan t) ≤ v)
    (t = 8 → mag = 0x7F → decFloat t v = .nan) ∧ (t ≠ 8 → mag = fInf t → decFloat t v = .inf neg) ∧
      (t ≠ 8 → fInf t < mag → decFloat t v = .nan) ∧
      (mag ≤ fMax t → ∃ m e, decFloat t v = .fin neg m e ∧ numVal (.fin false m e) = magnitude (fMan t) (fBias t) mag) := by
  refine ⟨?_, fun h8 inf => ?_, fun h8 nan => ?_, decFloat_finite fits⟩
  · rintro rfl nan
    exact decFloat_e4m3_nan fits nan
  · rw [decFloat_top h8 fits inf.ge, if_pos inf]
  · rw [decFloat_top h8 fits nan.le, if_neg nan.ne']

/-- What every value becomes in a floating format (R108). -/
theorem pattern_of_value (t : Nat) (md : Mode) (neg : Bool) (m : Nat) (e : Int) :
    let sign := if neg then 2 ^ (fExp t + fMan t) else 0
    encFloat t md .nan = fNan t ∧ encFloat t md (.inf neg) = sign + (if t = 8 then fMax t else fInf t) ∧
      (m = 0 → encFloat t md (.fin neg m e) = sign) ∧
      (m ≠ 0 → ∃ w, RoundsTo md (magnitude (fMan t) (fBias t)) (numVal (.fin false m e)) w ∧
        encFloat t md (.fin neg m e) = sign + bounded t md w) := by
  refine ⟨rfl, ?_, fun zero => ?_, fun nz => ?_⟩
  · have inf : encFloat t md (.inf neg) = withSign t neg (if t = 8 then fMax 8 else fInf t) := rfl
    rw [inf, withSign_eq]
    by_cases h8 : t = 8
    · subst h8
      rfl
    · rw [if_neg h8, if_neg h8]
  · simp only [encFloat, zero, if_true, withSign_eq, Nat.add_zero]
  · obtain ⟨w, rounds, value⟩ := encFloat_rounds t md neg e nz
    exact ⟨w, rounds, by rw [value, withSign_eq]⟩

/-- Settles O5: the rows by the kind of their source and their target, as `convertBits_integer` and `convertBits_value` divide them. -/
theorem conversionResults : Obligations.ConversionResults := by
  unfold Obligations.ConversionResults
  refine ⟨fun t v sat md small => ?_, fun f hf => ?_, fun t s v sat md => ?_, fun v n i hi _ => i4Elems_plain_get v hi⟩
  · rw [convertBits_e8 sat md v small]
    cases decNum t v with
    | fin neg m e => exact toE8_fin neg m e
    | nan => rfl
    | inf neg => rfl
  · obtain ⟨-, ex, fr, bias⟩ := format_constants hf
    dsimp only
    simp only [← ex, ← fr, ← bias]
    exact ⟨fun v fits => pattern_values fits, fun md neg m e => pattern_of_value f.1 md neg m e⟩
  · dsimp only
    refine ⟨if_pos rfl, fun ne float => ⟨fun from_ => ?_, fun int => ?_, ?_, ?_⟩,
      fun int => ⟨fun from_ ne => ?_, fun from_ => ?_, ?_⟩⟩
    · rw [convertBits_value sat md v ne (.inl (isFloat_range from_).1), numTo_float md _ float, decNum_float v from_]
    · rw [convertBits_integer sat md v (by omega) ne (by omega), intTo_float sat md _ float]
      rfl
    · rintro rfl
      rw [convertBits_value sat md v ne (.inr ⟨rfl, .inl float⟩), numTo_float md _ float]
      rfl
    · rintro rfl
      rw [convertBits_value sat md v ne (.inl (by decide)), numTo_float md _ float]
      rfl
    · rw [convertBits_integer sat md v from_ ne fun _ => int, intTo_integer sat md _ int]
    · have high := (isFloat_range from_).1
      rw [convertBits_value sat md v (by omega) (.inl high), numTo_integer md _ int, decNum_float v from_]
      cases decFloat s v with
      | fin neg m e => exact floatToInt_rounds t md neg m e
      | nan => rfl
      | inf neg => rfl
    · rintro rfl
      have value : decNum 14 v = if v % 256 = 255 then .nan else .fin false 1 ((v % 256 : Nat) - 127) := rfl
      rw [convertBits_value sat md v (by omega) (.inl (by decide)), numTo_integer md _ int, value]
      split
      · rfl
      · simpa [numVal_pos] using floatToInt_rounds t md false 1 ((v % 256 : Nat) - 127)

end Sys2Proof.Machine
end

section
/-! SUPPORT. Packed elements, block scales and unpacked values (R103, R120, R121, R370, R374, R396). -/

namespace Sys2Proof.Machine

/-! ### One packed element -/

/-- A signed value within its bits is read back. -/
theorem toSigned_ofSigned_byte {z : Int} (low : -128 ≤ z) (high : z ≤ 127) : toSigned 8 (ofSigned 8 z) = z := by
  unfold toSigned ofSigned
  rw [if_neg (by decide)]
  split <;> omega

theorem packElem_nan {t : Nat} (auto : Bool) (md : Mode) (v : Nat) : packElem t 255 auto md v = if t = 0 then 0 else fNan t := if_pos rfl

theorem neg_e8Exp (code : Nat) : -e8Exp code = 127 - code := by
  unfold e8Exp
  omega

theorem packElem_float {t code : Nat} (auto : Bool) (md : Mode) (v : Nat) (scaled : code ≠ 255) (float : t ≠ 0) :
    packElem t code auto md v = encFloat t md (scaleNum (decFloat 10 v) (127 - code)) := by
  rw [packElem, if_neg scaled, neg_e8Exp]
  exact if_neg float

/-- What `pack` stores of a finite element converted to int8: −128 is not given under `.auto` (R120, R370). -/
def packedByte (auto : Bool) (r : Int) : Nat := ofSigned 8 (if auto ∧ r < -127 then -127 else r)

theorem packElem_byte {code : Nat} (auto : Bool) (md : Mode) (v : Nat) (scaled : code ≠ 255) :
    packElem 0 code auto md v = packedByte auto (toSigned 8 (floatToInt 0 md (scaleNum (decFloat 10 v) (127 - code)))) := by
  rw [packElem, if_neg scaled, neg_e8Exp]
  rfl

theorem packedByte_eq (auto : Bool) (z : Int) : packedByte auto (toSigned 8 (ofSigned 8 (max (-128) (min 127 z)))) =
    ofSigned 8 (max (if auto then -127 else -128) (min 127 z)) := by
  rw [toSigned_ofSigned_byte (by omega) (by omega), packedByte]
  congr 1
  cases auto
  · exact if_neg fun h => Bool.false_ne_true h.1
  · simp only [true_and, if_true]
    split <;> omega

/-- A finite element of int8 is its scaled value rounded and clamped. -/
theorem packedByte_rounds (auto : Bool) (md : Mode) (neg : Bool) (m : Nat) (e k : Int) :
    ∃ n, RoundsTo md (fun i => (i : ℚ)) (numVal (.fin false m e) * 2 ^ k) n ∧
      packedByte auto (toSigned 8 (floatToInt 0 md (scaleNum (.fin neg m e) k))) =
        ofSigned 8 (max (if auto then -127 else -128) (min 127 (if neg then -(n : Int) else n))) := by
  obtain ⟨n, rounds, value⟩ := floatToInt_rounds 0 md neg m (e + k)
  refine ⟨n, ?_, ?_⟩
  · rw [numVal_pos, zpow_add₀ two_ne_zero, ← mul_assoc] at rounds
    simpa only [numVal_pos, OfNat.zero_ne_ofNat, if_false, mul_one] using rounds
  · rw [show scaleNum (.fin neg m e) k = .fin neg m (e + k) from rfl, value]
    exact packedByte_eq auto _

/-! ### One element of `pscl` -/

theorem psclElem_nan {t : Nat} (sat : Bool) (md : Mode) (v : Nat) :
    psclElem t 255 sat md v = if isFloat t then fNan t else 0 := if_pos rfl

theorem psclElem_float {t code : Nat} (sat : Bool) (md : Mode) (v : Nat) (scaled : code ≠ 255) (float : isFloat t = true) :
    psclElem t code sat md v = encFloat t md (scaleNum (decFloat t v) (code - 127)) := by
  rw [psclElem, if_neg scaled, if_pos float]
  rfl

theorem psclElem_integer {t code : Nat} (sat : Bool) (md : Mode) (v : Nat) (scaled : code ≠ 255) (int : t ≤ 7) :
    psclElem t code sat md v = encInt t sat (roundInt md (intVal t v < 0) (intVal t v).natAbs (code - 127)) := by
  rw [psclElem, if_neg scaled, isFloat_of_int int]
  rfl

/-- An integer's magnitude times a power of two, rounded, with the integer's sign. -/
theorem roundInt_scaled (md : Mode) (z k : Int) :
    ∃ n, RoundsTo md (fun i => (i : ℚ)) (|(z : ℚ)| * 2 ^ k) n ∧
      roundInt md (z < 0) z.natAbs k = if decide (z < 0) then -(n : Int) else n := by
  obtain ⟨n, rounds, value⟩ := roundInt_rounds md (z < 0) z.natAbs k
  rw [numVal_pos, Nat.cast_natAbs, Int.cast_abs] at rounds
  exact ⟨n, rounds, value⟩

/-! ### The shared scale of a block (R120) -/

/-- A value that is not zero lies between two powers of two. -/
theorem numLog_bounds (neg : Bool) {m : Nat} (e : Int) (nz : m ≠ 0) :
    2 ^ numLog m e ≤ |numVal (.fin neg m e)| ∧ |numVal (.fin neg m e)| < 2 ^ (numLog m e + 1) := by
  have abs : |numVal (.fin neg m e)| = m * 2 ^ e := by
    rw [numVal_sign, abs_mul, numVal_pos, abs_of_nonneg (by positivity : (0 : ℚ) ≤ m * 2 ^ e)]
    cases neg <;> simp
  have low : (2 : ℚ) ^ (Nat.log2 m : Int) ≤ m := by
    rw [zpow_natCast]
    exact_mod_cast Nat.log2_self_le nz
  have high : (m : ℚ) < 2 ^ ((Nat.log2 m : Int) + 1) := by
    have h : (m : ℚ) < 2 ^ (Nat.log2 m + 1) := by exact_mod_cast Nat.lt_log2_self (n := m)
    exact_mod_cast h
  rw [abs, numLog, show (Nat.log2 m : Int) + e + 1 = (Nat.log2 m + 1) + e by ring, zpow_add₀ two_ne_zero, zpow_add₀ two_ne_zero]
  exact ⟨mul_le_mul_of_nonneg_right low (by positivity), mul_lt_mul_of_pos_right high (by positivity)⟩

/-- The greatest of a list, found from the left. -/
theorem foldl_greatest {x top : Int} {xs : List Int} (le : ∀ y ∈ x :: xs, y ≤ top) (mem : top ∈ x :: xs) :
    xs.foldl (fun a b => if a < b then b else a) x = top := by
  induction xs generalizing x with
  | nil => exact (List.mem_singleton.1 mem).symm
  | cons y ys ih =>
    have hx := le x List.mem_cons_self
    have hy := le y (List.mem_cons_of_mem _ List.mem_cons_self)
    rw [List.foldl_cons]
    refine ih (fun z hz => ?_) ?_
    · rcases List.mem_cons.1 hz with rfl | hz
      · split <;> assumption
      · exact le z (List.mem_cons_of_mem _ (List.mem_cons_of_mem _ hz))
    · rcases List.mem_cons.1 mem with rfl | mem
      · rw [if_neg (not_lt.2 hy)]
        exact List.mem_cons_self
      · rcases List.mem_cons.1 mem with rfl | mem
        · split
          · exact List.mem_cons_self
          · next h => rw [show x = top by omega]; exact List.mem_cons_self
        · exact List.mem_cons_of_mem _ mem

/-- The binary logarithms of the elements of a block that are not zero. -/
def blockLogs (xs : List Num) : List Int := xs.filterMap (fun x => match x with
  | .fin _ m e => if m = 0 then none else some (numLog m e)
  | _ => none)

/-- An element is a NaN or an infinity. -/
def unbounded (x : Num) : Bool := match x with
  | .fin .. => false
  | _ => true

theorem unbounded_iff (x : Num) : unbounded x = true ↔ ∀ a m e, x ≠ .fin a m e := by
  cases x with
  | fin a m e => exact ⟨fun h => absurd h Bool.false_ne_true, fun h => absurd rfl (h a m e)⟩
  | nan => exact ⟨fun _ _ _ _ => nofun, fun _ => rfl⟩
  | inf _ => exact ⟨fun _ _ _ _ => nofun, fun _ => rfl⟩

theorem mem_blockLogs {xs : List Num} {l : Int} : l ∈ blockLogs xs ↔ ∃ a m e, .fin a m e ∈ xs ∧ m ≠ 0 ∧ numLog m e = l := by
  unfold blockLogs
  rw [List.mem_filterMap]
  constructor
  · rintro ⟨x, hx, value⟩
    cases x with
    | fin a m e =>
      by_cases zero : m = 0
      · simp [zero] at value
      · exact ⟨a, m, e, hx, zero, by simpa [zero] using value⟩
    | nan => cases value
    | inf _ => cases value
  · rintro ⟨a, m, e, hx, nz, rfl⟩
    exact ⟨_, hx, by simp [nz]⟩

theorem sharedScale_unbounded {t : Nat} {xs : List Num} (h : ∃ x ∈ xs, ∀ a m e, x ≠ .fin a m e) : sharedScale t xs = 255 := by
  obtain ⟨x, hx, apart⟩ := h
  exact if_pos (List.any_eq_true.2 ⟨x, hx, (unbounded_iff x).2 apart⟩)

/-- The scale of a block of finite elements, by the logarithms of those that are not zero. -/
theorem sharedScale_finite {t : Nat} {xs : List Num} (h : ∀ x ∈ xs, ∃ a m e, x = .fin a m e) :
    sharedScale t xs = match blockLogs xs with
      | [] => 0
      | l :: ls =>
        let x := ls.foldl (fun a b => if a < b then b else a) l - packEmax t
        ((if x < -127 then -127 else if 127 < x then 127 else x) + 127).toNat := by
  have none : ¬xs.any unbounded = true := fun any => by
    obtain ⟨x, hx, apart⟩ := List.any_eq_true.1 any
    obtain ⟨a, m, e, value⟩ := h x hx
    exact (unbounded_iff x).1 apart a m e value
  exact if_neg none

theorem sharedScale_zeros {t : Nat} {xs : List Num} (h : ∀ x ∈ xs, IsZero x) : sharedScale t xs = 0 := by
  have empty : blockLogs xs = [] := List.eq_nil_iff_forall_not_mem.2 fun l hl => by
    obtain ⟨a, m, e, hx, nz, -⟩ := mem_blockLogs.1 hl
    obtain ⟨_, _, value⟩ := h _ hx
    injection value with _ zero
    exact nz zero
  have finite : ∀ x ∈ xs, ∃ a m e, x = .fin a m e := fun x hx => by
    obtain ⟨a, e, value⟩ := h x hx
    exact ⟨a, 0, e, value⟩
  rw [sharedScale_finite finite, empty]

theorem packEmax_eq {t : Nat} (ht : t = 0 ∨ t = 8 ∨ t = 9) : packEmax t = if t = 8 then 8 else if t = 9 then 15 else 6 := by
  rcases ht with rfl | rfl | rfl <;> rfl

/-- The scale of a block whose largest magnitude lies between 2^l and 2^(l+1). -/
theorem sharedScale_largest {t : Nat} {xs : List Num} {amax : ℚ} {l : Int} (finite : ∀ x ∈ xs, ∃ a m e, x = .fin a m e)
    (attained : ∃ x ∈ xs, |numVal x| = amax) (most : ∀ x ∈ xs, |numVal x| ≤ amax)
    (low : 2 ^ l ≤ amax) (high : amax < 2 ^ (l + 1)) :
    (sharedScale t xs : Int) = max (-127) (min 127 (l - packEmax t)) + 127 := by
  have le : ∀ y ∈ blockLogs xs, y ≤ l := fun y hy => by
    obtain ⟨a, m, e, hx, nz, rfl⟩ := mem_blockLogs.1 hy
    have := (numLog_bounds a e nz).1.trans_lt ((most _ hx).trans_lt high)
    exact Int.lt_add_one_iff.1 ((zpow_lt_zpow_iff_right₀ one_lt_two).1 this)
  have mem : l ∈ blockLogs xs := by
    obtain ⟨x, hx, size⟩ := attained
    obtain ⟨a, m, e, rfl⟩ := finite x hx
    have pos : (0 : ℚ) < 2 ^ l := by positivity
    have nz : m ≠ 0 := fun zero => by
      rw [zero, numVal_zero, abs_zero] at size
      linarith
    have below : l ≤ numLog m e := by
      have := (low.trans size.ge).trans_lt (numLog_bounds a e nz).2
      exact Int.lt_add_one_iff.1 ((zpow_lt_zpow_iff_right₀ one_lt_two).1 this)
    have : numLog m e ∈ blockLogs xs := mem_blockLogs.2 ⟨a, m, e, hx, nz, rfl⟩
    rwa [le_antisymm (le _ this) below] at this
  rw [sharedScale_finite finite]
  cases logs : blockLogs xs with
  | nil => exact absurd (logs ▸ mem) List.not_mem_nil
  | cons y ys =>
    rw [logs] at le mem
    dsimp only
    rw [foldl_greatest le mem]
    generalize l - packEmax t = x
    have clamp : (if x < -127 then -127 else if 127 < x then 127 else x) = max (-127) (min 127 x) := by
      split
      · omega
      · split <;> omega
    rw [clamp, Int.toNat_of_nonneg (by omega)]

/-! ### Unpacked values (R396) -/

/-- Two elements for each byte, outliers or not. -/
theorem i4Outl_length : ∀ bs : List Nat, (i4Outl bs).length = 2 * bs.length
  | [] => rfl
  | [_] => rfl
  | b :: n :: r => by
    rw [i4Outl]
    have rest := i4Outl_length r
    have next := i4Outl_length (n :: r)
    split
    · simp only [List.length_cons, rest]; omega
    · simp only [List.length_cons] at next ⊢; omega

theorem i4Block_length (outl : Bool) (bs : List Nat) : (i4Block outl bs).length = 2 * bs.length := by
  cases outl
  · rw [i4Block, if_neg Bool.false_ne_true, List.length_flatMap]
    simp [i4Plain, Nat.mul_comm]
  · exact i4Outl_length bs

theorem i4Elems_length (outl : Bool) (v : Vec) (n : Nat) : (i4Elems outl v n).length = n := by
  unfold i4Elems
  rw [List.length_take, List.length_flatMap]
  simp only [i4Block_length, List.length_map, List.length_range, List.map_const', List.sum_replicate, smul_eq_mul]
  omega

/-- The value that `unpk` gives an element by the scale of its block: the scale code 255 stands for NaN. -/
def blockScaled (v : Vec) (i : Nat) (x : Num) : Num :=
  if byteOf v (128 + i / 32) = 0xFF then .nan else scaleNum x (e8Exp (byteOf v (128 + i / 32)))

theorem unpkNum_i4 (outl : Bool) (v : Vec) :
    unpkNum 13 outl v = (i4Elems outl v 128).zipIdx.map (fun e => blockScaled v e.2 (i4Num e.1)) := rfl

theorem unpkNum_bytes {t : Nat} (outl : Bool) (v : Vec) (ne : t ≠ 13) (width : typeWidth t = 8) :
    unpkNum t outl v = (List.range 128).map (fun i => blockScaled v i (decNum t (byteOf v i))) := by
  rw [unpkNum, if_neg ne, if_pos width]
  rfl

theorem unpkNum_wide {t : Nat} (outl : Bool) (v : Vec) (ne : t ≠ 13) (width : typeWidth t ≠ 8) :
    unpkNum t outl v = (List.range 128).map (fun i => if i < typeCount t then decNum t (elem v (typeWidth t) i) else .fin false 0 0) := by
  rw [unpkNum, if_neg ne, if_neg width]

theorem unpkNum_length (t : Nat) (outl : Bool) (v : Vec) : (unpkNum t outl v).length = 128 := by
  by_cases i4 : t = 13
  · subst i4
    rw [unpkNum_i4, List.length_map, List.length_zipIdx, i4Elems_length]
  · by_cases width : typeWidth t = 8
    · rw [unpkNum_bytes outl v i4 width, List.length_map, List.length_range]
    · rw [unpkNum_wide outl v i4 width, List.length_map, List.length_range]

theorem blockScaled_nan {v : Vec} {i : Nat} {x : Num} (code : elem v 8 (128 + i / 32) = 255) : blockScaled v i x = .nan := if_pos code

theorem blockScaled_isScaled {v : Vec} {i : Nat} (x : Num) (code : elem v 8 (128 + i / 32) ≠ 255) :
    IsScaled ((elem v 8 (128 + i / 32) : Int) - 127) x (blockScaled v i x) := by
  rw [blockScaled, if_neg (show byteOf v (128 + i / 32) ≠ 255 from code)]
  exact scaleNum_isScaled _ x

/-- The widths of the types that `unpk` takes. -/
theorem typeWidth_narrow {t : Nat} (small : t ≤ 14) (narrow : typeWidth t ≤ 8) (ne : t ≠ 13) : typeWidth t = 8 := by
  revert t
  decide

/-- What each element unpacks to. -/
theorem unpkNum_value {t i : Nat} (outl : Bool) (v : Vec) (small : t ≤ 14) (hi : i < 128) :
    let code := elem v 8 (128 + i / 32)
    ∃ z, (unpkNum t outl v)[i]? = some z ∧
      (typeWidth t ≤ 8 → code = 255 → z = .nan) ∧
      (typeWidth t = 8 → code ≠ 255 → IsScaled (code - 127) (decNum t (elem v 8 i)) z) ∧
      (t = 13 → code ≠ 255 → ∃ e, (i4Elems outl v 128)[i]? = some e ∧ IsScaled (code - 127) (i4Num e) z) ∧
      (8 < typeWidth t → i < typeCount t → z = decNum t (elem v (typeWidth t) i)) ∧
      (8 < typeWidth t → typeCount t ≤ i → z = .fin false 0 0) := by
  dsimp only
  by_cases i4 : t = 13
  · subst i4
    have there : i < (i4Elems outl v 128).length := by rwa [i4Elems_length]
    refine ⟨blockScaled v i (i4Num (i4Elems outl v 128)[i]), ?_, fun _ code => blockScaled_nan code, fun h => absurd h (by decide),
      fun _ code => ⟨_, List.getElem?_eq_getElem there, blockScaled_isScaled _ code⟩, fun h => absurd h (by decide),
      fun h => absurd h (by decide)⟩
    rw [unpkNum_i4, List.getElem?_map, List.getElem?_zipIdx, List.getElem?_eq_getElem there, Nat.zero_add]
    rfl
  · by_cases width : typeWidth t = 8
    · refine ⟨blockScaled v i (decNum t (byteOf v i)), ?_, fun _ code => blockScaled_nan code, fun _ code => blockScaled_isScaled _ code,
        fun h => absurd h i4, fun h => absurd h (by omega), fun h => absurd h (by omega)⟩
      rw [unpkNum_bytes outl v i4 width, List.getElem?_map, List.getElem?_range hi]
      rfl
    · refine ⟨if i < typeCount t then decNum t (elem v (typeWidth t) i) else .fin false 0 0, ?_,
        fun h => absurd (typeWidth_narrow small h i4) width, fun h => absurd h width, fun h => absurd h i4, fun _ h => if_pos h,
        fun _ h => if_neg (Nat.not_lt.2 h)⟩
      rw [unpkNum_wide outl v i4 width, List.getElem?_map, List.getElem?_range hi]
      rfl

end Sys2Proof.Machine
end

section
/-! SUPPORT. Conversion, packing and block scaling as operations of their slots: one result, and one draw for each element that
draws (R110, R370, R374, R396, R403). -/

namespace Sys2Proof.Machine

/-- A mode other than the reserved one is no cause, nor is any mode for an operation that does not read it (R106, log 10). -/
theorem rndCause_none {c : Ctx} {slot : Nat} {used : Bool} (h : used = true → fmtRnd c.fmt ≠ 3) : rndCause c slot used = none := by
  unfold rndCause
  cases used with
  | false => rfl
  | true => simp [h rfl]

/-- An operation of PX that draws for each of its `n` elements, its scales in a common register (R370, R374). -/
theorem scaled_draws {s : State} {i : Instr} {g d a : BitVec 3} {r : BitVec 5} {q : BitVec 2} {v : Vec} (n : Nat)
    (can : CanIssue s [zReg a, zReg d, commonReg r.toNat] 1) (on : guardOn (me s) g = true) (rnd : fmtRnd (me s).fmt ≠ 3)
    (ex : exec i s = issueSolo i (landOp s 6 g [zReg a, commonReg r.toNat] (zReg d) v fullMask 4 [(r.toNat, q.toNat)] n
      (rndCause (me s) 6 true)) s) (wf : i.wf = true) :
    Completes i s (drawn n s) 6 [⟨.reg (zReg d), v, fullMask, 4, regBad (me s) (zReg a) || regBad (me s) (commonReg r.toNat)⟩] := by
  have done := land_draws _ _ n can on ex wf (fun x hx => by rcases List.mem_pair.1 hx with rfl | rfl <;> simp) (by simp)
    (Nat.le_refl 1) (rndCause_none fun _ => rnd)
  simpa only [anyBad, List.any_cons, List.any_nil, Bool.or_false] using done

/-- The same for one of a single register (R370, R396). -/
theorem unscaled_draws {s : State} {i : Instr} {g d a : BitVec 3} {rs : List Reg} {v : Vec} (n : Nat)
    (can : CanIssue s (zReg a :: zReg d :: rs) 1) (on : guardOn (me s) g = true) (rnd : fmtRnd (me s).fmt ≠ 3)
    (ex : exec i s = issueSolo i (landOp s 6 g [zReg a] (zReg d) v fullMask 4 [] n (rndCause (me s) 6 true)) s) (wf : i.wf = true) :
    Completes i s (drawn n s) 6 [⟨.reg (zReg d), v, fullMask, 4, regBad (me s) (zReg a)⟩] := by
  have done := land_draws _ _ n can on ex wf (fun x hx => by simp [List.mem_singleton.1 hx]) (by simp) (Nat.zero_le 1)
    (rndCause_none fun _ => rnd)
  simpa only [anyBad, List.any_cons, List.any_nil, Bool.or_false] using done

/-- Settles O8: `vcvt` is an operation of one result that draws; which types it takes is `Instr.wf`. -/
theorem vectorConversion : Obligations.VectorConversion := by
  unfold Obligations.VectorConversion
  intro s sl g k d a st t
  dsimp only
  intro t15 t13 st15 rnd can on
  refine land_draws [] _ _ can on rfl ?_ (fun r hr => ?_) (by simp) (Nat.zero_le 1) (rndCause_none rnd)
  · exact decide_eq_true ⟨t15, t13, st15⟩
  · rcases List.mem_append.1 hr with h | h
    · simp [List.mem_singleton.1 h]
    · exact List.mem_append_right _ h

/-- A packed element (R120, R370). -/
theorem packElem_value {t code : Nat} (auto : Bool) (md : Mode) (v : Nat) (ty : t = 0 ∨ t = 8 ∨ t = 9) :
    let r := packElem t code auto md v
    (code = 255 → r = if t = 0 then 0 else if t = 8 then 0x7F else 0x7E) ∧
    (code ≠ 255 → t ≠ 0 → ∃ z, IsScaled (127 - code) (decFloat 10 v) z ∧ r = encFloat t md z) ∧
    (code ≠ 255 → t = 0 → match decFloat 10 v with
      | .nan => r = 0
      | .inf neg => r = if neg then (if auto then 129 else 128) else 127
      | .fin neg m e => ∃ n, RoundsTo md (fun k => (k : ℚ)) (numVal (.fin false m e) * 2 ^ (127 - code : Int)) n ∧
          r = ofSigned 8 (max (if auto then -127 else -128) (min 127 (if neg then -(n : Int) else n)))) := by
  refine ⟨?_, fun scaled float => ⟨_, scaleNum_isScaled _ _, packElem_float auto md v scaled float⟩, ?_⟩
  · rintro rfl
    rw [packElem_nan]
    rcases ty with rfl | rfl | rfl <;> rfl
  · rintro scaled rfl
    rw [packElem_byte auto md v scaled]
    cases decFloat 10 v with
    | nan => cases auto <;> rfl
    | inf neg => cases neg <;> cases auto <;> rfl
    | fin neg m e => exact packedByte_rounds auto md neg m e _

theorem fNan_eq_nanBits {t : Nat} (ty : 10 ≤ t ∧ t ≤ 12) : fNan t = nanBits t := by
  obtain ⟨low, high⟩ := ty
  interval_cases t <;> rfl

/-- An element of `pscl` (R121, R374). -/
theorem psclElem_value {t code : Nat} (sat : Bool) (md : Mode) (v : Nat) (ty : t ≤ 7 ∨ 10 ≤ t ∧ t ≤ 12) :
    let r := psclElem t code sat md v
    (code = 255 → r = if t ≤ 7 then 0 else nanBits t) ∧
    (code ≠ 255 → 10 ≤ t → ∃ z, IsScaled (code - 127) (decFloat t v) z ∧ r = encFloat t md z) ∧
    (code ≠ 255 → t ≤ 7 → ∃ n, RoundsTo md (fun k => (k : ℚ)) (|(intVal t v : ℚ)| * 2 ^ (code - 127 : Int)) n ∧
      let z := if decide (intVal t v < 0) then -(n : Int) else n
      r = ofSigned (typeWidth t) (if sat ∨ t = 7 then max (intLo t) (min (intHi t) z) else z)) := by
  have float : 10 ≤ t → isFloat t = true := fun h => by
    simp only [isFloat, Bool.or_eq_true, beq_iff_eq]
    omega
  refine ⟨?_, fun scaled wide => ⟨_, scaleNum_isScaled _ _, psclElem_float sat md v scaled (float wide)⟩, fun scaled int => ?_⟩
  · rintro rfl
    rw [psclElem_nan]
    rcases ty with int | wide
    · rw [isFloat_of_int int, if_pos int, if_neg Bool.false_ne_true]
    · rw [float wide.1, if_pos rfl, if_neg (by omega), fNan_eq_nanBits wide]
  · obtain ⟨n, rounds, value⟩ := roundInt_scaled md (intVal t v) (code - 127)
    refine ⟨n, rounds, ?_⟩
    rw [psclElem_integer sat md v scaled int, value, encInt_eq, ← apply_ite]

/-- Settles O12: the value of an element by its type, the scale of a block by the logarithms of its elements, and each operation as
one that draws. -/
theorem packResults : Obligations.PackResults := by
  unfold Obligations.PackResults
  refine ⟨fun t code v auto sat md _ => ⟨fun ty => packElem_value auto md v ty, fun ty => psclElem_value sat md v ty⟩,
    fun t xs => ⟨sharedScale_unbounded, sharedScale_zeros, fun amax l finite attained most low high ty => ?_⟩,
    fun t outl v ne small => ⟨unpkNum_length t outl v, fun i hi => unpkNum_value outl v (by omega) hi⟩,
    fun k => ⟨_, _, _, rfl, numVal_numOfInt k⟩, fun s g d a cs q t => ?_⟩
  · rw [← packEmax_eq ty]
    exact sharedScale_largest finite attained most low high
  · dsimp only
    intro rnd can on
    refine ⟨fun ty => ⟨?_, ?_⟩, fun ty => ?_, fun ty => ?_⟩
    · exact scaled_draws _ can on rnd rfl (decide_eq_true ty)
    · exact unscaled_draws _ can on rnd rfl (decide_eq_true ty)
    · exact unscaled_draws _ can on rnd rfl (decide_eq_true ty)
    · exact scaled_draws _ can on rnd rfl ty

end Sys2Proof.Machine
end

section
/-! SUPPORT. The dot-product order of the matrix engine: block values, the two chains, exact sums of products (R122 to R124). -/

namespace Sys2Proof.Machine

/-! ### The value of a block (R122) -/

theorem bounded_le (md : Mode) (w : Nat) : bounded 12 md w ≤ 0x7F800000 := by
  have most : fMax 12 = 0x7F7FFFFF := rfl
  have inf : fInf 12 = 0x7F800000 := rfl
  rw [bounded, most, inf]
  split
  · omega
  · split <;> omega

/-- A block value that is not zero: rounded once, clamped to the largest finite, and zero below the smallest normal. -/
theorem blockValue_rounds (neg : Bool) {n : Nat} (e : Int) (nz : n ≠ 0) :
    ∃ w, RoundsTo rneMode (magnitude 23 127) (numVal (.fin false n e)) w ∧
      blockValue (.fin neg n e) = (if neg then 2 ^ 31 else 0) +
        (if 0x7F7FFFFF < w then 0x7F7FFFFF else if w < 0x00800000 then 0 else w) := by
  obtain ⟨w, rounds, value⟩ := encFloat_rounds 12 rneMode neg e nz
  refine ⟨w, rounds, ?_⟩
  have small := bounded_le rneMode w
  have mag : encFloat 12 rneMode (.fin neg n e) % 2 ^ 31 = bounded 12 rneMode w := by
    rw [value, withSign_eq, show fExp 12 + fMan 12 = 31 from rfl]
    cases neg <;> simp only [Bool.false_eq_true, if_true, if_false] <;> omega
  have shown : blockValue (.fin neg n e) = withSign 12 neg (if 0x7F800000 ≤ encFloat 12 rneMode (.fin neg n e) % 2 ^ 31 then 0x7F7FFFFF
      else if encFloat 12 rneMode (.fin neg n e) % 2 ^ 31 < 0x00800000 then 0 else encFloat 12 rneMode (.fin neg n e) % 2 ^ 31) := if_neg nz
  rw [shown, mag, withSign_eq]
  congr 1
  have value' : bounded 12 rneMode w = if w ≤ 0x7F7FFFFF then w else 0x7F800000 := rfl
  rw [value']
  by_cases fit : w ≤ 0x7F7FFFFF
  · rw [if_pos fit, if_neg (Nat.not_le.2 (Nat.lt_succ_of_le fit)), if_neg (Nat.not_lt.2 fit)]
  · rw [if_neg fit, if_pos le_rfl, if_pos (by omega)]

/-- Every pattern of f32 is of 32 bits. -/
theorem encFloat_lt (md : Mode) (x : Num) : encFloat 12 md x < 2 ^ 32 := by
  cases x with
  | nan => exact (by decide : fNan 12 < 2 ^ 32)
  | inf neg => exact (by decide : ∀ neg, withSign 12 neg (fInf 12) < 2 ^ 32) neg
  | fin neg m e =>
    by_cases zero : m = 0
    · simp only [encFloat, zero, if_true]
      cases neg <;> decide
    · obtain ⟨w, -, value⟩ := encFloat_rounds 12 md neg e zero
      have small := bounded_le md w
      rw [value, withSign_eq, show fExp 12 + fMan 12 = 31 from rfl]
      split <;> omega

/-! ### The two chains (R123) -/

/-- The elements of a list whose places, counted from `k`, are `n` modulo 2. -/
def parity (n k : Nat) (bs : List Nat) : List Nat := ((bs.zipIdx k).filter (fun e => e.2 % 2 = n)).map (·.1)

theorem parity_cons (n k b : Nat) (bs : List Nat) :
    parity n k (b :: bs) = if k % 2 = n then b :: parity n (k + 1) bs else parity n (k + 1) bs := by
  unfold parity
  rw [List.zipIdx_cons, List.filter_cons]
  by_cases here : k % 2 = n <;> simp [here]

/-- The chains are the sums of the even and of the odd places, each in order. -/
theorem chains_eq (bs : List Nat) (k : Nat) (r : Nat × Nat) :
    chains bs (k % 2 == 0) r = ((parity 0 k bs).foldl add32 r.1, (parity 1 k bs).foldl add32 r.2) := by
  induction bs generalizing k r with
  | nil => rfl
  | cons b bs ih =>
    have step := ih (k + 1)
    rcases Nat.mod_two_eq_zero_or_one k with even | odd
    · rw [show ((k + 1) % 2 == 0) = false by simp; omega] at step
      rw [parity_cons, parity_cons, even, if_pos rfl, if_neg (by decide)]
      exact step _
    · rw [show ((k + 1) % 2 == 0) = true by simp; omega] at step
      rw [parity_cons, parity_cons, odd, if_pos rfl, if_neg (by decide)]
      exact step _

theorem chainUpdate_eq (a : Nat) (bs : List Nat) (ov : Bool) :
    chainUpdate a bs ov = add32 ((parity 0 0 bs).foldl add32 (if ov then 0 else a)) ((parity 1 0 bs).foldl add32 0) := by
  rw [chainUpdate, show true = (0 % 2 == 0) from rfl, chains_eq]

theorem chainUpdate_lt (a : Nat) (bs : List Nat) (ov : Bool) : chainUpdate a bs ov < 2 ^ 32 := encFloat_lt ..

/-! ### Exact sums of products (R122) -/

/-- A number that is a NaN or finite: not an infinity. -/
def Tame (x : Num) : Prop := ∀ neg, x ≠ .inf neg

/-- The exact product of the factors of a term, in the order of the model. -/
theorem mulNum_tame {x y : Num} (hx : Tame x) (hy : Tame y) :
    Tame (mulNum x y) ∧ (mulNum x y = .nan ↔ x = .nan ∨ y = .nan) ∧
      (mulNum x y ≠ .nan → numVal (mulNum x y) = numVal x * numVal y) := by
  have product := mulNum_isProduct x y
  match x, y with
  | .nan, _ => exact ⟨nofun, ⟨fun _ => .inl rfl, fun _ => rfl⟩, fun h => absurd rfl h⟩
  | .inf a, _ => exact absurd rfl (hx a)
  | _, .inf b => exact absurd rfl (hy b)
  | .fin .., .nan => exact ⟨nofun, ⟨fun _ => .inr rfl, fun _ => rfl⟩, fun h => absurd rfl h⟩
  | .fin a m e, .fin b n f =>
    obtain ⟨k, g, shape, value⟩ := product
    rw [shape] at value ⊢
    exact ⟨nofun, ⟨nofun, fun h => h.elim nofun nofun⟩, fun _ => value⟩

/-- Tame numbers add to a NaN where one is, else to their exact sum. -/
theorem foldl_addNum_tame {xs : List Num} (tame : ∀ x ∈ xs, Tame x) {acc : Num} (hacc : Tame acc) :
    Tame (xs.foldl addNum acc) ∧ (xs.foldl addNum acc = .nan ↔ acc = .nan ∨ .nan ∈ xs) ∧
      (xs.foldl addNum acc ≠ .nan → numVal (xs.foldl addNum acc) = numVal acc + (xs.map numVal).sum) := by
  induction xs generalizing acc with
  | nil => exact ⟨hacc, by simp, fun _ => by simp⟩
  | cons x xs ih =>
    have step : Tame (addNum acc x) ∧ (addNum acc x = .nan ↔ acc = .nan ∨ x = .nan) ∧
        (addNum acc x ≠ .nan → numVal (addNum acc x) = numVal acc + numVal x) := by
      have sum := addNum_isSum acc x
      have hx := tame x List.mem_cons_self
      match acc, x with
      | .nan, _ => exact ⟨nofun, ⟨fun _ => .inl rfl, fun _ => rfl⟩, fun h => absurd rfl h⟩
      | .inf a, _ => exact absurd rfl (hacc a)
      | _, .inf b => exact absurd rfl (hx b)
      | .fin .., .nan => exact ⟨nofun, ⟨fun _ => .inr rfl, fun _ => rfl⟩, fun h => absurd rfl h⟩
      | .fin a m e, .fin b n f =>
        obtain ⟨c, k, g, shape, value, -⟩ := sum
        rw [shape] at value ⊢
        exact ⟨nofun, ⟨nofun, fun h => h.elim nofun nofun⟩, fun _ => value⟩
    obtain ⟨tame', nan', value'⟩ := step
    obtain ⟨tameAll, nanAll, valueAll⟩ := ih (fun y hy => tame y (List.mem_cons_of_mem _ hy)) tame'
    rw [List.foldl_cons]
    refine ⟨tameAll, ?_, fun h => ?_⟩
    · rw [nanAll, nan', List.mem_cons, or_assoc, eq_comm (a := x)]
    · rw [valueAll h, value' fun e => h (nanAll.2 (.inl e)), List.map_cons, List.sum_cons, add_assoc]

/-- A number that is neither an infinity nor a NaN is finite. -/
theorem Tame.finite {x : Num} (tame : Tame x) (num : x ≠ .nan) : ∃ a m e, x = .fin a m e := by
  cases x with
  | nan => exact absurd rfl num
  | inf neg => exact absurd rfl (tame neg)
  | fin a m e => exact ⟨a, m, e, rfl⟩

/-- The product of the four factors of a term as the engine forms it. -/
def product4 (a w x y : Num) : Num := mulNum (mulNum a w) (mulNum x y)

theorem product4_tame {a w x y : Num} (ha : Tame a) (hw : Tame w) (hx : Tame x) (hy : Tame y) :
    Tame (product4 a w x y) ∧ (product4 a w x y = .nan ↔ .nan ∈ [a, w, x, y]) ∧
      (product4 a w x y ≠ .nan → numVal (product4 a w x y) = ([a, w, x, y].map numVal).prod) := by
  obtain ⟨tl, nl, vl⟩ := mulNum_tame ha hw
  obtain ⟨tr, nr, vr⟩ := mulNum_tame hx hy
  obtain ⟨t, n, v⟩ := mulNum_tame tl tr
  refine ⟨t, ?_, fun h => ?_⟩
  · rw [product4, n, nl, nr]
    simp only [List.mem_cons, List.not_mem_nil, or_false, eq_comm, or_assoc]
  · have parts := not_or.1 (mt n.2 h)
    rw [product4, v h, vl parts.1, vr parts.2]
    simp only [List.map_cons, List.map_nil, List.prod_cons, List.prod_nil, mul_one, mul_assoc]

/-- A sum of products of four factors each, none of them infinite, is the exact one. -/
theorem sumNums_isDot {a w x y : Nat → Num} (n : Nat)
    (tame : ∀ i < n, Tame (a i) ∧ Tame (w i) ∧ Tame (x i) ∧ Tame (y i)) :
    IsDot ((List.range n).map (fun i => [a i, w i, x i, y i]))
      (sumNums ((List.range n).map (fun i => product4 (a i) (w i) (x i) (y i)))) := by
  have each : ∀ i < n, _ := fun i hi => product4_tame (tame i hi).1 (tame i hi).2.1 (tame i hi).2.2.1 (tame i hi).2.2.2
  have terms : ∀ z ∈ (List.range n).map (fun i => product4 (a i) (w i) (x i) (y i)), Tame z := fun z hz => by
    obtain ⟨i, hi, rfl⟩ := List.mem_map.1 hz
    exact (each i (List.mem_range.1 hi)).1
  obtain ⟨t, nan, value⟩ := foldl_addNum_tame terms (acc := .fin false 0 0) nofun
  have where_ : (∃ l ∈ (List.range n).map (fun i => [a i, w i, x i, y i]), Num.nan ∈ l) ↔
      sumNums ((List.range n).map (fun i => product4 (a i) (w i) (x i) (y i))) = .nan := by
    rw [sumNums, nan, or_iff_right (by nofun)]
    simp only [List.mem_map, List.mem_range, exists_exists_and_eq_and]
    exact exists_congr fun i => and_congr_right fun hi => (each i hi).2.1.symm
  unfold IsDot
  split
  · next h => exact where_.1 h
  · next h =>
    have num := mt where_.2 h
    obtain ⟨c, k, g, shape⟩ := t.finite num
    refine ⟨c, k, g, shape, ?_⟩
    rw [sumNums, value num, numVal_zero, zero_add, List.map_map, List.map_map]
    congr 1
    refine List.map_congr_left fun i hi => ?_
    have hi := List.mem_range.1 hi
    exact (each i hi).2.2 fun e => h (where_.2 (nan.2 (.inr (List.mem_map.2 ⟨i, List.mem_range.2 hi, e⟩))))

end Sys2Proof.Machine
end

section
/-! SUPPORT. What `cim`, `smx` and `acz` write of the accumulator, element by element (R122, R140, R154, R389). -/

namespace Sys2Proof.Machine

/-! ### Elements of an accumulator row -/

/-- Bits within the width that a number is cut to. -/
theorem bitsOf_ofNat {v lo n width : Nat} (below : lo + n ≤ width) : bitsOf (BitVec.ofNat width v).toNat lo n = bitsOf v lo n := by
  refine Nat.eq_of_testBit_eq fun i => ?_
  rw [BitVec.toNat_ofNat]
  simp only [bitsOf, Nat.testBit_mod_two_pow, Nat.testBit_div_two_pow]
  by_cases hi : i < n
  · rw [decide_eq_true (by omega : i + lo < width), Bool.true_and]
  · rw [decide_eq_false hi, Bool.false_and, Bool.false_and]

/-- An element of a list packed in order. -/
theorem bitsOf_packList (w : Nat) : ∀ (l : List Nat) (i : Nat), bitsOf (packList w l) (w * i) w = l.getD i 0 % 2 ^ w
  | [], i => by simp [packList, bitsOf]
  | v :: vs, 0 => by
    rw [packList, bitsOf, Nat.mul_zero, Nat.pow_zero, Nat.div_one, Nat.shiftLeft_eq, Nat.add_mul_mod_self_right, Nat.mod_mod]
    rfl
  | v :: vs, i + 1 => by
    have rest := bitsOf_packList w vs i
    rw [bitsOf] at rest ⊢
    rw [packList, Nat.shiftLeft_eq, Nat.mul_succ, Nat.add_comm (w * i), Nat.pow_add, ← Nat.div_div_eq_div_mul,
      Nat.add_mul_div_right _ _ (Nat.two_pow_pos w), Nat.div_eq_of_lt (Nat.mod_lt _ (Nat.two_pow_pos w)), Nat.zero_add, rest]
    rfl

theorem accElem_lt (v : BitVec 8192) (j : Nat) : accElem v j < 2 ^ 32 := Nat.mod_lt _ (Nat.two_pow_pos 32)

/-- Columns replaced read as what they were given, the others as before. -/
theorem accElem_accPut (v : BitVec 8192) (c0 n : Nat) {f : Nat → Nat} (small : ∀ j, f j < 2 ^ 32) {j : Nat} (hj : j < 256) :
    accElem (accPut v c0 n f) j = if c0 ≤ j ∧ j < c0 + n then f (j - c0) else accElem v j := by
  rw [accElem, accPut, bitsOf_ofNat (by omega), bitsOf_packList, List.getD_eq_getElem?_getD, List.getElem?_map,
    List.getElem?_range hj]
  refine Nat.mod_eq_of_lt ?_
  dsimp only [Option.map_some, Option.getD_some]
  split
  · exact small _
  · exact accElem_lt v j

/-- What an operation writes row by row, of each row a block of columns. -/
theorem rows_written {rows c0 n : Nat} {row : Nat → Nat} {acc : Nat → BitVec 8192} {f : Nat → Nat → Nat}
    (small : ∀ i j, f i j < 2 ^ 32) (fits : c0 + n ≤ 256) {i : Nat} (hi : i < rows) :
    ∃ v, ((List.range rows).map (fun i => (row i, accPut (acc (row i)) c0 n (f i))))[i]? = some (row i, v) ∧
      (∀ j, j < n → accElem v (c0 + j) = f i j) ∧
      ∀ j, j < 256 → j < c0 ∨ c0 + n ≤ j → accElem v j = accElem (acc (row i)) j := by
  refine ⟨_, by rw [List.getElem?_map, List.getElem?_range hi]; rfl, fun j hj => ?_, fun j hj out => ?_⟩
  · rw [accElem_accPut _ _ _ (small i) (by omega), if_pos (by omega), Nat.add_sub_cancel_left]
  · rw [accElem_accPut _ _ _ (small i) hj, if_neg (by omega)]

theorem columns_fit (cb : Nat) : cbFirst cb + cbCols cb ≤ 256 := by
  unfold cbFirst cbCols
  split <;> split <;> omega

/-! ### The factors of a `cim` -/

/-- Weight `k` of column `n` of the operation's tile (R103, R129). -/
def weightOf (s : State) (m : MOp) (k n : Nat) : Num :=
  if m.tag.wfmt = 13 then
    i4Num ((i4Elems m.tag.outl (BitVec.ofNat 2048 (rdNat s.mem (m.key + 64 * n) 64)) 128).getD k (.int 0))
  else numOfInt (rdByte s.mem (m.key + 128 * n + k)).toInt

/-- Activation `q` of a row: int8, or plain four-bit (R104, R136). -/
def activationOf (f : BitVec 16) (v : Vec) (q : Nat) : Num :=
  numOfInt (if fmtA f = 13 then toSigned 4 (elem v 4 q) else toSigned 8 (elem v 8 q))

theorem rdBytes_getElem? (m : List Host.Cell) {n : Nat} :
    ∀ (k : Nat) {i : Nat}, i < n → (rdBytes m k n)[i]? = some (rdByte m (k + i)) := by
  induction n with
  | zero => exact fun _ _ h => absurd h (Nat.not_lt_zero _)
  | succ n ih =>
    intro k i hi
    cases i with
    | zero => rfl
    | succ i =>
      rw [rdBytes, List.getElem?_cons_succ, ih (k + 1) (Nat.lt_of_succ_lt_succ hi), Nat.add_right_comm, Nat.add_assoc]

theorem tileCol_getD (s : State) (m : MOp) (n : Nat) {k : Nat} (hk : k < 128) : (tileCol s m n).getD k .nan = weightOf s m k n := by
  unfold tileCol weightOf
  split
  · have there : k < (i4Elems m.tag.outl (BitVec.ofNat 2048 (rdNat s.mem (m.key + 64 * n) 64)) 128).length := by rwa [i4Elems_length]
    simp only [List.getD_eq_getElem?_getD, List.getElem?_map, List.getElem?_eq_getElem there, Option.map_some, Option.getD_some]
  · rw [List.getD_eq_getElem?_getD, List.getElem?_map, rdBytes_getElem? _ _ hk]
    rfl

theorem actElems_getD (f : BitVec 16) (v : Vec) {q : Nat} (hq : q < 128) : (actElems f v).getD q .nan = activationOf f v q := by
  unfold actElems activationOf
  split
  · rw [List.getD_eq_getElem?_getD, List.getElem?_map, i4Elems_plain_get v hq]
    rfl
  · rw [List.getD_eq_getElem?_getD, List.getElem?_map, List.getElem?_range hq]
    rfl

/-- The scale index `n` of the operation's tile (R117). -/
def scaleNibble (s : State) (m : MOp) (n : Nat) : Nat :=
  bitsOf (rdByte s.mem (m.key + (if m.tag.wfmt = 13 then 8192 else 16384) + n / 2)).toNat (4 * (n % 2)) 4

/-- The scale of the weight that row element `q` of block `b` meets in column `j`, through the scale table (R118). -/
def weightScale (s : State) (m : MOp) (table : BitVec 128) (j b q : Nat) : Num :=
  decNum 14 (bitsOf table.toNat (8 * scaleNibble s m (if m.t then 4 * q + j / 32 else 4 * j + b)) 8)

theorem weightScale_eq (s : State) (m : MOp) (table : BitVec 128) (j b q : Nat) :
    (if m.t then wscl s m table (j / 32) q else wscl s m table b j) = weightScale s m table j b q := by
  unfold weightScale
  cases m.t <;> rfl

theorem e8Num_eq (c : Nat) : e8Num c = decNum 14 c := rfl

theorem numOfInt_tame (z : Int) : Tame (numOfInt z) := nofun

theorem i4Num_tame (x : I4) : Tame (i4Num x) := by
  cases x with
  | int z => exact numOfInt_tame z
  | out v =>
    intro neg
    unfold i4Num decFloat
    dsimp only
    split
    · nofun
    · rw [if_neg (fun h => h.1 rfl)]
      split <;> nofun

theorem scale_tame (c : Nat) : Tame (decNum 14 c) := by
  rw [← e8Num_eq]
  unfold e8Num
  split <;> nofun

theorem weightOf_tame (s : State) (m : MOp) (k n : Nat) : Tame (weightOf s m k n) := by
  unfold weightOf
  split
  · exact i4Num_tame _
  · exact numOfInt_tame _

theorem ascl_tame (d : Word) (v : Vec) (b : Nat) : Tame (ascl d v b) := by
  unfold ascl
  split
  · nofun
  · exact scale_tame _

/-- The accumulator row of the core that the operation writes for row `i` of its operand (R137). -/
def writtenRow (s : State) (p : Nat) (m : MOp) (i : Nat) : Nat := accRow (getCtx s p) p (descArow m.desc + i)

/-- A row of the accumulator of a position's core. -/
def accRowOf (s : State) (p r : Nat) : BitVec 8192 := smGet 0 (getCore s (coreOf p)).acc r

/-- What an element of an accumulator row is before the operation. -/
def oldElem (s : State) (p r j : Nat) : Nat := accElem (accRowOf s p r) j

/-! ### `cim` -/

/-- Factor by factor, term `q` of block `b` of column `j` (R122, R140). -/
def cimTerm (s : State) (m : MOp) (table : BitVec 128) (a : Vec) (j b q : Nat) : List Num :=
  [activationOf m.fmt a q, if m.t then weightOf s m j q else weightOf s m q j, ascl m.desc a b, weightScale s m table j b q]

/-- The sum of block `b` of column `j`. -/
def cimSum (s : State) (m : MOp) (table : BitVec 128) (a : Vec) (j b : Nat) : Num :=
  sumNums ((List.range 32).map (fun i => product4 (activationOf m.fmt a (32 * b + i))
    (if m.t then weightOf s m j (32 * b + i) else weightOf s m (32 * b + i) j) (ascl m.desc a b)
    (weightScale s m table j b (32 * b + i))))

theorem cimSum_isDot (s : State) (m : MOp) (table : BitVec 128) (a : Vec) (j b : Nat) :
    IsDot ((List.range 32).map (fun r => cimTerm s m table a j b (32 * b + r))) (cimSum s m table a j b) := by
  refine sumNums_isDot 32 fun i _ => ⟨numOfInt_tame _, ?_, ascl_tame _ _ _, scale_tame _⟩
  split <;> exact weightOf_tame _ _ _ _

/-- An element of `cim`: the blocks that are not skipped, each its exact sum rounded, chained to the old element. -/
theorem cimElem_eq (s : State) (m : MOp) (table : BitVec 128) (a : Vec) (old : Nat) {j : Nat} (hj : j < 128) :
    cimElem m a (actElems m.fmt a) (fun q => ((List.range 128).map (tileCol s m)).getD q []) (wscl s m table) old j =
      chainUpdate old ((List.range 4).map (fun b => if skipped m b then 0 else blockValue (cimSum s m table a j b))) m.ov := by
  have column : ∀ q k, q < 128 → k < 128 →
      (((List.range 128).map (tileCol s m)).getD q []).getD k .nan = weightOf s m k q := fun q k hq hk => by
    rw [List.getD_eq_getElem?_getD (l := (List.range 128).map _), List.getElem?_map, List.getElem?_range hq]
    exact tileCol_getD s m q hk
  refine congrArg (fun l => chainUpdate old l m.ov) (List.map_congr_left fun b hb => ?_)
  have hb := List.mem_range.1 hb
  split
  · rfl
  · refine congrArg (fun l => blockValue (sumNums l)) (List.map_congr_left fun i hi => ?_)
    have hi := List.mem_range.1 hi
    dsimp only
    rw [actElems_getD _ _ (by omega), column _ _ (by omega) hj, column _ _ hj (by omega), weightScale_eq]
    rfl

theorem mopResult_cim {s : State} {p : Nat} {m : MOp} (kind : m.kind = .cim) (table : BitVec 128) :
    mopResult s p m table = (List.range (descRows m.desc)).map (fun i =>
      (writtenRow s p m i, accPut (accRowOf s p (writtenRow s p m i)) (128 * m.cb) 128 (fun j =>
          cimElem m (operandRow s p m.desc m.rowsA i) (actElems m.fmt (operandRow s p m.desc m.rowsA i))
            (fun q => ((List.range 128).map (tileCol s m)).getD q []) (wscl s m table)
            (oldElem s p (writtenRow s p m i) (128 * m.cb + j)) j))) := by
  simp only [mopResult, kind]
  rfl

/-! ### `acz` and `smx` -/

theorem mopResult_acz {s : State} {p : Nat} {m : MOp} (kind : m.kind = .acz) (table : BitVec 128) :
    mopResult s p m table = (List.range (descRows m.desc)).map (fun i =>
      (writtenRow s p m i, accPut (accRowOf s p (writtenRow s p m i)) (cbFirst m.cb) (cbCols m.cb) (fun _ => 0))) := by
  simp only [mopResult, kind]
  rfl

/-- The pattern of B that column `j` of `smx` multiplies with element `k` of a row of A (R389, Table 8-4). -/
def smxOther (s : State) (p : Nat) (m : MOp) (j k : Nat) : Nat :=
  if m.t = false then elem (operandRow s p m.descB m.rowsB j) (typeWidth (fmtW m.fmt)) k
  else if typeWidth (fmtW m.fmt) = 16 ∧ 128 ≤ j then elem (operandRow s p (descSecond m.descB) m.rowsC k) 16 (j - 128)
  else elem (operandRow s p m.descB m.rowsB k) (typeWidth (fmtW m.fmt)) j

/-- The product at place `k` of an element of `smx`. -/
def smxProduct (s : State) (p : Nat) (m : MOp) (a : Vec) (j k : Nat) : Num :=
  mulNum (decFloat (fmtA m.fmt) (elem a (typeWidth (fmtA m.fmt)) k)) (decFloat (fmtW m.fmt) (smxOther s p m j k))

/-- An element of `smx` from its products. -/
def smxChained (s : State) (p : Nat) (m : MOp) (a : Vec) (old j : Nat) : Nat :=
  chainUpdate old ((List.range (smxK m.fmt)).map (fun k => if skipped m (k / 32) then 0 else blockValue (smxProduct s p m a j k))) m.ov

theorem mopResult_smx {s : State} {p : Nat} {m : MOp} (kind : m.kind = .smx) (table : BitVec 128) :
    mopResult s p m table = (List.range (descRows m.desc)).map (fun i =>
      (writtenRow s p m i, accPut (accRowOf s p (writtenRow s p m i)) (cbFirst m.cb) (cbCols m.cb) (fun j =>
        smxChained s p m (operandRow s p m.desc m.rowsA i) (oldElem s p (writtenRow s p m i) (cbFirst m.cb + j)) j))) := by
  have other : ∀ j k, (if !m.t then decFloat (fmtW m.fmt) (elem (operandRow s p m.descB m.rowsB j) (typeWidth (fmtW m.fmt)) k)
      else if typeWidth (fmtW m.fmt) = 16 ∧ 128 ≤ j then
        decFloat (fmtW m.fmt) (elem (operandRow s p (descSecond m.descB) m.rowsC k) 16 (j - 128))
      else decFloat (fmtW m.fmt) (elem (operandRow s p m.descB m.rowsB k) (typeWidth (fmtW m.fmt)) j)) =
      decFloat (fmtW m.fmt) (smxOther s p m j k) := fun j k => by
    unfold smxOther
    cases m.t
    · rfl
    · simp only [Bool.not_true, Bool.false_eq_true, Bool.true_eq_false, if_false]
      split <;> rfl
  simp only [mopResult, kind, smxElem, other]
  rfl

/-! ### The elements as the obligation gives them -/

/-- `acz` writes zeros in the columns of its block (R154). -/
theorem acz_elements {s : State} {p : Nat} {m : MOp} (kind : m.kind = .acz) (table : BitVec 128) {i : Nat}
    (hi : i < descRows m.desc) :
    ∃ v, (mopResult s p m table)[i]? = some (writtenRow s p m i, v) ∧
      (∀ j, j < cbCols m.cb → accElem v (cbFirst m.cb + j) = 0) ∧
      ∀ j, j < 256 → j < cbFirst m.cb ∨ cbFirst m.cb + cbCols m.cb ≤ j →
        accElem v j = oldElem s p (writtenRow s p m i) j := by
  rw [mopResult_acz kind]
  exact rows_written (row := writtenRow s p m) (acc := accRowOf s p)
    (fun _ _ => Nat.two_pow_pos 32) (columns_fit m.cb) hi

/-- `cim` writes, in each column of its block, the chain over four blocks, each skipped or its exact sum of products (R122, R140). -/
theorem cim_elements {s : State} {p : Nat} {m : MOp} (kind : m.kind = .cim) (small : m.cb ≤ 1) (table : BitVec 128) {i : Nat}
    (hi : i < descRows m.desc) :
    let row := writtenRow s p m i
    ∃ v, (mopResult s p m table)[i]? = some (row, v) ∧
      (∀ j, j < 128 → ∃ B : List Nat, B.length = 4 ∧
        accElem v (128 * m.cb + j) = chainUpdate (oldElem s p row (128 * m.cb + j)) B m.ov ∧
        ∀ b, b < 4 → (m.skip.getLsbD b = true → B[b]? = some 0) ∧ (m.skip.getLsbD b = false →
          ∃ z, B[b]? = some (blockValue z) ∧
            IsDot ((List.range 32).map (fun r => cimTerm s m table (operandRow s p m.desc m.rowsA i) j b (32 * b + r))) z)) ∧
      ∀ j, j < 256 → j < 128 * m.cb ∨ 128 * m.cb + 128 ≤ j → accElem v j = oldElem s p row j := by
  obtain ⟨v, there, inside, outside⟩ := rows_written (c0 := 128 * m.cb) (n := 128) (row := writtenRow s p m) (acc := accRowOf s p)
    (f := fun i j => cimElem m (operandRow s p m.desc m.rowsA i) (actElems m.fmt (operandRow s p m.desc m.rowsA i))
      (fun q => ((List.range 128).map (tileCol s m)).getD q []) (wscl s m table)
      (oldElem s p (writtenRow s p m i) (128 * m.cb + j)) j)
    (fun _ _ => chainUpdate_lt ..) (by omega) hi
  refine ⟨v, by rw [mopResult_cim kind]; exact there, fun j hj => ?_, outside⟩
  refine ⟨_, ?_, (inside j hj).trans (cimElem_eq s m table _ _ hj), fun b hb => ?_⟩
  · rw [List.length_map, List.length_range]
  · rw [List.getElem?_map, List.getElem?_range hb]
    refine ⟨fun skip => ?_, fun run => ⟨_, ?_, cimSum_isDot s m table _ j b⟩⟩
    · exact congrArg some (if_pos skip)
    · exact congrArg some (if_neg (ne_true_of_eq_false run))

/-- `smx` writes, in each column of its block, the chain over its products, each skipped or exact (R389). -/
theorem smx_elements {s : State} {p : Nat} {m : MOp} (kind : m.kind = .smx) (table : BitVec 128) {i : Nat}
    (hi : i < descRows m.desc) :
    let row := writtenRow s p m i
    ∃ v, (mopResult s p m table)[i]? = some (row, v) ∧
      (∀ j, j < cbCols m.cb → ∃ B : List Nat, B.length = smxK m.fmt ∧
        accElem v (cbFirst m.cb + j) = chainUpdate (oldElem s p row (cbFirst m.cb + j)) B m.ov ∧
        ∀ k, k < smxK m.fmt → (m.skip.getLsbD (k / 32) = true → B[k]? = some 0) ∧ (m.skip.getLsbD (k / 32) = false →
          ∃ z, B[k]? = some (blockValue z) ∧ IsProduct
            (decFloat (fmtA m.fmt) (elem (operandRow s p m.desc m.rowsA i) (typeWidth (fmtA m.fmt)) k))
            (decFloat (fmtW m.fmt) (smxOther s p m j k)) z)) ∧
      ∀ j, j < 256 → j < cbFirst m.cb ∨ cbFirst m.cb + cbCols m.cb ≤ j → accElem v j = oldElem s p row j := by
  obtain ⟨v, there, inside, outside⟩ := rows_written (row := writtenRow s p m) (acc := accRowOf s p)
    (f := fun i j => smxChained s p m (operandRow s p m.desc m.rowsA i) (oldElem s p (writtenRow s p m i) (cbFirst m.cb + j)) j)
    (fun _ _ => chainUpdate_lt ..) (columns_fit m.cb) hi
  refine ⟨v, by rw [mopResult_smx kind]; exact there, fun j hj => ?_, outside⟩
  refine ⟨_, ?_, inside j hj, fun k hk => ?_⟩
  · rw [List.length_map, List.length_range]
  · rw [List.getElem?_map, List.getElem?_range hk]
    refine ⟨fun skip => ?_, fun run => ⟨_, ?_, mulNum_isProduct ..⟩⟩
    · exact congrArg some (if_pos skip)
    · exact congrArg some (if_neg (ne_true_of_eq_false run))

end Sys2Proof.Machine
end

section
/-! SUPPORT. The matrix engine's own steps: starts, completions, fills, replicas, drains (R139, R147, R148, R155, R156). -/

namespace Sys2Proof.Machine

/-! ### Arrays -/

@[simp] theorem getArr_setArr_self (core a : Nat) (x : Arr) (s : State) : getArr (setArr core a x s) core a = x := by
  simp [getArr, setArr]

theorem getArr_setArr_ne {core a b : Nat} (x : Arr) (s : State) (ne : b ≠ a) : getArr (setArr core a x s) core b = getArr s core b := by
  simp [getArr, setArr, smGet_set_ne _ _ _ ne]

/-- The arrays of a core that has any, and its count of cycles, are as they were. -/
structure KeepsArrays (core : Nat) (s t : State) : Prop where
  keeps : (getCore s core).arrays ≠ [] →
    (getCore t core).arrays = (getCore s core).arrays ∧ (getCore t core).cycle = (getCore s core).cycle

section
variable {core : Nat} {s t u : State}

theorem KeepsArrays.refl (core : Nat) (s : State) : KeepsArrays core s s := ⟨fun _ => ⟨rfl, rfl⟩⟩

theorem KeepsArrays.trans (h : KeepsArrays core s t) (k : KeepsArrays core t u) : KeepsArrays core s u where
  keeps some := by
    obtain ⟨arrays, cycle⟩ := h.keeps some
    obtain ⟨arrays', cycle'⟩ := k.keeps (arrays ▸ some)
    exact ⟨arrays'.trans arrays, cycle'.trans cycle⟩

theorem KeepsArrays.of_cores (h : t.cores = s.cores) : KeepsArrays core s t where
  keeps _ := by
    rw [getCore, h]
    exact ⟨rfl, rfl⟩

theorem KeepsArrays.foldPair {α β : Type} {f : State × β → α → State × β} (h : ∀ z x, KeepsArrays core z.1 (f z x).1)
    (l : List α) (z : State × β) : KeepsArrays core z.1 (l.foldl f z).1 := by
  induction l generalizing z with
  | nil => exact .refl ..
  | cons x l ih => exact (h z x).trans (ih _)

end

/-- A changed value that is not the default is read from the changed table. -/
theorem smGet_smMap_kept {α : Type} [DecidableEq α] {d : α} {f : α → α} (default : f d = d) {m : SMap α} {k : Nat}
    (kept : f (smGet d m k) ≠ d) : smGet d (smMap d (fun _ => f) m) k = f (smGet d m k) := by
  induction m with
  | nil => exact absurd default kept
  | cons e m ih =>
    rw [smMap, List.map_cons, List.filter_cons]
    by_cases here : e.1 = k
    · rw [smGet, if_pos here] at kept ⊢
      rw [if_pos (by simpa using kept), smGet, if_pos here]
    · rw [smGet, if_neg here] at kept ⊢
      have rest := ih kept
      rw [smMap] at rest
      split
      · rw [smGet, if_neg here]
        exact rest
      · exact rest

/-! ### What asking for lines leaves of the arrays -/

theorem leaveL2_keepsArrays (core d line : Nat) (keep : Bool) (s : State) : KeepsArrays core s (leaveL2 d line keep s) := by
  unfold leaveL2
  dsimp only
  split
  · exact .refl ..
  · refine ⟨fun some => ?_⟩
    have cores : ∀ (c : Option (Nat × Nat)) (t : State),
        (if keep then bulkBurst d (line / 4) c .back t else t).cores = t.cores := fun c t => by
      split
      · unfold bulkBurst
        split <;> rfl
      · rfl
    simp only [getCore, cores]
    rw [smGet_smMap_kept rfl]
    · exact ⟨rfl, rfl⟩
    · exact fun e => some (congrArg Core.arrays e)

theorem roomL2_keepsArrays (core d line : Nat) (s : State) : KeepsArrays core s (roomL2 d line s) := by
  unfold roomL2
  split
  · exact leaveL2_keepsArrays ..
  · exact .refl ..

theorem enterL2_keepsArrays (core d line : Nat) (chan : Option (Nat × Nat)) (low : Bool) (s : State) :
    KeepsArrays core s (enterL2 d line chan low s) := by
  unfold enterL2
  split
  · exact .refl ..
  · exact (roomL2_keepsArrays core d line s).trans (.of_cores rfl)

theorem reachLine_keepsArrays (core home : Nat) (w : Word) (key : Nat) (bulk : Bool) (k : Nat) (s : State) :
    KeepsArrays k s (reachLine core home w key bulk s).1 := by
  unfold reachLine
  split
  · exact .refl ..
  · split
    · refine .of_cores ?_
      unfold wantLine
      dsimp only
      split
      · rfl
      · split <;> rfl
    · exact enterL2_keepsArrays ..

theorem lineAsk_keepsArrays (core d : Nat) (w : Word) (key : Nat) (write : Bool) (k : Nat) (s : State) :
    KeepsArrays k s (lineAsk core d w key write s).1 := by
  unfold lineAsk
  dsimp only
  split
  · refine .of_cores ?_
    unfold askRecall
    split <;> rfl
  · split
    · exact .refl ..
    · split
      · exact .refl ..
      · exact reachLine_keepsArrays ..

theorem imageAsk_keepsArrays (core : Nat) (place : Word) (key wfmt k : Nat) (s : State) :
    KeepsArrays k s (imageAsk core place key wfmt s).1 := by
  refine KeepsArrays.foldPair (fun z i => ?_) _ (s, true)
  exact lineAsk_keepsArrays ..

/-- A core with an array that fills has arrays. -/
theorem arrays_of_filling {s : State} {core a : Nat} (fills : (getArr s core a).st = .filling) :
    (getCore s core).arrays ≠ [] := fun none => by
  rw [getArr, none] at fills
  cases fills

theorem getCore_poisonRead (p : Nat) (bad : Bool) (s : State) (k : Nat) : getCore (poisonRead p bad s) k = getCore s k := by
  unfold poisonRead
  split <;> rfl

theorem getCore_poisonFill (core : Nat) (t : Tag) (s : State) (k : Nat) : getCore (poisonFill core t s) k = getCore s k := by
  simp only [poisonFill, List.foldl_cons, List.foldl_nil, getCore_poisonRead, getCore_updCtx]

/-! ### Fills and replicas -/

/-- What a fill of an array asks for, and whether the image is at hand (R148). -/
def arrAsk (s : State) (core a : Nat) : State × Bool :=
  imageAsk core (getArr s core a).place (getArr s core a).key (getArr s core a).tag.wfmt s

/-- Where an array fills, its core's arrays are as they were after its image is asked for. -/
theorem arrAsk_getArr {s : State} {core a : Nat} (fills : (getArr s core a).st = .filling) :
    (∀ i, getArr (arrAsk s core a).1 core i = getArr s core i) ∧
      (getCore (arrAsk s core a).1 core).cycle = (getCore s core).cycle := by
  obtain ⟨arrays, cycle⟩ := (imageAsk_keepsArrays ..).keeps (arrays_of_filling fills)
  exact ⟨fun i => congrArg (smGet arrNone · i) arrays, cycle⟩

/-- What the end of a fill makes of its array, and that it makes nothing of the others. -/
theorem endFill_getArr (core a : Nat) (s : State) :
    getArr (endFill core a s) core a = { getArr s core a with st := .valid, source := none, age := (getCore s core).cycle } ∧
      ∀ i, i ≠ a → getArr (endFill core a s) core i = getArr s core i :=
  ⟨getArr_setArr_self .., fun _ ne => getArr_setArr_ne _ _ ne⟩

section
variable {s : State} {core a : Nat}

theorem doTileFill_waits (fills : (getArr s core a).st = .filling) (own : (getArr s core a).source = none)
    (away : (arrAsk s core a).2 = false) :
    doTileFill core a s = (arrAsk s core a).1 := by
  rw [arrAsk] at away ⊢
  simp [doTileFill, fills, own, away]

theorem doTileFill_ends (fills : (getArr s core a).st = .filling) (own : (getArr s core a).source = none)
    (here : (arrAsk s core a).2 = true)
    (kept : plCache (getArr s core a).place ≠ 2) :
    doTileFill core a s =
      if arrImageBad s core a then setArr core a arrNone (poisonFill core (getArr s core a).tag (arrAsk s core a).1)
      else endFill core a (arrAsk s core a).1 := by
  rw [arrAsk] at here ⊢
  simp [doTileFill, fills, own, here, linesDrop, kept]

/-- A fill with a clean image ends with a Valid array. -/
theorem doTileFill_valid (fills : (getArr s core a).st = .filling) (own : (getArr s core a).source = none)
    (here : (arrAsk s core a).2 = true)
    (kept : plCache (getArr s core a).place ≠ 2) (clean : arrImageBad s core a = false) :
    getArr (doTileFill core a s) core a = { getArr s core a with st := .valid, age := (getCore s core).cycle } ∧
      ∀ i, i ≠ a → getArr (doTileFill core a s) core i = getArr s core i := by
  rw [doTileFill_ends fills own here kept, clean, if_neg Bool.false_ne_true]
  obtain ⟨same, cycle⟩ := arrAsk_getArr fills
  obtain ⟨done, others⟩ := endFill_getArr core a (arrAsk s core a).1
  exact ⟨by rw [done, same, cycle]; dsimp only; rw [own], fun i ne => (others i ne).trans (same i)⟩

/-- One that read poisoned data ends with an Invalid one. -/
theorem doTileFill_invalid (fills : (getArr s core a).st = .filling) (own : (getArr s core a).source = none)
    (here : (arrAsk s core a).2 = true)
    (kept : plCache (getArr s core a).place ≠ 2) (bad : arrImageBad s core a = true) :
    (getArr (doTileFill core a s) core a).st = .invalid ∧
      ∀ i, i ≠ a → getArr (doTileFill core a s) core i = getArr s core i := by
  rw [doTileFill_ends fills own here kept, bad, if_pos rfl]
  refine ⟨congrArg Arr.st (getArr_setArr_self ..), fun i ne => ?_⟩
  rw [getArr_setArr_ne _ _ ne, getArr, getCore_poisonFill]
  exact (arrAsk_getArr fills).1 i

theorem doReplicaEnd_valid {b : Nat} (fills : (getArr s core a).st = .filling) (copy : (getArr s core a).source = some b) :
    getArr (doReplicaEnd core a s) core a = { getArr s core a with st := .valid, source := none, age := (getCore s core).cycle } ∧
      ∀ i, i ≠ a → getArr (doReplicaEnd core a s) core i = getArr s core i := by
  have ends : doReplicaEnd core a s = endFill core a s := by simp [doReplicaEnd, fills, copy]
  rw [ends]
  exact endFill_getArr core a s

theorem doReplicaStart_fills {b : Nat} (there : replicaOf s core a = some b) :
    let t := doReplicaStart core a s
    (getArr t core b).st = .filling ∧ (getArr t core b).tag = (getArr s core a).tag ∧ (getArr t core b).source = some a ∧
      ∀ i, i ≠ b → getArr t core i = getArr s core i := by
  unfold doReplicaStart
  rw [there]
  dsimp only
  rw [getArr_setArr_self]
  refine ⟨?_, ?_, ?_, fun i ne => ?_⟩
  · rw [startFill, getArr_setArr_self]
  · rw [startFill, getArr_setArr_self]
  · rw [startFill, getArr_setArr_self]
  · rw [getArr_setArr_ne _ _ ne, startFill, getArr_setArr_ne _ _ ne]

end

/-! ### Starts and completions -/

section
variable {s : State} {p k : Nat} {m : MOp}

/-- What an operation that may start is. -/
structure Startable (s : State) (p : Nat) (m : MOp) : Prop where
  fresh : m.started = false
  whole : m.lost = false
  tile : tileReady s p m = true

theorem startable_of_ready (at_ : (getCtx s p).mops[k]? = some m) (ready : mopReady s p k = true) : Startable s p m := by
  unfold mopReady at ready
  simp only [at_, Bool.and_eq_true, Bool.not_eq_true'] at ready
  obtain ⟨⟨⟨⟨⟨⟨-, fresh⟩, whole⟩, -⟩, -⟩, tile⟩, -⟩ := ready
  exact ⟨fresh, whole, tile⟩

/-- The array of an operation that may start is not stale. -/
theorem Startable.not_stale (h : Startable s p m) (kind : m.kind = .cim ∨ m.arr = none) :
    (match m.arr with
      | some a => (getArr s (coreOf p) a).st == .stale && (getArr s (coreOf p) a).tag == m.tag && !dropsSoon s (coreOf p) m.tag m.num
      | none => false) = false := by
  cases arr : m.arr with
  | none => rfl
  | some a =>
    have cim : m.kind = .cim := kind.resolve_right (by rw [arr]; nofun)
    have tile := h.tile
    simp only [tileReady, cim, arr, bne_self_eq_false, Bool.false_or, Bool.and_eq_true, beq_iff_eq] at tile
    obtain ⟨⟨valid, -⟩, -⟩ := tile
    simp [valid]

/-- An operation by itself starts where the engine works for its context. -/
theorem doMatrixStart_starts (at_ : (getCtx s p).mops[k]? = some m) (kind : m.kind = .cim ∨ m.arr = none) (plain : m.fallback = false)
    (single : m.cl = false) (runs : engineRuns s p = true) (ready : mopReady s p k = true) : doMatrixStart p k s = startOne p k s := by
  have h := startable_of_ready at_ ready
  have stale := h.not_stale kind
  have alone : startSet s p k = some [(p, k)] := by simp [startSet, at_, single]
  unfold doMatrixStart
  simp only [at_]
  rw [runs, h.fresh, h.whole, plain, alone]
  simp only [Bool.not_true, Bool.or_self, Bool.false_eq_true, if_false, Bool.false_and, List.all_cons, List.all_nil, runs, ready,
    Bool.and_self, if_true, List.foldl_cons, List.foldl_nil]
  exact (if_neg (ne_true_of_eq_false stale)).trans rfl

theorem startOne_mops (at_ : (getCtx s p).mops[k]? = some m) (plain : m.fallback = false) :
    (getCtx (startOne p k s) p).mops = (getCtx s p).mops.set k { m with
      started := true
      begun := (getCore s (coreOf p)).cycle
      result := mopResult s p m (match m.arr with
        | some i => (getArr s (coreOf p) i).table
        | none => m.table)
      bad := m.bad || rowsBad s p m } := by
  unfold startOne
  simp only [at_, plain, Bool.false_eq_true, if_false]
  cases m.arr with
  | none => simp only [getCtx_updCtx_self]
  | some a =>
    simp only [setArr]
    rw [getCtx_updCore, getCtx_updCtx_self]

/-- A position whose operations wait starts none and pushes no row. -/
theorem engine_idle (waits : (getCtx s p).st = .saving ∨ (getCtx s p).st = .restoring ∨ 512 ≤ p) :
    doMatrixStart p k s = s ∧ doDrainPush p k s = s := by
  have idle : engineRuns s p = false := by
    unfold engineRuns
    rcases waits with h | h | h
    · simp [h]
    · simp [h]
    · simp [Nat.not_lt.2 h]
  constructor
  · unfold doMatrixStart
    split
    · rfl
    · simp only [idle, Bool.not_false, Bool.true_or, if_true]
  · unfold doDrainPush
    dsimp only
    split
    · rfl
    · split
      · rfl
      · simp only [idle, Bool.false_and, Bool.false_eq_true, if_false]

/-- A started operation completes: the accumulator takes the columns of its result. -/
theorem doMatrixComplete_lands (low : p < 512) (at_ : (getCtx s p).mops[k]? = some m)
    (kind : m.kind = .cim ∨ m.kind = .smx ∨ m.kind = .acz) (started : m.started = true) (whole : m.lost = false) :
    doMatrixComplete p k s = dropMop p k (landMop (coreOf p) m s) := by
  unfold doMatrixComplete
  simp only [at_, if_neg (Nat.not_le.2 low), whole, Bool.false_eq_true, if_false, started, if_true]
  rcases kind with h | h | h <;> rw [h]

/-! ### Drains -/

/-- The row that a drain pushes next, with its mark (R155, R290). -/
def nextDrained (s : State) (p : Nat) (m : MOp) : QRow :=
  ⟨(drainRows s p m (m.nextRow / rowsPer m)).getD (m.nextRow % rowsPer m) 0,
    (getCore s (coreOf p)).accBad.contains (accRow (getCtx s p) p (descArow m.desc + m.nextRow / rowsPer m))⟩

/-- A drain with room pushes its next row. -/
theorem doDrainPush_pushes {q : Nat} (at_ : (getCtx s p).mops[k]? = some m) (kind : m.kind = .drn) (started : m.started = true)
    (free : m.overflow = 0) (queue : queueOf (getCtx s p) p m.q = some q) (room : (queueRows s p q).length < 64)
    (runs : engineRuns s p = true) :
    let t := doDrainPush p k s
    (∃ r, queueRows t p q = queueRows s p q ++ [r] ∧
      r.row = (drainRows s p m (m.nextRow / rowsPer m)).getD (m.nextRow % rowsPer m) 0) ∧
    (getCtx t p).mops = if m.nextRow + 1 = descRows m.desc * rowsPer m then (getCtx s p).mops.eraseIdx k
      else (getCtx s p).mops.set k { m with nextRow := m.nextRow + 1, waited := 0 } := by
  unfold doDrainPush
  simp only [at_, queue, runs, kind, started, free, show Config.queueEntries = 64 from rfl, room, beq_self_eq_true, Bool.and_self,
    decide_true, if_true]
  split
  · refine ⟨⟨nextDrained s p m, ?_, rfl⟩, ?_⟩
    · simp only [queueRows, dropMop, getCore_updCtx, getCore_updCore_self, smGet_set_self, nextDrained]
    · rw [dropMop, getCtx_updCtx_self]
      rfl
  · refine ⟨⟨nextDrained s p m, ?_, rfl⟩, ?_⟩
    · simp only [queueRows, getCore_updCtx, getCore_updCore_self, smGet_set_self, nextDrained]
    · rw [getCtx_updCtx_self]
      rfl

/-- A drain that has waited too long for a full queue meets its cause. -/
theorem doQueueOverflow_meets {q : Nat} (at_ : (getCtx s p).mops[k]? = some m) (kind : m.kind = .drn) (started : m.started = true)
    (free : m.overflow = 0) (queue : queueOf (getCtx s p) p m.q = some q) (full : 64 ≤ (queueRows s p q).length)
    (awake : (getCtx s p).st = .ready ∨ (getCtx s p).st = .blocked) (long : 4096 ≤ m.waited) :
    (getCtx (doQueueOverflow p k s) p).after = (getCtx s p).after ++ [{ plainCause 7 8 with num := m.q, info := m.gaddr }] := by
  have waits : drainWaits s p m = true := by
    simp [drainWaits, kind, started, free, queue, show Config.queueEntries = 64 from rfl, full]
  have counts : countsWaits (getCtx s p) = true := by
    rcases awake with h | h <;> simp [countsWaits, h]
  unfold doQueueOverflow
  simp only [at_, waits, counts, show Config.drainLimit = 4096 from rfl, long, decide_true, Bool.and_self, if_true]
  rw [getCtx_updCtx_self]

end

/-! ### The obligation -/

/-- What a step leaves of the memory it leaves of every byte. -/
theorem Quiet.sameBytes {s t : State} (h : Quiet s t) : SameBytes s t := fun k => by rw [h.1]

/-- Settles O58: the values by `blockValue_rounds` and the elements of `cim`, `smx` and `acz`; each event by its lemma above. -/
theorem matrixEngine : Obligations.MatrixEngine := by
  unfold Obligations.MatrixEngine
  intro s p k core a b q m
  dsimp only
  refine ⟨⟨rfl, fun neg n e => ⟨?_, fun zero => if_pos zero, fun nz => blockValue_rounds neg e nz⟩⟩,
    fun table => ⟨fun kind _ i hi => acz_elements kind table hi, fun kind small i hi => ?_, fun kind _ i hi => ?_⟩,
    fun at_ kind plain single runs ready => ?_, fun waits => ?_, fun low at_ kind started whole => ?_,
    fun fills own => ⟨fun here kept => ⟨fun clean => ?_, fun bad => ?_⟩, fun away => ?_⟩, fun fills copy => ?_, fun there => ?_,
    fun at_ kind started free queue => ⟨fun room runs => ?_, fun full awake long => ?_⟩⟩
  · exact withSign_eq 12 neg (fInf 12)
  · obtain ⟨v, there, inside, outside⟩ := cim_elements kind small table hi
    refine ⟨v, there, fun j hj => ?_, outside⟩
    obtain ⟨B, length, value, blocks⟩ := inside j hj
    rw [chainUpdate_eq] at value
    exact ⟨B, length, value, blocks⟩
  · obtain ⟨v, there, inside, outside⟩ := smx_elements kind table hi
    refine ⟨v, there, fun j hj => ?_, outside⟩
    obtain ⟨B, length, value, blocks⟩ := inside j hj
    rw [chainUpdate_eq] at value
    exact ⟨B, length, value, blocks⟩
  · refine ⟨_, rfl, (doMatrixStart_quiet p k s).sameBytes, ?_⟩
    rw [doMatrixStart_starts at_ kind plain single runs ready]
    exact startOne_mops at_ plain
  · obtain ⟨start, push⟩ := engine_idle (k := k) waits
    exact ⟨⟨_, rfl, start⟩, ⟨_, rfl, push⟩⟩
  · refine ⟨_, rfl, ?_, (doMatrixComplete_quiet p k s).sameBytes, ?_⟩
    · rw [doMatrixComplete_lands low at_ kind started whole, dropMop, getCtx_updCtx_self]
      rfl
    · rw [doMatrixComplete_lands low at_ kind started whole, dropMop, getCore_updCtx, landMop, getCore_updCore_self]
      rfl
  · exact ⟨_, rfl, doTileFill_valid fills own here kept clean⟩
  · exact ⟨_, rfl, doTileFill_invalid fills own here kept bad⟩
  · refine ⟨_, rfl, ?_⟩
    rw [doTileFill_waits fills own away]
    obtain ⟨same, -⟩ := arrAsk_getArr fills
    exact ⟨same a, fun i _ => same i, (linesAsk_quiet ..).sameBytes⟩
  · exact ⟨_, rfl, doReplicaEnd_valid fills copy⟩
  · exact ⟨_, rfl, doReplicaStart_fills there⟩
  · exact ⟨_, rfl, doDrainPush_pushes at_ kind started free queue room runs⟩
  · exact ⟨_, rfl, _, doQueueOverflow_meets at_ kind started free queue full awake long, rfl, rfl, rfl⟩

end Sys2Proof.Machine
end

section
/-! SUPPORT. FMT and the scale table: operations of the control slot whose one result is for neither a register nor a control
register, four steps on (R105, R106, R346, R381). -/

namespace Sys2Proof.Machine

section
variable {s : State} {g : BitVec 3} {rs : List Reg} {ports : List (Nat × Nat)}

/-- An operation of the control slot with one result of latency 4, as to what frees it of a wait and a cause. -/
theorem cxImage_free {x : Res} (f l : Bool) (can : CanIssue s rs 1) (agree : ∀ a ∈ ports, ∀ b ∈ ports, a.2 = b.2 → a.1 = b.1)
    (reads : ∀ q ∈ ports, commonReg q.1 ∈ rs) (apart : ∀ r, x.dest ≠ .reg r)
    (fmt : f = true → ∀ e, (me s).loops.head? = some e → e.fmtBit = false)
    (scl : l = true → ∀ e, (me s).loops.head? = some e → e.scltBit = false) :
    OpFree s { cxBase (me s) g ports with res := [x], isFmt := f, isScl := l } where
  ports := agree
  fmt h := by cases e : (me s).loops.head? with
    | none => rfl
    | some e' => exact fmt h e' e
  scl h := by cases e : (me s).loops.head? with
    | none => rfl
    | some e' => exact scl h e' e
  mx := nofun
  settled _ := nofun
  cause _ := rfl
  blocks _ := rfl
  reads _ r hr := by
    obtain ⟨q, hq, rfl⟩ := List.mem_map.1 hr
    exact can.free _ (reads q hq)
  ilocks _ _ := nofun
  landing _ _ := nofun
  res _ y hy r e := absurd (List.mem_singleton.1 hy ▸ e) (apart r)
  room _ := can.room

/-- Such an operation completes. -/
theorem cxImage_completes {i : Instr} {x : Res} (f l : Bool) (can : CanIssue s rs 1) (on : guardOn (me s) g = true)
    (ex : exec i s = issueSolo i { cxBase (me s) g ports with res := [x], isFmt := f, isScl := l } s) (wf : i.wf = true)
    (agree : ∀ a ∈ ports, ∀ b ∈ ports, a.2 = b.2 → a.1 = b.1) (reads : ∀ q ∈ ports, commonReg q.1 ∈ rs)
    (apart : ∀ r, x.dest ≠ .reg r) (late : x.lat = 4)
    (fmt : f = true → ∀ e, (me s).loops.head? = some e → e.fmtBit = false)
    (scl : l = true → ∀ e, (me s).loops.head? = some e → e.scltBit = false) : Completes i s s 14 [x] :=
  completes_pure i _ s rs 1 ex wf can (cxImage_free f l can agree reads apart fmt scl) on rfl
    (fun y hy h => absurd h (by rw [List.mem_singleton.1 hy, late]; decide)) rfl rfl (List.nodup_singleton _)

end

/-- Byte n of cL is entry n of the scale table, byte n of cH entry 8 + n (R381). -/
theorem scaleImage_eq (h l : Word) : BitVec.ofNat 2048 (l.toNat + h.toNat * 2 ^ 64) = (h ++ l : BitVec 128).setWidth 2048 := by
  apply BitVec.eq_of_toNat_eq
  have hl := l.isLt
  rw [BitVec.toNat_setWidth, BitVec.toNat_append, BitVec.toNat_ofNat, ← Nat.shiftLeft_add_eq_or_of_lt hl, Nat.shiftLeft_eq, Nat.add_comm]

/-- Settles O26: each is an operation of one result of latency 4, held back only by an earlier write in its iteration. -/
theorem formatWrites : Obligations.FormatWrites := by
  unfold Obligations.FormatWrites
  intro s g i r h l rp hp lp
  dsimp only
  intro on
  refine ⟨fun first => ⟨fun ok can => ?_, fun can => ?_⟩, fun first agree can => ?_⟩
  · exact cxImage_completes (ports := []) true false can on rfl ok nofun nofun nofun rfl (fun _ => first) nofun
  · exact cxImage_completes (ports := [(r.toNat, rp.toNat)]) true false can on rfl rfl
      (fun a ha b hb _ => by rw [List.mem_singleton.1 ha, List.mem_singleton.1 hb])
      (fun q hq => by rw [List.mem_singleton.1 hq]; exact List.mem_singleton_self _) nofun rfl (fun _ => first) nofun
  · have reads : ∀ q ∈ [(h.toNat, hp.toNat), (l.toNat, lp.toNat)], commonReg q.1 ∈ [commonReg h.toNat, commonReg l.toNat] :=
      fun q hq => by rcases List.mem_pair.1 hq with rfl | rfl <;> simp
    have done := cxImage_completes (i := .sclt g hp h lp l) (x := ⟨.scl, BitVec.ofNat 2048 _, fullMask, 4, _⟩)
      false true can on rfl rfl (two_ports_alike agree) reads nofun rfl nofun (fun _ => first)
    rw [scaleImage_eq] at done
    simpa only [me, anyBad, List.any_cons, List.any_nil, Bool.or_false] using done

end Sys2Proof.Machine
end
